-- ==== Sys2Proof/Word.lean ====
section
/-! DEFINITION. The word types of the N7: what the spec treats as bits. -/
namespace Sys2Proof

/-- One byte of any byte-addressed store (00 R2). -/
abbrev Byte := BitVec 8
/-- The 64-bit value of a scalar register (08 R175). -/
abbrev Word := BitVec 64
/-- One 32-bit instruction word, token, panel element or accumulator word. -/
abbrev W32 := BitVec 32
/-- A virtual address of 56 bits (01 R19). -/
abbrev VAddr := BitVec 56
/-- The number of a scalar register, g0 to g31 (08 R175). -/
abbrev Reg := Fin 32

end Sys2Proof
end

