-- ==== Sys2Proof/Syntax.lean ====
section
/-! DEFINITION. The instructions and events of the N7: one constructor of `Instr` per row of the opcode table. -/
namespace Sys2Proof

/-! ## Names the words use -/

/-- The three cores of a tile, in the order L, X, W (01 Table 1.3). -/
inductive CoreId where | l | x | w
  deriving DecidableEq, Repr

/-- The three engines of a tile: numbers 0, 1 and 2 (01 Table 1.3). -/
inductive Engine where | load | matrix | store
  deriving DecidableEq, Repr

/-- A unit of a tile that can wait on the world outside it. -/
inductive Unit6 where
  | core (c : CoreId)
  | engine (e : Engine)
  deriving DecidableEq, Repr

/-- SZ of format M: 1, 2, 4 or 8 bytes (08 R183). -/
inductive Size where | b | h | w | d
  deriving DecidableEq, Repr

/-- The scope codes 0 to 5 (07 Table 7.1). -/
inductive Scope where | tile | cluster | die | module | fabric | host
  deriving DecidableEq, Repr

/-- ORDER of the memory modifier (07 Table 7.2). -/
inductive Order where | relaxed | acquire | release | acqRel
  deriving DecidableEq, Repr

/-- ORDER, SCOPE and CHINT, as `pfx` or `ctl.memdef` gives them (07 R158, R159). -/
structure Modifier where
  order : Order
  scope : Scope
  chint : Fin 4
  deriving DecidableEq, Repr

/-- The ten atomic operations, AOP 0 to 9 (08 R187, 09 Table 9.6). -/
inductive Aop where | add | min | max | minn | maxn | and | or | xor | xchg | cas
  deriving DecidableEq, Repr

/-- An instruction that may follow `pfx` in its unit (08 R194). -/
inductive Prefixed where
  | ld (sz : Size) (sx : Bool) (gd ga : Reg) (disp : BitVec 13)
  | st (sz : Size) (gd ga : Reg) (disp : BitVec 13)
  | ldx (sz : Size) (sx : Bool) (gd ga : Reg) (disp : BitVec 13)
  | stx (sz : Size) (gd ga : Reg) (disp : BitVec 13)
  | ldt (sz : Size) (sx : Bool) (gd ga : Reg) (desc : BitVec 12)
  | stt (sz : Size) (gd ga : Reg) (desc : BitVec 12)
  | dset (ga : Reg) (desc : BitVec 12)
  | dget (ga : Reg) (desc : BitVec 12)
  | sigwait (gd ga gb : Reg)
  | atom (op : Aop) (wide : Bool) (gd ga gb : Reg)
  | atomRemote (op : Aop) (wide : Bool) (gd ga gb : Reg)
  | atomTensor (op : Aop) (wide : Bool) (gd ga gb : Reg) (desc : BitVec 7)
  deriving DecidableEq, Repr

/-- A panel operand field: P, DIR and IDX (08 R185). -/
structure VOpnd where
  p : Fin 32
  dir : Fin 4
  idx : Fin 16
  deriving DecidableEq, Repr

/-- The fields of a format V instruction beside VOP (08 Table 8.5). -/
structure VFields where
  km : Fin 8
  vd : VOpnd
  va : VOpnd
  vb : VOpnd
  vc : VOpnd
  rm : Fin 16
  deriving DecidableEq, Repr

/-- Four values, one for each loop index i0 to i3 (12 R290). -/
structure Quad (α : Type) where
  q0 : α
  q1 : α
  q2 : α
  q3 : α
  deriving DecidableEq, Repr

/-- The fields of a 16-word record beside its operation code (12 R284, R286). -/
structure Rec where
  prio : BitVec 4
  detach : Bool
  det : Bool
  stamp : Bool
  cq : BitVec 5
  tok : BitVec 3
  epi : Bool
  chain : Bool
  accsat : Bool
  prof : BitVec 2
  trip : Quad (BitVec 16)
  sa : Quad (BitVec 24)
  sb : Quad (BitVec 24)
  sd : Quad (BitVec 24)
  ha : BitVec 16
  hb : BitVec 16
  /-- Word 13 bit 31, reserved: checked at issue (R289 step 2). -/
  rsv13 : Bool
  ed : Bool
  eb : Bool
  ea : Bool
  fd : Fin 16
  fb : Fin 16
  fa : Fin 16
  hd : BitVec 16
  w14 : BitVec 32
  rm : BitVec 4
  cpay : BitVec 28
  deriving DecidableEq, Repr

/-! ## What an event's operands name -/

/-- A module tile index (01 R12). -/
abbrev TileId := Fin 256
/-- A partition number (01 R15). -/
abbrev PartId := Fin 16
/-- A compute die (01 R11). -/
abbrev DieId := Fin 4

/-- A ring: ring k of a partition (19 Table 19.3) or the module's admin ring (Table 19.2). -/
inductive RingId where
  | part (p : PartId) (k : Fin 16)
  | admin
  deriving DecidableEq, Repr

/-- What a packet of the Cousk command set carries besides its operands (19 Table 19.5). -/
structure PktCtx where
  ring : RingId
  notify : Bool
  tag : W32
  deriving DecidableEq, Repr

/-- A unit of a tile that waits on the fabric, and the module that answers it or stays silent. -/
structure FabUnit where
  unit : Unit6
  module : BitVec 10
  deriving DecidableEq, Repr

/-- A fault as another module returns it: its code and its DETAIL (13 R334, R337; 18 R420). -/
structure FabFault where
  code : BitVec 8
  detail : Word
  deriving DecidableEq, Repr

/-- An answer of a far home to a request: done, with the bytes at the module's offsets that others have written since this module last
heard of them (the answer's data, where the request reads them), or a fault (13 R334, R337). -/
inductive FabAnswer where
  | ok (held : List (BitVec 46 × BitVec 8))
  | fault (f : FabFault)
  deriving DecidableEq, Repr

/-- A request that arrives at this module from the fabric (13 R333, R334): bytes with the mask of the bits that each writes (13
R327), a signal, an atomic (07 R165), or a write of a doubleword of the group table by firmware of another module (19 R455). -/
inductive FabReq where
  | read (len : Nat)
  | write (bytes : List (Byte × Byte))
  | signal (set : Bool) (arg : Word)
  | rmw (op : Aop) (wide : Bool) (x expected : Word)
  | group (n : BitVec 12) (dw : Nat) (v : Word)
  deriving DecidableEq, Repr

/-- Who writes a hub, card or tile register (19 R435, R436). -/
inductive RegWriter where | host | firmware
  deriving DecidableEq, Repr

/-- A 32-bit word of an array that SECDED protects (18 R429, R431): a half of register n of a core, or of hidden register n of a frame that
a core holds, element e of a panel, word w of a mask, a word of the accumulators, of the scale memory or of the planes (log 24), a token,
a word of the save engine's buffer, and word w of the record of the i-th operation that an engine holds. -/
inductive EccArray where
  | scratchpad (off : Nat)
  | gReg (c : CoreId) (n : Nat) (high : Bool)
  | hidden (c : CoreId) (frame n : Nat) (high : Bool)
  | panel (p : Nat) (e : Nat)
  | mask (k w : Nat)
  | acc (i : Nat)
  | scale (off : Nat)
  | plane (i : Nat)
  | token (q : Fin 16) (i : Nat)
  | hbm (pa : Nat)
  | saveBuffer
  | record (e : Engine) (i w : Nat)
  deriving DecidableEq, Repr

/-- The address space of a walk (18 R409): a partition's own space, or its export space. -/
inductive Root where | own | exported
  deriving DecidableEq, Repr

/-- The kind of an access for translation (18 R411). -/
inductive Access where | read | write | atomic | fetch
  deriving DecidableEq, Repr

/-- Why fabric ports can no longer reach a module (13 R335, R337): those of one die lost their route (01 R28), or the module is in
reset or not ready. -/
inductive PeerLoss where | route (die : DieId) | reset | notReady
  deriving DecidableEq, Repr

/-- The leaf that each unit's counted cycle goes to, as the cycle's own work decides it (20 Table 20.4). -/
structure CycleLeaves where
  l : Fin 10
  x : Fin 10
  w : Fin 10
  le : Fin 6
  me : Fin 6
  se : Fin 6
  deriving DecidableEq, Repr

/-- One row of the opcode table: an instruction of a core, a record, or an event of another agent. -/
inductive Instr where
  -- register to register (09 R203, R204, R205)
  | add (gd ga gb : Reg)
  | sub (gd ga gb : Reg)
  | mul (gd ga gb : Reg)
  | mulh (gd ga gb : Reg)
  | mulhn (gd ga gb : Reg)
  | div (gd ga gb : Reg)
  | divn (gd ga gb : Reg)
  | rem (gd ga gb : Reg)
  | remn (gd ga gb : Reg)
  | and (gd ga gb : Reg)
  | or (gd ga gb : Reg)
  | xor (gd ga gb : Reg)
  | andn (gd ga gb : Reg)
  | shl (gd ga gb : Reg)
  | shr (gd ga gb : Reg)
  | sra (gd ga gb : Reg)
  | rotl (gd ga gb : Reg)
  | min (gd ga gb : Reg)
  | max (gd ga gb : Reg)
  | minn (gd ga gb : Reg)
  | maxn (gd ga gb : Reg)
  | slt (gd ga gb : Reg)
  | sltn (gd ga gb : Reg)
  | seq (gd ga gb : Reg)
  | clz (gd ga : Reg)
  | ctz (gd ga : Reg)
  | popc (gd ga : Reg)
  -- immediates (09 R206, R207)
  | addi (gd ga : Reg) (imm : BitVec 16)
  | andi (gd ga : Reg) (imm : BitVec 16)
  | ori (gd ga : Reg) (imm : BitVec 16)
  | xori (gd ga : Reg) (imm : BitVec 16)
  | shli (gd ga : Reg) (imm : BitVec 6)
  | shri (gd ga : Reg) (imm : BitVec 6)
  | srai (gd ga : Reg) (imm : BitVec 6)
  | slti (gd ga : Reg) (imm : BitVec 16)
  | li (gd : Reg) (imm : BitVec 21)
  | lih (gd : Reg) (imm : BitVec 21)
  | madd (gd ga gb gc : Reg)
  | bext (gd ga : Reg) (pos : BitVec 6) (lenM1 : BitVec 6)
  | bins (gd ga : Reg) (pos : BitVec 6) (lenM1 : BitVec 6)
  | sext (gd ga : Reg) (lenM1 : BitVec 6)
  | zext (gd ga : Reg) (lenM1 : BitVec 6)
  -- control flow (09 R209 to R213)
  | beq (ga gb : Reg) (disp : BitVec 16)
  | bne (ga gb : Reg) (disp : BitVec 16)
  | blt (ga gb : Reg) (disp : BitVec 16)
  | bge (ga gb : Reg) (disp : BitVec 16)
  | bltn (ga gb : Reg) (disp : BitVec 16)
  | bgen (ga gb : Reg) (disp : BitVec 16)
  | loop (ga : Reg) (disp : BitVec 16)
  | jr (ga : Reg)
  | ret
  | call (frame : Fin 21) (disp : BitVec 21)
  | b (disp : BitVec 21)
  -- scratchpad, tensor access, layout records (09 R214 to R223)
  | ld (sz : Size) (sx : Bool) (gd ga : Reg) (disp : BitVec 13)
  | st (sz : Size) (gd ga : Reg) (disp : BitVec 13)
  | ldx (sz : Size) (sx : Bool) (gd ga : Reg) (disp : BitVec 13)
  | stx (sz : Size) (gd ga : Reg) (disp : BitVec 13)
  | ldt (sz : Size) (sx : Bool) (gd ga : Reg) (desc : BitVec 12)
  | stt (sz : Size) (gd ga : Reg) (desc : BitVec 12)
  | dset (ga : Reg) (desc : BitVec 12)
  | dget (ga : Reg) (desc : BitVec 12)
  | probe (write : Bool) (gd ga : Reg) (desc : BitVec 12)
  -- atomics (09 R224 to R227)
  | aadd (wide : Bool) (gd ga gb : Reg)
  | amin (wide : Bool) (gd ga gb : Reg)
  | amax (wide : Bool) (gd ga gb : Reg)
  | aminn (wide : Bool) (gd ga gb : Reg)
  | amaxn (wide : Bool) (gd ga gb : Reg)
  | aand (wide : Bool) (gd ga gb : Reg)
  | aor (wide : Bool) (gd ga gb : Reg)
  | axor (wide : Bool) (gd ga gb : Reg)
  | axchg (wide : Bool) (gd ga gb : Reg)
  | acas (wide : Bool) (gd ga gb : Reg)
  | aaddRemote (wide : Bool) (gd ga gb : Reg)
  | aminRemote (wide : Bool) (gd ga gb : Reg)
  | amaxRemote (wide : Bool) (gd ga gb : Reg)
  | aminnRemote (wide : Bool) (gd ga gb : Reg)
  | amaxnRemote (wide : Bool) (gd ga gb : Reg)
  | aandRemote (wide : Bool) (gd ga gb : Reg)
  | aorRemote (wide : Bool) (gd ga gb : Reg)
  | axorRemote (wide : Bool) (gd ga gb : Reg)
  | axchgRemote (wide : Bool) (gd ga gb : Reg)
  | acasRemote (wide : Bool) (gd ga gb : Reg)
  | aaddTensor (wide : Bool) (gd ga gb : Reg) (desc : BitVec 7)
  | aminTensor (wide : Bool) (gd ga gb : Reg) (desc : BitVec 7)
  | amaxTensor (wide : Bool) (gd ga gb : Reg) (desc : BitVec 7)
  | aminnTensor (wide : Bool) (gd ga gb : Reg) (desc : BitVec 7)
  | amaxnTensor (wide : Bool) (gd ga gb : Reg) (desc : BitVec 7)
  | aandTensor (wide : Bool) (gd ga gb : Reg) (desc : BitVec 7)
  | aorTensor (wide : Bool) (gd ga gb : Reg) (desc : BitVec 7)
  | axorTensor (wide : Bool) (gd ga gb : Reg) (desc : BitVec 7)
  | axchgTensor (wide : Bool) (gd ga gb : Reg) (desc : BitVec 7)
  | acasTensor (wide : Bool) (gd ga gb : Reg) (desc : BitVec 7)
  -- modifier, fence, cells, tokens, barriers (08 R193, 10 R229 to R238)
  | pfx (m : Modifier) (second : W32)
  | fence (scope : Scope)
  | acqx (ga : Reg)
  | acqs (ga : Reg)
  | rel (ga : Reg)
  | bind (ga gb : Reg)
  | unbind (ga gb : Reg)
  | sigwait (gd ga gb : Reg)
  | qpush (q : Fin 16) (gs : Reg)
  | qpop (gd : Reg) (q : Fin 16)
  | qtry (gd : Reg) (q : Fin 16)
  | qpeek (gd : Reg) (q : Fin 16)
  | qcnt (gd : Reg) (q : Fin 16)
  | qpushx (gs : Reg) (q : Fin 16) (gr : Reg)
  | barset (bar : Fin 24) (ga : Reg)
  | barv (bar : Fin 24)
  | barw (bar : Fin 24)
  | bart (gd : Reg) (bar : Fin 24)
  | barws (gd : Reg) (bar : Fin 24) (ga : Reg)
  -- operations, system (10 R239 to R256)
  | opwait (gd ga : Reg)
  | opcancel (ga : Reg)
  | optest (gd ga : Reg)
  | opprio (ga gb : Reg)
  | opdetach (ga : Reg)
  | launch (ga : Reg)
  | exit
  | brk
  | publish
  | fmtset (f : Fin 16) (ga : Reg)
  | fmtget (gd : Reg) (f : Fin 16)
  | rdsc (gd : Reg)
  | rndkLo (gd ga gb : Reg)
  | rndkHi (gd ga gb : Reg)
  | trap (n : Fin 16)
  | ctlrd (gd : Reg) (index : BitVec 12)
  | ctlwr (index : BitVec 12) (ga : Reg)
  -- the steps of a `ctlwr` to one register (05 R112, 08 R178, 20 R473, R474)
  | pondWrite (p : Fin 16) (ga : Reg)
  | spillWrite (ga : Reg)
  | perfClear (ga : Reg)
  | perfFreeze (ga : Reg)
  | yield (disp : BitVec 21)
  -- a unit that is no instruction, a unit that cannot be fetched (08 R187, R195)
  | illegalInstructionWord (w0 : W32) (w1 : Option W32)
  | instructionFetchFault (page : VAddr) (straddle : Bool) (absent : Bool)
  -- vector (11)
  | vadd (f : VFields)
  | vsub (f : VFields)
  | vmul (f : VFields)
  | vfma (f : VFields)
  | vfms (f : VFields)
  | vfnma (f : VFields)
  | vmin (f : VFields)
  | vmax (f : VFields)
  | vabs (f : VFields)
  | vneg (f : VFields)
  | vrcp (f : VFields)
  | vrsq (f : VFields)
  | vsqrt (f : VFields)
  | vdiv (f : VFields)
  | vexp2 (f : VFields)
  | vlog2 (f : VFields)
  | vcmp (f : VFields)
  | vsel (f : VFields)
  | vand (f : VFields)
  | vor (f : VFields)
  | vxor (f : VFields)
  | vshl (f : VFields)
  | vshr (f : VFields)
  | vsra (f : VFields)
  | viadd (f : VFields)
  | visub (f : VFields)
  | vimul (f : VFields)
  | vcvt (f : VFields)
  | vbcast (f : VFields)
  | vbcastRows (f : VFields)
  | vbcastCols (f : VFields)
  | vmov (f : VFields)
  | vmovToG (f : VFields)
  | vmovFromG (f : VFields)
  | vld (f : VFields)
  | vst (f : VFields)
  | vred (f : VFields)
  | vscan (f : VFields)
  | vperm (f : VFields)
  | vtrans (f : VFields)
  | vrng (f : VFields)
  | vidx (f : VFields)
  | kand (f : VFields)
  | kor (f : VFields)
  | knot (f : VFields)
  | kpop (f : VFields)
  -- records (12, 13)
  | tload (r : Rec)
  | tgather (r : Rec)
  | sload (r : Rec)
  | xpull (r : Rec)
  | fill (r : Rec)
  | mcred (r : Rec)
  | rload (r : Rec)
  | wload (r : Rec)
  | wswap (r : Rec)
  | mma (r : Rec)
  | mmas (r : Rec)
  | mdrain (r : Rec)
  | mdrainDirect (r : Rec)
  | mzero (r : Rec)
  | mchain (r : Rec)
  | mcopy (r : Rec)
  | tstore (r : Rec)
  | tscatter (r : Rec)
  | tred (r : Rec)
  | rstore (r : Rec)
  | rsig (r : Rec)
  | xpush (r : Rec)
  -- events of cores and engines (02, 06, 10, 12)
  | recordAccept (t : TileId) (c : CoreId)
  | blockedInstructionRetry (t : TileId) (c : CoreId)
  | operationStart (t : TileId) (e : Engine)
  | engineIteration (t : TileId) (e : Engine)
  | tokenPendingAppend (t : TileId) (e : Engine)
  | queuedCancelComplete (t : TileId) (e : Engine)
  | stampExpiry (t : TileId) (e : Engine)
  | mchainRendezvous (t : TileId)
  | gangTokenAccept (t : TileId) (q : Fin 16)
  | barrierArrival (t : TileId) (bar : Fin 24)
  | barwWake (t : TileId) (c : CoreId)
  | sigwaitTimeout (t : TileId) (c : CoreId)
  | localDeadlock (t : TileId)
  | gangDeadlock (p : PartId) (node : VAddr)
  -- pre-emption, freeze, resume, start (02 R53 to R56, 06 R146, 17 R399, 18 R422 to R428)
  | preemptRequest (t : TileId)
  | preemptDeadline (t : TileId)
  | tileSave (t : TileId)
  | saveComplete (t : TileId)
  | saveLimitExpiry (t : TileId)
  | tileFreeze (t : TileId)
  | firmwareResolve (t : TileId)
  | tileResume (t : TileId)
  | gangRestore (t : TileId)
  | tileWakeBegin (t : TileId)
  | tileWakeComplete (t : TileId)
  | gangRelease (p : PartId) (node : VAddr)
  | tileClockGate (t : TileId)
  -- fabric, remote scratchpad, translation (13, 18)
  | fabricResponse (t : TileId) (u : FabUnit) (ans : FabAnswer)
  | fabricTimeout (t : TileId) (u : FabUnit)
  | postedFailure (t : TileId) (module : BitVec 10) (f : FabFault)
  | fabricRequestArrival (die : DieId) (tag : BitVec 16) (offset : BitVec 46) (req : FabReq)
  | signalPerform (t : TileId) (module : BitVec 10)
  | remoteScratchAccess (t : TileId) (c : CoreId)
  | pageWalk (die : DieId) (p : PartId) (root : Root) (va : VAddr) (acc : Access)
  | shootDown (p : PartId) (root : Root) (va : VAddr) (len : Nat) (dies : BitVec 4)
  -- graph scheduler (17)
  | nodeRetirement (p : PartId) (node : VAddr)
  | nodeFiring (p : PartId) (node : VAddr)
  | faultReport (t : TileId)
  | attemptEnd (p : PartId) (node : VAddr)
  | preemptionDecision (p : PartId)
  | placement (p : PartId) (node : VAddr) (picks : List Nat)
  | reservationReply (p : PartId) (node : VAddr) (refused : BitVec 4)
  | coneWalkStep (p : PartId)
  | nodeAgeing (p : PartId) (node : VAddr)
  | backfillLimit (p : PartId)
  -- rings and packets (19 R440 to R454, R491)
  | ringDoorbell (r : RingId) (w : Word)
  | ringStart (r : RingId)
  | ringResume (r : RingId)
  | ringStop (r : RingId)
  | packetAccept (r : RingId)
  | packetReread (r : RingId)
  | packetStart (r : RingId)
  | nop (p : PartId) (k : PktCtx)
  | submitNode (p : PartId) (k : PktCtx) (node : Word)
  | submitGraph (p : PartId) (k : PktCtx) (graph : Word)
  | cancelNode (p : PartId) (k : PktCtx) (node : Word)
  | abortGraph (p : PartId) (k : PktCtx) (graph : Word)
  | map (p : PartId) (k : PktCtx) (addr len frame flags : Word)
  | unmap (p : PartId) (k : PktCtx) (addr len : Word)
  | discard (p : PartId) (k : PktCtx) (addr len : Word)
  | groupSet (p : PartId) (k : PktCtx) (group g list : Word)
  | groupBind (p : PartId) (k : PktCtx) (group : Word)
  | groupUnbind (p : PartId) (k : PktCtx) (group : Word)
  | exportPages (p : PartId) (k : PktCtx) (offset len addr flags : Word)
  | unexportPages (p : PartId) (k : PktCtx) (offset len : Word)
  | partCreate (k : PktCtx) (p clusters base len tag : Word)
  | partReset (k : PktCtx) (p : Word)
  | partDestroy (k : PktCtx) (p : Word)
  | loadImage (k : PktCtx) (addr len : Word)
  -- host, link, power, bring-up, registers (19)
  | eventHeadWrite (p : Option PartId) (head : Word)
  | apertureRead (p : PartId) (addr : VAddr) (len : Nat)
  | apertureWrite (p : PartId) (addr : VAddr) (bytes : List Byte)
  | hostReadTimeout (t : TileId) (u : Unit6)
  | linkPortFailure (port : Fin 2)
  | linkPortRecovery (port : Fin 2)
  | powerClamp
  | fabidWrite (v : Word)
  | powerOnReset
  | fabricTraining
  | scrub (t : TileId) (off : Nat)
  | bankRetirement (t : TileId) (bank : Fin 32)
  | registerWrite (who : RegWriter) (pa : BitVec 40) (v : Word)
  -- attestation (19 R463)
  | getVersion
  | getCapabilities
  | negotiateAlgorithms (asym hash : W32)
  | getDigests
  | getCertificate (slot : Byte) (offset len : BitVec 16)
  | challenge (slot : Byte) (nonce : List Byte)
  | getMeasurements (index : Byte) (nonce : List Byte)
  | spdmUnsupportedRequest (code : Byte)
  -- debug, hash, trace (20)
  | debugStop (p : PartId) (markq : Fin 32) (cutid : BitVec 28)
  | debugResume (p : PartId)
  | debugRelease (p : PartId)
  | debugStopComplete (p : PartId) (node : VAddr)
  | hashRequest (p : PartId)
  | hashUpdate (p : PartId)
  | traceMarker (t : TileId)
  | traceHeadPoll (t : TileId)
  -- time, errors, loss of a route (01 R23, R24, 18 R429, 20 R474)
  | seicheTick
  | countedCycle (t : TileId) (leaves : CycleLeaves)
  | thermalLimit (mhz : BitVec 12)
  | softError (t : TileId) (where_ : EccArray) (correctable : Bool)
  | fabricRouteLoss (module : BitVec 10) (why : PeerLoss)
  | hostWindowReadCompletion (t : TileId) (u : Unit6)
  deriving DecidableEq, Repr

end Sys2Proof
end

