-- ==== Sys2Proof/Machine/Bits.lean ====
section
/-! DEFINITION. Bit fields, sign extension, codes of the small fields: shared by the decoder and the machine. -/
namespace Sys2Proof

/-- Bits [lo + n - 1 : lo] of `w`, numbered from 0 at the least significant (00 R1). -/
def field (w lo n : Nat) : Nat := w / 2 ^ lo % 2 ^ n

/-- Bit `i` of `w`. -/
def bit (w i : Nat) : Bool := decide (field w i 1 = 1)

/-- A Bool as a bit. -/
def b2n (b : Bool) : Nat := if b then 1 else 0

/-- `w` with its bits [lo + n - 1 : lo] replaced by those of `v`. -/
def setField (w lo n v : Nat) : Nat :=
  w - field w lo n * 2 ^ lo + (v % 2 ^ n) * 2 ^ lo

/-- The two's-complement value of the low `n` bits of `v`. -/
def sInt (n v : Nat) : Int :=
  if 2 * (v % 2 ^ n) < 2 ^ n then (v % 2 ^ n : Nat) else (v % 2 ^ n : Nat) - (2 ^ n : Nat)

/-- The number of the low `n` bits of an integer's two's complement. -/
def uMod (n : Nat) (i : Int) : Nat := (i % (2 ^ n : Nat)).toNat

/-- The sum of `a` and `i` modulo 2^n. -/
def addMod (n a : Nat) (i : Int) : Nat := uMod n (a + i)

/-- ceil(a / b). -/
def ceilDiv (a b : Nat) : Nat := (a + b - 1) / b

/-- The number a core has (01 Table 1.3). -/
def CoreId.num : CoreId → Nat
  | .l => 0
  | .x => 1
  | .w => 2

/-- The core of a number, for codes 0 to 2 (02 R131's CONS, 17 GQCONS). -/
def CoreId.ofNum : Nat → CoreId
  | 0 => .l
  | 1 => .x
  | _ => .w

/-- The number an engine has (01 Table 1.3). -/
def Engine.num : Engine → Nat
  | .load => 0
  | .matrix => 1
  | .store => 2

/-- The engine of a number. -/
def Engine.ofNum : Nat → Engine
  | 0 => .load
  | 1 => .matrix
  | _ => .store

/-- The engine that a core owns (01 R21). -/
def CoreId.engine : CoreId → Engine
  | .l => .load
  | .x => .matrix
  | .w => .store

/-- The core that owns an engine (01 R21). -/
def Engine.owner : Engine → CoreId
  | .load => .l
  | .matrix => .x
  | .store => .w

/-- SZ (08 R183). -/
def Size.code : Size → Nat
  | .b => 0
  | .h => 1
  | .w => 2
  | .d => 3

/-- The size of a code. -/
def Size.ofCode : Nat → Size
  | 0 => .b
  | 1 => .h
  | 2 => .w
  | _ => .d

/-- The access width in bytes (08 R183). -/
def Size.bytes (s : Size) : Nat := 2 ^ s.code

/-- The scope code (07 Table 7.1). -/
def Scope.code : Scope → Nat
  | .tile => 0
  | .cluster => 1
  | .die => 2
  | .module => 3
  | .fabric => 4
  | .host => 5

/-- The scope of a code; 6 and 7 name none (07 Table 7.1). -/
def Scope.ofCode : Nat → Option Scope
  | 0 => some .tile
  | 1 => some .cluster
  | 2 => some .die
  | 3 => some .module
  | 4 => some .fabric
  | 5 => some .host
  | _ => none

/-- The ORDER code (07 Table 7.2). -/
def Order.code : Order → Nat
  | .relaxed => 0
  | .acquire => 1
  | .release => 2
  | .acqRel => 3

/-- The order of a code. -/
def Order.ofCode : Nat → Order
  | 0 => .relaxed
  | 1 => .acquire
  | 2 => .release
  | _ => .acqRel

/-- AOP (08 R187). -/
def Aop.code : Aop → Nat
  | .add => 0
  | .min => 1
  | .max => 2
  | .minn => 3
  | .maxn => 4
  | .and => 5
  | .or => 6
  | .xor => 7
  | .xchg => 8
  | .cas => 9

/-- The atomic of a code; 10 to 15 are reserved (08 R187). -/
def Aop.ofCode : Nat → Option Aop
  | 0 => some .add
  | 1 => some .min
  | 2 => some .max
  | 3 => some .minn
  | 4 => some .maxn
  | 5 => some .and
  | 6 => some .or
  | 7 => some .xor
  | 8 => some .xchg
  | 9 => some .cas
  | _ => none

/-- The modifier register's value (07 Table 7.2): also the IMM of `pfx` (08 R193). -/
def Modifier.code (m : Modifier) : Nat := m.chint.val * 256 + m.order.code * 16 + m.scope.code

/-- The modifier of a value whose CHINT is at most 3 and whose SCOPE is at most 5; none otherwise. -/
def Modifier.ofCode (v : Nat) : Option Modifier :=
  if h : field v 8 4 < 4 then
    (Scope.ofCode (field v 0 3)).map fun sc => { order := Order.ofCode (field v 4 2), scope := sc, chint := ⟨field v 8 4, h⟩ }
  else none

/-- A Quad as a function of the loop index. -/
def Quad.at_ {α : Type} (q : Quad α) : Fin 4 → α
  | 0 => q.q0
  | 1 => q.q1
  | 2 => q.q2
  | 3 => q.q3

/-- The four values as a list, i0's first. -/
def Quad.toList {α : Type} (q : Quad α) : List α := [q.q0, q.q1, q.q2, q.q3]

/-- Bit `t` (die) of the module tile index: 64 tiles a die (01 R12). -/
def tileDie (t : Nat) : Nat := t / 64

/-- The cluster of a tile within its die (01 R12). -/
def tileCluster (t : Nat) : Nat := t / 8 % 8

/-- The tile-in-cluster number (01 R12). -/
def tileTic (t : Nat) : Nat := t % 8

end Sys2Proof
end

