-- ==== Sys2Proof/Machine/Flags.lean ====
section
/-! DEFINITION. The N7 has no condition flags (09 R202): what other machines put into flags are the comparisons and the
pure results below, which instructions write to registers or branch on (09 Tables 9.1, 9.4, 9.6). -/
namespace Sys2Proof.Machine

/-! ## Comparisons (09 Table 9.4, R203) -/

/-- S(a) < S(b). -/
def ltS (a b : Word) : Bool := decide (a.toInt < b.toInt)

/-- U(a) < U(b). -/
def ltU (a b : Word) : Bool := decide (a.toNat < b.toNat)

/-- A condition as a register value: 1 or 0. -/
def boolWord (b : Bool) : Word := if b then 1 else 0

/-! ## Division (09 R204): truncating, with fixed results at its two edges -/

/-- `div`. -/
def divS (a b : Word) : Word :=
  if b = 0 then BitVec.allOnes 64
  else if a = BitVec.ofNat 64 (2 ^ 63) ∧ b = BitVec.allOnes 64 then BitVec.ofNat 64 (2 ^ 63)
  else BitVec.ofInt 64 (a.toInt.tdiv b.toInt)

/-- `rem`: a non-zero remainder takes the sign of the dividend. -/
def remS (a b : Word) : Word :=
  if b = 0 then a
  else if a = BitVec.ofNat 64 (2 ^ 63) ∧ b = BitVec.allOnes 64 then 0
  else BitVec.ofInt 64 (a.toInt - b.toInt * a.toInt.tdiv b.toInt)

/-- `divn`. -/
def divU (a b : Word) : Word := if b = 0 then BitVec.allOnes 64 else BitVec.ofNat 64 (a.toNat / b.toNat)

/-- `remn`. -/
def remU (a b : Word) : Word :=
  if b = 0 then a else BitVec.ofNat 64 (a.toNat - b.toNat * (a.toNat / b.toNat))

/-! ## Products, shifts, counts (09 Table 9.1) -/

/-- Bits [127:64] of S(a) × S(b). -/
def mulHighS (a b : Word) : Word := BitVec.ofInt 64 (a.toInt * b.toInt / 2 ^ 64)

/-- Bits [127:64] of U(a) × U(b). -/
def mulHighU (a b : Word) : Word := BitVec.ofNat 64 (a.toNat * b.toNat / 2 ^ 64)

/-- The count of a shift or rotate: b[5:0]. -/
def shiftCount (b : Word) : Nat := b.toNat % 64

/-- a × 2^n, floor(U(a) / 2^n), floor(S(a) / 2^n), a rotated left by n. -/
def shiftL (a : Word) (n : Nat) : Word := a <<< n
def shiftR (a : Word) (n : Nat) : Word := a >>> n
def shiftRA (a : Word) (n : Nat) : Word := BitVec.ofInt 64 (a.toInt / 2 ^ n)
def rotL (a : Word) (n : Nat) : Word := (a <<< n) ||| (a >>> (64 - n))

/-- Zero bits below the lowest set bit, counted from bit `i`, at most `n`. -/
def lowZeros (a : Nat) : Nat → Nat → Nat
  | 0, _ => 0
  | n + 1, i => if a.testBit i then 0 else 1 + lowZeros a n (i + 1)

/-- Zero bits above the highest set bit, counted down from bit `n - 1`. -/
def highZeros (a : Nat) : Nat → Nat
  | 0 => 0
  | n + 1 => if a.testBit n then 0 else 1 + highZeros a n

/-- Set bits among bits 0 to n - 1. -/
def popCount (a : Nat) : Nat → Nat
  | 0 => 0
  | n + 1 => b2n (a.testBit n) + popCount a n

/-! ## Fields (09 Table 9.3) -/

/-- ZeroExtend(a[pos + len - 1 : pos]). -/
def zeroField (a : Word) (pos len : Nat) : Word := BitVec.ofNat 64 (field a.toNat pos len)

/-- SExt of the low `len` bits. -/
def signField (a : Word) (len : Nat) : Word := BitVec.ofInt 64 (sInt len a.toNat)

/-- d with bits [pos + len - 1 : pos] replaced by a[len - 1 : 0]. -/
def insertField (d a : Word) (pos len : Nat) : Word := BitVec.ofNat 64 (setField d.toNat pos len a.toNat)

/-- A loaded value of `n` bytes as a register value (09 R214): sign- or zero-extended. -/
def extendLoad (sx : Bool) (n v : Nat) : Word :=
  if sx then BitVec.ofInt 64 (sInt (8 * n) v) else BitVec.ofNat 64 (v % 2 ^ (8 * n))

/-! ## Atomics (09 Table 9.6) -/

/-- The new value of a location of `w` bits, or none where nothing is written; `d` is gd's old value. -/
def atomNew (op : Aop) (w old x d : Nat) : Option Nat :=
  match op with
  | .add => some ((old + x) % 2 ^ w)
  | .min => some (if sInt w x < sInt w old then x else old)
  | .max => some (if sInt w old < sInt w x then x else old)
  | .minn => some (min old x)
  | .maxn => some (max old x)
  | .and => some (old &&& x)
  | .or => some (old ||| x)
  | .xor => some (old ^^^ x)
  | .xchg => some x
  | .cas => if old = d % 2 ^ w then some x else none

end Sys2Proof.Machine
end

