-- ==== Sys2Proof/Machine/SMap.lean ====
section
/-! DEFINITION. Sparse stores: a list of key and value pairs in one canonical form (keys rising, no entry at its default). -/
namespace Sys2Proof.Machine

/-- A sparse store: what a key not listed holds is the default its reader names. -/
abbrev SMap (α : Type) := List (Nat × α)

/-- What the store holds at `k`, or the default `d`. -/
def SMap.get {α : Type} (d : α) : SMap α → Nat → α
  | [], _ => d
  | (a, v) :: m, k => if k = a then v else SMap.get d m k

/-- The store with `v` at `k`: the entry is listed in its place in the order of keys. -/
def SMap.put {α : Type} (m : SMap α) (k : Nat) (v : α) : SMap α :=
  match m with
  | [] => [(k, v)]
  | (a, w) :: m => if k < a then (k, v) :: (a, w) :: m
                   else if k = a then (k, v) :: m else (a, w) :: SMap.put m k v

/-- The store with nothing listed at `k`. -/
def SMap.erase {α : Type} (m : SMap α) (k : Nat) : SMap α :=
  match m with
  | [] => []
  | (a, w) :: m => if k = a then SMap.erase m k else (a, w) :: SMap.erase m k

/-- The store with `v` at `k`, in canonical form: writing the default removes the entry. -/
def SMap.set {α : Type} [DecidableEq α] (d : α) (m : SMap α) (k : Nat) (v : α) : SMap α :=
  if v = d then SMap.erase m k else SMap.put m k v

/-- The canonical form: keys strictly rising from `lo` and no entry equal to the default. -/
def SMap.wfFrom {α : Type} [DecidableEq α] (d : α) : Nat → SMap α → Bool
  | _, [] => true
  | lo, (a, v) :: m => decide (lo ≤ a) && decide (v ≠ d) && SMap.wfFrom d (a + 1) m

/-- The canonical form of a sparse store with default `d`. -/
def SMap.wf {α : Type} [DecidableEq α] (d : α) (m : SMap α) : Bool := SMap.wfFrom d 0 m

/-! ## Byte stores -/

/-- A byte-addressed store: addresses strictly rising, no entry equal to zero, and an unlisted address reads as zero
(05 R36's scratchpad and 19 Table 19.11 stage 3 give zero; host memory and peers: log 4, log 6). -/
abbrev Memory := List Host.Cell

/-- The canonical form of a byte store. -/
def Memory.wf (m : Memory) : Bool := SMap.wf (0 : Byte) m

/-- The byte at address `a`. -/
def Memory.byte (m : Memory) (a : Nat) : Byte := SMap.get 0 m a

/-- The store with byte `v` at `a`. -/
def Memory.setByte (m : Memory) (a : Nat) (v : Byte) : Memory := SMap.set 0 m a v

/-- The `n` bytes from `a`, lowest address first. -/
def Memory.bytes (m : Memory) (a : Nat) : Nat → List Byte
  | 0 => []
  | n + 1 => Memory.byte m a :: Memory.bytes m (a + 1) n

/-- The store with the bytes `l` from `a` on. -/
def Memory.setBytes (m : Memory) (a : Nat) : List Byte → Memory
  | [] => m
  | v :: l => Memory.setBytes (Memory.setByte m a v) (a + 1) l

/-- The little-endian number of a list of bytes (00 R2). -/
def leNat : List Byte → Nat
  | [] => 0
  | b :: l => b.toNat + 256 * leNat l

/-- The `n` bytes of a number, least significant first (00 R2). -/
def leBytes (v : Nat) : Nat → List Byte
  | 0 => []
  | n + 1 => BitVec.ofNat 8 v :: leBytes (v / 256) n

/-- The `n`-byte little-endian value at `a`. -/
def Memory.readLE (m : Memory) (a n : Nat) : Nat := leNat (Memory.bytes m a n)

/-- The store with the low `n` bytes of `v` from `a` on, little-endian. -/
def Memory.writeLE (m : Memory) (a n v : Nat) : Memory := Memory.setBytes m a (leBytes v n)

/-- The store with `n` zero bytes from `a`. -/
def Memory.zero (m : Memory) (a n : Nat) : Memory := m.filter (fun c => !(decide (a ≤ c.1) && decide (c.1 < a + n)))

/-! ## Sets of numbers, kept rising with no repeats -/

/-- The set with `k` in it. -/
def insertNat : List Nat → Nat → List Nat
  | [], k => [k]
  | a :: l, k => if k < a then k :: a :: l else if k = a then a :: l else a :: insertNat l k

/-- The set without `k`. -/
def eraseNat (l : List Nat) (k : Nat) : List Nat := l.filter (fun a => a != k)

end Sys2Proof.Machine
end

