-- ==== Sys2Proof/Machine/State.lean ====
section
/-! DEFINITION. The state of the machine as plain data: one module, its hub, its adapter card and what it can see of host
memory and of other modules; the reasons a step could stop; and the state after reset. -/
namespace Sys2Proof.Machine

/-! ## Cores (08 R175 to R182) -/

/-- What a core does: halted before a node, running its stream, stopped at a `yield` (02 R53), exited (02 R38). -/
inductive Run where | halted | running | yielded | exited
  deriving DecidableEq, Repr

/-- A frame record of the window stack (08 R176): F, the return address, the hidden registers g12 to g(11+F) and those of their 32-bit
words that are poisoned, word 2 i + h being half h of g(12+i). -/
structure Frame where
  size : Nat
  ret : VAddr
  hidden : List Word
  bad : List Nat
  /-- Words of the hidden registers with a correctable error that no read has found yet (18 R429). -/
  ce : List Nat := []
  deriving DecidableEq, Repr

/-- The state of a hold-table entry (07 R167). -/
inductive HoldState where | waitX | waitS | exclusive | shared
  deriving DecidableEq, Repr

/-- One entry of a core's hold table (07 R167): the cell's virtual address, its state, its ticket. -/
structure Hold where
  cell : Nat
  state : HoldState
  ticket : Nat
  deriving DecidableEq, Repr

/-- `ctl.barpend` (10 Table 10.3), and whether the instance has told this core that the phase completed (10 R233). -/
structure BarPend where
  v : Bool
  bar : Nat
  phase : Nat
  told : Bool
  deriving DecidableEq, Repr

/-- A fault as it is raised: the fields of the fault record that describe it (18 Table 18.4, R419). -/
structure FaultRec where
  code : Nat
  access : Nat := 0
  unit : Nat := 0
  source : Nat := 0
  straddle : Bool := false
  remote : Bool := false
  tick : Nat := 0
  vaddr : Nat := 0
  page : Nat := 0
  detail : Nat := 0
  handle : Nat := 0
  ivec : Nat := 0
  /-- Firmware can complete the translation under RESUME (17 R400). -/
  resolvable : Bool := false
  /-- The BREAKPOINT of a `brk` that executed with ATTACH = 1: it rests its tile for the debugger and ends no attempt (20 R469). -/
  attached : Bool := false
  deriving DecidableEq, Repr

/-- What an access that a core waits for does when its answer is there (09 R217, R225): a load, a store, an atomic; or the
iteration of an operation, which then runs. -/
inductive Remote where
  | load (gd : Reg) (sx : Bool) (n : Nat)
  | store (bytes : List Byte)
  | rmw (op : Aop) (n : Nat) (gd : Reg) (x expected : Nat)
  | iteration
  deriving DecidableEq, Repr

/-- A read of host memory on its way over the link (19 R439): window offset, host address, bytes, departure tick, what it
does, and the bytes of the unit that waits. -/
structure HostRead where
  offset : Nat
  host : Nat
  len : Nat
  since : Nat
  what : Remote
  unitLen : Nat
  deriving DecidableEq, Repr

/-- A request on its way to another module (13 R333): the module, the offset, its departure tick and the fabric timeout that
held then, what it does, and the bytes of the unit that waits. -/
structure FabWait where
  module : Nat
  offset : Nat
  since : Nat
  limit : Nat
  what : Remote
  unitLen : Nat
  /-- The modules that have answered so far, where the request goes to several (13 R333). -/
  heard : List Nat := []
  /-- It is a release where it writes (09 R225). -/
  release : Bool := false
  deriving DecidableEq, Repr

/-- Which record an operation came from (08 Table 8.9). -/
inductive RecKind where
  | tload | tgather | sload | xpull | fill | mcred | rload
  | wload | wswap | mma | mmas | mdrain | mdrainDirect | mzero | mchain | mcopy
  | tstore | tscatter | tred | rstore | rsig | xpush
  deriving DecidableEq, Repr

/-- What a core is blocked in (10 R228, 06 R143, 20 Table 20.4). -/
inductive Wait where
  | none
  | pop (q : Nat)
  | push (q : Nat)
  | gangPush (q rank : Nat) (tok : W32)
  /-- A barrier request under way: of a `barw`, or (`waits` false) of a `barv` or a `barset`. -/
  | barrierReq (bar : Nat) (waits : Bool)
  | barw (bar phase : Nat)
  | barws (bar seen : Nat) (gd : Reg)
  | sigwait (since va : Nat) (gd : Reg) (unitLen want : Nat)
  | cell (excl : Bool) (va : Nat)
  | opwait
  | exitOps
  | launch
  | publish
  | bufferSpace
  | engineRoom (k : RecKind) (r : Rec)
  | fabric (f : FabWait)
  | hostRead (h : HostRead)
  | firmware (f : FaultRec) (va : Nat)
  deriving DecidableEq, Repr

/-- A store to another tile's scratchpad that has left its core and is not yet performed (09 R215). -/
structure RemoteStore where
  tile : Nat
  off : Nat
  bytes : List Byte
  deriving DecidableEq, Repr

/-- One scalar core. -/
structure Core where
  run : Run := .halted
  pc : VAddr := 0
  g : SMap Word := []
  /-- Poisoned words of the registers: word 2 r + h is half h of register r (18 R429). -/
  gBad : List Nat := []
  /-- Words of the registers with a correctable error that no read has found yet (18 R429). -/
  gCe : List Nat := []
  frames : List Frame := []
  spilled : Nat := 0
  spillBase : Nat := 0
  spillLimit : Nat := 0
  sptr : Nat := 0
  memdef : Modifier := { order := .relaxed, scope := .tile, chint := 0 }
  barpend : BarPend := { v := false, bar := 0, phase := 0, told := false }
  hold : List Hold := []
  wait : Wait := .none
  remote : List RemoteStore := []
  /-- The wait that the core goes back to once firmware has completed the translation it waits for: that of a `sigwait` or an
  acquire whose word is resolved (07 R167, 10 R238); none where the instruction executes again. -/
  after : Wait := .none
  /-- A `fence` stands before: every later write acts as a release (07 R160). -/
  fenced : Bool := false
  /-- Its `exit` or `yield` completed in the cycle under way, which counts as RET_SCALAR (20 R475). -/
  ended : Bool := false
  /-- The leaf of 20 Table 20.4 of the unit that the core completed in the cycle under way, or is blocked in: 0 scalar, 1 vector, 2
  record. -/
  did : Option Nat := Option.none
  /-- The leaf that a wait of the unit under way for firmware counts in: 5 SYNC, 7 MEM, 8 EXEC (20 R475). -/
  waits : Nat := 8
  /-- The liveness map of the `yield` at which the core stopped (10 R248). -/
  livemap : Nat := 0
  deriving DecidableEq, Repr

/-! ## Operations and engines (02 R43 to R52, 12 R284 to R315) -/

/-- The states of an operation (02 Table 2.6). `running` with its iterations done and its token pending is 06 R140. -/
inductive OpState where | queued | running | faulted
  deriving DecidableEq, Repr

/-- The values a record latches at issue (03 R84, 04 R96, 05 R115). -/
structure Latch where
  fmt : SMap Word := []
  bfmt : SMap Nat := []
  round : Nat := 0
  srkey : Word := 0
  profile : Nat := 1
  ponds : SMap Word := []
  deriving DecidableEq, Repr

/-- A layout record as read (05 Table 5.5). -/
structure Layout where
  base : Nat
  fidx : Nat
  rank : Nat
  space : Nat
  modnum : Nat
  chint : Nat
  perm : Nat
  ext : List Nat
  str : List Int
  deriving DecidableEq, Repr

/-- A transfer block as read at start (13 Table 13.2). -/
structure Transfer where
  arg : Nat
  len : Nat
  didx : Nat
  rop : Nat
  poison : Bool
  drain : Bool
  set : Bool
  agrp : Nat
  coord : List Int
  deriving DecidableEq, Repr

/-- The epilogue block (12 Table 12.5): its 1,036 bytes as words 0 to 258. -/
abbrev Epilogue := SMap W32

/-- What an operation read as it started (05 R128, 12 R307, 13 R318, R326, R338). -/
structure Started where
  layout : Option Layout := Option.none
  transfer : Option Transfer := Option.none
  epilogue : Epilogue := []
  pattern : List Byte := []
  members : List Nat := []
  pin : Option Nat := Option.none
  deriving DecidableEq, Repr

/-- What keeps a running operation at its iteration. -/
inductive OpWait where
  | none
  | fabric (f : FabWait)
  | hostRead (h : HostRead)
  | firmware (f : FaultRec) (va : Nat)
  deriving DecidableEq, Repr

/-- One operation that is not terminal. -/
structure Op where
  seq : Nat
  kind : RecKind
  rcd : Rec
  owner : CoreId
  attached : Bool
  prio : Nat
  latch : Latch
  state : OpState := .queued
  /-- It faulted, or waited for firmware, at its start: the start is made again (05 R128, R129). -/
  atStart : Bool := false
  /-- An iteration of it is in progress and waits (10 R243). -/
  inIter : Bool := false
  t : Nat := 0
  started : Started := {}
  cancel : Bool := false
  suspended : Bool := false
  token : Option W32 := Option.none
  stamp : Option Nat := Option.none
  preds : List (Nat × Nat) := []
  drainForm : Bool := false
  wait : OpWait := .none
  issueTick : Nat := 0
  /-- How many entries `State.dsets` had at issue (05 R129, log 7). -/
  mark : Nat := 0
  /-- The matrix engine's last sequence number at issue (13 R328). -/
  mlast : Nat := 0
  /-- Its rows arrive from the west (12 R304). -/
  west : Bool := false
  /-- Which writes of the iteration under way are in the publication buffer already, while the rest wait for room (07 R173). -/
  entered : List Nat := []
  /-- Words of its record, as it waits in its engine's buffer, with an uncorrectable error, and with a correctable one, that no read has
  found yet (18 R429). -/
  recBad : List Nat := []
  recCe : List Nat := []
  deriving DecidableEq, Repr

/-- A fault of a far access: its code and its DETAIL (18 Table 18.5); code 0 is none. -/
structure FarFault where
  code : Nat := 0
  detail : Nat := 0
  deriving DecidableEq, Repr

/-- An engine: last sequence number issued, last terminal, its operations not terminal (oldest first), the terminal state
each earlier one reached (10 R240), and posted failures by module (13 R337). -/
structure Eng where
  last : Nat := 0
  lastTerm : Nat := 0
  ops : List Op := []
  fin : SMap Nat := []
  failed : SMap FarFault := []
  /-- It ran an iteration, sent a request, or an operation reached its terminal state, in the cycle under way, which counts as ITER (20
  R475). -/
  ended : Bool := false
  deriving DecidableEq, Repr

/-- A weight plane (12 R299 to R301): codes at 128 × row + column, latched entry and scale entry, SP, scales, metadata; `ents` and
`sents` hold the entry and the scale entry of a weight whose bank named another entry than the plane's as it was read (03 R83). -/
structure Plane where
  loaded : Bool := false
  codes : SMap W32 := []
  fmt : Word := 0
  sfmt : Word := 0
  ents : SMap Word := []
  sents : SMap Word := []
  sp : Nat := 0
  scale : Memory := []
  meta_ : Memory := []
  deriving DecidableEq, Repr

/-- A pin of a direct drain (12 R309): the drain's sequence number and the operation that holds its latched values. -/
structure Pin where
  seq : Nat
  op : Op
  deriving DecidableEq, Repr

/-! ## Tiles -/

/-- One token with the mark of an uncorrectable error (06 R134, R141). -/
structure Tok where
  w : W32
  bad : Bool := false
  /-- It holds a correctable error that no read has found yet (18 R429). -/
  ce : Bool := false
  /-- Its uncorrectable error has been found by no read yet (18 R429). -/
  latent : Bool := false
  deriving DecidableEq, Repr

/-- One token queue (06 R131 to R133, R142). -/
structure Queue where
  depth : Nat := 64
  cons : Nat := 1
  head : Nat := 0
  tail : Nat := 0
  toks : List Tok := []
  lastRank : Option Nat := Option.none
  deriving DecidableEq, Repr

/-- The tile's registers that `ctlrd` reads and that belong to the tile (10 R254). -/
structure TileCtl where
  tile : Word := 0
  gang : Word := 0
  stage : Word := 0
  node : Word := 0
  dbase : Word := 0
  rank : SMap Word := []
  round : Nat := 0
  srkey : Word := 0
  profile : Nat := 1
  fmt : SMap Word := []
  bfmt : SMap Nat := []
  pond : SMap Word := []
  deriving DecidableEq, Repr

/-- The stores of a tile with their poison sets (05 R106, R119, R120; 01 R20; 18 R429). -/
structure TileMem where
  scratch : Memory := []
  scratchBad : List Nat := []
  /-- Words of the scratchpad with a soft error that no read and no scrub has found yet (18 R429, R432). -/
  scratchLatent : List Nat := []
  acc : SMap W32 := []
  accBad : List Nat := []
  scale : Memory := []
  scaleBad : List Nat := []
  panel : SMap W32 := []
  panelBad : List Nat := []
  mask : SMap (BitVec 256) := []
  /-- Poisoned 32-bit words of the masks: word w of mask k at 8 × k + w (11 R260). -/
  maskBad : List Nat := []
  act : Plane := {}
  shd : Plane := {}
  /-- Poisoned words of the planes: the codes of the active plane, then of the shadow plane, from 0 and 16,384, then their scales and
  their metadata (`sideKey`, log 24). -/
  planeBad : List Nat := []
  /-- Words of the accumulator store, the scale memory, the panels, the masks and the planes with a correctable error that no read has
  found yet (18 R429), numbered as in the sets of poisoned ones. -/
  accCe : List Nat := []
  scaleCe : List Nat := []
  panelCe : List Nat := []
  maskCe : List Nat := []
  planeCe : List Nat := []
  pins : List Pin := []
  chainLen : Nat := 1
  chainPos : Nat := 0
  chainIn : List (List Byte) := []
  deriving DecidableEq, Repr

/-- A write of `ctl.perf.ctl` that takes effect as its cycle ends (20 R474), and the cores that made it. -/
structure PerfWrite where
  cores : List CoreId
  freeze : Bool
  clear : Bool
  deriving DecidableEq, Repr

/-- `ctl.perf` (20 R473): CYCLES, FREEZE, leaves at 16 × unit + leaf (units 0 to 2 cores, 3 to 5 engines). -/
structure Perf where
  cycles : Word := 0
  freeze : Bool := false
  leaf : SMap Word := []
  next : Option PerfWrite := Option.none
  deriving DecidableEq, Repr

/-- The privileged registers of a tile (18 Table 18.6) and the errors counted per bank (18 R433). -/
structure Prv where
  pdead : Nat := 100000
  savelim : Nat := 1000000
  fabto : Nat := 500000
  lastBank : Nat := 0
  ue : Nat := 0
  ce : Nat := 0
  retired : W32 := 0
  bankErrs : SMap Nat := []
  /-- Words that the scrubber has read in the period under way (18 R432). -/
  scrubbed : List Nat := []
  deriving DecidableEq, Repr

/-- A trace record that waits for room: the unit that made it, its tick, its doublewords (20 R477). -/
structure TraceRec where
  unit : Nat
  tick : Nat
  dws : List Word
  deriving DecidableEq, Repr

/-- The trace writer of a tile (20 R476 to R484). -/
structure Trace where
  tail : Nat := 0
  head : Nat := 0
  gaps : Nat := 0
  gapped : Bool := false
  lastTick : Nat := 0
  lastMk : Nat := 0
  lastPoll : Nat := 0
  /-- A STOP stands in the region and no record after it: the next is an MK with REASON 3 (20 R479). -/
  stopped : Bool := false
  /-- A trace write of the tile failed: it appends nothing until TREN is written 0 and then 1 (20 R483). -/
  failed : Bool := false
  waiting : List TraceRec := []
  /-- The records of the tick under way, in the order in which they are appended: by UNIT (20 R478). -/
  fresh : List TraceRec := []
  brs : SMap (List Bool) := []
  blockedSince : SMap Nat := []
  deriving DecidableEq, Repr

/-- What a tile is doing (02 R35, 06 R146, 17 R399, 18 R425 to R427). -/
inductive Phase where
  | free
  | reserved
  | waking (since : Nat)
  | held
  | running
  | draining
  | frozen
  | saving
  | saved
  | restored
  deriving DecidableEq, Repr

/-- The place of a tile in a gang: partition, node record address, rank, and the attempt (17 R375). -/
structure Seat where
  part : Nat
  node : Nat
  rank : Nat
  attempt : Nat
  deriving DecidableEq, Repr

/-- What brings a tile to rest besides a fault (02 R54, R55; 20 R468; 17 R402; 12 R312). -/
inductive Rest where | cooperative | forced | debug | ending | chain
  deriving DecidableEq, Repr

/-- The cut of a tile as its record tells it (06 R147, 18 Table 18.4): PCL to PCW and ENGL to ENGW, the sequence numbers of the
operations that OPSL to OPSW list, and QUEUES. -/
structure Cut where
  pcs : List Nat
  engs : List Nat
  listed : List (List Nat)
  queues : List Nat
  deriving DecidableEq, Repr

/-- The part of a tile that the hub and the tile's controllers keep. -/
structure Life where
  phase : Phase := .free
  gatedClock : Bool := false
  seat : Option Seat := Option.none
  fault : Option FaultRec := Option.none
  resolved : Bool := false
  rest : Option Rest := Option.none
  /-- Tick at which a pre-emption request latched (02 R55). -/
  latched : Option Nat := Option.none
  /-- The deadline in ticks that held as the request latched (18 Table 18.6). -/
  deadline : Nat := 100000
  /-- A request that arrived while the tile was frozen or stopped (18 R423, 20 R470). -/
  pending : Bool := false
  saveStart : Nat := 0
  saveMode : Nat := 0
  /-- An uncorrectable error lies in a buffer of the save engine (18 R429). -/
  saveBad : Bool := false
  /-- Correctable errors in the buffers of the save engine that it has not read yet (18 R429, log 38). -/
  saveCe : Nat := 0
  /-- The cut at which the tile was torn down, where its engines went on without cores (02 R49, R50). -/
  cut : Option Cut := Option.none
  since : Nat := 0
  deadCount : Nat := 0
  deriving DecidableEq, Repr

/-- One tile (01 Table 1.2). -/
structure Tile where
  life : Life := {}
  cl : Core := {}
  cx : Core := {}
  cw : Core := {}
  el : Eng := {}
  em : Eng := {}
  es : Eng := {}
  ctl : TileCtl := {}
  queue : SMap Queue := []
  mem : TileMem := {}
  perf : Perf := {}
  prv : Prv := {}
  trace : Trace := {}
  deriving DecidableEq, Repr

/-! ## Dies -/

/-- A translation that a die keeps (18 R414): partition, root, page bits, virtual page, physical page base, permissions. -/
structure Kept where
  part : Nat
  root : Root
  bits : Nat
  vbase : Nat
  pbase : Nat
  rd : Bool
  w : Bool
  x : Bool
  /-- Physical address of the leaf's companion word (18 R413). -/
  companion : Nat
  deriving DecidableEq, Repr

/-- The translation registers of one partition in one die (18 Table 18.1). -/
structure Xlt where
  en : Bool := false
  root : Nat := 0
  xen : Bool := false
  xroot : Nat := 0
  tag : Nat := 0
  deriving DecidableEq, Repr

/-- One compute die: registers by partition, kept translations, the result of the last completed walk, the tick at which
the last wake began (17 R399). -/
structure Die where
  xlt : SMap Xlt := []
  kept : List Kept := []
  lastWalk : Option (Nat × Nat) := Option.none
  lastWake : Option Nat := Option.none
  deriving DecidableEq, Repr

/-! ## Graph scheduler (17) -/

/-- A request at a barrier instance (10 R230): the rank and core, and whether it is an arrival or sets the count. -/
inductive BarReq where
  | arrive (tile : Nat) (c : CoreId) (wait : Bool)
  | set (tile : Nat) (c : CoreId) (count : Word)
  deriving DecidableEq, Repr

/-- A barrier instance (10 R230): E, ARR, PH, and the requests that have reached it and are not processed. -/
structure BarInst where
  e : Nat := 0
  arr : Nat := 0
  ph : Nat := 0
  reqs : List BarReq := []
  deriving DecidableEq, Repr

/-- The states of a node (17 Table 17.3). -/
inductive NState where
  | waiting | ready | placing | running | ending | saved | retired | faulted | cancelled | rejected
  deriving DecidableEq, Repr

/-- How an attempt ends (17 R384): by a fault of a code on a rank, or by a cancel. -/
inductive EndWhy where
  | fault (code rank : Nat) (retry : Bool)
  | cancel
  deriving DecidableEq, Repr

/-- What the scheduler keeps of a submitted node beside its record (17). -/
structure Node where
  addr : Nat
  graph : Option Nat := Option.none
  index : Nat := 0
  state : NState := .waiting
  pooled : Bool := false
  readyAt : Nat := 0
  /-- The tick from which the next ageing interval counts; the ticks counted so far while the node is held (17 R387). -/
  aged : Nat := 0
  /-- Its priority in the pool, and EPRIO as its record shows it (17 R386, Table 17.1). -/
  eprio : Nat := 0
  placedPrio : Nat := 0
  attempt : Nat := 0
  predcnt : Nat := 0
  pfail : Bool := false
  fcode : Nat := 0
  cause : Nat := 0
  wasSaved : Bool := false
  tiles : List Nat := []
  /-- The node record as last read, as one number (17 R375), its successor list, and its format image as loaded. -/
  rcd : Nat := 0
  succ : List Nat := []
  fmt : SMap Word := []
  /-- The tiles of the picks in pick order, from the placement on (17 R392). -/
  picks : List Nat := []
  /-- A host cancel that arrived while the node is PLACING (17 R398). -/
  cancelled : Bool := false
  /-- What each rank's save area holds beside its architected parts, by rank (18 R425). -/
  saves : SMap Tile := []
  /-- `groups[r]` is the barrier group of rank r for b0 to b15 (10 R230). -/
  groups : List Nat := []
  bars : SMap BarInst := []
  seqs : SMap Nat := []
  ending : Option EndWhy := Option.none
  /-- A pre-emption of the gang is pending (17 R389). -/
  preempt : Bool := false
  /-- The head for which it was chosen (17 R389). -/
  forHead : Nat := 0
  /-- The debugger is stopping or has stopped the gang: the KIND of hit it reports (20 R468, R469). -/
  stopping : Option Nat := Option.none
  stopped : Bool := false
  /-- MARKQ and CUTID of the STOP that is stopping the gang (20 R468). -/
  markq : Nat := 31
  cutid : Nat := 0
  held : Bool := false
  checked : Bool := false
  mac : Nat := 0
  gangCount : Nat := 0
  startTick : Nat := 0
  /-- How many entries `State.olds` had at the node's start (08 R197, log 8). -/
  codeMark : Nat := 0
  deriving DecidableEq, Repr

/-- A cone walk (17 R404): its root's index, the graph, the queue of nodes discovered and not marked. -/
structure Walk where
  graph : Nat
  root : Nat
  queue : List Nat
  begun : Bool
  deriving DecidableEq, Repr

/-- A submitted graph (17 R379): its record, its node array, NNODES, and whether the host aborted it. -/
structure Graph where
  addr : Nat
  base : Nat
  count : Nat
  aborted : Bool := false
  deriving DecidableEq, Repr

/-- The registers of Table 17.4 and the context's own state. -/
structure Sched where
  agecap : Nat := 24
  ageint : Nat := 1000000
  bflim : Nat := 2000000
  thresh : Nat := 0x0800
  classen : Bool := true
  dev : Nat := 4
  gatedly : Nat := 50000
  cursor : Nat := 0
  nodes : List Node := []
  /-- READY nodes waiting for room, in the order of their firings (17 R385). -/
  waiting : List Nat := []
  walks : List Walk := []
  /-- The cores that wait in a `launch`, in the order of arrival (10 R245). -/
  launchers : List (Nat × CoreId) := []
  headSince : Option (Nat × Nat) := Option.none
  backfill : Bool := true
  /-- Tiles of saved gangs, each held for the head for which its gang was chosen (17 R389). -/
  heldFor : List (Nat × Nat) := []
  /-- Graphs submitted and not complete. -/
  graphs : List Graph := []
  deriving DecidableEq, Repr

/-! ## Rings, events, partitions (19) -/

/-- STATE of a ring (19 Table 19.4). -/
inductive RingState where | idle | active | overrun | torn | stopped
  deriving DecidableEq, Repr

/-- An accepted packet: its ring index and its 16 doublewords (19 Table 19.5). -/
structure Packet where
  index : Nat
  dws : List Word
  deriving DecidableEq, Repr

/-- One submission ring and its engine (19 R440 to R443). -/
structure Ring where
  base : Nat := 0
  log2 : Nat := 4
  wptr : Nat := 0
  rptr : Nat := 0
  torn : Nat := 0
  state : RingState := .idle
  cmd : Nat := 0
  rereads : Nat := 0
  readAt : Option Nat := Option.none
  accepted : List Packet := []
  /-- Packets started and not completed: SUBMIT packets that wait for the pool (19 R443). -/
  open_ : List Packet := []
  held : Bool := false
  passed : Bool := false
  deriving DecidableEq, Repr

/-- An event entry without its PHASE (19 Table 19.9). -/
structure Event where
  status : Nat
  ring : Nat := 0
  tag : Nat := 0
  addr : Nat := 0
  data : Nat := 0
  tick : Nat := 0
  deriving DecidableEq, Repr

/-- An event ring (19 R447): its registers, and the events that wait in the hub. -/
structure EvRing where
  base : Nat := 0
  log2 : Nat := 4
  head : Nat := 0
  tail : Nat := 0
  lost : Nat := 0
  held : List Event := []
  deriving DecidableEq, Repr

/-- One window (19 Table 19.7). -/
structure Window where
  offset : Nat := 0
  length : Nat := 0
  host : Nat := 0
  w : Bool := false
  rd : Bool := false
  v : Bool := false
  deriving DecidableEq, Repr

/-- A granule of the publication buffer (07 R173): host address of its first byte, 64 bytes, which of them are held. -/
structure Granule where
  host : Nat
  bytes : List (Option Byte)
  deriving DecidableEq, Repr

/-- An entry of the region table (07 R169). -/
structure Region where
  lo : Nat
  hi : Nat
  cell : Nat
  deriving DecidableEq, Repr

/-- A debug hit (20 R467): KIND, ring, address. -/
structure Hit where
  kind : Nat
  ring : Nat
  addr : Nat
  deriving DecidableEq, Repr

/-- A breakpoint (20 Table 20.1). -/
structure Bp where
  en : Bool := false
  kind : Nat := 0
  ring : Nat := 0
  anyop : Bool := false
  opcode : Nat := 0
  addr : Nat := 0
  deriving DecidableEq, Repr

/-- The debug block of a partition (20 Table 20.1) and the hash-tree agent's state (20 R487). -/
structure Debug where
  mkint : Nat := 100000
  ensm : Bool := true
  enbw : Bool := true
  entw : Bool := true
  enbr : Bool := true
  trerr : Bool := false
  trmode : Bool := false
  tren : Bool := false
  attach : Bool := false
  trbase : Nat := 0
  log2sz : Nat := 16
  target : Nat := 0
  bps : SMap Bp := []
  hits : List Hit := []
  hbase : Nat := 0
  npm1 : Nat := 0
  hadr : Nat := 0
  hen : Bool := false
  km1 : Nat := 0
  hdone : Nat := 0
  graphs : Nat := 0
  /-- Updates of the hash tree begun or to come: 0 none, 1 one under way, 2 a further one after it (20 R487). -/
  hreq : Nat := 0
  deriving DecidableEq, Repr

/-- STATE of a partition (19 Table 19.3). -/
inductive PState where | absent | creating | active | resetting
  deriving DecidableEq, Repr

/-- One partition control block and the hub state of the partition. -/
structure Part where
  state : PState := .absent
  clusters : W32 := 0
  frameBase : Nat := 0
  frameLen : Nat := 0
  tag : Nat := 0
  /-- Data frames handed out and spans that hold page tables, each a base and a length (19 R446). -/
  dataFrames : List (Nat × Nat) := []
  tableFrames : List (Nat × Nat) := []
  pubctr : Nat := 0
  pubver : Word := 0
  pub : List Granule := []
  rings : SMap Ring := []
  ev : EvRing := {}
  windows : SMap Window := []
  regions : List Region := []
  sched : Sched := {}
  dbg : Debug := {}
  /-- The admin packet whose reset of the partition is under way (19 R453). -/
  resetter : Option Nat := Option.none
  deriving DecidableEq, Repr

/-! ## The module, its card, and the outside -/

/-- A grant of the adapter card (19 R437, Table 19.5). -/
structure Grant where
  v : Bool := false
  r : Bool := false
  w : Bool := false
  base : Nat := 0
  length : Nat := 0
  src : Nat := 0
  deriving DecidableEq, Repr

/-- The adapter card: grants, rates in GB/s by source (16 is firmware, 2 at reset, 19 R438), refusals, MSI-X vectors raised (19 R436 to R438). -/
structure Card where
  grants : SMap Grant := []
  rate : SMap Nat := [(16, 2)]
  viol : Nat := 0
  msix : List Nat := []
  deriving DecidableEq, Repr

/-- The power clamp (19 R457): its registers, for how many comparisons running WATTS has stayed low, or exceeded L, whether
the engines start nothing, and the tick of the next comparison. -/
structure Power where
  fwlim : Nat := 3200
  hostlim : Nat := 3200
  clamps : Nat := 0
  watts : Nat := 0
  fclk : Nat := 2500
  low : Nat := 0
  high : Nat := 0
  hold : Bool := false
  due : Nat := 1000
  deriving DecidableEq, Repr

/-- An address-group entry (19 R449): G - 1, the partitions bound to it, the member bits from bit 64 on as one number. -/
structure Group where
  gm1 : Nat := 0
  bound : Nat := 0
  bits : Nat := 0
  deriving DecidableEq, Repr

/-- What another module shows (13 R333 to R335): the dies whose ports have lost their route to it (01 R28), whether it is ready,
and the memory its exports show to each domain tag, as this module's writes and the module's own answers have told it. -/
structure Peer where
  noRoute : BitVec 4 := 0
  ready : Bool := true
  mem : SMap Memory := []
  deriving DecidableEq, Repr

/-- A posted write or signal on its way to its target (07 R171, R172). -/
structure Posted where
  tile : Nat
  module : Nat
  offset : Nat
  /-- A byte of the write with the mask of its bits (13 R327); for a signal, none. -/
  bytes : List (Byte × Byte)
  signal : Option (Bool × Word)
  /-- Its target has performed it, and its acknowledgement is still to come (13 R337). -/
  done : Bool := false
  since : Nat
  limit : Nat
  /-- The partition that issued it. -/
  part : Nat
  /-- Its node has left the tile: no later `rsig` and no retirement can meet its failure. -/
  orphan : Bool := false
  /-- The place in its gang of the tile that issued it (17 R375). -/
  seat : Option Seat := Option.none
  /-- Its gang has been saved since: its engine waits in the save area (02 R56). -/
  away : Bool := false
  deriving DecidableEq, Repr

/-- The last answer of the attestation block (19 R463): the SPDM response code and its payload. -/
structure Spdm where
  code : Nat := 0
  payload : List Byte := []
  deriving DecidableEq, Repr

/-- The module control block, the hub's physical map and the parts of bring-up (19). -/
structure Hub where
  stage : Nat := 0
  err : Nat := 0
  lock : Bool := false
  modnum : Nat := 0
  power : Power := {}
  fails : Nat := 0
  meas : SMap (BitVec 384) := []
  /-- An image of fabric-port parameters has loaded (19 Table 19.11). -/
  imageLoaded : Bool := false
  fabricUp : Bool := false
  ports : SMap Bool := []
  admin : Ring := {}
  adminEv : EvRing := {}
  groups : SMap Group := []
  card : Card := {}
  spdm : Spdm := {}
  aperture : List Byte := []
  /-- The management cores' memory, 64 MiB (19 Table 19.1). -/
  mgmt : Memory := []
  deriving DecidableEq, Repr

/-- What moves next (log 1): a core, or an event of another agent. -/
inductive Act where
  | core (t : TileId) (c : CoreId)
  | event (i : Instr)
  deriving DecidableEq, Repr

/-- A `dset` performed while some operation waits to start: the partition, the table address, the 64 bytes it replaced
(05 R129, log 7). -/
structure DsetRec where
  part : Nat
  va : Nat
  old : List Byte
  deriving DecidableEq, Repr

/-- A word of HBM as it was before a write: its address and its value (08 R197, log 8). -/
structure OldWord where
  pa : Nat
  w : W32
  deriving DecidableEq, Repr

/-- The state of the machine. -/
structure State where
  /-- What moves next, first to last (the model's own, log 1). -/
  agenda : List Act
  /-- How many free values have been drawn (the model's own, log 1). -/
  choices : Nat
  /-- The core whose instruction runs (the model's own, log 1). -/
  curTile : TileId
  curCore : CoreId
  /-- The seiche counter (01 R24). -/
  seiche : Nat
  /-- HBM by physical address (01 R16), and its poisoned 32-byte granules (18 R431). -/
  mem : Memory
  memBad : List Nat
  tiles : SMap Tile
  dies : SMap Die
  parts : SMap Part
  hub : Hub
  /-- Host memory by host address (07 R150). -/
  host : Memory
  peers : SMap Peer
  /-- Posted writes and signals in flight, in issue order (07 R171). -/
  posted : List Posted
  /-- Layout records replaced while operations wait to start, newest first (the model's own, log 7). -/
  dsets : List DsetRec
  /-- Words of HBM as they were before each write, newest first (the model's own, log 8). -/
  olds : List OldWord
  deriving DecidableEq, Repr

/-- Why the model itself could stop. No architectural event is one of these: device faults are taken as next states. -/
inductive Fault where
  /-- Raised by no meaning: every fault of 18 Table 18.8 is taken by the machine. Safe: it claims nothing. -/
  | none
  deriving DecidableEq, Repr

/-- Why the model gives an instruction no meaning. -/
inductive Refusal where
  /-- Raised by an arm of `exec` whose instruction has no meaning yet. Safe: nothing is claimed of it. -/
  | notModelled (mnemonic : String)
  deriving DecidableEq, Repr

/-- The machine right after module power-on reset, before bring-up has run (19 R458): every register at the reset value
the spec gives it or, where it gives none, at the value of log 5. -/
def State.reset : State where
  agenda := []
  choices := 0
  curTile := 0
  curCore := .l
  seiche := 0
  mem := []
  memBad := []
  tiles := []
  dies := []
  parts := []
  hub := {}
  host := []
  peers := []
  posted := []
  dsets := []
  olds := []

end Sys2Proof.Machine
end

