-- ==== Sys2Proof/Config.lean ====
section
/-! DEFINITION. The free values: constants with no body, so that nothing can be proved of the values they take. -/
namespace Sys2Proof.Config
open Sys2Proof.Machine

/-- Which agent moves next where `State.agenda` is empty, for the n-th choice (log 1). -/
opaque schedule : Nat → Option Act

/-- Whether an operation reads the earlier of two values of a layout record that a `dset` replaced between its issue and
its start, for the n-th choice (05 R129, 20 Table 20.6, log 7). -/
opaque readsOld : Nat → Bool

/-- Which of the words that a fetched word of code has been since its node's start the fetch gives, counted from the newest that
a write has replaced; a number past the last gives the word as it is: for the n-th choice (08 R197, 20 Table 20.6, log 8). -/
opaque fetchesOld : Nat → Nat

/-- SOURCE of the n-th cancellation record: 18 Table 18.4 leaves it open (log 29). -/
opaque cancelSource : Nat → BitVec 2

/-- Whether a posted write whose failure is a timeout or an absent module had been performed there, its acknowledgement lost, for
the n-th choice (13 R337, log 48). -/
opaque ackLost : Nat → Bool

/-- Whether two faults that a tile raises in one tick arise in one cycle of its clock, by tick and tile (18 R421, log 70). -/
opaque sameCycle : Nat → Nat → Bool

/-- Which entry of a 64 KiB group that disagrees governs the n-th choice (18 R412, log 9). -/
opaque governs : Nat → Fin 16

/-- The association tree of profile 0, a fixed function of the record's operation code and the two operand entries (04 R94,
log 13): the place of the next addend to combine, at step n with m addends left. -/
opaque treePick : Nat → Word → Word → Nat → Nat → Nat

/-- What becomes of the sum formed at step n of that tree, below the root: kept exact, or rounded RNE to a format, coded as its
exponent bits beyond 8 in the low 6 bits and its significand bits beyond 24 above (log 13). -/
opaque treeRound : Nat → Word → Word → Nat → Option Nat

/-- The entry, in the widths of its row, by which an element is laid out and decodes whose bank names an entry that does not fit the row
(03 R83 gives no layout): a function of the operation's sequence number, its iteration, the element and the two entries (log 33). -/
opaque misfitEntry : List Nat → Nat

/-- The integer that a weight of entry `e` and code `c` counts as in a plane of another KIND whose terms are integers, which 04 Table 4.1
and R93 do not state (log 33). -/
opaque mixedWeight : Nat → Nat → Int

/-- An accumulator word after a pass whose operand kinds Table 4.1 does not pair: it can meet one only where a `wload` or a
`wswap` that issue order counted on was cancelled (log 25). -/
opaque openAcc : Nat → W32

/-- The average power in watts over the last 10,000 ticks, for the n-th reading (19 R457). -/
opaque watts : Nat → BitVec 16

/-- B of the intensity classifier: bytes moved at the HBM interface for a node attempt, for the n-th choice (17 R397). -/
opaque hbmBytes : Nat → Nat

/-- Whether the n-th bring-up check succeeds (19 Table 19.11: fuses, memory test, link port, fabric). -/
opaque bringUp : Nat → Bool

/-- The byte of the firmware ROM at an offset (19 Table 19.1). -/
opaque rom : Nat → Byte

/-- The fuse configuration that extends MEAS1 (19 R462). -/
opaque fuses : List Byte

/-- Whether a data image verifies under both root keys and its security version is not below the fused minimum (19 R461). -/
opaque imageVerifies : List Byte → Bool

/-- Whether a data image holds fabric-port parameters, and not a thermal or a patch table (19 R460). -/
opaque fabricImage : List Byte → Bool

/-- The certificate chain of the attestation key (19 R463). -/
opaque certChain : List Byte

/-- The signature by the attestation key of a transcript (19 R463). -/
opaque sign : List Byte → List Byte

/-- The nonce of the n-th signed response (19 R463). -/
opaque nonce : Nat → BitVec 256

/-- The byte at an offset of the parts of a context-save area whose arrangement is implementation-chosen, for the n-th save
(18 R425, 20 Table 20.6). -/
opaque saveByte : Nat → Nat → Byte

end Sys2Proof.Config
end

