-- ==== Sys2Proof/WellFormed.lean ====
section
/-! DEFINITION. Which instructions the encoding tables admit (08 R187, R189; 11 R263). -/
namespace Sys2Proof

/-- A whole zero operand field: "—" in 11 Table 11.2. -/
def VOpnd.none (o : VOpnd) : Bool := decide (o.p.val = 0) && decide (o.dir.val = 0) && decide (o.idx.val = 0)

/-- A field that holds a number below `n`: its DIR and IDX are zero (11 R263). -/
def VOpnd.num (o : VOpnd) (n : Nat) : Bool := decide (o.p.val < n) && decide (o.dir.val = 0) && decide (o.idx.val = 0)

/-- A field that uses IDX only (the lane j of two forms of `vmov`). -/
def VOpnd.idxOnly (o : VOpnd) : Bool := decide (o.p.val = 0) && decide (o.dir.val = 0)

/-- A panel operand: DIR 3 requires IDX 0 (08 R185). -/
def VOpnd.panel (o : VOpnd) : Bool := decide (o.dir.val = 3 → o.idx.val = 0)

/-- The lane count of a panel operand (11 R257). -/
def VOpnd.lanes (o : VOpnd) : Nat := if o.dir.val = 3 then 256 else 16

/-- RM values that R185 admits. -/
def rmAdmitted (rm : Fin 16) : Bool := decide (rm.val ≤ 4) || (decide (8 ≤ rm.val) && decide (rm.val ≤ 12)) || decide (rm.val = 15)

/-- RM values of a reduction or scan: no SR in the word (11 R276). -/
def rmNoSr (rm : Fin 16) : Bool := rmAdmitted rm && decide (rm.val ≠ 4) && decide (rm.val ≠ 12)

/-- P P P — with one shape. -/
def VFields.ppp (f : VFields) : Bool :=
  f.vd.panel && f.va.panel && f.vb.panel && f.vc.none && decide (f.vd.lanes = f.va.lanes) && decide (f.vd.lanes = f.vb.lanes)

/-- P P — — with one shape. -/
def VFields.pp (f : VFields) : Bool :=
  f.vd.panel && f.va.panel && f.vb.none && f.vc.none && decide (f.vd.lanes = f.va.lanes)

/-- RM is zero: the instruction does not round. -/
def VFields.rm0 (f : VFields) : Bool := decide (f.rm.val = 0)

/-- KM is zero: the instruction uses no mask. -/
def VFields.km0 (f : VFields) : Bool := decide (f.km.val = 0)

/-- 11 Table 11.2, one arm per row; 09 R208, R210; 08 R183; 10 R247, R256. -/
def Instr.wellFormed : Instr → Bool
  | .bext _ _ pos len => decide (pos.toNat + len.toNat + 1 ≤ 64)
  | .bins _ _ pos len => decide (pos.toNat + len.toNat + 1 ≤ 64)
  | .loop ga _ => decide (ga.val ≠ 0)
  | .ld sz sx _ _ _ => decide (sz = .d → sx = false)
  | .ldx sz sx _ _ _ => decide (sz = .d → sx = false)
  | .ldt sz sx _ _ _ => decide (sz = .d → sx = false)
  | .rndkLo _ _ gb => decide (gb.val ≠ 31)
  | .rndkHi _ _ gb => decide (gb.val ≠ 31)
  | .yield imm => decide (imm.toNat ≠ 0)
  | .vadd f => f.ppp && rmAdmitted f.rm
  | .vsub f => f.ppp && rmAdmitted f.rm
  | .vmul f => f.ppp && rmAdmitted f.rm
  | .vdiv f => f.ppp && rmAdmitted f.rm
  | .vfma f => { f with vc := ⟨0, 0, 0⟩ : VFields }.ppp && f.vc.panel && decide (f.vd.lanes = f.vc.lanes) && rmAdmitted f.rm
  | .vfms f => { f with vc := ⟨0, 0, 0⟩ : VFields }.ppp && f.vc.panel && decide (f.vd.lanes = f.vc.lanes) && rmAdmitted f.rm
  | .vfnma f => { f with vc := ⟨0, 0, 0⟩ : VFields }.ppp && f.vc.panel && decide (f.vd.lanes = f.vc.lanes) && rmAdmitted f.rm
  | .vmin f => f.ppp && f.rm0
  | .vmax f => f.ppp && f.rm0
  | .vabs f => f.pp && f.rm0
  | .vneg f => f.pp && f.rm0
  | .vrcp f => f.pp && rmAdmitted f.rm
  | .vrsq f => f.pp && rmAdmitted f.rm
  | .vsqrt f => f.pp && rmAdmitted f.rm
  | .vexp2 f => f.pp && rmAdmitted f.rm
  | .vlog2 f => f.pp && rmAdmitted f.rm
  | .vcmp f => f.vd.num 8 && f.va.panel && f.vb.panel && decide (f.va.lanes = f.vb.lanes) && f.vc.num 8 && f.rm0
  | .vsel f => { f with vc := ⟨0, 0, 0⟩ : VFields }.ppp && f.vc.num 8 && f.rm0
  | .vand f => f.ppp && f.rm0
  | .vor f => f.ppp && f.rm0
  | .vxor f => f.ppp && f.rm0
  | .vshl f => f.ppp && f.rm0
  | .vshr f => f.ppp && f.rm0
  | .vsra f => f.ppp && f.rm0
  | .viadd f => f.ppp && rmAdmitted f.rm
  | .visub f => f.ppp && rmAdmitted f.rm
  | .vimul f => f.ppp && rmAdmitted f.rm
  | .vcvt f => f.vd.panel && f.va.panel && decide (f.vd.lanes = f.va.lanes) && f.vb.num 16 && f.vc.num 16 && rmAdmitted f.rm
  | .vbcast f => f.vd.panel && f.va.num 32 && f.vb.none && f.vc.none && f.rm0
  | .vbcastRows f => f.vd.panel && decide (f.vd.lanes = 256) && f.va.panel && decide (f.va.lanes = 16) && f.vb.none &&
      f.vc.num 2 && decide (f.vc.p.val = 1) && f.rm0
  | .vbcastCols f => f.vd.panel && decide (f.vd.lanes = 256) && f.va.panel && decide (f.va.lanes = 16) && f.vb.none &&
      f.vc.num 3 && decide (f.vc.p.val = 2) && f.rm0
  | .vmov f => f.pp && f.rm0
  | .vmovToG f => f.vd.num 32 && f.va.panel && decide (f.va.lanes = 16) && f.vb.idxOnly && f.vc.num 2 &&
      decide (f.vc.p.val = 1) && f.km0 && f.rm0
  | .vmovFromG f => f.vd.panel && decide (f.vd.lanes = 16) && f.va.num 32 && f.vb.idxOnly && f.vc.num 3 &&
      decide (f.vc.p.val = 2) && f.km0 && f.rm0
  | .vld f => f.vd.panel && f.va.num 32 && f.vb.num 32 && f.vc.none && f.rm0
  | .vst f => f.vd.panel && f.va.num 32 && f.vb.num 32 && f.vc.none && f.rm0
  | .vred f => f.vd.panel && decide (f.vd.lanes = 16) && f.va.panel && f.vb.none && f.vc.num 6 && rmNoSr f.rm
  | .vscan f => f.vd.panel && f.va.panel && decide (f.vd.lanes = f.va.lanes) && f.vb.none && f.vc.num 6 && rmNoSr f.rm
  | .vperm f => f.ppp && f.rm0
  | .vtrans f => f.pp && decide (f.vd.lanes = 256) && f.rm0
  | .vrng f => f.vd.panel && f.va.num 32 && f.vb.num 32 && f.vc.num 32 && f.rm0
  | .vidx f => f.vd.panel && f.va.num 32 && f.vb.none && f.vc.none && f.rm0
  | .kand f => f.vd.num 8 && f.va.num 8 && f.vb.num 8 && f.vc.none && f.km0 && f.rm0
  | .kor f => f.vd.num 8 && f.va.num 8 && f.vb.num 8 && f.vc.none && f.km0 && f.rm0
  | .knot f => f.vd.num 8 && f.va.num 8 && f.vb.none && f.vc.none && f.km0 && f.rm0
  | .kpop f => f.vd.num 32 && f.va.num 8 && f.vb.none && f.vc.none && f.km0 && f.rm0
  | .mdrain r => !r.chain
  | .mdrainDirect r => r.chain
  | _ => true

end Sys2Proof
end

