-- ==== Sys2Proof/Decode.lean ====
section
/-! DEFINITION. The decoder, total on any bytes, and the encoder, both from 08 Tables 8.4 to 8.9 and 12 R284, R286. -/
namespace Sys2Proof

/-! ## Fields -/

/-- The register that five bits of a word name. -/
def regAt (w lo : Nat) : Reg := Fin.ofNat 32 (field w lo 5)

/-- GD, GA, GB and GC (08 Table 8.4). -/
def gdOf (w : Nat) : Reg := regAt w 21
def gaOf (w : Nat) : Reg := regAt w 16
def gbOf (w : Nat) : Reg := regAt w 11
def gcOf (w : Nat) : Reg := regAt w 6

/-- A field as a bit vector. -/
def bvAt (w lo n : Nat) : BitVec n := BitVec.ofNat n (field w lo n)

/-- Why a unit is no instruction: each raises ILLEGAL_INSTRUCTION (08 R187, R189, R190). -/
inductive Reject where
  /-- Fewer bytes than the unit has. -/
  | truncated
  /-- A major opcode that 08 Table 8.6 reserves. -/
  | major
  /-- A function value, VOP or record code that the tables do not list. -/
  | function
  /-- A reserved or unused field that is not zero. -/
  | reserved
  /-- A field value outside its limits, or a broken rule of 11 Table 11.2. -/
  | limit
  deriving DecidableEq, Repr

/-- How many words the unit whose first word is `w` has (08 R195): 16 for a record, 2 for a vector pair or a `pfx`. -/
def unitWords (w : Nat) : Nat :=
  if field w 26 6 = 0x3D then 16 else if field w 26 6 = 0x3E then 2 else if field w 26 6 = 0x28 then 2 else 1

/-! ## Reading the fields of each format -/

/-- Major opcode 0x01 (08 Table 8.7). -/
def parseAlu (w : Nat) : Option Instr :=
  match field w 0 11 with
  | 0 => some (.add (gdOf w) (gaOf w) (gbOf w))
  | 1 => some (.sub (gdOf w) (gaOf w) (gbOf w))
  | 2 => some (.mul (gdOf w) (gaOf w) (gbOf w))
  | 3 => some (.mulh (gdOf w) (gaOf w) (gbOf w))
  | 4 => some (.mulhn (gdOf w) (gaOf w) (gbOf w))
  | 5 => some (.div (gdOf w) (gaOf w) (gbOf w))
  | 6 => some (.divn (gdOf w) (gaOf w) (gbOf w))
  | 7 => some (.rem (gdOf w) (gaOf w) (gbOf w))
  | 8 => some (.remn (gdOf w) (gaOf w) (gbOf w))
  | 16 => some (.and (gdOf w) (gaOf w) (gbOf w))
  | 17 => some (.or (gdOf w) (gaOf w) (gbOf w))
  | 18 => some (.xor (gdOf w) (gaOf w) (gbOf w))
  | 19 => some (.andn (gdOf w) (gaOf w) (gbOf w))
  | 24 => some (.shl (gdOf w) (gaOf w) (gbOf w))
  | 25 => some (.shr (gdOf w) (gaOf w) (gbOf w))
  | 26 => some (.sra (gdOf w) (gaOf w) (gbOf w))
  | 27 => some (.rotl (gdOf w) (gaOf w) (gbOf w))
  | 32 => some (.min (gdOf w) (gaOf w) (gbOf w))
  | 33 => some (.max (gdOf w) (gaOf w) (gbOf w))
  | 34 => some (.minn (gdOf w) (gaOf w) (gbOf w))
  | 35 => some (.maxn (gdOf w) (gaOf w) (gbOf w))
  | 40 => some (.slt (gdOf w) (gaOf w) (gbOf w))
  | 41 => some (.sltn (gdOf w) (gaOf w) (gbOf w))
  | 42 => some (.seq (gdOf w) (gaOf w) (gbOf w))
  | 48 => some (.clz (gdOf w) (gaOf w))
  | 49 => some (.ctz (gdOf w) (gaOf w))
  | 50 => some (.popc (gdOf w) (gaOf w))
  | _ => none

/-- Major opcode 0x0D (08 Table 8.6). -/
def parseBits (w : Nat) : Option Instr :=
  match field w 12 4 with
  | 0 => some (.bext (gdOf w) (gaOf w) (bvAt w 6 6) (bvAt w 0 6))
  | 1 => some (.bins (gdOf w) (gaOf w) (bvAt w 6 6) (bvAt w 0 6))
  | 2 => some (.sext (gdOf w) (gaOf w) (bvAt w 0 6))
  | 3 => some (.zext (gdOf w) (gaOf w) (bvAt w 0 6))
  | _ => none

/-- Major opcode 0x16. -/
def parseLoop (w : Nat) : Option Instr :=
  match field w 16 5 with
  | 0 => some (.loop (gdOf w) (bvAt w 0 16))
  | 1 => some (.jr (gdOf w))
  | 2 => some .ret
  | _ => none

/-- Major opcode 0x17. -/
def parseCall (w : Nat) : Option Instr :=
  if h : field w 21 5 < 21 then some (.call ⟨field w 21 5, h⟩ (bvAt w 0 21))
  else if field w 21 5 = 31 then some (.b (bvAt w 0 21)) else none

/-- SZ and SX of format M. -/
def szOf (w : Nat) : Size := Size.ofCode (field w 14 2)
def sxOf (w : Nat) : Bool := bit w 13

/-- An atomic on a scratchpad (OP 0x24). -/
def mkAtom (op : Aop) (wide : Bool) (gd ga gb : Reg) : Instr :=
  match op with
  | .add => .aadd wide gd ga gb
  | .min => .amin wide gd ga gb
  | .max => .amax wide gd ga gb
  | .minn => .aminn wide gd ga gb
  | .maxn => .amaxn wide gd ga gb
  | .and => .aand wide gd ga gb
  | .or => .aor wide gd ga gb
  | .xor => .axor wide gd ga gb
  | .xchg => .axchg wide gd ga gb
  | .cas => .acas wide gd ga gb

/-- An atomic on a remote scratchpad (OP 0x25). -/
def mkAtomRemote (op : Aop) (wide : Bool) (gd ga gb : Reg) : Instr :=
  match op with
  | .add => .aaddRemote wide gd ga gb
  | .min => .aminRemote wide gd ga gb
  | .max => .amaxRemote wide gd ga gb
  | .minn => .aminnRemote wide gd ga gb
  | .maxn => .amaxnRemote wide gd ga gb
  | .and => .aandRemote wide gd ga gb
  | .or => .aorRemote wide gd ga gb
  | .xor => .axorRemote wide gd ga gb
  | .xchg => .axchgRemote wide gd ga gb
  | .cas => .acasRemote wide gd ga gb

/-- An atomic on tensor memory (OP 0x26, 0x27). -/
def mkAtomTensor (op : Aop) (wide : Bool) (gd ga gb : Reg) (desc : BitVec 7) : Instr :=
  match op with
  | .add => .aaddTensor wide gd ga gb desc
  | .min => .aminTensor wide gd ga gb desc
  | .max => .amaxTensor wide gd ga gb desc
  | .minn => .aminnTensor wide gd ga gb desc
  | .maxn => .amaxnTensor wide gd ga gb desc
  | .and => .aandTensor wide gd ga gb desc
  | .or => .aorTensor wide gd ga gb desc
  | .xor => .axorTensor wide gd ga gb desc
  | .xchg => .axchgTensor wide gd ga gb desc
  | .cas => .acasTensor wide gd ga gb desc

/-- Major opcode 0x2A. -/
def parseCell (w : Nat) : Option Instr :=
  match field w 0 11 with
  | 0 => some (.acqx (gaOf w))
  | 1 => some (.acqs (gaOf w))
  | 2 => some (.rel (gaOf w))
  | 3 => some (.bind (gaOf w) (gbOf w))
  | 4 => some (.unbind (gaOf w) (gbOf w))
  | _ => none

/-- QN of format Q. -/
def qnOf (w : Nat) : Fin 16 := Fin.ofNat 16 (field w 12 4)

/-- Major opcode 0x2C (10 Table 10.1). -/
def parseQueue (w : Nat) : Option Instr :=
  match field w 8 4 with
  | 0 => some (.qpush (qnOf w) (gdOf w))
  | 1 => some (.qpop (gdOf w) (qnOf w))
  | 2 => some (.qtry (gdOf w) (qnOf w))
  | 3 => some (.qpeek (gdOf w) (qnOf w))
  | 4 => some (.qcnt (gdOf w) (qnOf w))
  | 5 => some (.qpushx (gdOf w) (qnOf w) (gaOf w))
  | _ => none

/-- Major opcode 0x30 (10 Table 10.2). -/
def parseBarrier (w : Nat) : Option Instr :=
  if h : field w 0 5 < 24 then
    match field w 8 3 with
    | 0 => some (.barset ⟨field w 0 5, h⟩ (gaOf w))
    | 1 => some (.barv ⟨field w 0 5, h⟩)
    | 2 => some (.barw ⟨field w 0 5, h⟩)
    | 3 => some (.bart (gdOf w) ⟨field w 0 5, h⟩)
    | 4 => some (.barws (gdOf w) ⟨field w 0 5, h⟩ (gaOf w))
    | _ => none
  else none

/-- Major opcode 0x34 (10 Table 10.4). -/
def parseOp (w : Nat) : Option Instr :=
  match field w 0 11 with
  | 0 => some (.opwait (gdOf w) (gaOf w))
  | 1 => some (.opcancel (gaOf w))
  | 2 => some (.optest (gdOf w) (gaOf w))
  | 3 => some (.opprio (gaOf w) (gbOf w))
  | 4 => some (.opdetach (gaOf w))
  | _ => none

/-- Major opcode 0x38. -/
def parseSystem (w : Nat) : Option Instr :=
  match field w 4 7 with
  | 0 => some .exit
  | 1 => some .brk
  | 2 => some .publish
  | 3 => some (.fmtset (Fin.ofNat 16 (field w 0 4)) (gaOf w))
  | 4 => some (.fmtget (gdOf w) (Fin.ofNat 16 (field w 0 4)))
  | 5 => some (.rdsc (gdOf w))
  | 6 => if bit w 0 then some (.rndkHi (gdOf w) (gaOf w) (gbOf w)) else some (.rndkLo (gdOf w) (gaOf w) (gbOf w))
  | 7 => some (.trap (Fin.ofNat 16 (field w 0 4)))
  | _ => none

/-- A panel operand from its P, DIR and IDX bits. -/
def opndAt (p dir idx : Nat) : VOpnd := { p := Fin.ofNat 32 p, dir := Fin.ofNat 4 dir, idx := Fin.ofNat 16 idx }

/-- The fields of a format V pair (08 Table 8.5). -/
def parseVFields (w0 w1 : Nat) : VFields where
  km := Fin.ofNat 8 (field w0 16 3)
  vd := opndAt (field w0 11 5) (field w0 9 2) (field w0 5 4)
  va := opndAt (field w0 0 5) (field w1 30 2) (field w1 26 4)
  vb := opndAt (field w1 21 5) (field w1 19 2) (field w1 15 4)
  vc := opndAt (field w1 10 5) (field w1 8 2) (field w1 4 4)
  rm := Fin.ofNat 16 (field w1 0 4)

/-- The instruction of a VOP (08 Table 8.8); VC.P tells the forms of `vbcast` and `vmov` apart (11 Table 11.2). -/
def parseVector (vop : Nat) (f : VFields) : Option Instr :=
  match vop with
  | 0x0 => some (.vadd f)
  | 0x1 => some (.vsub f)
  | 0x2 => some (.vmul f)
  | 0x3 => some (.vfma f)
  | 0x4 => some (.vfms f)
  | 0x5 => some (.vfnma f)
  | 0x6 => some (.vmin f)
  | 0x7 => some (.vmax f)
  | 0x8 => some (.vabs f)
  | 0x9 => some (.vneg f)
  | 0xa => some (.vrcp f)
  | 0xb => some (.vrsq f)
  | 0xc => some (.vsqrt f)
  | 0xd => some (.vdiv f)
  | 0xe => some (.vexp2 f)
  | 0xf => some (.vlog2 f)
  | 0x10 => some (.vcmp f)
  | 0x11 => some (.vsel f)
  | 0x18 => some (.vand f)
  | 0x19 => some (.vor f)
  | 0x1a => some (.vxor f)
  | 0x1b => some (.vshl f)
  | 0x1c => some (.vshr f)
  | 0x1d => some (.vsra f)
  | 0x20 => some (.viadd f)
  | 0x21 => some (.visub f)
  | 0x22 => some (.vimul f)
  | 0x28 => some (.vcvt f)
  | 0x29 => match f.vc.p.val with
    | 0 => some (.vbcast f)
    | 1 => some (.vbcastRows f)
    | 2 => some (.vbcastCols f)
    | _ => none
  | 0x2a => match f.vc.p.val with
    | 0 => some (.vmov f)
    | 1 => some (.vmovToG f)
    | 2 => some (.vmovFromG f)
    | _ => none
  | 0x30 => some (.vld f)
  | 0x31 => some (.vst f)
  | 0x38 => some (.vred f)
  | 0x39 => some (.vscan f)
  | 0x3a => some (.vperm f)
  | 0x3b => some (.vtrans f)
  | 0x40 => some (.vrng f)
  | 0x41 => some (.vidx f)
  | 0x48 => some (.kand f)
  | 0x49 => some (.kor f)
  | 0x4a => some (.knot f)
  | 0x4b => some (.kpop f)
  | _ => none

/-- Word `i` of a unit. -/
def wordAt (ws : List Nat) (i : Nat) : Nat := ws.getD i 0

/-- Four 24-bit strides from three words (12 R286). -/
def parseStrides (w0 w1 w2 : Nat) : Quad (BitVec 24) where
  q0 := bvAt w0 0 24
  q1 := BitVec.ofNat 24 (field w0 24 8 + field w1 0 16 * 256)
  q2 := BitVec.ofNat 24 (field w1 16 16 + field w2 0 8 * 65536)
  q3 := bvAt w2 8 24

/-- The fields of a record (12 R284, Table 12.2). -/
def parseRec (ws : List Nat) : Rec where
  prio := bvAt (wordAt ws 0) 16 4
  detach := bit (wordAt ws 0) 15
  det := bit (wordAt ws 0) 14
  stamp := bit (wordAt ws 0) 13
  cq := bvAt (wordAt ws 0) 8 5
  tok := bvAt (wordAt ws 0) 5 3
  epi := bit (wordAt ws 0) 4
  chain := bit (wordAt ws 0) 3
  accsat := bit (wordAt ws 0) 2
  prof := bvAt (wordAt ws 0) 0 2
  trip := { q0 := bvAt (wordAt ws 1) 0 16, q1 := bvAt (wordAt ws 1) 16 16, q2 := bvAt (wordAt ws 2) 0 16,
            q3 := bvAt (wordAt ws 2) 16 16 }
  sa := parseStrides (wordAt ws 3) (wordAt ws 4) (wordAt ws 5)
  sb := parseStrides (wordAt ws 6) (wordAt ws 7) (wordAt ws 8)
  sd := parseStrides (wordAt ws 9) (wordAt ws 10) (wordAt ws 11)
  ha := bvAt (wordAt ws 12) 0 16
  hb := bvAt (wordAt ws 12) 16 16
  rsv13 := bit (wordAt ws 13) 31
  ed := bit (wordAt ws 13) 30
  eb := bit (wordAt ws 13) 29
  ea := bit (wordAt ws 13) 28
  fd := Fin.ofNat 16 (field (wordAt ws 13) 24 4)
  fb := Fin.ofNat 16 (field (wordAt ws 13) 20 4)
  fa := Fin.ofNat 16 (field (wordAt ws 13) 16 4)
  hd := bvAt (wordAt ws 13) 0 16
  w14 := bvAt (wordAt ws 14) 0 32
  rm := bvAt (wordAt ws 15) 28 4
  cpay := bvAt (wordAt ws 15) 0 28

/-- The record of an operation code (08 Table 8.9); CHAIN tells the direct drain apart (12 R309). -/
def parseRecord (opc : Nat) (r : Rec) : Option Instr :=
  match opc with
  | 0x1 => some (.tload r)
  | 0x2 => some (.tgather r)
  | 0x3 => some (.sload r)
  | 0x4 => some (.xpull r)
  | 0x5 => some (.fill r)
  | 0x6 => some (.mcred r)
  | 0x7 => some (.rload r)
  | 0x10 => some (.wload r)
  | 0x11 => some (.wswap r)
  | 0x12 => some (.mma r)
  | 0x13 => some (.mmas r)
  | 0x14 => if r.chain then some (.mdrainDirect r) else some (.mdrain r)
  | 0x15 => some (.mzero r)
  | 0x16 => some (.mchain r)
  | 0x17 => some (.mcopy r)
  | 0x20 => some (.tstore r)
  | 0x21 => some (.tscatter r)
  | 0x22 => some (.tred r)
  | 0x23 => some (.rstore r)
  | 0x24 => some (.rsig r)
  | 0x25 => some (.xpush r)
  | _ => none

/-- The fields of a unit, by its major opcode (08 Table 8.6). -/
def parse (ws : List Nat) : Except Reject Instr :=
  let w := wordAt ws 0
  let some_ : Option Instr → Except Reject Instr := fun o => match o with
    | some i => .ok i
    | none => .error .function
  match field w 26 6 with
  | 0x01 => some_ (parseAlu w)
  | 0x02 => .ok (.addi (gdOf w) (gaOf w) (bvAt w 0 16))
  | 0x03 => .ok (.andi (gdOf w) (gaOf w) (bvAt w 0 16))
  | 0x04 => .ok (.ori (gdOf w) (gaOf w) (bvAt w 0 16))
  | 0x05 => .ok (.xori (gdOf w) (gaOf w) (bvAt w 0 16))
  | 0x06 => .ok (.shli (gdOf w) (gaOf w) (bvAt w 0 6))
  | 0x07 => .ok (.shri (gdOf w) (gaOf w) (bvAt w 0 6))
  | 0x08 => .ok (.srai (gdOf w) (gaOf w) (bvAt w 0 6))
  | 0x09 => .ok (.slti (gdOf w) (gaOf w) (bvAt w 0 16))
  | 0x0A => .ok (.li (gdOf w) (bvAt w 0 21))
  | 0x0B => .ok (.lih (gdOf w) (bvAt w 0 21))
  | 0x0C => .ok (.madd (gdOf w) (gaOf w) (gbOf w) (gcOf w))
  | 0x0D => some_ (parseBits w)
  | 0x10 => .ok (.beq (gdOf w) (gaOf w) (bvAt w 0 16))
  | 0x11 => .ok (.bne (gdOf w) (gaOf w) (bvAt w 0 16))
  | 0x12 => .ok (.blt (gdOf w) (gaOf w) (bvAt w 0 16))
  | 0x13 => .ok (.bge (gdOf w) (gaOf w) (bvAt w 0 16))
  | 0x14 => .ok (.bltn (gdOf w) (gaOf w) (bvAt w 0 16))
  | 0x15 => .ok (.bgen (gdOf w) (gaOf w) (bvAt w 0 16))
  | 0x16 => some_ (parseLoop w)
  | 0x17 => some_ (parseCall w)
  | 0x18 => .ok (.ld (szOf w) (sxOf w) (gdOf w) (gaOf w) (bvAt w 0 13))
  | 0x19 => .ok (.st (szOf w) (gdOf w) (gaOf w) (bvAt w 0 13))
  | 0x1A => .ok (.ldx (szOf w) (sxOf w) (gdOf w) (gaOf w) (bvAt w 0 13))
  | 0x1B => .ok (.stx (szOf w) (gdOf w) (gaOf w) (bvAt w 0 13))
  | 0x20 => .ok (.ldt (szOf w) (sxOf w) (gdOf w) (gaOf w) (bvAt w 0 12))
  | 0x21 => .ok (.stt (szOf w) (gdOf w) (gaOf w) (bvAt w 0 12))
  | 0x22 => match field w 21 5 with
    | 0 => .ok (.dset (gaOf w) (bvAt w 0 12))
    | 1 => .ok (.dget (gaOf w) (bvAt w 0 12))
    | _ => .error .function
  | 0x23 => .ok (.probe (bit w 12) (gdOf w) (gaOf w) (bvAt w 0 12))
  | 0x24 => some_ ((Aop.ofCode (field w 7 4)).map fun op => mkAtom op (bit w 6) (gdOf w) (gaOf w) (gbOf w))
  | 0x25 => some_ ((Aop.ofCode (field w 7 4)).map fun op => mkAtomRemote op (bit w 6) (gdOf w) (gaOf w) (gbOf w))
  | 0x26 => some_ ((Aop.ofCode (field w 7 4)).map fun op => mkAtomTensor op false (gdOf w) (gaOf w) (gbOf w) (bvAt w 0 7))
  | 0x27 => some_ ((Aop.ofCode (field w 7 4)).map fun op => mkAtomTensor op true (gdOf w) (gaOf w) (gbOf w) (bvAt w 0 7))
  | 0x28 => match Modifier.ofCode (field w 0 21) with
    | some m => .ok (.pfx m (BitVec.ofNat 32 (wordAt ws 1)))
    | none => .error .limit
  | 0x29 => match Scope.ofCode (field w 0 3) with
    | some sc => .ok (.fence sc)
    | none => .error .limit
  | 0x2A => some_ (parseCell w)
  | 0x2B => .ok (.sigwait (gdOf w) (gaOf w) (gbOf w))
  | 0x2C => some_ (parseQueue w)
  | 0x30 => some_ (parseBarrier w)
  | 0x34 => some_ (parseOp w)
  | 0x35 => .ok (.launch (gaOf w))
  | 0x38 => some_ (parseSystem w)
  | 0x39 => .ok (.ctlrd (gdOf w) (bvAt w 0 12))
  | 0x3A => .ok (.ctlwr (bvAt w 0 12) (gaOf w))
  | 0x3B => .ok (.yield (bvAt w 0 21))
  | 0x3D => some_ (parseRecord (field w 20 6) (parseRec ws))
  | 0x3E => some_ (parseVector (field w 19 7) (parseVFields w (wordAt ws 1)))
  | _ => .error .major

/-! ## The encoder -/

/-- Format T (08 Table 8.4). -/
def encT (op : Nat) (gd ga gb : Nat) (func : Nat) : List Nat :=
  [op * 2 ^ 26 + gd * 2 ^ 21 + ga * 2 ^ 16 + gb * 2 ^ 11 + func]

/-- Format I. -/
def encI (op : Nat) (gd ga : Nat) (imm : Nat) : List Nat := [op * 2 ^ 26 + gd * 2 ^ 21 + ga * 2 ^ 16 + imm]

/-- Format M. -/
def encM (op : Nat) (sz : Size) (sx : Bool) (gd ga : Nat) (disp : Nat) : List Nat :=
  [op * 2 ^ 26 + gd * 2 ^ 21 + ga * 2 ^ 16 + sz.code * 2 ^ 14 + b2n sx * 2 ^ 13 + disp]

/-- Formats J and W. -/
def encW (op : Nat) (gd : Nat) (imm : Nat) : List Nat := [op * 2 ^ 26 + gd * 2 ^ 21 + imm]

/-- Format Q. -/
def encQ (gx gy qn func : Nat) : List Nat :=
  [0x2C * 2 ^ 26 + gx * 2 ^ 21 + gy * 2 ^ 16 + qn * 2 ^ 12 + func * 2 ^ 8]

/-- Format V (08 Table 8.5). -/
def encV (vop : Nat) (f : VFields) : List Nat :=
  [0x3E * 2 ^ 26 + vop * 2 ^ 19 + f.km.val * 2 ^ 16 + f.vd.p.val * 2 ^ 11 + f.vd.dir.val * 2 ^ 9 + f.vd.idx.val * 2 ^ 5 +
     f.va.p.val,
   f.va.dir.val * 2 ^ 30 + f.va.idx.val * 2 ^ 26 + f.vb.p.val * 2 ^ 21 + f.vb.dir.val * 2 ^ 19 + f.vb.idx.val * 2 ^ 15 +
     f.vc.p.val * 2 ^ 10 + f.vc.dir.val * 2 ^ 8 + f.vc.idx.val * 2 ^ 4 + f.rm.val]

/-- The first, second and third word of four strides (12 R286). -/
def encStrides (q : Quad (BitVec 24)) : List Nat :=
  [q.q0.toNat + q.q1.toNat % 256 * 2 ^ 24, q.q1.toNat / 256 + q.q2.toNat % 65536 * 2 ^ 16,
   q.q2.toNat / 65536 + q.q3.toNat * 2 ^ 8]

/-- Format K (12 R284, Table 12.2). -/
def encK (opc : Nat) (r : Rec) : List Nat :=
  [0x3D * 2 ^ 26 + opc * 2 ^ 20 + r.prio.toNat * 2 ^ 16 + b2n r.detach * 2 ^ 15 + b2n r.det * 2 ^ 14 + b2n r.stamp * 2 ^ 13 +
     r.cq.toNat * 2 ^ 8 + r.tok.toNat * 2 ^ 5 + b2n r.epi * 2 ^ 4 + b2n r.chain * 2 ^ 3 + b2n r.accsat * 2 ^ 2 + r.prof.toNat,
   r.trip.q1.toNat * 2 ^ 16 + r.trip.q0.toNat, r.trip.q3.toNat * 2 ^ 16 + r.trip.q2.toNat] ++
  (encStrides r.sa ++ (encStrides r.sb ++ (encStrides r.sd ++
  [r.hb.toNat * 2 ^ 16 + r.ha.toNat,
   b2n r.rsv13 * 2 ^ 31 + b2n r.ed * 2 ^ 30 + b2n r.eb * 2 ^ 29 + b2n r.ea * 2 ^ 28 + r.fd.val * 2 ^ 24 + r.fb.val * 2 ^ 20 +
     r.fa.val * 2 ^ 16 + r.hd.toNat,
   r.w14.toNat, r.rm.toNat * 2 ^ 28 + r.cpay.toNat])))

/-- The words of an instruction's unit; an event has none. -/
def encode : Instr → List Nat
  | .add gd ga gb => encT 0x01 gd.val ga.val gb.val 0x0
  | .sub gd ga gb => encT 0x01 gd.val ga.val gb.val 0x1
  | .mul gd ga gb => encT 0x01 gd.val ga.val gb.val 0x2
  | .mulh gd ga gb => encT 0x01 gd.val ga.val gb.val 0x3
  | .mulhn gd ga gb => encT 0x01 gd.val ga.val gb.val 0x4
  | .div gd ga gb => encT 0x01 gd.val ga.val gb.val 0x5
  | .divn gd ga gb => encT 0x01 gd.val ga.val gb.val 0x6
  | .rem gd ga gb => encT 0x01 gd.val ga.val gb.val 0x7
  | .remn gd ga gb => encT 0x01 gd.val ga.val gb.val 0x8
  | .and gd ga gb => encT 0x01 gd.val ga.val gb.val 0x10
  | .or gd ga gb => encT 0x01 gd.val ga.val gb.val 0x11
  | .xor gd ga gb => encT 0x01 gd.val ga.val gb.val 0x12
  | .andn gd ga gb => encT 0x01 gd.val ga.val gb.val 0x13
  | .shl gd ga gb => encT 0x01 gd.val ga.val gb.val 0x18
  | .shr gd ga gb => encT 0x01 gd.val ga.val gb.val 0x19
  | .sra gd ga gb => encT 0x01 gd.val ga.val gb.val 0x1a
  | .rotl gd ga gb => encT 0x01 gd.val ga.val gb.val 0x1b
  | .min gd ga gb => encT 0x01 gd.val ga.val gb.val 0x20
  | .max gd ga gb => encT 0x01 gd.val ga.val gb.val 0x21
  | .minn gd ga gb => encT 0x01 gd.val ga.val gb.val 0x22
  | .maxn gd ga gb => encT 0x01 gd.val ga.val gb.val 0x23
  | .slt gd ga gb => encT 0x01 gd.val ga.val gb.val 0x28
  | .sltn gd ga gb => encT 0x01 gd.val ga.val gb.val 0x29
  | .seq gd ga gb => encT 0x01 gd.val ga.val gb.val 0x2a
  | .clz gd ga => encT 0x01 gd.val ga.val 0 0x30
  | .ctz gd ga => encT 0x01 gd.val ga.val 0 0x31
  | .popc gd ga => encT 0x01 gd.val ga.val 0 0x32
  | .addi gd ga imm => encI 0x2 gd.val ga.val imm.toNat
  | .andi gd ga imm => encI 0x3 gd.val ga.val imm.toNat
  | .ori gd ga imm => encI 0x4 gd.val ga.val imm.toNat
  | .xori gd ga imm => encI 0x5 gd.val ga.val imm.toNat
  | .shli gd ga imm => encI 0x6 gd.val ga.val imm.toNat
  | .shri gd ga imm => encI 0x7 gd.val ga.val imm.toNat
  | .srai gd ga imm => encI 0x8 gd.val ga.val imm.toNat
  | .slti gd ga imm => encI 0x9 gd.val ga.val imm.toNat
  | .li gd imm => encW 0x0A gd.val imm.toNat
  | .lih gd imm => encW 0x0B gd.val imm.toNat
  | .madd gd ga gb gc => encT 0x0C gd.val ga.val gb.val (gc.val * 2 ^ 6)
  | .bext gd ga pos len => encI 0x0D gd.val ga.val (pos.toNat * 2 ^ 6 + len.toNat)
  | .bins gd ga pos len => encI 0x0D gd.val ga.val (1 * 2 ^ 12 + pos.toNat * 2 ^ 6 + len.toNat)
  | .sext gd ga len => encI 0x0D gd.val ga.val (2 * 2 ^ 12 + len.toNat)
  | .zext gd ga len => encI 0x0D gd.val ga.val (3 * 2 ^ 12 + len.toNat)
  | .beq ga gb disp => encI 0x10 ga.val gb.val disp.toNat
  | .bne ga gb disp => encI 0x11 ga.val gb.val disp.toNat
  | .blt ga gb disp => encI 0x12 ga.val gb.val disp.toNat
  | .bge ga gb disp => encI 0x13 ga.val gb.val disp.toNat
  | .bltn ga gb disp => encI 0x14 ga.val gb.val disp.toNat
  | .bgen ga gb disp => encI 0x15 ga.val gb.val disp.toNat
  | .loop ga disp => encI 0x16 ga.val 0 disp.toNat
  | .jr ga => encI 0x16 ga.val 1 0
  | .ret => encI 0x16 0 2 0
  | .call f disp => encW 0x17 f.val disp.toNat
  | .b disp => encW 0x17 31 disp.toNat
  | .ld sz sx gd ga disp => encM 0x18 sz sx gd.val ga.val disp.toNat
  | .st sz gd ga disp => encM 0x19 sz false gd.val ga.val disp.toNat
  | .ldx sz sx gd ga disp => encM 0x1A sz sx gd.val ga.val disp.toNat
  | .stx sz gd ga disp => encM 0x1B sz false gd.val ga.val disp.toNat
  | .ldt sz sx gd ga desc => encM 0x20 sz sx gd.val ga.val desc.toNat
  | .stt sz gd ga desc => encM 0x21 sz false gd.val ga.val desc.toNat
  | .dset ga desc => encI 0x22 0 ga.val desc.toNat
  | .dget ga desc => encI 0x22 1 ga.val desc.toNat
  | .probe write gd ga desc => encI 0x23 gd.val ga.val (b2n write * 2 ^ 12 + desc.toNat)
  | .aadd wide gd ga gb => encT 0x24 gd.val ga.val gb.val (0 * 2 ^ 7 + b2n wide * 2 ^ 6)
  | .amin wide gd ga gb => encT 0x24 gd.val ga.val gb.val (1 * 2 ^ 7 + b2n wide * 2 ^ 6)
  | .amax wide gd ga gb => encT 0x24 gd.val ga.val gb.val (2 * 2 ^ 7 + b2n wide * 2 ^ 6)
  | .aminn wide gd ga gb => encT 0x24 gd.val ga.val gb.val (3 * 2 ^ 7 + b2n wide * 2 ^ 6)
  | .amaxn wide gd ga gb => encT 0x24 gd.val ga.val gb.val (4 * 2 ^ 7 + b2n wide * 2 ^ 6)
  | .aand wide gd ga gb => encT 0x24 gd.val ga.val gb.val (5 * 2 ^ 7 + b2n wide * 2 ^ 6)
  | .aor wide gd ga gb => encT 0x24 gd.val ga.val gb.val (6 * 2 ^ 7 + b2n wide * 2 ^ 6)
  | .axor wide gd ga gb => encT 0x24 gd.val ga.val gb.val (7 * 2 ^ 7 + b2n wide * 2 ^ 6)
  | .axchg wide gd ga gb => encT 0x24 gd.val ga.val gb.val (8 * 2 ^ 7 + b2n wide * 2 ^ 6)
  | .acas wide gd ga gb => encT 0x24 gd.val ga.val gb.val (9 * 2 ^ 7 + b2n wide * 2 ^ 6)
  | .aaddRemote wide gd ga gb => encT 0x25 gd.val ga.val gb.val (0 * 2 ^ 7 + b2n wide * 2 ^ 6)
  | .aminRemote wide gd ga gb => encT 0x25 gd.val ga.val gb.val (1 * 2 ^ 7 + b2n wide * 2 ^ 6)
  | .amaxRemote wide gd ga gb => encT 0x25 gd.val ga.val gb.val (2 * 2 ^ 7 + b2n wide * 2 ^ 6)
  | .aminnRemote wide gd ga gb => encT 0x25 gd.val ga.val gb.val (3 * 2 ^ 7 + b2n wide * 2 ^ 6)
  | .amaxnRemote wide gd ga gb => encT 0x25 gd.val ga.val gb.val (4 * 2 ^ 7 + b2n wide * 2 ^ 6)
  | .aandRemote wide gd ga gb => encT 0x25 gd.val ga.val gb.val (5 * 2 ^ 7 + b2n wide * 2 ^ 6)
  | .aorRemote wide gd ga gb => encT 0x25 gd.val ga.val gb.val (6 * 2 ^ 7 + b2n wide * 2 ^ 6)
  | .axorRemote wide gd ga gb => encT 0x25 gd.val ga.val gb.val (7 * 2 ^ 7 + b2n wide * 2 ^ 6)
  | .axchgRemote wide gd ga gb => encT 0x25 gd.val ga.val gb.val (8 * 2 ^ 7 + b2n wide * 2 ^ 6)
  | .acasRemote wide gd ga gb => encT 0x25 gd.val ga.val gb.val (9 * 2 ^ 7 + b2n wide * 2 ^ 6)
  | .aaddTensor wide gd ga gb desc => encT (0x26 + b2n wide) gd.val ga.val gb.val (0 * 2 ^ 7 + desc.toNat)
  | .aminTensor wide gd ga gb desc => encT (0x26 + b2n wide) gd.val ga.val gb.val (1 * 2 ^ 7 + desc.toNat)
  | .amaxTensor wide gd ga gb desc => encT (0x26 + b2n wide) gd.val ga.val gb.val (2 * 2 ^ 7 + desc.toNat)
  | .aminnTensor wide gd ga gb desc => encT (0x26 + b2n wide) gd.val ga.val gb.val (3 * 2 ^ 7 + desc.toNat)
  | .amaxnTensor wide gd ga gb desc => encT (0x26 + b2n wide) gd.val ga.val gb.val (4 * 2 ^ 7 + desc.toNat)
  | .aandTensor wide gd ga gb desc => encT (0x26 + b2n wide) gd.val ga.val gb.val (5 * 2 ^ 7 + desc.toNat)
  | .aorTensor wide gd ga gb desc => encT (0x26 + b2n wide) gd.val ga.val gb.val (6 * 2 ^ 7 + desc.toNat)
  | .axorTensor wide gd ga gb desc => encT (0x26 + b2n wide) gd.val ga.val gb.val (7 * 2 ^ 7 + desc.toNat)
  | .axchgTensor wide gd ga gb desc => encT (0x26 + b2n wide) gd.val ga.val gb.val (8 * 2 ^ 7 + desc.toNat)
  | .acasTensor wide gd ga gb desc => encT (0x26 + b2n wide) gd.val ga.val gb.val (9 * 2 ^ 7 + desc.toNat)
  | .pfx m second => encW 0x28 0 m.code ++ [second.toNat]
  | .fence sc => encT 0x29 0 0 0 sc.code
  | .acqx ga => encT 0x2A 0 ga.val 0 0
  | .acqs ga => encT 0x2A 0 ga.val 0 1
  | .rel ga => encT 0x2A 0 ga.val 0 2
  | .bind ga gb => encT 0x2A 0 ga.val gb.val 3
  | .unbind ga gb => encT 0x2A 0 ga.val gb.val 4
  | .sigwait gd ga gb => encT 0x2B gd.val ga.val gb.val 0
  | .qpush q gs => encQ gs.val 0 q.val 0
  | .qpop gd q => encQ gd.val 0 q.val 1
  | .qtry gd q => encQ gd.val 0 q.val 2
  | .qpeek gd q => encQ gd.val 0 q.val 3
  | .qcnt gd q => encQ gd.val 0 q.val 4
  | .qpushx gs q gr => encQ gs.val gr.val q.val 5
  | .barset n ga => encT 0x30 0 ga.val 0 (0 * 2 ^ 8 + n.val)
  | .barv n => encT 0x30 0 0 0 (1 * 2 ^ 8 + n.val)
  | .barw n => encT 0x30 0 0 0 (2 * 2 ^ 8 + n.val)
  | .bart gd n => encT 0x30 gd.val 0 0 (3 * 2 ^ 8 + n.val)
  | .barws gd n ga => encT 0x30 gd.val ga.val 0 (4 * 2 ^ 8 + n.val)
  | .opwait gd ga => encT 0x34 gd.val ga.val 0 0
  | .opcancel ga => encT 0x34 0 ga.val 0 1
  | .optest gd ga => encT 0x34 gd.val ga.val 0 2
  | .opprio ga gb => encT 0x34 0 ga.val gb.val 3
  | .opdetach ga => encT 0x34 0 ga.val 0 4
  | .launch ga => encT 0x35 0 ga.val 0 0
  | .exit => encT 0x38 0 0 0 0x00
  | .brk => encT 0x38 0 0 0 0x10
  | .publish => encT 0x38 0 0 0 0x20
  | .fmtset f ga => encT 0x38 0 ga.val 0 (0x30 + f.val)
  | .fmtget gd f => encT 0x38 gd.val 0 0 (0x40 + f.val)
  | .rdsc gd => encT 0x38 gd.val 0 0 0x50
  | .rndkLo gd ga gb => encT 0x38 gd.val ga.val gb.val 0x60
  | .rndkHi gd ga gb => encT 0x38 gd.val ga.val gb.val 0x61
  | .trap n => encT 0x38 0 0 0 (0x70 + n.val)
  | .ctlrd gd idx => encI 0x39 gd.val 0 idx.toNat
  | .ctlwr idx ga => encI 0x3A 0 ga.val idx.toNat
  | .yield disp => encW 0x3B 0 disp.toNat
  | .vadd f => encV 0x0 f
  | .vsub f => encV 0x1 f
  | .vmul f => encV 0x2 f
  | .vfma f => encV 0x3 f
  | .vfms f => encV 0x4 f
  | .vfnma f => encV 0x5 f
  | .vmin f => encV 0x6 f
  | .vmax f => encV 0x7 f
  | .vabs f => encV 0x8 f
  | .vneg f => encV 0x9 f
  | .vrcp f => encV 0xa f
  | .vrsq f => encV 0xb f
  | .vsqrt f => encV 0xc f
  | .vdiv f => encV 0xd f
  | .vexp2 f => encV 0xe f
  | .vlog2 f => encV 0xf f
  | .vcmp f => encV 0x10 f
  | .vsel f => encV 0x11 f
  | .vand f => encV 0x18 f
  | .vor f => encV 0x19 f
  | .vxor f => encV 0x1a f
  | .vshl f => encV 0x1b f
  | .vshr f => encV 0x1c f
  | .vsra f => encV 0x1d f
  | .viadd f => encV 0x20 f
  | .visub f => encV 0x21 f
  | .vimul f => encV 0x22 f
  | .vcvt f => encV 0x28 f
  | .vbcast f => encV 0x29 f
  | .vbcastRows f => encV 0x29 f
  | .vbcastCols f => encV 0x29 f
  | .vmov f => encV 0x2a f
  | .vmovToG f => encV 0x2a f
  | .vmovFromG f => encV 0x2a f
  | .vld f => encV 0x30 f
  | .vst f => encV 0x31 f
  | .vred f => encV 0x38 f
  | .vscan f => encV 0x39 f
  | .vperm f => encV 0x3a f
  | .vtrans f => encV 0x3b f
  | .vrng f => encV 0x40 f
  | .vidx f => encV 0x41 f
  | .kand f => encV 0x48 f
  | .kor f => encV 0x49 f
  | .knot f => encV 0x4a f
  | .kpop f => encV 0x4b f
  | .tload r => encK 0x1 r
  | .tgather r => encK 0x2 r
  | .sload r => encK 0x3 r
  | .xpull r => encK 0x4 r
  | .fill r => encK 0x5 r
  | .mcred r => encK 0x6 r
  | .rload r => encK 0x7 r
  | .wload r => encK 0x10 r
  | .wswap r => encK 0x11 r
  | .mma r => encK 0x12 r
  | .mmas r => encK 0x13 r
  | .mdrain r => encK 0x14 r
  | .mdrainDirect r => encK 0x14 r
  | .mzero r => encK 0x15 r
  | .mchain r => encK 0x16 r
  | .mcopy r => encK 0x17 r
  | .tstore r => encK 0x20 r
  | .tscatter r => encK 0x21 r
  | .tred r => encK 0x22 r
  | .rstore r => encK 0x23 r
  | .rsig r => encK 0x24 r
  | .xpush r => encK 0x25 r
  | _ => []

/-! ## Decoding -/

/-- The instruction of a unit's words: the tables admit it, and every bit the tables do not use is zero (08 R187). -/
def decodeWords (ws : List Nat) : Except Reject Instr :=
  match parse ws with
  | .error e => .error e
  | .ok i => if i.wellFormed then (if encode i = ws then .ok i else .error .reserved) else .error .limit

/-- The words of a list of bytes, each little-endian (08 R183). -/
def wordsOf : List Byte → List Nat
  | b0 :: b1 :: b2 :: b3 :: l => Machine.leNat [b0, b1, b2, b3] :: wordsOf l
  | _ => []

/-- The instruction at the head of a list of bytes and the bytes after its unit. -/
def decode (bs : List Byte) : Except Reject (Instr × List Byte) :=
  match wordsOf (bs.take 4) with
  | [w] =>
    if bs.length < 4 * unitWords w then .error .truncated
    else match decodeWords (wordsOf (bs.take (4 * unitWords w))) with
      | .ok i => .ok (i, bs.drop (4 * unitWords w))
      | .error e => .error e
  | _ => .error .truncated

/-- The bytes of a unit's words in memory. -/
def bytesOf : List Nat → List Byte
  | [] => []
  | w :: ws => Machine.leBytes w 4 ++ bytesOf ws

/-- The instruction that may stand second in a `pfx` unit (08 R194). -/
def toPrefixed : Instr → Option Prefixed
  | .ld sz sx gd ga disp => some (.ld sz sx gd ga disp)
  | .st sz gd ga disp => some (.st sz gd ga disp)
  | .ldx sz sx gd ga disp => some (.ldx sz sx gd ga disp)
  | .stx sz gd ga disp => some (.stx sz gd ga disp)
  | .ldt sz sx gd ga desc => some (.ldt sz sx gd ga desc)
  | .stt sz gd ga desc => some (.stt sz gd ga desc)
  | .dset ga desc => some (.dset ga desc)
  | .dget ga desc => some (.dget ga desc)
  | .sigwait gd ga gb => some (.sigwait gd ga gb)
  | .aadd wide gd ga gb => some (.atom .add wide gd ga gb)
  | .amin wide gd ga gb => some (.atom .min wide gd ga gb)
  | .amax wide gd ga gb => some (.atom .max wide gd ga gb)
  | .aminn wide gd ga gb => some (.atom .minn wide gd ga gb)
  | .amaxn wide gd ga gb => some (.atom .maxn wide gd ga gb)
  | .aand wide gd ga gb => some (.atom .and wide gd ga gb)
  | .aor wide gd ga gb => some (.atom .or wide gd ga gb)
  | .axor wide gd ga gb => some (.atom .xor wide gd ga gb)
  | .axchg wide gd ga gb => some (.atom .xchg wide gd ga gb)
  | .acas wide gd ga gb => some (.atom .cas wide gd ga gb)
  | .aaddRemote wide gd ga gb => some (.atomRemote .add wide gd ga gb)
  | .aminRemote wide gd ga gb => some (.atomRemote .min wide gd ga gb)
  | .amaxRemote wide gd ga gb => some (.atomRemote .max wide gd ga gb)
  | .aminnRemote wide gd ga gb => some (.atomRemote .minn wide gd ga gb)
  | .amaxnRemote wide gd ga gb => some (.atomRemote .maxn wide gd ga gb)
  | .aandRemote wide gd ga gb => some (.atomRemote .and wide gd ga gb)
  | .aorRemote wide gd ga gb => some (.atomRemote .or wide gd ga gb)
  | .axorRemote wide gd ga gb => some (.atomRemote .xor wide gd ga gb)
  | .axchgRemote wide gd ga gb => some (.atomRemote .xchg wide gd ga gb)
  | .acasRemote wide gd ga gb => some (.atomRemote .cas wide gd ga gb)
  | .aaddTensor wide gd ga gb desc => some (.atomTensor .add wide gd ga gb desc)
  | .aminTensor wide gd ga gb desc => some (.atomTensor .min wide gd ga gb desc)
  | .amaxTensor wide gd ga gb desc => some (.atomTensor .max wide gd ga gb desc)
  | .aminnTensor wide gd ga gb desc => some (.atomTensor .minn wide gd ga gb desc)
  | .amaxnTensor wide gd ga gb desc => some (.atomTensor .maxn wide gd ga gb desc)
  | .aandTensor wide gd ga gb desc => some (.atomTensor .and wide gd ga gb desc)
  | .aorTensor wide gd ga gb desc => some (.atomTensor .or wide gd ga gb desc)
  | .axorTensor wide gd ga gb desc => some (.atomTensor .xor wide gd ga gb desc)
  | .axchgTensor wide gd ga gb desc => some (.atomTensor .xchg wide gd ga gb desc)
  | .acasTensor wide gd ga gb desc => some (.atomTensor .cas wide gd ga gb desc)
  | _ => none

/-- The instruction that the second word of a `pfx` unit holds, if it is one that R194 admits. -/
def decodeSecond (w : W32) : Option Prefixed :=
  match decodeWords [w.toNat] with
  | .ok i => toPrefixed i
  | .error _ => none

/-- The instruction the decoder reads from the bits `w`, numbered as the opcode table numbers them; every bit above `nbits`
is zero, up to the longest unit of 16 words. -/
def decodeTableWord (nbits w : Nat) : Option Instr :=
  match decode (Machine.leBytes (w % 2 ^ nbits) 64) with
  | .ok (i, _) => some i
  | .error _ => none

end Sys2Proof
end

