-- ==== Sys2Proof/Machine/Ops.lean ====
section
/-! DEFINITION. The named operations over the state: units and registers, taking a fault and coming back from one, token
queues, poison, events to the host. -/
namespace Sys2Proof.Machine

/-- What a meaning answers. -/
abbrev Out := Host.Outcome State Fault Refusal

/-! ## Units -/

/-- Tile `t`. -/
def State.tile (s : State) (t : Nat) : Tile := SMap.get {} s.tiles t

/-- The state with tile `t` replaced. -/
def State.setTile (s : State) (t : Nat) (x : Tile) : State := { s with tiles := SMap.put s.tiles t x }

/-- A core of a tile. -/
def Tile.core (x : Tile) : CoreId → Core
  | .l => x.cl
  | .x => x.cx
  | .w => x.cw

/-- The tile with one core replaced. -/
def Tile.setCore (x : Tile) (c : CoreId) (k : Core) : Tile :=
  match c with
  | .l => { x with cl := k }
  | .x => { x with cx := k }
  | .w => { x with cw := k }

/-- An engine of a tile. -/
def Tile.eng (x : Tile) : Engine → Eng
  | .load => x.el
  | .matrix => x.em
  | .store => x.es

/-- The tile with one engine replaced. -/
def Tile.setEng (x : Tile) (e : Engine) (k : Eng) : Tile :=
  match e with
  | .load => { x with el := k }
  | .matrix => { x with em := k }
  | .store => { x with es := k }

/-- The partition whose node a tile runs, and whose address space it uses. -/
def Tile.partNo (x : Tile) : Nat :=
  match x.life.seat with
  | some k => k.part
  | none => 0

/-- The tile and the core whose instruction runs. -/
def State.me (s : State) : Tile := s.tile s.curTile.val
def State.core (s : State) : Core := s.me.core s.curCore

/-- The state with the running core's tile, or the running core, replaced. -/
def State.setMe (s : State) (x : Tile) : State := s.setTile s.curTile.val x
def State.setCore (s : State) (k : Core) : State := s.setMe (s.me.setCore s.curCore k)

/-- Core `c` of tile `t`. -/
def State.coreAt (s : State) (t : Nat) (c : CoreId) : Core := (s.tile t).core c
def State.setCoreAt (s : State) (t : Nat) (c : CoreId) (k : Core) : State := s.setTile t ((s.tile t).setCore c k)

/-- Engine `e` of tile `t`. -/
def State.engAt (s : State) (t : Nat) (e : Engine) : Eng := (s.tile t).eng e
def State.setEngAt (s : State) (t : Nat) (e : Engine) (k : Eng) : State := s.setTile t ((s.tile t).setEng e k)

/-- Die `d`. -/
def State.die (s : State) (d : Nat) : Die := SMap.get {} s.dies d
def State.setDie (s : State) (d : Nat) (x : Die) : State := { s with dies := SMap.put s.dies d x }

/-- Partition `p`. -/
def State.part (s : State) (p : Nat) : Part := SMap.get {} s.parts p
def State.setPart (s : State) (p : Nat) (x : Part) : State := { s with parts := SMap.put s.parts p x }

/-- The state with one more free value drawn (log 1). -/
def State.draw (s : State) : State := { s with choices := s.choices + 1 }

/-! ## Scalar registers (08 R175) -/

/-- g0 reads as zero. -/
def Core.read (k : Core) (r : Reg) : Word := if r.val = 0 then 0 else SMap.get 0 k.g r.val

/-- A write to g0 is discarded; a write of a register clears its errors (18 R430). -/
def Core.write (k : Core) (r : Reg) (v : Word) : Core :=
  if r.val = 0 then k
  else { k with g := SMap.set 0 k.g r.val v, gBad := k.gBad.filter (· / 2 != r.val), gCe := k.gCe.filter (· / 2 != r.val) }

/-- The value of a register of the running core. -/
def State.g (s : State) (r : Reg) : Word := s.core.read r

/-- The state with a register of the running core written. -/
def State.setG (s : State) (r : Reg) (v : Word) : State := s.setCore (s.core.write r v)

/-- The first word of some registers, which are read whole, that holds an uncorrectable error (18 R429, R430). -/
def Core.badReg (k : Core) (rs : List Reg) : Option Nat :=
  rs.findSome? fun r => if r.val = 0 then none else k.gBad.find? fun w => decide (w / 2 = r.val)

/-- The program counter `n` bytes on, modulo 2^56. -/
def Core.skip (k : Core) (n : Nat) : Core := { k with pc := k.pc + BitVec.ofNat 56 n }

/-- The running core past its unit of `n` bytes. -/
def State.skip (s : State) (n : Nat) : State := s.setCore (s.core.skip n)

/-! ## Faults (06 R146, 18 R417 to R421, Table 18.8) -/

namespace Code
def illegalInstruction : Nat := 0x01
def illegalFormatEntry : Nat := 0x02
def recordField : Nat := 0x03
def notPresent : Nat := 0x04
def permission : Nat := 0x05
def discardedWrite : Nat := 0x06
def fetch : Nat := 0x07
def scratchBounds : Nat := 0x08
def staleSlot : Nat := 0x09
def queueMisuse : Nat := 0x0A
def deadlock : Nat := 0x0B
def scheduleMiss : Nat := 0x0C
def overlap : Nat := 0x0D
def uncorrectable : Nat := 0x0E
def fabricPeerAbsent : Nat := 0x0F
def fabricTimeout : Nat := 0x10
def syncMisuse : Nat := 0x11
def descriptorInvalid : Nat := 0x12
def windowSpill : Nat := 0x13
def alignment : Nat := 0x14
def trap : Nat := 0x15
def breakpoint : Nat := 0x16
def barrierMisuse : Nat := 0x17
def preemptTimeout : Nat := 0x18
end Code

/-- What a drain does to a waiting core (06 R146, 10 R228): a pure wait is abandoned without effect; an access or a request
already sent is not, and completes before its core stops. A gang token in transit is abandoned too (06 R148). -/
def Wait.drain : Wait → Wait
  | .barrierReq b w => .barrierReq b w
  | .fabric f => .fabric f
  | .hostRead h => .hostRead h
  | _ => .none

/-- A core as a drain leaves it: a `sigwait` abandoned counts its limit afresh (10 R238). -/
def Core.drain (k : Core) : Core :=
  { k with wait := k.wait.drain, after := .none, did := if k.wait ≠ .none ∧ k.wait.drain = .none then none else k.did }

/-- Every core of a tile as a drain leaves it. -/
def Tile.drainCores (x : Tile) : Tile := { x with cl := x.cl.drain, cx := x.cx.drain, cw := x.cw.drain }

/-- Whether the tile holds a fault already: a later one of the same drain is not recorded (18 R421). -/
def Tile.noFault (x : Tile) : Bool := x.life.fault.isNone

/-- TAKING A FAULT: the tile records it, unless it already holds one, and drains. The faulting core keeps its program
counter on the instruction; every other core's pure wait is abandoned (06 R146). -/
def Tile.takeFault (x : Tile) (f : FaultRec) : Tile :=
  { x.drainCores with
    life := { x.life with
      phase := .draining
      fault := if x.life.fault.isNone then some f else x.life.fault
      resolved := if x.life.fault.isNone then false else x.life.resolved } }

/-- The place of a fault among those of one cycle: L-core, X-core, W-core, load, matrix, store engine (18 R421). -/
def FaultRec.order (f : FaultRec) : Nat := if f.source = 1 then 3 + f.unit else if f.source = 0 then f.unit else 6

/-- Whether a fault raised at tick `now` takes the place of the one that a draining tile holds: it arises in the same cycle and comes
before it in the order (18 R421, log 70). One whose ERROR token has been promised stays. -/
def Tile.outranked (x : Tile) (t now : Nat) (f : FaultRec) : Bool :=
  match x.life.fault with
  | some g =>
    decide (g.tick = now) && decide (f.order < g.order) && decide (x.life.phase = .draining) && Config.sameCycle now t &&
    !(decide (g.source = 1) && (decide (g.code = Code.fabricPeerAbsent) || decide (g.code = Code.fabricTimeout)))
  | none => false

/-- An engine whose FAULTED operation is not the one recorded: it is suspended at its iteration (18 R421). -/
def Eng.unrecord (e : Eng) : Eng :=
  { e with ops := e.ops.map fun o => if o.state = .faulted then { o with state := .running, suspended := true } else o }

/-- A tile that forgets the fault it holds. -/
def Tile.unrecord (x : Tile) : Tile :=
  { x with life := { x.life with fault := none }, el := x.el.unrecord, em := x.em.unrecord, es := x.es.unrecord }

/-- The tile as a fault finds it: without the fault that it outranks. -/
def Tile.settle (x : Tile) (t now : Nat) (f : FaultRec) : Tile := if x.outranked t now f then x.unrecord else x

/-- A fault of tile `t`, stamped with the tick (18 Table 18.4). -/
def State.takeFault (s : State) (t : Nat) (f : FaultRec) : State :=
  s.setTile t (((s.tile t).settle t s.seiche f).takeFault { f with tick := s.seiche })

/-- The fault record of an instruction of a core: SOURCE 0, UNIT the core; without an address of its own, VADDR is the
instruction's (18 Table 18.4). -/
def coreRec (k : Core) (c : CoreId) (code detail : Nat) : FaultRec :=
  { code := code, detail := detail, unit := c.num, vaddr := k.pc.toNat }

/-- A fault that the running core raises: its unit does not complete, and the cycle is no RET of its (20 R475). -/
def State.coreTakes (s : State) (f : FaultRec) : State := (s.setCore { s.core with did := none }).takeFault s.curTile.val f

/-- A fault of the running core's instruction. The instruction has no effect (09 R202). -/
def State.fault (s : State) (code detail : Nat) : State :=
  s.coreTakes (coreRec s.core s.curCore code detail)

/-- A fault of the running core's instruction with its ACCESS (18 Table 18.4). -/
def State.faultA (s : State) (access code detail : Nat) : State :=
  s.coreTakes { coreRec s.core s.curCore code detail with access := access }

/-- A fault of the running core's instruction with the other fields of the record given. -/
def State.faultRec (s : State) (f : FaultRec) : State :=
  s.coreTakes { f with unit := s.curCore.num }

/-- ILLEGAL_INSTRUCTION: DETAIL holds the unit's first and second word (18 Table 18.5). -/
def State.illegal (s : State) (i : Instr) : State :=
  s.fault Code.illegalInstruction (wordAt (encode i) 0 + wordAt (encode i) 1 * 2 ^ 32)

/-- UNCORRECTABLE: where in bits 1:0, the address above bit 8 (18 Table 18.5). -/
def uncDetail (wher addr : Nat) : Nat := addr * 256 + wher

/-- DETAIL of UNCORRECTABLE for a word of the registers: its byte offset in the register file (log 24). -/
def regDetail (w : Nat) : Nat := uncDetail 2 (4 * w)

/-- An uncorrectable error counted, at most 65,535 of them (18 R429). -/
def Prv.countUe (p : Prv) : Prv := { p with ue := min (p.ue + 1) 0xFFFF }
/-- A corrected error counted. -/
def Prv.countCe (p : Prv) : Prv := { p with ce := min (p.ce + 1) 0xFFFFFFFF }

/-- An uncorrectable error that a read of tile `t` finds outside the scratchpad (18 R429, log 38). -/
def State.countUe (s : State) (t : Nat) : State := s.setTile t { s.tile t with prv := (s.tile t).prv.countUe }

/-- `n` corrected errors counted on tile `t`: nothing changes where none was found (18 R429). -/
def State.countCes (s : State) (t n : Nat) : State :=
  if n = 0 then s
  else s.setTile t { s.tile t with prv := { (s.tile t).prv with ce := min ((s.tile t).prv.ce + n) 0xFFFFFFFF } }

/-- The words of some registers in which a read finds a correctable error. -/
def Core.foundRegs (k : Core) (rs : List Reg) : List Nat := k.gCe.filter fun w => rs.any fun q => decide (q.val = w / 2)

/-- What the read of some registers of the running core finds: the errors are corrected, written back and counted (18 R429). -/
def State.noteG (s : State) (rs : List Reg) : State :=
  match s.core.foundRegs rs with
  | [] => s
  | l => (s.setCore { s.core with gCe := s.core.gCe.filter fun r => !l.contains r }).countCes s.curTile.val l.length

/-- UNCORRECTABLE for a poisoned word of a register that an instruction reads as a source (18 R430): the read adds 1 to UE. -/
def State.badSource (s : State) (w : Nat) : State := (s.countUe s.curTile.val).fault Code.uncorrectable (regDetail w)

/-- An instruction that reads the registers `rs`: UNCORRECTABLE if one is poisoned, else `next` of `f` (18 R430). -/
def withSources (rs : List Reg) (s : State) (f : State → State) : Out :=
  let s := s.noteG rs
  match s.core.badReg rs with
  | some w => .next (s.badSource w)
  | none => .next (f s)

/-- An instruction that reads `rs` and writes `v` of them to gd, then goes on `n` bytes later. -/
def writeResult (rs : List Reg) (gd : Reg) (n : Nat) (v : State → Word) (s : State) : Out :=
  withSources rs s fun s => (s.setG gd (v s)).skip n

/-- The running core blocked in `w`, its program counter unchanged. -/
def State.block (s : State) (w : Wait) : State := s.setCore { s.core with wait := w }

/-- The running core no longer blocked. -/
def State.unblock (s : State) : State := s.block .none

/-- COMING BACK FROM A FAULT: the tile runs again from its cut (06 R148, 18 R422). An operation recorded as FAULTED
returns to RUNNING at its iteration (or, where it faulted at its start, to that start, which is then made again); a suspended
one goes on from its vector, and the iteration that stopped begins again. -/
def Op.resume (o : Op) : Op :=
  { o with state := (if o.state = .faulted then OpState.running else o.state), suspended := false, inIter := false
           wait := .none, entered := [] }

/-- An engine's operations after a resume. -/
def Eng.resume (e : Eng) : Eng := { e with ops := e.ops.map Op.resume }

/-- The tile after a resume: the fault is gone, the cores execute their instructions again, and a latched request counts
its deadline afresh (18 R423). -/
def Tile.resume (x : Tile) (now : Nat) : Tile :=
  { x with
    life := { x.life with
      phase := .running, fault := none, resolved := false, rest := none, deadCount := 0, since := now
      latched := (if x.life.latched.isSome || x.life.pending then some now else none), pending := false
      deadline := if x.life.latched.isNone && x.life.pending then x.prv.pdead else x.life.deadline }
    trace := { x.trace with blockedSince := [] }
    el := x.el.resume, em := x.em.resume, es := x.es.resume }

/-! ## Poison of 32-bit scratchpad words (09 R219) -/

/-- Whether any of the words that bytes [off, off + n) touch is poisoned: the first such word's offset. -/
def badWord (bad : List Nat) (off n : Nat) : Option Nat :=
  bad.find? (fun w => decide (w < off + n) && decide (off < w + 4))

/-- The poison set after a write of [off, off + n): whole words covered are cleared. -/
def clearWords (bad : List Nat) (off n : Nat) : List Nat :=
  bad.filter (fun w => !(decide (off ≤ w) && decide (w + 4 ≤ off + n)))

/-- Whether a byte lies in a word that the write does not cover whole and that is poisoned: such a byte keeps (09 R219). -/
def keepByte (bad : List Nat) (off n a : Nat) : Bool :=
  bad.contains (a / 4 * 4) && !(decide (off ≤ a / 4 * 4) && decide (a / 4 * 4 + 4 ≤ off + n))

/-- The bytes of a scratchpad after a write of `l` at `off`: a byte of a poisoned word not wholly covered keeps. -/
def writeKeeping (bad : List Nat) (lo n : Nat) (m : Memory) (a : Nat) : List Byte → Memory
  | [] => m
  | v :: l => writeKeeping bad lo n (if keepByte bad lo n a then m else m.setByte a v) (a + 1) l

/-- A write of bytes to a tile's scratchpad (05 R106, 09 R219). -/
def TileMem.writeScratch (x : TileMem) (off : Nat) (l : List Byte) : TileMem :=
  { x with scratch := writeKeeping x.scratchBad off l.length x.scratch off l
           scratchBad := clearWords x.scratchBad off l.length
           scratchLatent := clearWords x.scratchLatent off l.length }

/-- A write of bytes to tile `t`'s scratchpad. -/
def State.writeScratch (s : State) (t off : Nat) (l : List Byte) : State :=
  s.setTile t { s.tile t with mem := (s.tile t).mem.writeScratch off l }

/-- The size of a scratchpad (05 R106): 2 MiB, of the capacities of 01 Table 1.6 (01 R27). -/
def scratchSize : Nat := 0x200000

/-- Whether an access reaches a retired bank of the tile: every such access raises UNCORRECTABLE (17 R378), but for one of no
byte. The offset of the first word it reaches there. -/
def Tile.retiredHit (x : Tile) (off n : Nat) : Option Nat :=
  if n = 0 then none
  else if x.prv.retired.getLsbD (off / 0x10000) then some (off / 4 * 4)
  else if x.prv.retired.getLsbD ((off + n - 1) / 0x10000) then some ((off + n - 1) / 0x10000 * 0x10000) else none

/-- An uncorrectable error of the scratchpad word at `off`: it names its bank, and counts for its retirement (18 R429, R433). -/
def Prv.countBank (p : Prv) (off : Nat) : Prv :=
  let b := off / 0x10000
  { p.countUe with lastBank := b, bankErrs := SMap.put p.bankErrs b (SMap.get 0 p.bankErrs b + 1) }

/-- The words of a span with an error that nothing has found yet. -/
def TileMem.latentIn (x : TileMem) (off n : Nat) : List Nat :=
  x.scratchLatent.filter fun w => decide (w < off + n) && decide (off < w + 4)

/-- The tile after a read of the word at `w` found its error: counted in CE and written back, or in UE with its bank (18 R429). -/
def Tile.foundWord (x : Tile) (w : Nat) : Tile :=
  { x with mem := { x.mem with scratchLatent := eraseNat x.mem.scratchLatent w }
           prv := if x.mem.scratchBad.contains w then x.prv.countBank w else x.prv.countCe }

/-- What a read of [off, off + n) of tile `t`'s scratchpad finds there: nothing changes where no error lies latent. -/
def State.noteRead (s : State) (t off n : Nat) : State :=
  let x := s.tile t
  match x.mem.latentIn off n with
  | [] => s
  | ws => if (x.retiredHit off n).isSome then s else s.setTile t (ws.foldl Tile.foundWord x)

/-- The word at which a read of a tile's scratchpad meets an uncorrectable error: a poisoned word or a retired bank. -/
def Tile.readFails (x : Tile) (off n : Nat) : Option Nat :=
  match x.retiredHit off n with
  | some a => some a
  | none => badWord x.mem.scratchBad off n

end Sys2Proof.Machine
end

