-- ==== Sys2Proof/Machine/Translate.lean ====
section
/-! DEFINITION. Translation: the four-level walk, kept translations, companion words (18 R409 to R416), and what a firmware
entry that is not present says (19 R446). -/
namespace Sys2Proof.Machine

/-- The first physical address past HBM (01 R16, R27: 384 GiB, eight stacks of 48 GiB): the hub decodes every address from here on (19 R435). -/
def hbmEnd : Nat := 0x6000000000

/-- An 8-byte read of module memory. -/
def State.read8 (s : State) (pa : Nat) : Nat := s.mem.readLE pa 8

/-- Whether bytes [pa, pa + n) touch a poisoned 32-byte granule; the first such granule's address (18 R431). -/
def badGranule (bad : List Nat) (pa n : Nat) : Option Nat :=
  bad.find? (fun g => decide (g < pa + n) && decide (pa < g + 32))

/-- The poisoned granules after a write of [pa, pa + n): those covered whole are cleared (18 R431). -/
def clearGranules (bad : List Nat) (pa n : Nat) : List Nat :=
  bad.filter (fun g => !(decide (pa ≤ g) && decide (g + 32 ≤ pa + n)))

/-- The words that a write of bytes [pa, pa + n) changes, as they were, before a list of earlier ones (08 R197, log 8). -/
def keepWords (m new : Memory) (pa n : Nat) (l : List OldWord) : List OldWord :=
  (List.range ((pa % 4 + n + 3) / 4)).foldl (fun l j =>
    let a := pa / 4 * 4 + 4 * j
    if m.readLE a 4 = new.readLE a 4 then l else { pa := a, w := BitVec.ofNat 32 (m.readLE a 4) } :: l) l

/-- Bytes written from an address on, but for those in granules that stay poisoned. -/
def writeAround (bad : List Nat) (m : Memory) (a : Nat) : List Byte → Memory
  | [] => m
  | v :: l => writeAround bad (if bad.contains (a / 32 * 32) then m else m.setByte a v) (a + 1) l

/-- Module memory after a write of bytes at its home: a write that does not cover a poisoned granule whole leaves it as it was
(18 R431, with the rule of 09 R219). -/
def homeWrite (bad : List Nat) (m : Memory) (pa : Nat) (l : List Byte) : Memory :=
  if badGranule bad pa l.length = none then m.setBytes pa l else writeAround (clearGranules bad pa l.length) m pa l

/-- A write of bytes to module memory at its home. -/
def State.writeMem (s : State) (pa : Nat) (l : List Byte) : State :=
  { s with mem := homeWrite s.memBad s.mem pa l, memBad := clearGranules s.memBad pa l.length
           olds := keepWords s.mem (homeWrite s.memBad s.mem pa l) pa l.length s.olds }

/-- A byte of a write: its address, its value, the mask of its bits. -/
abbrev ByteWrite := Nat × Byte × Byte

/-- A masked byte over another. -/
def overByte (old : Byte) (v m : Byte) : Byte := (old &&& ~~~m) ||| (v &&& m)

/-- The bits that some writes make of a byte. -/
def writtenMask (l : List ByteWrite) (a : Nat) : Byte := l.foldl (fun k x => if x.1 = a then k ||| x.2.2 else k) 0

/-- Bytes merged at physical addresses (13 R327); the granules that the writes cover whole lose their poison, and a byte of one
that stays poisoned keeps (18 R431, 09 R219). -/
def State.mergeRow (s : State) (l : List ByteWrite) : State :=
  let bad := s.memBad.filter fun g => !(List.range 32).all fun i => writtenMask l (g + i) == 0xFF
  let new := l.foldl (fun m x => if bad.contains (x.1 / 32 * 32) then m else m.setByte x.1 (overByte (m.byte x.1) x.2.1 x.2.2)) s.mem
  { s with
    mem := new
    memBad := bad
    olds := l.foldl (fun o x => keepWords s.mem new x.1 1 o) s.olds }

/-- The low bit of the index of each level (18 R410). -/
def levelShift : Nat → Nat
  | 0 => 12
  | 1 => 21
  | 2 => 30
  | _ => 39

/-- The index of an address in a table of a level: 17 bits at level 3, 9 bits below (18 R410). -/
def levelIndex (va lvl : Nat) : Nat := if lvl = 3 then field va 39 17 else field va (levelShift lvl) 9

/-- Where the companion half of a table starts: 1 MiB on at level 3, 4 KiB on below (18 R410, R413). -/
def companionOff (lvl : Nat) : Nat := if lvl = 3 then 0x100000 else 0x1000

/-- Fields of a page-table entry (18 Table 18.2). -/
def Pte.v (e : Nat) : Bool := bit e 0
def Pte.leaf (e : Nat) : Bool := bit e 1
def Pte.rd (e : Nat) : Bool := bit e 2
def Pte.w (e : Nat) : Bool := bit e 3
def Pte.x (e : Nat) : Bool := bit e 4
def Pte.disc (e : Nat) : Bool := bit e 7
def Pte.g64 (e : Nat) : Bool := bit e 8
/-- The physical address FRAME names. -/
def Pte.frame (e : Nat) : Nat := field e 12 28 * 4096

/-- Malformed entries (18 R411). -/
def Pte.malformed (e lvl va : Nat) : Bool :=
  decide (field e 40 24 ≠ 0) || decide (field e 9 3 ≠ 0) || decide (field e 5 2 ≠ 0) ||
  (decide (lvl = 3) && Pte.leaf e) || (decide (lvl = 0) && !Pte.leaf e) ||
  (Pte.g64 e && (decide (lvl ≠ 0) || !Pte.leaf e)) ||
  (!Pte.leaf e && bit e 12) ||
  (Pte.leaf e && decide (Pte.frame e % 2 ^ levelShift lvl ≠ 0)) ||
  (Pte.g64 e && decide (field e 12 4 ≠ field va 12 4))

/-- How a walk ends: at a leaf of a level above 0, at the entry of a level-0 table, at an entry above that stops it, or at a poisoned
entry. -/
inductive WalkEnd where
  | leaf (lvl table entry : Nat)
  | last (table entry : Nat)
  | stop (lvl : Nat) (mal : Bool) (entry : Nat)
  | poison (granule : Nat)
  deriving DecidableEq, Repr

/-- The walk from a table of level `lvl` (18 R411). DESIGN CHOICE (log 92): 01 R16 ends HBM below 0x60_0000_0000, and no rule says what a
walk meets where the root or a table frame lies there or above; the entry is read in `State.mem` as below it. -/
def walkFrom (s : State) (va : Nat) : Nat → Nat → WalkEnd
  | lvl, table =>
    let pa := table + 8 * levelIndex va lvl
    match badGranule s.memBad pa 8 with
    | some g => .poison g
    | none =>
      let e := s.read8 pa
      match lvl with
      | 0 => .last table e
      | l + 1 =>
        if !Pte.v e then .stop lvl false e
        else if Pte.malformed e lvl va then .stop lvl true e
        else if Pte.leaf e then .leaf lvl table e
        else walkFrom s va l (Pte.frame e)

/-! ## Groups of 64 KiB (18 R412) -/

/-- The sixteen entries of the 64 KiB group that an address lies in, in the level-0 table, each with its index in the group. -/
def groupEntries (s : State) (table va : Nat) : List (Nat × Nat) :=
  (List.range 16).map fun i => (i, s.read8 (table + 8 * (levelIndex va 0 / 16 * 16 + i)))

/-- Whether an entry of a group is well formed in its place. -/
def wellPlaced (x : Nat × Nat) : Bool := Pte.v x.2 && !Pte.malformed x.2 0 (x.1 * 4096)

/-- Whether sixteen entries form a group: one at least is a present entry of a 64 KiB page, and none a present entry of a smaller one. -/
def isGroup (es : List (Nat × Nat)) : Bool :=
  es.any (fun x => wellPlaced x && Pte.g64 x.2) && es.all fun x => !Pte.v x.2 || Pte.g64 x.2

/-- The bits that must agree in the entries of a group: V, Rd, W, X and DISC. -/
def groupBits (e : Nat) : Nat := b2n (Pte.v e) + 2 * field e 2 3 + 16 * b2n (Pte.disc e)

/-- Whether the entries of a group disagree: in the base of FRAME of the well-formed ones, or in one of the bits. -/
def disagree (es : List (Nat × Nat)) : Bool :=
  (match es.filter wellPlaced with
   | [] => false
   | x :: l => l.any fun y => decide (field y.2 16 24 ≠ field x.2 16 24)) ||
  (match es with
   | [] => false
   | x :: l => l.any fun y => decide (groupBits y.2 ≠ groupBits x.2))

/-- The entry that governs an access whose walk read entry `e` of a level-0 table, and the address for whose index it must be formed:
where the entries of its group disagree, the one that the free value names (18 R412, log 9); else its own. -/
def governing (s : State) (table va e : Nat) : (Nat × Nat) × State :=
  let es := groupEntries s table va
  if isGroup es && disagree es then
    let i := (Config.governs s.choices).val
    ((((es.drop i).head?.map (·.2)).getD e, i * 4096), s.draw)
  else ((e, va), s)

/-- The frame that a governing entry gives an address: that of its own, with the place of the address in the group where the entry is of
a 64 KiB page. -/
def governedFrame (e va : Nat) : Nat := Pte.frame (if Pte.g64 e then setField e 12 4 (field va 12 4) else e)

/-- How a translation ends: at a physical address, at a discarded page that reads as zero, or in a fault with its code and
DETAIL; a stop at an entry that is not present carries the entry, for firmware to look at (19 R446). -/
inductive TRes where
  | pa (a : Nat)
  | zero
  | fault (code detail : Nat) (entry : Option Nat)
  deriving DecidableEq, Repr

/-- The missing permissions as DETAIL has them: Rd, W, X in bits 0, 1, 2 (18 Table 18.5; the order is log 20). -/
def missing (rd w x : Bool) (acc : Access) : Nat :=
  match acc with
  | .read => b2n (!rd)
  | .write => b2n (!w) * 2
  | .atomic => b2n (!rd) + b2n (!w) * 2
  | .fetch => b2n (!x) * 4

/-- Whether an access writes. -/
def accWrites : Access → Bool
  | .write => true
  | .atomic => true
  | _ => false

/-- ACCESS of the fault record (18 Table 18.4). -/
def accCode : Access → Nat
  | .read => 0
  | .write => 1
  | .fetch => 2
  | .atomic => 3

/-- The root of a partition in a die, if that space is enabled (18 Table 18.1). -/
def State.rootOf (s : State) (die part : Nat) (r : Root) : Option Nat :=
  let x := SMap.get {} (s.die die).xlt part
  match r with
  | .own => if x.en then some (x.root * 2 ^ 21) else none
  | .exported => if x.xen then some (x.xroot * 2 ^ 21) else none

/-- The accessed bit, and for a write the written bit, of die `d` (18 R413). -/
def companionBits (d : Nat) (acc : Access) (v : Nat) : Nat :=
  let v := if bit v d then v else v + 2 ^ d
  if accWrites acc then (if bit v (8 + d) then v else v + 2 ^ (8 + d)) else v

/-- The atomic OR of a leaf's companion word (18 R413). -/
def State.markLeaf (s : State) (d : Nat) (acc : Access) (pa : Nat) : State :=
  s.writeMem pa (leBytes (companionBits d acc (s.read8 pa)) 8)

/-- A kept translation of the die that grants the access (18 R414). -/
def Die.lookup (x : Die) (part : Nat) (r : Root) (va : Nat) (acc : Access) : Option Kept :=
  x.kept.find? fun k => decide (k.part = part) && decide (k.root = r) && decide (va / 2 ^ k.bits = k.vbase) &&
    decide (missing k.rd k.w k.x acc = 0)

/-- The die with one more translation kept. -/
def Die.keep (x : Die) (k : Kept) : Die := { x with kept := k :: x.kept }

/-- What a leaf gives: the result, the translation a die may keep, and the state with the leaf's companion word marked (18 R411, R413). -/
def leafEnd (s : State) (d part : Nat) (r : Root) (va : Nat) (acc : Access) (lvl table e frame : Nat) : TRes × Option Kept × State :=
  if missing (Pte.rd e) (Pte.w e) (Pte.x e) acc ≠ 0 then
    (.fault Code.permission (missing (Pte.rd e) (Pte.w e) (Pte.x e) acc) none, none, s)
  else if Pte.disc e then (if accWrites acc then (.fault Code.discardedWrite 0 none, none, s) else (.zero, none, s))
  else
    let comp := table + companionOff lvl + 8 * levelIndex va lvl
    (.pa (frame + va % 2 ^ levelShift lvl),
     some { part := part, root := r, bits := levelShift lvl, vbase := va / 2 ^ levelShift lvl, pbase := frame,
            rd := Pte.rd e, w := Pte.w e, x := Pte.x e, companion := comp },
     s.markLeaf d acc comp)

/-- What a walk gives that used no kept translation (18 R411, R412). -/
def walk (s : State) (d part : Nat) (r : Root) (va : Nat) (acc : Access) : TRes × Option Kept × State :=
  match s.rootOf d part r with
  | none => (.fault Code.notPresent 3 none, none, s)
  | some root =>
    match walkFrom s va 3 root with
    | .poison g => (.fault Code.uncorrectable (uncDetail 1 g) none, none, s)
    | .stop lvl mal e => (.fault Code.notPresent (lvl + b2n mal * 4) (if mal then none else some e), none, s)
    | .leaf lvl table e => leafEnd s d part r va acc lvl table e (Pte.frame e)
    | .last table e =>
      match governing s table va e with
      | ((e, place), s) =>
        if !Pte.v e then (.fault Code.notPresent 0 (some e), none, s)
        else if Pte.malformed e 0 place then (.fault Code.notPresent 4 none, none, s)
        else leafEnd s d part r va acc 0 table e (governedFrame e va)

/-- The translation of an access: by a kept translation, or by a walk. Which walks a die keeps is for the event PAGE_WALK
to say (18 R414, log 11). -/
def translate (s : State) (d part : Nat) (r : Root) (va : Nat) (acc : Access) : TRes × State :=
  match (s.die d).lookup part r va acc with
  | some k => (.pa (k.pbase + va % 2 ^ k.bits), s.markLeaf d acc k.companion)
  | none => ((walk s d part r va acc).1, (walk s d part r va acc).2.2)

/-! ## What firmware wrote into an entry that is not present (19 R446, log 21) -/

/-- The marking of a demand-zero entry in the bits that firmware owns: bit 1 marks it, bit 2 is QUIET, bits 3 to 5 hold
the Rd, W and X of the page, bits 6 and 7 its page size. -/
def demandEntry (quiet rd w x : Bool) (size : Nat) : Nat :=
  2 + b2n quiet * 4 + b2n rd * 8 + b2n w * 16 + b2n x * 32 + size * 64

/-- Whether an entry that is not present is marked demand-zero, and whether QUIET. -/
def isDemand (e : Nat) : Bool := !bit e 0 && bit e 1
def isQuiet (e : Nat) : Bool := bit e 2

/-- How firmware meets a translation fault (18 Table 18.3): transparent, resolvable under RESUME, or neither. -/
inductive Meet where | transparent | resolvable | final
  deriving DecidableEq, Repr

/-- Table 18.3, for a fault of the module's own translation. -/
def meetFault (code : Nat) (entry : Option Nat) (acc : Access) : Meet :=
  if code = Code.discardedWrite then .transparent
  else if code = Code.notPresent then
    match entry with
    | some e => if isDemand e then (if isQuiet e || decide (acc = .fetch) then .transparent else .resolvable) else .final
    | none => .final
  else .final

end Sys2Proof.Machine
end

