-- ==== Sys2Proof/Machine/Firmware.lean ====
section
/-! DEFINITION. What firmware does to a partition's page tables and frames (18 R417, R422, 19 R446, R491). -/
namespace Sys2Proof.Machine

/-- Whether two spans meet. -/
def spansMeet (a n b m : Nat) : Bool := decide (a < b + m) && decide (b < a + n)

/-- The bytes that a page of a size code holds: 4 KiB, 64 KiB, 2 MiB, 1 GiB (19 R446). -/
def pageBytes : Nat → Nat
  | 0 => 0x1000
  | 1 => 0x10000
  | 2 => 0x200000
  | _ => 0x40000000

/-- Whether [a, a + n) is a span of the partition's range that firmware may hand out: past the first 4 MiB, no page table,
not handed out before (19 R446). -/
def Part.frameFree (p : Part) (a n : Nat) : Bool :=
  decide (p.frameBase + 0x400000 ≤ a) && decide (a + n ≤ p.frameBase + p.frameLen) &&
  !p.dataFrames.any (fun f => spansMeet a n f.1 f.2) && !p.tableFrames.any (fun f => spansMeet a n f.1 f.2)

/-- The first free span of `n` bytes at a multiple of `align` from `a` on, trying `fuel` places. -/
def Part.findFree (p : Part) (n align : Nat) : Nat → Nat → Option Nat
  | 0, _ => none
  | fuel + 1, a => if p.frameFree a n then some a else Part.findFree p n align fuel (a + align)

/-- A zeroed data frame of `n` bytes taken from the partition's range (19 R446). -/
def takeFrame (s : State) (part n : Nat) : Option (Nat × State) :=
  let p := s.part part
  match p.findFree n n (p.frameLen / n) (ceilDiv (p.frameBase + 0x400000) n * n) with
  | some a =>
    let s := s.setPart part { p with dataFrames := (a, n) :: p.dataFrames }
    some (a, { s with mem := s.mem.zero a n, memBad := clearGranules s.memBad a n })
  | none => none

/-- A zeroed table of `n` bytes (table and companion half) taken from the partition's range. -/
def takeTable (s : State) (part n : Nat) : Option (Nat × State) :=
  let p := s.part part
  match p.findFree n n (p.frameLen / n) (ceilDiv (p.frameBase + 0x400000) n * n) with
  | some a =>
    let s := s.setPart part { p with tableFrames := (a, n) :: p.tableFrames }
    some (a, { s with mem := s.mem.zero a n, memBad := clearGranules s.memBad a n })
  | none => none

/-- The level whose leaf maps a page of a size code. -/
def sizeLevel : Nat → Nat
  | 0 => 0
  | 1 => 0
  | 2 => 1
  | _ => 2

/-- The address of the entry of level `want` for `va`, from a table of level `lvl`: tables that are absent on the path are
taken from the range and linked (19 R446). None where the range is exhausted or a leaf stands on the path. -/
def reachEntry (s : State) (part va want : Nat) : Nat → Nat → Option (Nat × State)
  | lvl, table =>
    let pa := table + 8 * levelIndex va lvl
    if lvl ≤ want then some (pa, s)
    else match lvl with
      | 0 => some (pa, s)
      | l + 1 =>
        let e := s.read8 pa
        if Pte.v e then (if Pte.leaf e then none else reachEntry s part va want l (Pte.frame e))
        else match takeTable s part 0x2000 with
          | some (t, s) => reachEntry (s.writeMem pa (leBytes (t + 1) 8)) part va want l t
          | none => none

/-- The address of the entry where a walk for `va` stops, with its level: the leaf, or the entry that is not present. -/
def findEntry (s : State) (va : Nat) : Nat → Nat → Nat × Nat
  | lvl, table =>
    let pa := table + 8 * levelIndex va lvl
    let e := s.read8 pa
    if !Pte.v e || Pte.leaf e then (lvl, pa)
    else match lvl with
      | 0 => (0, pa)
      | l + 1 => findEntry s va l (Pte.frame e)

/-- The own root of a partition, from its registers in die 0. -/
def ownRoot (s : State) (part : Nat) : Option Nat := s.rootOf 0 part .own
def exportRoot (s : State) (part : Nat) : Option Nat :=
  let x := SMap.get {} (s.die 0).xlt part
  if x.xroot = 0 then none else some (x.xroot * 2 ^ 21)

/-- A leaf entry: V, LEAF, permissions, DISC, G64, FRAME (18 Table 18.2). -/
def leafEntry (frame : Nat) (rd w x disc g64 : Bool) : Nat :=
  frame + b2n g64 * 2 ^ 8 + b2n disc * 2 ^ 7 + b2n x * 16 + b2n w * 8 + b2n rd * 4 + 3

/-- One 8-byte write of an entry by firmware (18 R416), in `State.mem` wherever its table lies (log 92). -/
def State.writeEntry (s : State) (pa e : Nat) : State := s.writeMem pa (leBytes e 8)

/-- The entries of a page at the level its size gives: sixteen of them for 64 KiB, one else, all with the frame's place. -/
def writeLeaves (s : State) (pa frame size : Nat) (rd w x : Bool) : State :=
  if size = 1 then
    (List.range 16).foldl (fun s i => s.writeEntry (pa + 8 * i) (leafEntry (frame + 0x1000 * i) rd w x false true)) s
  else s.writeEntry pa (leafEntry frame rd w x false false)

/-- The first entry of the page that an entry address belongs to: the group's first for 64 KiB. -/
def pageEntry (pa size : Nat) : Nat := if size = 1 then pa / 128 * 128 else pa

/-- The export leaves that name a frame in [a, a + n), changed by `f`, in one level-0 table of the export space. -/
def mapExportTable (s : State) (table a n : Nat) (f : Nat → Nat) : State :=
  (List.range 512).foldl (fun s i =>
    let e := s.read8 (table + 8 * i)
    if Pte.v e && decide (a ≤ Pte.frame e) && decide (Pte.frame e < a + n) then s.writeEntry (table + 8 * i) (f e) else s) s

/-- The level-0 tables of a partition's export space, from the tables it has taken: those the export root reaches. -/
def exportTables (s : State) (fan : Nat) : Nat → Nat → List Nat
  | 0, table => [table]
  | l + 1, table =>
    (List.range fan).flatMap fun i =>
      let e := s.read8 (table + 8 * i)
      if Pte.v e && !Pte.leaf e then exportTables s 512 l (Pte.frame e) else []

/-- Every export leaf that names a frame in [a, a + n), changed by `f` (19 R491). -/
def mapExports (s : State) (part a n : Nat) (f : Nat → Nat) : State :=
  match exportRoot s part with
  | none => s
  | some root => (exportTables s 128 3 root).foldl (fun s t => mapExportTable s t a n f) s

/-- Firmware completes a translation (18 Table 18.3): a demand-zero entry gets a zeroed frame; a discarded leaf gets a fresh
zeroed frame, also in every export leaf that named the old one (05 R130, 19 R491); a page that is mapped by now needs nothing.
None where it cannot. -/
def complete (s : State) (part va : Nat) : Option State :=
  match ownRoot s part with
  | none => none
  | some root =>
    let (lvl, pa) := findEntry s va 3 root
    let e := s.read8 pa
    if isDemand e then
      let size := field e 6 2
      match takeFrame s part (pageBytes size) with
      | some (fr, s) => some (writeLeaves s (pageEntry pa size) fr size (bit e 3) (bit e 4) (bit e 5))
      | none => none
    else if Pte.v e && Pte.leaf e && Pte.disc e then
      let size := if Pte.g64 e then 1 else if lvl = 0 then 0 else lvl + 1
      let old := Pte.frame e / pageBytes size * pageBytes size
      match takeFrame s part (pageBytes size) with
      | some (fr, s) =>
        let s := writeLeaves s (pageEntry pa size) fr size (Pte.rd e) (Pte.w e) (Pte.x e)
        some (mapExports s part old (pageBytes size) fun x =>
          setField (setField x 7 1 0) 12 28 ((fr + (Pte.frame x - old)) / 4096))
      | none => none
    else if Pte.v e && Pte.leaf e && !Pte.malformed e lvl va then some s
    else none

/-- A translation on behalf of the hub, the save engine or the trace writer: a fault that firmware can complete is completed
before anything sees it (18 R417). -/
def hubTranslate (s : State) (d part : Nat) (va : Nat) (acc : Access) : TRes × State :=
  match translate s d part .own va acc with
  | (.fault code det e, s) =>
    if meetFault code e acc = .final then (.fault code det e, s)
    else match complete s part va with
      | some s => translate s d part .own va acc
      | none => (.fault (if code = Code.discardedWrite then Code.notPresent else code) det none, s)
  | r => r

/-- Why a hub agent's access cannot be made: the code, and the virtual address at which it fails. -/
structure HubFault where
  code : Nat
  vaddr : Nat
  deriving DecidableEq, Repr

/-- Reading `n` bytes of one page for a hub agent. -/
def hubReadPage (s : State) (d part va n : Nat) : Except HubFault (List Byte) × State :=
  match hubTranslate s d part va .read with
  | (.pa a, s) =>
    if hbmEnd ≤ a then (.error ⟨Code.permission, va⟩, s)
    else match badGranule s.memBad a n with
      | some g => (.error ⟨Code.uncorrectable, va + (g - a)⟩, s)
      | none => (.ok (s.mem.bytes a n), s)
  | (.zero, s) => (.ok (List.replicate n 0), s)
  | (.fault c _ _, s) => (.error ⟨c, va⟩, s)

/-- Reading `n` bytes for a hub agent, page by page, at most `fuel` pages. -/
def hubRead (s : State) (d part : Nat) : Nat → Nat → Nat → Except HubFault (List Byte) × State
  | 0, _, _ => (.ok [], s)
  | fuel + 1, va, n =>
    if n = 0 then (.ok [], s)
    else
      let k := min n (4096 - va % 4096)
      match hubReadPage s d part va k with
      | (.error c, s) => (.error c, s)
      | (.ok l, s) =>
        match hubRead s d part fuel (va + k) (n - k) with
        | (.ok l', s) => (.ok (l ++ l'), s)
        | (.error c, s) => (.error c, s)

/-- Writing bytes of one page for a hub agent; why it cannot, where it cannot. -/
def hubWritePage (s : State) (d part va : Nat) (l : List Byte) : Option HubFault × State :=
  match hubTranslate s d part va .write with
  | (.pa a, s) => if hbmEnd ≤ a then (some ⟨Code.permission, va⟩, s) else (none, s.writeMem a l)
  | (.zero, s) => (none, s)
  | (.fault c _ _, s) => (some ⟨c, va⟩, s)

/-- Writing bytes for a hub agent, page by page. -/
def hubWrite (s : State) (d part : Nat) : Nat → Nat → List Byte → Option HubFault × State
  | 0, _, _ => (none, s)
  | fuel + 1, va, l =>
    if l.isEmpty then (none, s)
    else
      let k := min l.length (4096 - va % 4096)
      match hubWritePage s d part va (l.take k) with
      | (some c, s) => (some c, s)
      | (none, s) => hubWrite s d part fuel (va + k) (l.drop k)

/-- Pages enough for `n` bytes anywhere. -/
def spanFuel (n : Nat) : Nat := n / 4096 + 2

end Sys2Proof.Machine
end

