-- ==== Sys2Proof/Machine/HostLink.lean ====
section
/-! DEFINITION. Host memory through the card's grants, event rings, windows and the publication buffer (07 R173, R174;
19 R437, R445, R447, R448). -/
namespace Sys2Proof.Machine

/-- The source of firmware's accesses in a grant's SRC (19 R437). -/
def firmwareSource : Nat := 16

/-- Whether a grant covers an access (19 R437). -/
def Grant.allows (g : Grant) (src addr n : Nat) (write : Bool) : Bool :=
  g.v && decide (g.base ≤ addr) && decide (addr + n ≤ g.base + g.length) && (if write then g.w else g.r) && bit g.src src

/-- Whether some entry grants an access to host memory. -/
def State.granted (s : State) (src addr n : Nat) (write : Bool) : Bool :=
  s.hub.card.grants.any fun g => g.2.allows src addr n write

/-- The card counts a refusal and raises MSI-X vector 1 (19 R437). -/
def State.refuse (s : State) : State :=
  { s with hub := { s.hub with card := { s.hub.card with viol := s.hub.card.viol + 1, msix := insertNat s.hub.card.msix 1 } } }

/-- Whether some link port is up: the link is the module's only way to its host (01 R29, 19 R439). -/
def State.linkUp (s : State) : Bool := SMap.get true s.hub.ports 0 || SMap.get true s.hub.ports 1

/-- A read of host memory on behalf of a source, made only while the link is up: all ones where the card refuses it. -/
def State.hostRead (s : State) (src addr n : Nat) : List Byte × Bool × State :=
  if s.granted src addr n false then (s.host.bytes addr n, true, s) else (List.replicate n 0xFF, false, s.refuse)

/-- A write of host memory on behalf of a source, made only while the link is up: dropped where the card refuses it. -/
def State.hostWrite (s : State) (src addr : Nat) (l : List Byte) : Bool × State :=
  if s.granted src addr l.length true then (true, { s with host := s.host.setBytes addr l }) else (false, s.refuse)

namespace Status
def done : Nat := 0x80
def badOpcode : Nat := 0x81
def badField : Nat := 0x82
def packetTorn : Nat := 0x83
def ringOverrun : Nat := 0x84
def noGrant : Nat := 0x85
def nodeRejected : Nat := 0x86
def graphDone : Nat := 0x87
def graphIncomplete : Nat := 0x88
def busy : Nat := 0x89
def noResource : Nat := 0x8A
def authFailed : Nat := 0x8B
def bankRetired : Nat := 0x8C
def malformedGraph : Nat := 0x8D
def nodeFault : Nat := 0x8E
def postedFailure : Nat := 0x8F
def eventsLost : Nat := 0x90
def linkDegraded : Nat := 0x91
end Status

/-! ## Event rings (19 R447) -/

/-- The event ring of a partition, or the admin event ring. -/
def State.evRing (s : State) : Option Nat → EvRing
  | some p => (s.part p).ev
  | none => s.hub.adminEv

def State.setEvRing (s : State) (o : Option Nat) (r : EvRing) : State :=
  match o with
  | some p => s.setPart p { s.part p with ev := r }
  | none => { s with hub := { s.hub with adminEv := r } }

/-- The source of an event ring's writes. -/
def evSource : Option Nat → Nat
  | some p => p
  | none => firmwareSource

/-- Doubleword 0 of entry `n` (19 Table 19.9): PHASE is 1 on even turns of the ring. -/
def Event.dw0 (e : Event) (n log2 : Nat) : Nat :=
  (1 - n / 2 ^ log2 % 2) * 2 ^ 63 + e.status * 2 ^ 48 + e.ring * 2 ^ 44 + e.tag

/-- The 32 bytes of an entry. -/
def Event.bytes (e : Event) (n log2 : Nat) : List Byte :=
  leBytes (e.dw0 n log2) 8 ++ leBytes e.addr 8 ++ leBytes e.data 8 ++ leBytes e.tick 8

/-- An event held in the hub, up to 64; beyond those it is dropped and counted. -/
def State.holdEvent (s : State) (o : Option Nat) (e : Event) : State :=
  let r := s.evRing o
  if r.held.length < 64 then s.setEvRing o { r with held := r.held ++ [{ e with tick := s.seiche }] }
  else s.setEvRing o { r with lost := min (r.lost + 1) (2 ^ 32 - 1) }

/-- An entry written at TAIL. A write the card refuses is dropped, and NO_GRANT arises for it as for every refusal (19 R437). -/
def State.writeEvent (s : State) (o : Option Nat) (e : Event) : State :=
  let r := s.evRing o
  let a := r.base + 32 * (r.tail % 2 ^ r.log2)
  match s.hostWrite (evSource o) a (e.bytes r.tail r.log2) with
  | (true, s) => s.setEvRing o { r with tail := r.tail + 1 }
  | (false, s) => (s.setEvRing o { r with tail := r.tail + 1 }).holdEvent o { status := Status.noGrant, addr := a }

/-- The entries that room and the link allow: an EVENTS_LOST entry first if any event was dropped, then the events held. -/
def State.drainEvents (s : State) (o : Option Nat) : Nat → State
  | 0 => s
  | fuel + 1 =>
    let r := s.evRing o
    if s.linkUp ∧ r.tail - r.head < 2 ^ r.log2 then
      if r.lost ≠ 0 then
        State.drainEvents ((s.setEvRing o { r with lost := 0 }).writeEvent o { status := Status.eventsLost, data := r.lost, tick := s.seiche }) o fuel
      else match r.held with
        | e :: es => State.drainEvents ((s.setEvRing o { r with held := es }).writeEvent o e) o fuel
        | [] => s
    else s

/-- As many entries as a drain can write: those held and the one for lost events, and one NO_GRANT for each entry of the ring that
the card may refuse. -/
def EvRing.turns (r : EvRing) : Nat := 66 + 2 ^ r.log2

/-- An event arises: it is held in the hub, up to 64, and written where there is room. -/
def State.post (s : State) (o : Option Nat) (e : Event) : State := (s.holdEvent o e).drainEvents o (s.evRing o).turns

/-- NO_GRANT for a refused access of a partition or of firmware (19 R437). -/
def State.postNoGrant (s : State) (o : Option Nat) (addr : Nat) : State := s.post o { status := Status.noGrant, addr := addr }

/-! ## Windows (19 R445) -/

/-- What a window lookup gives. -/
inductive WinRes where
  | host (addr : Nat)
  | fault (code detail : Nat)
  deriving DecidableEq, Repr

/-- The lowest-numbered valid window that covers an offset. -/
def Part.window (p : Part) (off : Nat) : Option Window :=
  (p.windows.find? fun w => w.2.v && decide (w.2.offset ≤ off) && decide (off < w.2.offset + w.2.length)).map (·.2)

/-- The host address of a window offset for a read or a write. -/
def Part.lookup (p : Part) (off : Nat) (write : Bool) : WinRes :=
  match p.window off with
  | none => .fault Code.notPresent 0
  | some w =>
    if write then (if w.w then .host (w.host + off - w.offset) else .fault Code.permission 2)
    else if w.rd then .host (w.host + off - w.offset) else .fault Code.permission 1

/-! ## The publication buffer (07 R173, R174) -/

/-- How many granules a partition's buffer holds. -/
def pubCapacity : Nat := 65536

/-- The held byte at a host address, if any. -/
def Part.heldByte (p : Part) (a : Nat) : Option Byte :=
  match p.pub.find? (fun g => decide (g.host = a / 64 * 64)) with
  | some g => g.bytes.getD (a % 64) none
  | none => none

/-- Whether a write of [a, a + n) needs more granules than the buffer has free. -/
def Part.pubFull (p : Part) (a n : Nat) : Bool :=
  decide (pubCapacity < p.pub.length +
    ((List.range (n / 64 + 2)).filter fun i =>
      decide ((a / 64 + i) * 64 < a + n) && !p.pub.any (fun g => decide (g.host = (a / 64 + i) * 64))).length)

/-- A byte enters the buffer: it merges into its granule, or a new granule is put last. -/
def Part.pubByte (p : Part) (a : Nat) (v : Byte) : Part :=
  if p.pub.any (fun g => decide (g.host = a / 64 * 64)) then
    { p with pub := p.pub.map fun g => if g.host = a / 64 * 64 then { g with bytes := g.bytes.set (a % 64) (some v) } else g }
  else { p with pub := p.pub ++ [{ host := a / 64 * 64, bytes := (List.replicate 64 none).set (a % 64) (some v) }] }

/-- Bytes enter the buffer. -/
def Part.pubBytes (p : Part) (a : Nat) : List Byte → Part
  | [] => p
  | v :: l => Part.pubBytes (p.pubByte a v) (a + 1) l

/-- What a device reads at a host address: held bytes from the buffer, the others from host memory (07 R173). -/
def State.windowBytes (s : State) (part a : Nat) : Nat → List Byte
  | 0 => []
  | n + 1 => ((s.part part).heldByte a).getD (s.host.byte a) :: State.windowBytes s part (a + 1) n

/-- One granule performed at host memory; a refused one is dropped and reported as NO_GRANT (19 R445). -/
def State.drainGranule (s : State) (part : Nat) (g : Granule) : State :=
  if s.granted part g.host 64 true then
    { s with host := (List.range 64).foldl (fun h i => match g.bytes.getD i none with
        | some v => h.setByte (g.host + i) v
        | none => h) s.host }
  else (s.refuse).postNoGrant (some part) g.host

/-- Steps 2 and 3 of `publish` (07 R174, 19 R448): every granule in the order it entered, then the version counter. -/
def State.publishDrain (s : State) (part : Nat) : State :=
  let gs := (s.part part).pub
  let s := gs.foldl (fun s g => s.drainGranule part g) s
  let p := s.part part
  let v := p.pubver + 1
  let s := s.setPart part { p with pub := [], pubver := v }
  if p.pubctr = 0 then s
  else match s.hostWrite part (p.pubctr * 8) (leBytes v.toNat 8) with
    | (true, s) => s
    | (false, s) => s.postNoGrant (some part) (p.pubctr * 8)

end Sys2Proof.Machine
end

