-- ==== Sys2Proof/Machine/Mem.lean ====
section
/-! DEFINITION. Accesses of cores and operations to module memory (SPACE 0): translation, poison, and how a fault of theirs
is met (09 R218, R219; 18 R411 to R417, R431). -/
namespace Sys2Proof.Machine

/-- Why an access stops: the fault, and whether firmware first tries to complete the translation unseen (18 Table 18.3).
An iteration also stops to wait for the host, for the fabric, for something of its own tile or chain, or for room in the publication
buffer; `entered` numbers the writes of its row that are in the buffer. -/
structure Stop where
  f : FaultRec
  wait : Bool := false
  host : Option HostRead := none
  fab : Option FabWait := none
  stall : Bool := false
  entered : List Nat := []
  deriving DecidableEq, Repr

/-- What an access gives, with the state it leaves. -/
abbrev Res (α : Type) := Except Stop α × State

/-- An access after another: it stops where the first stops. -/
def Res.bind {α β : Type} (r : Res α) (f : α → State → Res β) : Res β :=
  match r with
  | (.error e, s) => (.error e, s)
  | (.ok a, s) => f a s

/-- An access that gives a value and leaves the state. -/
def Res.ok {α : Type} (a : α) (s : State) : Res α := (.ok a, s)

/-- An access that stops. -/
def Res.stop {α : Type} (f : FaultRec) (s : State) : Res α := (.error { f := f }, s)

/-- The running core stops as `e` says: a fault, or a wait for firmware (18 R417). -/
def State.stopCore (s : State) (e : Stop) : State :=
  if e.wait then s.block (.firmware { e.f with unit := s.curCore.num } e.f.vaddr) else s.faultRec e.f

/-- The meaning of an instruction of the running core that makes an access and then goes on. -/
def Res.run {α : Type} (r : Res α) (k : α → State → State) : Out :=
  match r with
  | (.ok a, s) => .next (k a s)
  | (.error e, s) => .next (s.stopCore e)

/-- The fault of an access at a virtual address. -/
def accFault (code detail : Nat) (acc : Access) (va : Nat) : FaultRec :=
  { code := code, detail := detail, access := accCode acc, vaddr := va }

/-- The translation of an access of a node, met as 18 Table 18.3 says. The result is a physical address, or none for a
discarded page that reads as zero. A hub address raises PERMISSION (19 R435). -/
def nodeTranslate (s : State) (d part va : Nat) (acc : Access) : Res (Option Nat) :=
  match translate s d part .own va acc with
  | (.pa a, s) => if hbmEnd ≤ a then Res.stop (accFault Code.permission 0 acc va) s else (.ok (some a), s)
  | (.zero, s) => (.ok none, s)
  | (.fault code det e, s) =>
    match meetFault code e acc with
    | .transparent => (.error { f := accFault code det acc va, wait := true }, s)
    | .resolvable => Res.stop { accFault code det acc va with resolvable := true } s
    | .final => Res.stop (accFault code det acc va) s

/-- `n` bytes of one page read at a virtual address. -/
def nodeRead (s : State) (d part va n : Nat) (acc : Access) : Res (List Byte) :=
  (nodeTranslate s d part va acc).bind fun o s =>
    match o with
    | none => (.ok (List.replicate n 0), s)
    | some a =>
      match badGranule s.memBad a n with
      | some g => Res.stop (accFault Code.uncorrectable (uncDetail 1 g) acc va) s
      | none => (.ok (s.mem.bytes a n), s)

/-- Bytes of one page written at a virtual address. -/
def nodeWrite (s : State) (d part va : Nat) (l : List Byte) : Res Unit :=
  (nodeTranslate s d part va .write).bind fun o s =>
    match o with
    | none => (.ok (), s)
    | some a => (.ok (), s.writeMem a l)

/-- The die and the partition of the running core. -/
def State.myDie (s : State) : Nat := tileDie s.curTile.val
def State.myPart (s : State) : Nat := s.me.partNo

end Sys2Proof.Machine
end

