-- ==== Sys2Proof/Machine/Numerics.lean ====
section
/-! DEFINITION. Exact values, decoding and rounding of number formats, the exact functions behind the vector unit, and the
keyed generator (03 R57 to R74, 04 R94, R95, R102 to R105). -/
namespace Sys2Proof.Machine

/-! ## The format-table entry (03 Table 3.1) -/

def Ent.v (f : Nat) : Bool := bit f 63
def Ent.kind (f : Nat) : Nat := field f 61 2
def Ent.sign (f : Nat) : Bool := bit f 60
def Ent.widthCode (f : Nat) : Nat := field f 57 3
def Ent.ew (f : Nat) : Nat := field f 53 4
def Ent.fw (f : Nat) : Nat := field f 48 5
def Ent.bias (f : Nat) : Int := sInt 10 (field f 38 10)
def Ent.policy (f : Nat) : Nat := field f 35 3
def Ent.blen (f : Nat) : Nat := field f 33 2
def Ent.sfmt (f : Nat) : Nat := field f 29 4
def Ent.zp (f : Nat) : Bool := bit f 28

/-- Element width in bits. -/
def Ent.width (f : Nat) : Nat :=
  match Ent.widthCode f with
  | 0 => 4
  | 1 => 6
  | 2 => 8
  | 3 => 16
  | _ => 32

/-- Block or group length in elements; 0 is none. -/
def Ent.block (f : Nat) : Nat :=
  match Ent.blen f with
  | 0 => 0
  | 1 => 32
  | 2 => 64
  | _ => 128

/-- The element conditions of KIND 0 (03 Table 3.2). -/
def Ent.floatOk (f : Nat) : Bool :=
  decide (b2n (Ent.sign f) + Ent.ew f + Ent.fw f = Ent.width f) && decide (1 ≤ Ent.ew f) && decide (Ent.ew f ≤ 8) &&
  (match Ent.policy f with
   | 0 => Ent.sign f && decide (2 ≤ Ent.ew f) && decide (1 ≤ Ent.fw f)
   | 4 => !Ent.sign f && decide (Ent.ew f = 8) && decide (Ent.fw f = 0) && decide (Ent.width f = 8)
   | _ => Ent.sign f)

/-- The element conditions of KIND 1. -/
def Ent.intOk (f : Nat) : Bool :=
  decide (Ent.ew f = 0) && decide (Ent.fw f = 0) && decide (Ent.bias f = 0) && decide (Ent.policy f = 3)

/-- A legal entry (03 R58, Table 3.2). -/
def Ent.legal (f : Nat) : Bool :=
  decide (Ent.widthCode f ≤ 4) && decide (Ent.policy f ≤ 4) && decide (Ent.ew f ≤ 8) && decide (Ent.fw f ≤ 23) &&
  decide (field f 0 28 = 0) &&
  (match Ent.kind f with
   | 0 => Ent.floatOk f && decide (Ent.blen f = 0) && decide (Ent.sfmt f = 0) && !Ent.zp f
   | 1 => Ent.intOk f && decide (Ent.blen f = 0) && decide (Ent.sfmt f = 0) && !Ent.zp f
   | 2 => Ent.floatOk f && decide (Ent.width f ≤ 8) && decide (Ent.policy f ≠ 4) && decide (Ent.blen f ≠ 0) && !Ent.zp f
   | _ => Ent.intOk f && (decide (Ent.width f = 4) || decide (Ent.width f = 8)) && decide (Ent.blen f ≠ 0))

/-- The predefined formats the hardware itself names: f0 FP32, f8 E8M0, and INT32 (03 Table 3.4). -/
def entFp32 : Nat := 0x99171FC000000000
def entInt32 : Nat := 0xB800001800000000

/-! ## Exact values -/

/-- An exact value: NaN, an infinity, or (-1)^neg × m × 2^e; a zero has a sign. -/
inductive Val where
  | nan
  | inf (neg : Bool)
  | fin (neg : Bool) (m : Nat) (e : Int)
  deriving DecidableEq, Repr

/-- +0. -/
def Val.zero : Val := .fin false 0 0

/-- An integer as a value. -/
def Val.ofInt (i : Int) : Val := .fin (decide (i < 0)) i.natAbs 0

/-- The sign of a value that has one. -/
def Val.neg? : Val → Bool
  | .nan => false
  | .inf n => n
  | .fin n _ _ => n

/-- The value with the other sign. -/
def Val.negate : Val → Val
  | .nan => .nan
  | .inf n => .inf (!n)
  | .fin n m e => .fin (!n) m e

/-- The absolute value. -/
def Val.abs : Val → Val
  | .nan => .nan
  | .inf _ => .inf false
  | .fin _ m e => .fin false m e

def Val.isNan : Val → Bool
  | .nan => true
  | _ => false

def Val.isInf : Val → Bool
  | .inf _ => true
  | _ => false

def Val.isZero : Val → Bool
  | .fin _ m _ => decide (m = 0)
  | _ => false

/-- The product of two values (04 R92). -/
def Val.mul (x y : Val) : Val :=
  match x, y with
  | .nan, _ => .nan
  | _, .nan => .nan
  | .inf a, .inf b => .inf (a != b)
  | .inf a, .fin b m _ => if m = 0 then .nan else .inf (a != b)
  | .fin a m _, .inf b => if m = 0 then .nan else .inf (a != b)
  | .fin a m e, .fin b n f => .fin (a != b) (m * n) (e + f)

/-- m × 2^e as an integer multiple of 2^lo, for lo at most e. -/
def scaleTo (neg : Bool) (m : Nat) (e lo : Int) : Int :=
  let v : Int := (m * 2 ^ (e - lo).toNat : Nat)
  if neg then -v else v

/-- The sum of two values with the zero rule of 04 R95: -0 only if both are -0. -/
def Val.add (x y : Val) : Val :=
  match x, y with
  | .nan, _ => .nan
  | _, .nan => .nan
  | .inf a, .inf b => if a = b then .inf a else .nan
  | .inf a, .fin _ _ _ => .inf a
  | .fin _ _ _, .inf b => .inf b
  | .fin a m e, .fin b n f =>
    if m = 0 then (if n = 0 then .fin (a && b) 0 0 else .fin b n f)
    else if n = 0 then .fin a m e
    else
      let lo := min e f
      let v := scaleTo a m e lo + scaleTo b n f lo
      .fin (decide (v < 0)) v.natAbs lo

/-- The exact sum of a list, from its first addend (04 R95). -/
def Val.sum : Val → List Val → Val
  | a, [] => a
  | a, x :: l => Val.sum (a.add x) l

/-- x < y for values that are not NaN. -/
def Val.lt (x y : Val) : Bool :=
  match x, y with
  | .nan, _ => false
  | _, .nan => false
  | .inf a, .inf b => a && !b
  | .inf a, .fin _ _ _ => a
  | .fin _ _ _, .inf b => !b
  | .fin a m e, .fin b n f => decide (scaleTo a m e (min e f) < scaleTo b n f (min e f))

/-- Equality of values: -0 equals +0, NaN equals nothing. -/
def Val.eq (x y : Val) : Bool := !x.isNan && !y.isNan && !x.lt y && !y.lt x

/-! ## Decoding (03 R61 to R65) -/

/-- The largest positive finite code of a KIND 0 entry (03 R62). -/
def Ent.maxCode (f : Nat) : Nat :=
  match Ent.policy f with
  | 0 => (2 ^ Ent.ew f - 1) * 2 ^ Ent.fw f - 1
  | 1 => 2 ^ (Ent.ew f + Ent.fw f) - 2
  | 4 => 0xFE
  | _ => 2 ^ (Ent.ew f + Ent.fw f) - 1

/-- The value of a KIND 0 code (03 R61, R62). -/
def decodeFloat (f c : Nat) : Val :=
  let t := field c 0 (Ent.fw f)
  let e := field c (Ent.fw f) (Ent.ew f)
  let neg := Ent.sign f && bit c (Ent.ew f + Ent.fw f)
  let ones := 2 ^ Ent.ew f - 1
  if Ent.policy f = 4 then (if e = ones then .nan else .fin false 1 (e - Ent.bias f))
  else if Ent.policy f = 0 ∧ e = ones then (if t = 0 then .inf neg else .nan)
  else if Ent.policy f = 1 ∧ e = ones ∧ t = 2 ^ Ent.fw f - 1 then .nan
  else if Ent.policy f = 2 ∧ neg ∧ e = 0 ∧ t = 0 then .nan
  else if e = 0 then .fin neg t (1 - Ent.bias f - Ent.fw f)
  else .fin neg (2 ^ Ent.fw f + t) (e - Ent.bias f - Ent.fw f)

/-- The integer of a KIND 1 or KIND 3 code (03 R63). -/
def decodeInt (f c : Nat) : Int :=
  if Ent.sign f then sInt (Ent.width f) c else (c % 2 ^ Ent.width f : Nat)

/-- The value of an element code by its own fields: a float for KIND 0 and 2, an integer for KIND 1 and 3. -/
def decodeElem (f c : Nat) : Val :=
  if Ent.kind f % 2 = 0 then decodeFloat f c else Val.ofInt (decodeInt f c)

/-- The value of a KIND 2 code under a scale code (03 R65). -/
def decodeScaled (f sf c x : Nat) : Val :=
  if x % 256 = 0xFF then .nan else (decodeFloat sf x).mul (decodeFloat f c)

/-- An FP32 word as a value. -/
def fp32 (w : Nat) : Val := decodeFloat entFp32 w

/-! ## Rounding (03 R68 to R74) -/

/-- The canonical NaN (03 R71). -/
def Ent.nanCode (f : Nat) : Nat :=
  match Ent.policy f with
  | 0 => (2 ^ Ent.ew f - 1) * 2 ^ Ent.fw f + 2 ^ (Ent.fw f - 1)
  | 1 => 2 ^ (Ent.ew f + Ent.fw f) - 1
  | 2 => 2 ^ (Ent.ew f + Ent.fw f)
  | 4 => 0xFF
  | _ => Ent.maxCode f

/-- A magnitude code with a sign. -/
def signed (f : Nat) (neg : Bool) (c : Nat) : Nat := if neg then c + 2 ^ (Ent.width f - 1) else c

/-- Overflow (03 R70). Modes: 0 RNE, 1 RTZ, 2 RUP, 3 RDN, 4 SR. -/
def overflow (f : Nat) (neg : Bool) (mode : Nat) (sat : Bool) : Nat :=
  if mode = 1 ∨ (mode = 2 ∧ neg) ∨ (mode = 3 ∧ !neg) ∨ sat then signed f neg (Ent.maxCode f)
  else if Ent.policy f = 0 then signed f neg ((2 ^ Ent.ew f - 1) * 2 ^ Ent.fw f)
  else if Ent.policy f = 3 then signed f neg (Ent.maxCode f)
  else Ent.nanCode f

/-- Whether the integer below the grid value m / 2^sh is raised by one (03 R69); `rnd` has 24 bits. -/
def raise (m sh : Nat) (neg : Bool) (mode rnd : Nat) : Bool :=
  let n := m / 2 ^ sh
  let r := m % 2 ^ sh
  match mode with
  | 0 => decide (2 ^ sh < 2 * r) || (decide (2 * r = 2 ^ sh) && decide (n % 2 = 1))
  | 2 => decide (r ≠ 0) && !neg
  | 3 => decide (r ≠ 0) && neg
  | 4 => decide (rnd < r * 2 ^ 24 / 2 ^ sh)
  | _ => false

/-- m × 2^e on the grid of 2^g: the integer chosen by the mode. -/
def gridInt (m : Nat) (e g : Int) (neg : Bool) (mode rnd : Nat) : Nat :=
  if g ≤ e then m * 2 ^ (e - g).toNat
  else m / 2 ^ (g - e).toNat + b2n (raise m (g - e).toNat neg mode rnd)

/-- floor(log2(m × 2^e)) for m not 0. -/
def valLog (m : Nat) (e : Int) : Int := (Nat.log2 m : Nat) + e

/-- Rounding to KIND 0 other than UEXP, of a finite value that is not zero (03 R69). -/
def roundFloat (f : Nat) (neg : Bool) (m : Nat) (e : Int) (mode rnd : Nat) (sat : Bool) : Nat :=
  let emin := 1 - Ent.bias f
  let ex := max emin (valLog m e)
  let n := gridInt m e (ex - Ent.fw f) neg mode rnd
  let code := (ex - emin).toNat * 2 ^ Ent.fw f + n
  if Ent.maxCode f < code then overflow f neg mode sat
  else if code = 0 ∧ Ent.policy f = 2 then 0
  else signed f neg code

/-- Rounding to KIND 1 (03 R73). -/
def roundInt (f : Nat) (x : Val) (mode rnd : Nat) : Nat :=
  let w := Ent.width f
  let hi : Int := if Ent.sign f then 2 ^ (w - 1) - 1 else 2 ^ w - 1
  let lo : Int := if Ent.sign f then -(2 ^ (w - 1)) else 0
  match x with
  | .nan => uMod w hi
  | .inf neg => uMod w (if neg then lo else hi)
  | .fin neg m e =>
    let n : Int := gridInt m e 0 neg mode rnd
    let v := if neg then -n else n
    uMod w (if hi < v then hi else if v < lo then lo else v)

/-- Rounding to UEXP (03 R74). -/
def roundExp (f : Nat) (x : Val) (mode rnd : Nat) (sat : Bool) : Nat :=
  match x with
  | .nan => 0xFF
  | .inf neg => if neg then 0xFF else overflow f false mode sat
  | .fin neg m e =>
    if m = 0 ∨ neg then 0xFF
    else
      let k := valLog m e
      let r := m - 2 ^ Nat.log2 m
      let d := 2 ^ Nat.log2 m
      let up := match mode with
        | 0 => decide (d < 2 * r) || (decide (2 * r = d) && decide ((k + Ent.bias f) % 2 = 1))
        | 2 => decide (r ≠ 0)
        | 4 => decide (rnd < r * 2 ^ 24 / d)
        | _ => false
      let j := k + b2n up + Ent.bias f
      if j < 0 then 0 else if 254 < j then overflow f false mode sat else j.toNat

/-- Round(x, f, mode, sat) (03 R68 to R74). -/
def round (f : Nat) (x : Val) (mode rnd : Nat) (sat : Bool) : Nat :=
  if Ent.kind f % 2 = 1 then roundInt f x mode rnd
  else if Ent.policy f = 4 then roundExp f x mode rnd sat
  else match x with
    | .nan => Ent.nanCode f
    | .inf neg => if Ent.policy f = 0 then signed f neg ((2 ^ Ent.ew f - 1) * 2 ^ Ent.fw f) else overflow f neg mode sat
    | .fin neg m e =>
      if m = 0 then (if Ent.policy f = 2 then 0 else signed f neg 0) else roundFloat f neg m e mode rnd sat

/-- Rounding to FP32, RNE, no SAT (04 R94). -/
def roundFp32 (x : Val) : Nat := round entFp32 x 0 0 false

/-- A conversion (03 R77): a raw copy where the 64-bit entries are equal. -/
def convert (g f c : Nat) (mode rnd : Nat) (sat : Bool) : Nat :=
  if g = f then c else round f (decodeElem g c) mode rnd sat

/-! ## Functions that are not exact: a value with the bits that decide every rounding, and a sticky bit below them -/

/-- q × 2^e where exactly more may follow: the last bit is odd if something does. -/
def sticky (neg : Bool) (q : Nat) (e : Int) (more : Bool) : Val := .fin neg (2 * q + b2n more) (e - 1)

/-- n × 2^e / d, to at least 60 bits (04 R103). -/
def quotient (neg : Bool) (n d : Nat) (e : Int) : Val :=
  let k := 64 + Nat.log2 d
  sticky neg (n * 2 ^ k / d) (e - k) (decide (n * 2 ^ k % d ≠ 0))

/-- The integer square root, bit by bit from bit i - 1 down. -/
def isqrtFrom (n : Nat) : Nat → Nat → Nat
  | 0, r => r
  | i + 1, r => if (r + 2 ^ i) * (r + 2 ^ i) ≤ n then isqrtFrom n i (r + 2 ^ i) else isqrtFrom n i r

/-- floor(sqrt(n)). -/
def isqrt (n : Nat) : Nat := isqrtFrom n (Nat.log2 n / 2 + 1) 0

/-- sqrt(m × 2^e). -/
def sqrtVal (m : Nat) (e : Int) : Val :=
  let m := if e % 2 = 0 then m else 2 * m
  let e := if e % 2 = 0 then e else e - 1
  let n := m * 2 ^ 128
  let r := isqrt n
  sticky false r (e / 2 - 64) (decide (r * r ≠ n))

/-- 1 / sqrt(m × 2^e). -/
def rsqrtVal (m : Nat) (e : Int) : Val :=
  let m := if e % 2 = 0 then m else 2 * m
  let e := if e % 2 = 0 then e else e - 1
  let k := 64 + Nat.log2 m
  let r := isqrt (2 ^ (2 * k) / m)
  sticky false r (-(e / 2) - k) (decide (r * r * m ≠ 2 ^ (2 * k)))

/-- The sum over k of u^(2k+1) / (2k+1), in units of 2^-p, from term number k on: a lower bound. -/
def atanhTerms (p u2 : Nat) : Nat → Nat → Nat → Nat
  | 0, _, _ => 0
  | fuel + 1, k, pow => pow / (2 * k + 1) + atanhTerms p u2 fuel (k + 1) (pow * u2 / 2 ^ p)

/-- Lower and upper bounds of 2 × atanh(n / d) in units of 2^-p, for 0 ≤ n / d ≤ 1/3. -/
def atanh2 (p n d : Nat) : Nat × Nat :=
  let u := n * 2 ^ p / d
  let s := atanhTerms p (u * u / 2 ^ p) (p / 3 + 4) 0 u
  (2 * s, 2 * s + 8 * (p / 3 + 4) + 16)

/-- Bounds of ln 2 in units of 2^-p. -/
def ln2 (p : Nat) : Nat × Nat := atanh2 p 1 3

/-- The sum of t^n / n! in units of 2^-p from a term on: a lower bound. -/
def expTerms (p t : Nat) : Nat → Nat → Nat → Nat
  | 0, _, _ => 0
  | fuel + 1, n, term => term + expTerms p t fuel (n + 1) (term * t / 2 ^ p / (n + 1))

/-- Bounds of 2^(f / 2^k), 0 < f / 2^k < 1, in units of 2^-p. -/
def exp2Bounds (p f k : Nat) : Nat × Nat :=
  let t := f * (ln2 p).1 / 2 ^ k
  let n := p / 4 + 24
  let s := expTerms p t n 0 (2 ^ p)
  (s, s + n * n + 8 * ((ln2 p).2 - (ln2 p).1) + 16)

/-- Bounds of log2(m / 2^k), for 1 < m / 2^k < 2, in units of 2^-p. -/
def log2Bounds (p m k : Nat) : Nat × Nat :=
  let (lo, hi) := atanh2 p (m - 2 ^ k) (m + 2 ^ k)
  let (l2, h2) := ln2 p
  (lo * 2 ^ p / h2, hi * 2 ^ p / l2 + 1)

/-- The value between two bounds of a magnitude in units of 2^-p, where their leading 56 bits agree. -/
def between (neg : Bool) (lo hi p : Nat) : Option Val :=
  let sh := Nat.log2 lo - 55
  if lo ≠ 0 ∧ lo / 2 ^ sh = hi / 2 ^ sh then some (sticky neg (lo / 2 ^ sh) ((sh : Int) - p) true) else none

/-- A result at the first precision whose bounds decide it; at the last one, the lower bound (log 22). -/
def decideAt (neg : Bool) (b : Nat → Nat × Nat) : List Nat → Val
  | [] => sticky neg (b 1280).1 (-1280) true
  | p :: ps => match between neg (b p).1 (b p).2 p with
    | some v => v
    | none => decideAt neg b ps

/-- The precisions tried, in bits. -/
def precisions : List Nat := [160, 320, 640]

/-- A value multiplied by 2^k. -/
def Val.scale (x : Val) (k : Int) : Val :=
  match x with
  | .fin n m e => .fin n m (e + k)
  | v => v

/-- 2^x for a finite x (04 R103): exact for an integer; far out of range, a power that rounds as the result does. -/
def exp2Val (neg : Bool) (m : Nat) (e : Int) : Val :=
  if m = 0 then .fin false 1 0
  else if 12 ≤ valLog m e then .fin false 1 (if neg then -1000 else 1000)
  else if 0 ≤ e then .fin false 1 (if neg then -((m * 2 ^ e.toNat : Nat) : Int) else (m * 2 ^ e.toNat : Nat))
  else
    let k := (-e).toNat
    let i := m / 2 ^ k
    let f := m % 2 ^ k
    if f = 0 then .fin false 1 (if neg then -(i : Int) else i)
    else if neg then (decideAt false (fun p => exp2Bounds p (2 ^ k - f) k) precisions).scale (-(i : Int) - 1)
    else (decideAt false (fun p => exp2Bounds p f k) precisions).scale i

/-- log2(m × 2^e) for m not 0 (04 R103): exact for a power of two. -/
def log2Val (m : Nat) (e : Int) : Val :=
  let k := Nat.log2 m
  let ex := valLog m e
  if m = 2 ^ k then Val.ofInt ex
  else if 0 ≤ ex then decideAt false (fun p => (ex.toNat * 2 ^ p + (log2Bounds p m k).1, ex.toNat * 2 ^ p + (log2Bounds p m k).2)) precisions
  else decideAt true (fun p => ((-ex).toNat * 2 ^ p - (log2Bounds p m k).2, (-ex).toNat * 2 ^ p - (log2Bounds p m k).1)) precisions

/-! ## The functions of 04 R102, R103 with their special cases -/

/-- The sum as vector arithmetic has it: an exact zero of two addends is -0 under RDN unless both are +0 (04 R102). -/
def vsum (mode : Nat) (x y : Val) : Val :=
  let r := x.add y
  if r.isZero && decide (mode = 3) then
    .fin (!(x.isZero && y.isZero && !x.neg? && !y.neg?)) 0 0
  else r

/-- x / y (04 R103). DESIGN CHOICE: a zero x over a finite y that is not zero, for which the rule says only Round(x / y), gives a zero
with the exclusive-or of the signs (log 74). -/
def vquot (x y : Val) : Val :=
  match x, y with
  | .nan, _ => .nan
  | _, .nan => .nan
  | .inf _, .inf _ => .nan
  | .inf a, .fin b _ _ => .inf (a != b)
  | .fin a _ _, .inf b => .fin (a != b) 0 0
  | .fin a m e, .fin b n f =>
    if n = 0 then (if m = 0 then .nan else .inf (a != b))
    else if m = 0 then .fin (a != b) 0 0 else quotient (a != b) m n (e - f)

/-- 1 / x. -/
def vrcpVal (x : Val) : Val := vquot (.fin false 1 0) x

/-- sqrt(x). -/
def vsqrtVal (x : Val) : Val :=
  match x with
  | .nan => .nan
  | .inf neg => if neg then .nan else .inf false
  | .fin neg m e => if m = 0 then .fin neg 0 0 else if neg then .nan else sqrtVal m e

/-- 1 / sqrt(x). -/
def vrsqVal (x : Val) : Val :=
  match x with
  | .nan => .nan
  | .inf neg => if neg then .nan else Val.zero
  | .fin neg m e => if m = 0 then .inf neg else if neg then .nan else rsqrtVal m e

/-- 2^x. -/
def vexp2Val (x : Val) : Val :=
  match x with
  | .nan => .nan
  | .inf neg => if neg then Val.zero else .inf false
  | .fin neg m e => exp2Val neg m e

/-- log2(x). -/
def vlog2Val (x : Val) : Val :=
  match x with
  | .nan => .nan
  | .inf neg => if neg then .nan else .inf false
  | .fin neg m e => if m = 0 then .inf true else if neg then .nan else log2Val m e

/-! ## The keyed counter-based generator (04 R104) -/

/-- RotL32. -/
def rotL32 (v s : Nat) : Nat := (v * 2 ^ s ||| v / 2 ^ (32 - s)) % 2 ^ 32

/-- The rounds from number r on. -/
def randRounds : Nat → Nat → Nat × Nat × Nat × Nat → Nat × Nat → Nat × Nat × Nat × Nat
  | 0, _, x, _ => x
  | fuel + 1, r, (x0, x1, x2, x3), (k0, k1) =>
    let x0 := (x0 + x1 + k0) % 2 ^ 32
    let x3 := rotL32 (x3 ^^^ x0) 16
    let x2 := (x2 + x3 + k1) % 2 ^ 32
    let x1 := rotL32 (x1 ^^^ x2) 12
    let x0 := (x0 + x1) % 2 ^ 32
    let x3 := rotL32 (x3 ^^^ x0) 8
    let x2 := (x2 + x3 + r) % 2 ^ 32
    let x1 := rotL32 (x1 ^^^ x2) 7
    randRounds fuel (r + 1) (x0, x1, x2, x3) ((k0 + 0x9E3779B9) % 2 ^ 32, (k1 + 0xBB67AE85) % 2 ^ 32)

/-- Rand(key, ctr). -/
def rand (key ctr : Nat) : Nat :=
  let c0 := field ctr 0 32
  let c1 := field ctr 32 32
  let c2 := field ctr 64 32
  let c3 := field ctr 96 32
  let (x0, x1, x2, x3) := randRounds 10 0 (c0, c1, c2, c3) (field key 0 32, field key 32 32)
  (x0 + c0) % 2 ^ 32 + (x1 + c1) % 2 ^ 32 * 2 ^ 32 + (x2 + c2) % 2 ^ 32 * 2 ^ 64 + (x3 + c3) % 2 ^ 32 * 2 ^ 96

/-- The 24 bits that stochastic rounding draws (03 R72, 04 R105): DOMAIN in bits 127:120, the coordinate below. -/
def srRnd (key : Word) (domain coord : Nat) : Nat := rand key.toNat (domain * 2 ^ 120 + coord) % 2 ^ 24

end Sys2Proof.Machine
end

