-- ==== Sys2Proof/Machine/Operands.lean ====
section
/-! DEFINITION. Operand forms: layout records and the addresses they give (05 R121 to R125), coordinates in registers
(09 R217), word references (10 R236), remote scratchpad addresses (05 R108, R109), ponds and their groups (05 R111 to
R114). -/
namespace Sys2Proof.Machine

/-! ## Format entries of the tile (03 R57, R60) -/

/-- The reset format table (03 Table 3.4). -/
def resetFormats : List Nat :=
  [0x99171FC000000000, 0x97071FC000000000, 0x96AA03C000000000, 0x948301C800000000,
   0x94A203C000000000, 0x9243005800000000, 0x926200D800000000, 0x9041005800000000,
   0x85001FE000000000, 0xD48301CB00000000, 0xD041005B00000000, 0xB400001800000000,
   0xB000001800000000, 0xF400001E50000000, 0xF000001C50000000, 0xB800001800000000]

/-- Entry `i` of a format table. -/
def entryOf (fmt : SMap Word) (i : Nat) : Nat := (SMap.get 0 fmt i).toNat

/-- Whether a scaled entry names a scale entry that makes it usable (03 R60). -/
def scaleOk (fmt : SMap Word) (f : Nat) : Bool :=
  let sf := entryOf fmt (Ent.sfmt f)
  match Ent.kind f with
  | 2 => Ent.v sf && decide (Ent.kind sf = 0) && decide (Ent.policy sf = 4)
  | 3 => Ent.v sf && decide (Ent.kind sf = 0) && decide (Ent.width sf = 16)
  | _ => true

/-- DETAIL of ILLEGAL_FORMAT_ENTRY: the index; bit 4 set where the entry is invalid, clear where its kind is wrong. -/
def fmtDetail (i : Nat) (invalid : Bool) : Nat := i + b2n invalid * 16

/-- The DETAIL of ILLEGAL_FORMAT_ENTRY for an entry that is invalid, or is scaled and not usable (03 R60). -/
def entryFails (fmt : SMap Word) (i : Nat) : Option Nat :=
  let f := entryOf fmt i
  if !Ent.v f then some (fmtDetail i true)
  else if scaleOk fmt f then none
  else some (fmtDetail (Ent.sfmt f) (!Ent.v (entryOf fmt (Ent.sfmt f))))

/-- Whether entry `i` may be used by what accepts the kinds of `ks`: the DETAIL of the fault otherwise (03 R60). -/
def useEntry (fmt : SMap Word) (i : Nat) (ks : List Nat) : Option Nat :=
  let f := entryOf fmt i
  if !Ent.v f then some (fmtDetail i true)
  else if !ks.contains (Ent.kind f) then some (fmtDetail i false)
  else entryFails fmt i

/-! ## Layout records (05 Table 5.5) -/

/-- The fields of the 512-bit value, with RANK extents and strides. -/
def layoutOf (v : Nat) : Layout :=
  let rank := field v 60 3
  { base := field v 0 56, fidx := field v 56 4, rank := rank, space := field v 64 2, modnum := field v 66 10
    chint := field v 76 4, perm := field v 80 32
    ext := (List.range (min rank 5)).map fun j => field v (128 + 32 * j) 32
    str := (List.range (min rank 5)).map fun j => sInt 40 (field v (288 + 40 * j) 40) }

/-- Fields of PERM (05 R127). -/
def permEn (p : Nat) : Bool := bit p 9
def permShift (p : Nat) : Nat := field p 5 4
def permMask (p : Nat) : Nat := field p 0 5

/-- Whether XMASK is of the form 2^m - 1. -/
def maskForm (m : Nat) : Bool := decide (m ∈ [0, 1, 3, 7, 15, 31])

/-- Unit u of row r under a PERM with EN = 1: u XOR ((r >> RSHIFT) AND XMASK) (05 R127). -/
def permUnit (p r u : Nat) : Nat := if permEn p then u ^^^ (r / 2 ^ permShift p &&& permMask p) else u

/-- The last extent and the last stride. -/
def Layout.lastExt (d : Layout) : Nat := d.ext.getLastD 0
def Layout.lastStr (d : Layout) : Int := d.str.getLastD 0

/-- The items of 05 R123 that need no format: the number of the first that fails. -/
def layoutItem (v : Nat) (d : Layout) : Option Nat :=
  if !bit v 63 || decide (d.rank = 0) || decide (5 < d.rank) then some 1
  else if d.space = 3 ∨ 3 < d.chint then some 2
  else if field v 488 24 ≠ 0 ∨ field v 112 16 ≠ 0 ∨ field d.perm 10 22 ≠ 0 then some 3
  else if d.ext.any (· == 0) then some 4
  else if d.space = 2 ∧ field d.base 46 10 ≠ 0 then some 7
  else if permEn d.perm && !maskForm (permMask d.perm) then some 8
  else none

/-- The items of 05 R123 that need the format `f`. -/
def layoutFmtItem (d : Layout) (f : Nat) : Option Nat :=
  if Ent.kind f = 2 then
    (if d.lastStr ≠ 1 ∨ d.lastExt % Ent.block f ≠ 0 then some 6 else none)
  else if (decide (Ent.width f < 8) && decide (d.lastStr ≠ 1)) ||
      d.str.dropLast.any (fun t => decide (t * Ent.width f % 8 ≠ 0)) then some 5
  else none

/-- The check of a layout record, in the order of 05 R123: the fault's code and DETAIL. `rows` where the operation that reads it places
rows that fail item 8. DESIGN CHOICE (log 91): the row multiple stands with the rest of item 8, before the check of FIDX; "an invalid entry
in FIDX" is one with V = 0, and a valid one that 03 R60 does not let be used for its SFMT is refused after items 5 and 6, for an
instruction's read too. -/
def checkLayout (fmt : SMap Word) (n v : Nat) (rows : Bool := false) : Option (Nat × Nat) :=
  let d := layoutOf v
  match if (layoutItem v d).isNone && rows then some 8 else layoutItem v d with
  | some i => some (Code.descriptorInvalid, n + i * 4096)
  | none =>
    if !Ent.v (entryOf fmt d.fidx) then some (Code.illegalFormatEntry, fmtDetail d.fidx true)
    else match layoutFmtItem d (entryOf fmt d.fidx) with
      | some i => some (Code.descriptorInvalid, n + i * 4096)
      | none => (entryFails fmt d.fidx).map fun det => (Code.illegalFormatEntry, det)

/-- The address of layout record N of a tile (05 R121). -/
def Tile.descAddr (x : Tile) (n : Nat) : Nat := (x.ctl.dbase.toNat + 64 * n) % 2 ^ 56

/-- A fault of the table read itself: DETAIL bit 3 of NOT_PRESENT (05 R129, 18 Table 18.5). -/
def Stop.table (e : Stop) : Stop :=
  if e.f.code = Code.notPresent then { e with f := { e.f with detail := e.f.detail + 8 } } else e

/-- The 64 bytes of a layout record, read in one access, and checked under the format table `fmt`. A fault without an
address of its own carries `pc`. -/
def readLayout (s : State) (t : Nat) (fmt : SMap Word) (n pc : Nat) : Res Layout :=
  let x := s.tile t
  match nodeRead s (tileDie t) x.partNo (x.descAddr n) 64 .read with
  | (.error e, s) => (.error e.table, s)
  | (.ok l, s) =>
    match checkLayout fmt n (leNat l) with
    | some (code, det) => Res.stop { code := code, detail := det, vaddr := pc } s
    | none => (.ok (layoutOf (leNat l)), s)

/-! ## Addresses (05 R124) -/

/-- The bytes of the row image of `l` elements of width `w` in blocks of `b` (03 R80). -/
def codeBytes (l w : Nat) : Nat := 64 * ceilDiv (l * w) 512
def scaleBytes (l b : Nat) : Nat := 64 * ceilDiv l (64 * b)
def rowImage (l f : Nat) : Nat := codeBytes l (Ent.width f) + scaleBytes l (Ent.block f)

/-- Whether a coordinate is OUTSIDE. -/
def outside : List Int → List Nat → Bool
  | c :: cs, e :: es => decide (c < 0) || decide ((e : Int) ≤ c) || outside cs es
  | _, _ => false

/-- The sum of c[j] × STR[j]. -/
def dot : List Int → List Int → Int
  | c :: cs, t :: ts => c * t + dot cs ts
  | _, _ => 0

/-- What the layout unit forms: OUTSIDE, an address out of range, or a bit address with the byte address of the element's
scale (KIND 2). -/
inductive Addr where
  | outside
  | bad
  | at_ (bit scale : Nat)
  deriving DecidableEq, Repr

/-- The first byte address out of range: 2^56, or 2^46 for SPACE 2. -/
def Layout.limit (d : Layout) : Int := if d.space = 2 then 2 ^ 46 else 2 ^ 56

/-- AddressOf (05 R124). The rule bounds the address that is formed, that of the first byte; DESIGN CHOICE (log 84): an element whose later
bytes lie beyond the bound raises nothing here. -/
def addressOf (d : Layout) (f : Nat) (c : List Int) : Addr :=
  if outside c d.ext then .outside
  else
    let w := Ent.width f
    if Ent.kind f = 2 then
      let row : Int := d.base + dot c.dropLast d.str * rowImage d.lastExt f
      let last := c.getLastD 0
      let elem := row * 8 + last * w
      let sc := row + codeBytes d.lastExt w + last / (Ent.block f : Int)
      if elem < 0 ∨ sc < 0 ∨ d.limit ≤ elem / 8 ∨ d.limit ≤ sc then .bad else .at_ elem.toNat sc.toNat
    else
      let a : Int := (d.base : Int) * 8 + dot c d.str * w
      if a < 0 ∨ d.limit ≤ a / 8 then .bad else .at_ a.toNat 0

/-! ## Coordinates in registers (09 R217) -/

/-- The registers from GA on that hold `n` coordinates; none where they run past g31. -/
def coordRegs (ga : Reg) (n : Nat) : Option (List Reg) :=
  if ga.val + n ≤ 32 then some ((List.range n).map fun j => Fin.ofNat 32 (ga.val + j)) else none

/-- A fault of the running core's instruction, without an address of its own. -/
def State.coreFault (s : State) (access code detail : Nat) : FaultRec :=
  { code := code, detail := detail, access := access, vaddr := s.core.pc.toNat }

/-- The layout record N and the coordinate that GA names, read and checked (09 R217). -/
def tensorOperand (s : State) (n : Nat) (ga : Reg) (access : Nat) : Res (Layout × List Int) :=
  (readLayout s s.curTile.val s.me.ctl.fmt n s.core.pc.toNat).bind fun d s =>
    match coordRegs ga d.rank with
    | none => Res.stop (s.coreFault access Code.descriptorInvalid n) s
    | some rs =>
      let s := s.noteG rs
      match s.core.badReg rs with
      | some r => Res.stop (s.coreFault access Code.uncorrectable (regDetail r)) (s.countUe s.curTile.val)
      | none => (.ok (d, rs.map fun r => (s.g r).toInt), s)

/-- The layout record and the byte address of `w` bytes of one element; none for OUTSIDE. ALIGNMENT as 09 R217 says. -/
def tensorAddr (s : State) (n : Nat) (ga : Reg) (w access : Nat) : Res (Layout × Option Nat) :=
  (tensorOperand s n ga access).bind fun dc s =>
    match addressOf dc.1 (entryOf s.me.ctl.fmt dc.1.fidx) dc.2 with
    | .outside => (.ok (dc.1, none), s)
    | .bad => Res.stop (s.coreFault access Code.descriptorInvalid n) s
    | .at_ b _ =>
      if b % 8 ≠ 0 ∨ b / 8 % w ≠ 0 then Res.stop (s.coreFault access Code.alignment (b / 8)) s
      else (.ok (dc.1, some (b / 8)), s)

/-! ## Word references (08 R188, 10 R236) -/

/-- ResolveWord: the layout record's SPACE and the byte address of the word. -/
def resolveWord (s : State) (ref : Word) (access : Nat) : Res (Nat × Nat) :=
  let n := field ref.toNat 52 12
  (readLayout s s.curTile.val s.me.ctl.fmt n s.core.pc.toNat).bind fun d s =>
    let f := entryOf s.me.ctl.fmt d.fidx
    if Ent.kind f = 2 then Res.stop (s.coreFault access Code.descriptorInvalid n) s
    else match addressOf d f (List.replicate (d.rank - 1) 0 ++ [sInt 52 ref.toNat]) with
      | .at_ b _ =>
        if b % 64 ≠ 0 then Res.stop (s.coreFault access Code.alignment (b / 8)) s else (.ok (d.space, b / 8), s)
      | _ => Res.stop (s.coreFault access Code.descriptorInvalid n) s

/-! ## Remote scratchpad addresses (05 R108, R109, 09 R215) -/

/-- Whether tile `t` is reserved to the node that a seat belongs to. -/
def sameNode (x y : Tile) : Bool :=
  match x.life.seat, y.life.seat with
  | some a, some b => a.part == b.part && a.node == b.node
  | _, _ => false

/-- The tile and the offset that a remote address names for an access of `n` bytes, checked in the order of 09 R215: or the
fault's code and DETAIL. -/
def remoteTarget (s : State) (ra n : Nat) : Except (Nat × Nat) (Nat × Nat) :=
  let off := field ra 0 21
  let t := field ra 21 8
  if field ra 29 35 ≠ 0 ∨ scratchSize < off + n then .error (Code.scratchBounds, ra)
  else if off % n ≠ 0 then .error (Code.alignment, ra)
  else if tileDie t ≠ s.myDie ∨ !sameNode s.me (s.tile t) then .error (Code.permission, 16)
  else .ok (t, off)

/-! ## Ponds (05 Table 5.3) -/

def Pond.v (p : Nat) : Bool := bit p 63
def Pond.gen (p : Nat) : Nat := field p 60 3
def Pond.group (p : Nat) : Nat := field p 58 2
def Pond.bank (p : Nat) : Nat := field p 53 5
def Pond.slots (p : Nat) : Nat := field p 44 4 + 1
def Pond.slotSz (p : Nat) : Nat := field p 32 11
def Pond.base (p : Nat) : Nat := field p 22 10

/-- The entry of pond `p` in a table. -/
def pondOf (m : SMap Word) (p : Nat) : Nat := (SMap.get 0 m p).toNat

/-- The defined ponds whose group covers `q` as a follower (05 R113). -/
def leadersOf (m : SMap Word) (q : Nat) : List Nat :=
  (List.range 16).filter fun p => Pond.v (pondOf m p) && decide (p < q) && decide (q < p + 2 ^ Pond.group (pondOf m p))

/-- Whether any group covers pond `q`. -/
def isFollower (m : SMap Word) (q : Nat) : Bool := !(leadersOf m q).isEmpty

/-- How many ponds stand together under pond `p`. -/
def groupSize (m : SMap Word) (p : Nat) : Nat := 2 ^ Pond.group (pondOf m p)

/-- The bytes of a slot: of one pond, or of its group (05 R114). -/
def slotBytes (m : SMap Word) (p : Nat) : Nat := groupSize m p * Pond.slotSz (pondOf m p) * 64

/-- The members of the group of pond `p`, itself first. -/
def membersOf (m : SMap Word) (p : Nat) : List Nat := (List.range (groupSize m p)).map (p + ·)

/-- Whether the banks of some ponds are distinct. -/
def distinctBanks (m : SMap Word) : List Nat → Bool
  | [] => true
  | p :: ps => !ps.any (fun q => Pond.bank (pondOf m q) == Pond.bank (pondOf m p)) && distinctBanks m ps

/-- The conditions on a pond that a record names (05 R113, R115). -/
def pondUsable (m : SMap Word) (p : Nat) : Bool :=
  Pond.v (pondOf m p) && !isFollower m p &&
  ((membersOf m p).drop 1).all (fun q => Pond.v (pondOf m q) && decide (Pond.group (pondOf m q) = 0) &&
    decide (Pond.slots (pondOf m q) = Pond.slots (pondOf m p)) && decide (Pond.slotSz (pondOf m q) = Pond.slotSz (pondOf m p))) &&
  distinctBanks m (membersOf m p)

/-- The scratchpad offset of byte `j` of slot `i` of pond `p` or of its group (05 R111, R114). -/
def slotByte (m : SMap Word) (p i j : Nat) : Nat :=
  let g := groupSize m p
  let e := pondOf m (p + j / 64 % g)
  Pond.bank e * 0x10000 + (Pond.base e + i * Pond.slotSz e) * 64 + j / (64 * g) * 64 + j % 64

end Sys2Proof.Machine
end

