-- ==== Sys2Proof/Machine/Access.lean ====
section
/-! DEFINITION. Scratchpad access, remote scratchpad access, tensor access, layout-record access, probe, atomics, and the
modifier `pfx` (09 R214 to R227; 08 R193, R194; 07 R159, R160). Each shared operation takes the modifier and the bytes of
its unit: 4 alone, 8 after a `pfx`. -/
namespace Sys2Proof.Machine

/-! ## The modifier and remote stores under way (07 R158, R159, 09 R215) -/

/-- Whether a modifier makes a write a release (07 R159). -/
def Modifier.isRelease (m : Modifier) : Bool :=
  match m.order with
  | .release => true
  | .acqRel => true
  | _ => false

/-- A remote store performed at its target tile (09 R215). -/
def State.performRemote (s : State) (r : RemoteStore) : State := s.writeScratch r.tile r.off r.bytes

/-- Every remote store that a core of tile `t` has on its way, performed in program order. -/
def State.flushRemote (s : State) (t : Nat) (c : CoreId) : State :=
  let l := (s.coreAt t c).remote
  if l.isEmpty then s
  else l.foldl State.performRemote (s.setCoreAt t c { s.coreAt t c with remote := [] })

/-- The running core's remote stores performed: before a release, and before an access that could name one's location. -/
def State.flushMine (s : State) : State := s.flushRemote s.curTile.val s.curCore

/-- Whether a write with modifier `m` is a release of the running core: every write after a `fence` is one (07 R160, R161). -/
def State.releases (s : State) (m : Modifier) : Bool := Modifier.isRelease m || s.core.fenced

/-- The state as a write with modifier `m` finds it: a release, as is every write after a `fence`, follows every earlier write
of its core (07 R160, R161). -/
def State.beforeWrite (s : State) (m : Modifier) : State := if s.releases m then s.flushMine else s

/-- The state as a write that takes no modifier finds it (`vst`, a spill): one after a `fence` is a release too (07 R160, R161). -/
def State.beforePlainWrite (s : State) : State := if s.core.fenced then s.flushMine else s

/-! ## The tile's own scratchpad (09 R214, R219) -/

/-- The offset of a scratchpad operand: U(a + SExt(DISP, 13)). -/
def scratchOff (a : Word) (disp : BitVec 13) : Nat := (a + disp.signExtend 64).toNat

/-- The check of an offset: bounds, then alignment (09 R214). -/
def scratchCheck (off n : Nat) : Option Nat :=
  if scratchSize < off + n then some Code.scratchBounds else if off % n ≠ 0 then some Code.alignment else none

/-- A load of `n` bytes at an offset of tile `t`'s scratchpad into gd. -/
def loadScratch (len t off n : Nat) (sx : Bool) (gd : Reg) (s : State) : State :=
  let s := s.noteRead t off n
  match (s.tile t).readFails off n with
  | some w => s.faultA 0 Code.uncorrectable (uncDetail 0 w)
  | none => (s.setG gd (extendLoad sx n ((s.tile t).mem.scratch.readLE off n))).skip len

/-- A store of bytes at an offset of the running core's own scratchpad. -/
def storeScratch (len off : Nat) (l : List Byte) (s : State) : State :=
  match s.me.retiredHit off l.length with
  | some w => s.faultA 1 Code.uncorrectable (uncDetail 0 w)
  | none => (s.writeScratch s.curTile.val off l).skip len

/-- ld. -/
def doLd (_m : Modifier) (len : Nat) (sz : Size) (sx : Bool) (gd ga : Reg) (disp : BitVec 13) (s : State) : Out :=
  withSources [ga] s fun s =>
    let off := scratchOff (s.g ga) disp
    match scratchCheck off sz.bytes with
    | some code => s.faultA 0 code off
    | none => loadScratch len s.curTile.val off sz.bytes sx gd s

/-- st. -/
def doSt (m : Modifier) (len : Nat) (sz : Size) (gd ga : Reg) (disp : BitVec 13) (s : State) : Out :=
  withSources [gd, ga] s fun s =>
    let off := scratchOff (s.g ga) disp
    match scratchCheck off sz.bytes with
    | some code => s.faultA 1 code off
    | none => storeScratch len off (leBytes (s.g gd).toNat sz.bytes) (s.beforeWrite m)

/-! ## Other tiles' scratchpads (09 R215) -/

/-- ldx: it waits for its value, so it follows its core's remote stores under way. -/
def doLdx (_m : Modifier) (len : Nat) (sz : Size) (sx : Bool) (gd ga : Reg) (disp : BitVec 13) (s : State) : Out :=
  withSources [ga] s fun s =>
    match remoteTarget s (scratchOff (s.g ga) disp) sz.bytes with
    | .error (code, det) => s.faultA 0 code det
    | .ok (t, off) => loadScratch len t off sz.bytes sx gd s.flushMine

/-- stx: performed at once where it names the core's own tile, else at the target later (REMOTE_SCRATCH_ACCESS). -/
def doStx (m : Modifier) (len : Nat) (sz : Size) (gd ga : Reg) (disp : BitVec 13) (s : State) : Out :=
  withSources [gd, ga] s fun s =>
    match remoteTarget s (scratchOff (s.g ga) disp) sz.bytes with
    | .error (code, det) => s.faultA 1 code det
    | .ok (t, off) =>
      let l := leBytes (s.g gd).toNat sz.bytes
      if t = s.curTile.val then storeScratch len off l (s.beforeWrite m)
      else match (s.tile t).retiredHit off sz.bytes with
        | some w => s.faultA 1 Code.uncorrectable (uncDetail 0 w)
        | none =>
          let s := s.beforeWrite m
          (s.setCore { s.core with remote := s.core.remote ++ [{ tile := t, off := off, bytes := l }] }).skip len

/-! ## Tensor memory (09 R217, R218, Table 9.5) -/

/-- Whether the ports of die `d` have a route to a module that is ready (13 R335): none before the fabric is trained (19 R459). The module's
own number needs no port: its export space is reached even before training, which 01 R28 does not say (log 60). -/
def State.reachable (s : State) (d m : Nat) : Bool :=
  decide (m = s.hub.modnum) ||
  (s.hub.fabricUp && !(SMap.get {} s.peers m).noRoute.getLsbD d && (SMap.get {} s.peers m).ready)

/-- A request of the running core to another module: FABRIC_PEER_ABSENT, or a wait for the response (09 R218); `release` where it is an
atomic that is a release if it writes. -/
def fabricAccess (len : Nat) (access m off : Nat) (what : Remote) (s : State) (release : Bool := false) : State :=
  if s.reachable s.myDie m then
    s.block <| .fabric
      { module := m, offset := off, since := s.seiche, limit := s.me.prv.fabto, what := what, unitLen := len
        release := release }
  else s.faultA access Code.fabricPeerAbsent m

/-- A fault of a host-window access (19 R445). -/
def State.windowFault (s : State) (access code det off : Nat) : State :=
  s.faultRec { code := code, detail := det, access := access, vaddr := off }

/-- Whether the publication buffer holds every byte of a read. -/
def Part.holdsAll (p : Part) (a : Nat) : Nat → Bool
  | 0 => true
  | n + 1 => (p.heldByte a).isSome && Part.holdsAll p (a + 1) n

/-- A read of a host window by the running core: held bytes at once, else a read over the link (07 R173, 19 R445). -/
def windowRead (len off n : Nat) (sx : Bool) (gd : Reg) (s : State) : State :=
  match (s.part s.myPart).lookup off false with
  | .fault code det => s.windowFault 0 code det off
  | .host a =>
    if (s.part s.myPart).holdsAll a n then
      (s.setG gd (extendLoad sx n (leNat (s.windowBytes s.myPart a n)))).skip len
    else s.block (.hostRead { offset := off, host := a, len := n, since := s.seiche
                              what := .load gd sx n, unitLen := len })

/-- A write of a host window by the running core: into the publication buffer, or a wait for space there (07 R173). -/
def windowWrite (len off : Nat) (l : List Byte) (s : State) : State :=
  match (s.part s.myPart).lookup off true with
  | .fault code det => s.windowFault 1 code det off
  | .host a =>
    if (s.part s.myPart).pubFull a l.length then s.block .bufferSpace
    else (s.setPart s.myPart ((s.part s.myPart).pubBytes a l)).skip len

/-- ldt. -/
def doLdt (_m : Modifier) (len : Nat) (sz : Size) (sx : Bool) (gd ga : Reg) (desc : BitVec 12) (s : State) : Out :=
  (tensorAddr s desc.toNat ga sz.bytes 0).bind (β := State) (fun da s =>
    match da.2 with
    | none => (.ok ((s.setG gd 0).skip len), s)
    | some va =>
      match da.1.space with
      | 0 => (nodeRead s s.myDie s.myPart va sz.bytes .read).bind fun l s =>
          (.ok ((s.setG gd (extendLoad sx sz.bytes (leNat l))).skip len), s)
      | 1 => (.ok (windowRead len va sz.bytes sx gd s), s)
      | _ => (.ok (fabricAccess len 0 da.1.modnum va (.load gd sx sz.bytes) s), s)) |>.run fun t _ => t

/-- stt. -/
def doStt (m : Modifier) (len : Nat) (sz : Size) (gd ga : Reg) (desc : BitVec 12) (s : State) : Out :=
  let s := s.noteG [gd]
  match s.core.badReg [gd] with
  | some r => .next (s.badSource r)
  | none =>
    (tensorAddr s desc.toNat ga sz.bytes 1).bind (β := State) (fun da s =>
      let l := leBytes (s.g gd).toNat sz.bytes
      match da.2 with
      | none => (.ok (s.skip len), s)
      | some va =>
        match da.1.space with
        | 0 => (nodeWrite (s.beforeWrite m) s.myDie s.myPart va l).bind fun _ s => (.ok (s.skip len), s)
        | 1 => (.ok (windowWrite len va l (s.beforeWrite m)), s)
        | _ => (.ok (fabricAccess len 1 da.1.modnum va (.store l) (s.beforeWrite m)), s)) |>.run fun t _ => t

/-! ## Layout records (09 R221, R222) -/

/-- The check of the scratchpad offset of a layout-record image. -/
def imageCheck (a : Word) : Option Nat :=
  if scratchSize < a.toNat + 64 then some Code.scratchBounds else if a.toNat % 64 ≠ 0 then some Code.alignment else none

/-- Whether some operation of the module waits to start. -/
def State.anyQueued (s : State) : Bool :=
  s.tiles.any fun x => [x.2.el, x.2.em, x.2.es].any fun e => e.ops.any fun o => o.state == .queued

/-- What a `dset` replaces is kept while operations wait to start (05 R129, log 7). -/
def State.logDset (s : State) (part va : Nat) (old : List Byte) : State :=
  if s.anyQueued then { s with dsets := { part := part, va := va, old := old } :: s.dsets } else s

/-- dset: the 64 bytes at a scratchpad offset become layout record N. ACCESS in the record of a bounds or alignment fault of the
image is write for dset and read for dget: 09 R221 does not say (log 58). -/
def doDset (m : Modifier) (len : Nat) (ga : Reg) (desc : BitVec 12) (s : State) : Out :=
  withSources [ga] s fun s =>
    let a := s.g ga
    match imageCheck a with
    | some code => s.faultA 1 code a.toNat
    | none =>
      let s := s.noteRead s.curTile.val a.toNat 64
      match s.me.readFails a.toNat 64 with
      | some w => s.faultA 0 Code.uncorrectable (uncDetail 0 w)
      | none =>
        let v := s.me.mem.scratch.bytes a.toNat 64
        let ta := s.me.descAddr desc.toNat
        match nodeTranslate (s.beforeWrite m) s.myDie s.myPart ta .write with
        | (.error e, s) => s.stopCore e
        | (.ok none, s) => s.skip len
        | (.ok (some pa), s) => ((s.logDset s.myPart ta (s.mem.bytes pa 64)).writeMem pa v).skip len

/-- dget: layout record N becomes the 64 bytes at a scratchpad offset (ACCESS of its bounds and alignment faults: log 58). -/
def doDget (m : Modifier) (len : Nat) (ga : Reg) (desc : BitVec 12) (s : State) : Out :=
  withSources [ga] s fun s =>
    let a := s.g ga
    match imageCheck a with
    | some code => s.faultA 0 code a.toNat
    | none =>
      match nodeRead s s.myDie s.myPart (s.me.descAddr desc.toNat) 64 .read with
      | (.error e, s) => s.stopCore e
      | (.ok v, s) => storeScratch len a.toNat v (s.beforeWrite m)

/-! ## Probe (09 R223) -/

/-- The pages of an element that are not the last page touched are translated in rising order. Each such translation sets the
companion bits of 18 R413 as an access of its kind does: 09 R223 does not say whether a probe does (log 59). -/
def probePages (s : State) (die part : Nat) (acc : Access) (last : Option Nat) : List Nat → Res (Option Nat)
  | [] => (.ok last, s)
  | a :: l =>
    if last = some (a / 4096) then probePages s die part acc last l
    else (nodeTranslate s die part a acc).bind fun _ s => probePages s die part acc (some (a / 4096)) l

/-- Elements c, c + (0, …, 0, 1), … along the innermost dimension, `fuel` of them (09 R223). -/
def probeRun (s : State) (d : Layout) (f n : Nat) (acc : Access) (outer : List Int) : Nat → Int → Option Nat → Res Unit
  | 0, _, _ => (.ok (), s)
  | fuel + 1, c, last =>
    match addressOf d f (outer ++ [c]) with
    | .outside => probeRun s d f n acc outer fuel (c + 1) last
    | .bad => Res.stop (s.coreFault (accCode acc) Code.descriptorInvalid n) s
    | .at_ b _ =>
      match probePages s s.myDie s.myPart acc last [b / 8, (b + Ent.width f - 1) / 8] with
      | (.error e, s) => (.error e, s)
      | (.ok last, s) => probeRun s d f n acc outer fuel (c + 1) last

/-- probe. -/
def execProbe (write : Bool) (gd ga : Reg) (desc : BitVec 12) (s : State) : Out :=
  let s := s.noteG [gd]
  match s.core.badReg [gd] with
  | some r => .next (s.badSource r)
  | none =>
    let acc := if write then Access.write else Access.read
    (tensorOperand s desc.toNat ga (accCode acc)).bind (fun dc s =>
      if dc.1.space ≠ 0 then (.ok (), s)
      else probeRun s dc.1 (entryOf s.me.ctl.fmt dc.1.fidx) desc.toNat acc dc.2.dropLast
        (min (s.g gd).toNat 65536) (dc.2.getLastD 0) none) |>.run fun _ s => s.skip 4

/-! ## Atomics (09 R224 to R227) -/

/-- The width of an atomic in bytes. -/
def atomBytes (wide : Bool) : Nat := if wide then 8 else 4

/-- The registers an atomic reads beside its address. -/
def atomSources (op : Aop) (gd gb : Reg) : List Reg :=
  match op with
  | .cas => [gb, gd]
  | _ => [gb]

/-- The state as an atomic that finds `old` finds it: where it writes, as a write with its modifier does; an `acas` that does not write is
no release (09 R225). -/
def State.beforeAtom (s : State) (m : Modifier) (op : Aop) (n old : Nat) (gd gb : Reg) : State :=
  if (atomNew op (8 * n) old ((s.g gb).toNat % 2 ^ (8 * n)) (s.g gd).toNat).isSome then s.beforeWrite m else s

/-- An atomic performed at an offset of tile `t`'s scratchpad. -/
def atomAt (op : Aop) (len t off n : Nat) (gd gb : Reg) (s : State) : State :=
  let s := s.noteRead t off n
  match (s.tile t).readFails off n with
  | some w => s.faultA 3 Code.uncorrectable (uncDetail 0 w)
  | none =>
    let old := (s.tile t).mem.scratch.readLE off n
    let s' := match atomNew op (8 * n) old ((s.g gb).toNat % 2 ^ (8 * n)) (s.g gd).toNat with
      | some v => s.writeScratch t off (leBytes v n)
      | none => s
    (s'.setG gd (BitVec.ofNat 64 old)).skip len

/-- An atomic on the tile's scratchpad (OP 0x24). -/
def doAtom (m : Modifier) (len : Nat) (op : Aop) (wide : Bool) (gd ga gb : Reg) (s : State) : Out :=
  withSources (ga :: atomSources op gd gb) s fun s =>
    let a := (s.g ga).toNat
    match scratchCheck a (atomBytes wide) with
    | some code => s.faultA 3 code a
    | none =>
      let n := atomBytes wide
      atomAt op len s.curTile.val a n gd gb (s.beforeAtom m op n (s.me.mem.scratch.readLE a n) gd gb)

/-- An atomic on a remote scratchpad (OP 0x25). -/
def doAtomRemote (_m : Modifier) (len : Nat) (op : Aop) (wide : Bool) (gd ga gb : Reg) (s : State) : Out :=
  withSources (ga :: atomSources op gd gb) s fun s =>
    match remoteTarget s (s.g ga).toNat (atomBytes wide) with
    | .error (code, det) => s.faultA 3 code det
    | .ok (t, off) => atomAt op len t off (atomBytes wide) gd gb s.flushMine

/-- An atomic on module memory at a virtual address: one read-modify-write at the home (07 R165). -/
def atomMem (m : Modifier) (op : Aop) (n va : Nat) (gd gb : Reg) (s : State) : Res Word :=
  (nodeTranslate s s.myDie s.myPart va .atomic).bind fun o s =>
    match o with
    | none => (.ok 0, s)
    | some pa =>
      match badGranule s.memBad pa n with
      | some g => Res.stop (accFault Code.uncorrectable (uncDetail 1 g) .atomic va) s
      | none =>
        let old := s.mem.readLE pa n
        (.ok (BitVec.ofNat 64 old),
         match atomNew op (8 * n) old ((s.g gb).toNat % 2 ^ (8 * n)) (s.g gd).toNat with
         | some v => (s.beforeWrite m).writeMem pa (leBytes v n)
         | none => s)

/-- An atomic on tensor memory (OP 0x26, 0x27). Whether one on another module's memory writes, and so is a release, shows where it is
performed (`performFar`). -/
def doAtomTensor (m : Modifier) (len : Nat) (op : Aop) (wide : Bool) (gd ga gb : Reg) (desc : BitVec 7) (s : State) : Out :=
  let s := s.noteG (atomSources op gd gb)
  match s.core.badReg (atomSources op gd gb) with
  | some r => .next (s.badSource r)
  | none =>
    let n := atomBytes wide
    (tensorAddr s desc.toNat ga n 3).bind (β := State) (fun da s =>
      match da.2 with
      | none => Res.stop (s.coreFault 3 Code.descriptorInvalid desc.toNat) s
      | some va =>
        match da.1.space with
        | 0 => (atomMem m op n va gd gb s).bind fun old s => (.ok ((s.setG gd old).skip len), s)
        | 1 => Res.stop (accFault Code.permission 0 .atomic va) s
        | _ => (.ok (fabricAccess len 3 da.1.modnum va
            (.rmw op n gd ((s.g gb).toNat % 2 ^ (8 * n)) (s.g gd).toNat) s (s.releases m)), s)) |>.run fun t _ => t

/-! ## The instructions: with the modifier of `ctl.memdef` (07 R159) -/

/-- ld. -/
def execLd (sz : Size) (sx : Bool) (gd ga : Reg) (disp : BitVec 13) (s : State) : Out := doLd s.core.memdef 4 sz sx gd ga disp s
/-- st. -/
def execSt (sz : Size) (gd ga : Reg) (disp : BitVec 13) (s : State) : Out := doSt s.core.memdef 4 sz gd ga disp s
/-- ldx. -/
def execLdx (sz : Size) (sx : Bool) (gd ga : Reg) (disp : BitVec 13) (s : State) : Out := doLdx s.core.memdef 4 sz sx gd ga disp s
/-- stx. -/
def execStx (sz : Size) (gd ga : Reg) (disp : BitVec 13) (s : State) : Out := doStx s.core.memdef 4 sz gd ga disp s
/-- ldt. -/
def execLdt (sz : Size) (sx : Bool) (gd ga : Reg) (desc : BitVec 12) (s : State) : Out := doLdt s.core.memdef 4 sz sx gd ga desc s
/-- stt. -/
def execStt (sz : Size) (gd ga : Reg) (desc : BitVec 12) (s : State) : Out := doStt s.core.memdef 4 sz gd ga desc s
/-- dset. -/
def execDset (ga : Reg) (desc : BitVec 12) (s : State) : Out := doDset s.core.memdef 4 ga desc s
/-- dget. -/
def execDget (ga : Reg) (desc : BitVec 12) (s : State) : Out := doDget s.core.memdef 4 ga desc s

/-- aadd. -/
def execAadd (wide : Bool) (gd ga gb : Reg) (s : State) : Out := doAtom s.core.memdef 4 .add wide gd ga gb s
/-- amin. -/
def execAmin (wide : Bool) (gd ga gb : Reg) (s : State) : Out := doAtom s.core.memdef 4 .min wide gd ga gb s
/-- amax. -/
def execAmax (wide : Bool) (gd ga gb : Reg) (s : State) : Out := doAtom s.core.memdef 4 .max wide gd ga gb s
/-- aminn. -/
def execAminn (wide : Bool) (gd ga gb : Reg) (s : State) : Out := doAtom s.core.memdef 4 .minn wide gd ga gb s
/-- amaxn. -/
def execAmaxn (wide : Bool) (gd ga gb : Reg) (s : State) : Out := doAtom s.core.memdef 4 .maxn wide gd ga gb s
/-- aand. -/
def execAand (wide : Bool) (gd ga gb : Reg) (s : State) : Out := doAtom s.core.memdef 4 .and wide gd ga gb s
/-- aor. -/
def execAor (wide : Bool) (gd ga gb : Reg) (s : State) : Out := doAtom s.core.memdef 4 .or wide gd ga gb s
/-- axor. -/
def execAxor (wide : Bool) (gd ga gb : Reg) (s : State) : Out := doAtom s.core.memdef 4 .xor wide gd ga gb s
/-- axchg. -/
def execAxchg (wide : Bool) (gd ga gb : Reg) (s : State) : Out := doAtom s.core.memdef 4 .xchg wide gd ga gb s
/-- acas. -/
def execAcas (wide : Bool) (gd ga gb : Reg) (s : State) : Out := doAtom s.core.memdef 4 .cas wide gd ga gb s

/-- aadd.x. -/
def execAaddRemote (wide : Bool) (gd ga gb : Reg) (s : State) : Out := doAtomRemote s.core.memdef 4 .add wide gd ga gb s
/-- amin.x. -/
def execAminRemote (wide : Bool) (gd ga gb : Reg) (s : State) : Out := doAtomRemote s.core.memdef 4 .min wide gd ga gb s
/-- amax.x. -/
def execAmaxRemote (wide : Bool) (gd ga gb : Reg) (s : State) : Out := doAtomRemote s.core.memdef 4 .max wide gd ga gb s
/-- aminn.x. -/
def execAminnRemote (wide : Bool) (gd ga gb : Reg) (s : State) : Out := doAtomRemote s.core.memdef 4 .minn wide gd ga gb s
/-- amaxn.x. -/
def execAmaxnRemote (wide : Bool) (gd ga gb : Reg) (s : State) : Out := doAtomRemote s.core.memdef 4 .maxn wide gd ga gb s
/-- aand.x. -/
def execAandRemote (wide : Bool) (gd ga gb : Reg) (s : State) : Out := doAtomRemote s.core.memdef 4 .and wide gd ga gb s
/-- aor.x. -/
def execAorRemote (wide : Bool) (gd ga gb : Reg) (s : State) : Out := doAtomRemote s.core.memdef 4 .or wide gd ga gb s
/-- axor.x. -/
def execAxorRemote (wide : Bool) (gd ga gb : Reg) (s : State) : Out := doAtomRemote s.core.memdef 4 .xor wide gd ga gb s
/-- axchg.x. -/
def execAxchgRemote (wide : Bool) (gd ga gb : Reg) (s : State) : Out := doAtomRemote s.core.memdef 4 .xchg wide gd ga gb s
/-- acas.x. -/
def execAcasRemote (wide : Bool) (gd ga gb : Reg) (s : State) : Out := doAtomRemote s.core.memdef 4 .cas wide gd ga gb s

/-- aadd on tensor memory. -/
def execAaddTensor (wide : Bool) (gd ga gb : Reg) (desc : BitVec 7) (s : State) : Out := doAtomTensor s.core.memdef 4 .add wide gd ga gb desc s
/-- amin on tensor memory. -/
def execAminTensor (wide : Bool) (gd ga gb : Reg) (desc : BitVec 7) (s : State) : Out := doAtomTensor s.core.memdef 4 .min wide gd ga gb desc s
/-- amax on tensor memory. -/
def execAmaxTensor (wide : Bool) (gd ga gb : Reg) (desc : BitVec 7) (s : State) : Out := doAtomTensor s.core.memdef 4 .max wide gd ga gb desc s
/-- aminn on tensor memory. -/
def execAminnTensor (wide : Bool) (gd ga gb : Reg) (desc : BitVec 7) (s : State) : Out := doAtomTensor s.core.memdef 4 .minn wide gd ga gb desc s
/-- amaxn on tensor memory. -/
def execAmaxnTensor (wide : Bool) (gd ga gb : Reg) (desc : BitVec 7) (s : State) : Out := doAtomTensor s.core.memdef 4 .maxn wide gd ga gb desc s
/-- aand on tensor memory. -/
def execAandTensor (wide : Bool) (gd ga gb : Reg) (desc : BitVec 7) (s : State) : Out := doAtomTensor s.core.memdef 4 .and wide gd ga gb desc s
/-- aor on tensor memory. -/
def execAorTensor (wide : Bool) (gd ga gb : Reg) (desc : BitVec 7) (s : State) : Out := doAtomTensor s.core.memdef 4 .or wide gd ga gb desc s
/-- axor on tensor memory. -/
def execAxorTensor (wide : Bool) (gd ga gb : Reg) (desc : BitVec 7) (s : State) : Out := doAtomTensor s.core.memdef 4 .xor wide gd ga gb desc s
/-- axchg on tensor memory. -/
def execAxchgTensor (wide : Bool) (gd ga gb : Reg) (desc : BitVec 7) (s : State) : Out := doAtomTensor s.core.memdef 4 .xchg wide gd ga gb desc s
/-- acas on tensor memory. -/
def execAcasTensor (wide : Bool) (gd ga gb : Reg) (desc : BitVec 7) (s : State) : Out := doAtomTensor s.core.memdef 4 .cas wide gd ga gb desc s

/-- fence (10 R235): it orders accesses only; the core's own remote stores are performed before any later write, and every
later write is a release (07 R160). -/
def execFence (_scope : Scope) (s : State) : Out :=
  .next ((s.flushMine.setCore { s.flushMine.core with fenced := true }).skip 4)

end Sys2Proof.Machine
end

