-- ==== Sys2Proof/Machine/Crypto.lean ====
section
/-! DEFINITION. SHA-256 and SHA-384 (FIPS 180-4) and CRC-32C, as 19 R442, R451, R462 and 20 R486 name them. -/
namespace Sys2Proof.Machine

/-- Rotation right of a `w`-bit word. -/
def rotr (w v n : Nat) : Nat := v / 2 ^ n + v % 2 ^ n * 2 ^ (w - n)

/-- The big-endian number of some bytes. -/
def beNat (l : List Byte) : Nat := l.foldl (fun a b => a * 256 + b.toNat) 0

/-- The `n` bytes of a number, most significant first. -/
def beBytes (v n : Nat) : List Byte := (leBytes v n).reverse

/-- A secure-hash function of the family: word width, rounds, constants, initial value, rotations, and bytes of the digest. -/
structure ShaParams where
  w : Nat
  ks : List Nat
  init : List Nat
  /-- Σ0, Σ1: three rotations each; σ0, σ1: two rotations and a shift each. -/
  big0 : List Nat
  big1 : List Nat
  small0 : List Nat
  small1 : List Nat
  out : Nat
  deriving DecidableEq, Repr

/-- Σ of three rotations. -/
def shaBig (w : Nat) (l : List Nat) (v : Nat) : Nat := rotr w v (l.getD 0 0) ^^^ rotr w v (l.getD 1 0) ^^^ rotr w v (l.getD 2 0)

/-- σ of two rotations and a shift. -/
def shaSmall (w : Nat) (l : List Nat) (v : Nat) : Nat := rotr w v (l.getD 0 0) ^^^ rotr w v (l.getD 1 0) ^^^ v / 2 ^ l.getD 2 0

/-- The message schedule: `n` further words after the sixteen of the block, the last word first. -/
def shaSchedule (p : ShaParams) : Nat → List Nat → List Nat
  | 0, l => l
  | n + 1, l =>
    shaSchedule p n ((shaSmall p.w p.small1 (l.getD 1 0) + l.getD 6 0 + shaSmall p.w p.small0 (l.getD 14 0) + l.getD 15 0) % 2 ^ p.w :: l)

/-- One round on the working variables a to h. -/
def shaRound (p : ShaParams) (v : List Nat) (kw : Nat) : List Nat :=
  match v with
  | [a, b, c, d, e, f, g, h] =>
    let t1 := h + shaBig p.w p.big1 e + ((e &&& f) ^^^ ((2 ^ p.w - 1 - e) &&& g)) + kw
    let t2 := shaBig p.w p.big0 a + ((a &&& b) ^^^ (a &&& c) ^^^ (b &&& c))
    [(t1 + t2) % 2 ^ p.w, a, b, c, (d + t1) % 2 ^ p.w, e, f, g]
  | _ => v

/-- The hash value after a block of sixteen words. -/
def shaBlock (p : ShaParams) (h : List Nat) (words : List Nat) : List Nat :=
  let ws := (shaSchedule p (p.ks.length - 16) words.reverse).reverse
  let v := (p.ks.zip ws).foldl (fun v (x : Nat × Nat) => shaRound p v (x.1 + x.2)) h
  (h.zip v).map fun x => (x.1 + x.2) % 2 ^ p.w

/-- The message with its padding: a one bit, zeros, and its length in bits, to whole blocks. -/
def shaPad (p : ShaParams) (m : List Byte) : List Byte :=
  let block := 2 * p.w
  let zeros := (block - (m.length + 1 + p.w / 4) % block) % block
  m ++ 0x80 :: List.replicate zeros 0 ++ beBytes (8 * m.length) (p.w / 4)

/-- The words of block `i`. -/
def shaWords (p : ShaParams) (l : List Byte) (i : Nat) : List Nat :=
  (List.range 16).map fun j => beNat ((l.drop (2 * p.w * i + p.w / 8 * j)).take (p.w / 8))

/-- The digest of a message. -/
def sha (p : ShaParams) (m : List Byte) : List Byte :=
  let l := shaPad p m
  let h := (List.range (l.length / (2 * p.w))).foldl (fun h (i : Nat) => shaBlock p h (shaWords p l i)) p.init
  (h.flatMap fun v => beBytes v (p.w / 8)).take p.out

/-- The 64 constants of SHA-256. -/
def k256 : List Nat :=
  [0x428A2F98, 0x71374491, 0xB5C0FBCF, 0xE9B5DBA5, 0x3956C25B, 0x59F111F1, 0x923F82A4, 0xAB1C5ED5] ++
  [0xD807AA98, 0x12835B01, 0x243185BE, 0x550C7DC3, 0x72BE5D74, 0x80DEB1FE, 0x9BDC06A7, 0xC19BF174] ++
  [0xE49B69C1, 0xEFBE4786, 0x0FC19DC6, 0x240CA1CC, 0x2DE92C6F, 0x4A7484AA, 0x5CB0A9DC, 0x76F988DA] ++
  [0x983E5152, 0xA831C66D, 0xB00327C8, 0xBF597FC7, 0xC6E00BF3, 0xD5A79147, 0x06CA6351, 0x14292967] ++
  [0x27B70A85, 0x2E1B2138, 0x4D2C6DFC, 0x53380D13, 0x650A7354, 0x766A0ABB, 0x81C2C92E, 0x92722C85] ++
  [0xA2BFE8A1, 0xA81A664B, 0xC24B8B70, 0xC76C51A3, 0xD192E819, 0xD6990624, 0xF40E3585, 0x106AA070] ++
  [0x19A4C116, 0x1E376C08, 0x2748774C, 0x34B0BCB5, 0x391C0CB3, 0x4ED8AA4A, 0x5B9CCA4F, 0x682E6FF3] ++
  [0x748F82EE, 0x78A5636F, 0x84C87814, 0x8CC70208, 0x90BEFFFA, 0xA4506CEB, 0xBEF9A3F7, 0xC67178F2]

/-- The 80 constants of SHA-384. -/
def k384 : List Nat :=
  [0x428A2F98D728AE22, 0x7137449123EF65CD, 0xB5C0FBCFEC4D3B2F, 0xE9B5DBA58189DBBC, 0x3956C25BF348B538] ++
  [0x59F111F1B605D019, 0x923F82A4AF194F9B, 0xAB1C5ED5DA6D8118, 0xD807AA98A3030242, 0x12835B0145706FBE] ++
  [0x243185BE4EE4B28C, 0x550C7DC3D5FFB4E2, 0x72BE5D74F27B896F, 0x80DEB1FE3B1696B1, 0x9BDC06A725C71235] ++
  [0xC19BF174CF692694, 0xE49B69C19EF14AD2, 0xEFBE4786384F25E3, 0x0FC19DC68B8CD5B5, 0x240CA1CC77AC9C65] ++
  [0x2DE92C6F592B0275, 0x4A7484AA6EA6E483, 0x5CB0A9DCBD41FBD4, 0x76F988DA831153B5, 0x983E5152EE66DFAB] ++
  [0xA831C66D2DB43210, 0xB00327C898FB213F, 0xBF597FC7BEEF0EE4, 0xC6E00BF33DA88FC2, 0xD5A79147930AA725] ++
  [0x06CA6351E003826F, 0x142929670A0E6E70, 0x27B70A8546D22FFC, 0x2E1B21385C26C926, 0x4D2C6DFC5AC42AED] ++
  [0x53380D139D95B3DF, 0x650A73548BAF63DE, 0x766A0ABB3C77B2A8, 0x81C2C92E47EDAEE6, 0x92722C851482353B] ++
  [0xA2BFE8A14CF10364, 0xA81A664BBC423001, 0xC24B8B70D0F89791, 0xC76C51A30654BE30, 0xD192E819D6EF5218] ++
  [0xD69906245565A910, 0xF40E35855771202A, 0x106AA07032BBD1B8, 0x19A4C116B8D2D0C8, 0x1E376C085141AB53] ++
  [0x2748774CDF8EEB99, 0x34B0BCB5E19B48A8, 0x391C0CB3C5C95A63, 0x4ED8AA4AE3418ACB, 0x5B9CCA4F7763E373] ++
  [0x682E6FF3D6B2B8A3, 0x748F82EE5DEFB2FC, 0x78A5636F43172F60, 0x84C87814A1F0AB72, 0x8CC702081A6439EC] ++
  [0x90BEFFFA23631E28, 0xA4506CEBDE82BDE9, 0xBEF9A3F7B2C67915, 0xC67178F2E372532B, 0xCA273ECEEA26619C] ++
  [0xD186B8C721C0C207, 0xEADA7DD6CDE0EB1E, 0xF57D4F7FEE6ED178, 0x06F067AA72176FBA, 0x0A637DC5A2C898A6] ++
  [0x113F9804BEF90DAE, 0x1B710B35131C471B, 0x28DB77F523047D84, 0x32CAAB7B40C72493, 0x3C9EBE0A15C9BEBC] ++
  [0x431D67C49C100D4C, 0x4CC5D4BECB3E42B6, 0x597F299CFC657E2A, 0x5FCB6FAB3AD6FAEC, 0x6C44198C4A475817]

/-- SHA-256. -/
def sha256 : ShaParams where
  w := 32
  ks := k256
  init := [0x6A09E667, 0xBB67AE85, 0x3C6EF372, 0xA54FF53A, 0x510E527F, 0x9B05688C, 0x1F83D9AB, 0x5BE0CD19]
  big0 := [2, 13, 22]
  big1 := [6, 11, 25]
  small0 := [7, 18, 3]
  small1 := [17, 19, 10]
  out := 32

/-- SHA-384. -/
def sha384 : ShaParams where
  w := 64
  ks := k384
  init := [0xCBBB9D5DC1059ED8, 0x629A292A367CD507, 0x9159015A3070DD17, 0x152FECD8F70E5939,
    0x67332667FFC00B31, 0x8EB44A8768581511, 0xDB0C2E0D64F98FA7, 0x47B5481DBEFA4FA4]
  big0 := [28, 34, 39]
  big1 := [14, 18, 41]
  small0 := [1, 8, 7]
  small1 := [19, 61, 6]
  out := 48

/-- One bit of CRC-32C, reflected: 0x82F63B78 is 0x1EDC6F41 with its bits reversed (19 R442). -/
def crcBit (c : Nat) : Nat := if c % 2 = 1 then (c / 2) ^^^ 0x82F63B78 else c / 2

/-- One byte of CRC-32C. -/
def crcByte (c : Nat) (b : Byte) : Nat := crcBit (crcBit (crcBit (crcBit (crcBit (crcBit (crcBit (crcBit (c ^^^ b.toNat))))))))

/-- CRC-32C of some bytes. -/
def crc32c (l : List Byte) : Nat := l.foldl crcByte 0xFFFFFFFF ^^^ 0xFFFFFFFF

end Sys2Proof.Machine
end

