-- ==== Sys2Proof/Machine/Far.lean ====
section
/-! DEFINITION. Memory that the fabric reaches: the module's own export space, and what other modules show (13 R333, R334;
18 R409; 19 R491). -/
namespace Sys2Proof.Machine

/-- The virtual address of a discarded leaf that names a frame, below a table of a level. -/
def findDiscarded (s : State) (frame : Nat) : Nat → Nat → Nat → Option Nat
  | lvl, table, base =>
    (List.range (if lvl = 3 then 0x20000 else 512)).findSome? fun i =>
      let e := s.read8 (table + 8 * i)
      let va := base + i * 2 ^ levelShift lvl
      if !Pte.v e then none
      else if Pte.leaf e then
        (if Pte.disc e && decide (Pte.frame e ≤ frame) && decide (frame < Pte.frame e + 2 ^ levelShift lvl) then some va else none)
      else match lvl with
        | 0 => none
        | l + 1 => findDiscarded s frame l (Pte.frame e) va

/-- Firmware resolves a DISCARDED_WRITE that a fabric request met at an export offset: a fresh frame in the address-space
leaf and in every export leaf that named the old one (19 R491). -/
def completeExport (s : State) (part off : Nat) : Option State :=
  match exportRoot s part, ownRoot s part with
  | some xr, some root => (findDiscarded s (Pte.frame (s.read8 (findEntry s off 3 xr).2)) 3 root 0).bind (complete s part)
  | _, _ => none

/-- A walk through a partition's export root: a physical address, none for a discarded page that reads as zero, or its fault. -/
def exportWalk (s : State) (d part off : Nat) (acc : Access) : Except FarFault (Option Nat) × State :=
  match translate s d part .exported off acc with
  | (.pa a, s) => (if hbmEnd ≤ a then .error { code := Code.permission } else .ok (some a), s)
  | (.zero, s) => (.ok none, s)
  | (.fault code detail _, s) => (.error { code := code, detail := detail }, s)

/-- The translation of an access from the fabric (13 R334): the module's own firmware meets a discarded page; where it can supply no
frame, NOT_PRESENT comes with DETAIL zero (log 67). -/
def exportTranslate (s : State) (d part off : Nat) (acc : Access) : Except FarFault (Option Nat) × State :=
  match exportWalk s d part off acc with
  | (.error f, s) =>
    if f.code = Code.discardedWrite then
      match completeExport s part off with
      | some s => exportWalk s d part off acc
      | none => (.error { code := Code.notPresent }, s)
    else (.error f, s)
  | r => r

/-- One byte read through an export root; a poisoned granule's address is in DETAIL (18 R431). -/
def exportByte (s : State) (d part off : Nat) : Except FarFault Byte × State :=
  match exportTranslate s d part off .read with
  | (.ok (some a), s) =>
    match badGranule s.memBad a 1 with
    | some g => (.error { code := Code.uncorrectable, detail := uncDetail 1 g }, s)
    | none => (.ok (s.mem.byte a), s)
  | (.ok none, s) => (.ok 0, s)
  | (.error f, s) => (.error f, s)

/-- Bytes read through an export root; the fault of the first that fails. -/
def exportRead (s : State) (d part off : Nat) : Nat → Except FarFault (List Byte) × State
  | 0 => (.ok [], s)
  | n + 1 =>
    match exportByte s d part off with
    | (.error f, s) => (.error f, s)
    | (.ok v, s) =>
      match exportRead s d part (off + 1) n with
      | (.ok l, s) => (.ok (v :: l), s)
      | r => r

/-- The physical addresses of `n` bytes for a write or an atomic through an export root. -/
def exportPlaces (s : State) (d part off : Nat) (acc : Access) : Nat → Except FarFault (List Nat) × State
  | 0 => (.ok [], s)
  | n + 1 =>
    match exportTranslate s d part off acc with
    | (.ok (some a), s) =>
      (match exportPlaces s d part (off + 1) acc n with
       | (.ok l, s) => (.ok (a :: l), s)
       | r => r)
    | (.ok none, s) => (.error { code := Code.notPresent }, s)
    | (.error f, s) => (.error f, s)

/-- Bytes merged at physical addresses, each under its mask (13 R327). -/
def State.mergeAt (s : State) (as : List Nat) (l : List (Byte × Byte)) : State := s.mergeRow (as.zip l)

/-- A masked write through an export root: the fault where it fails. -/
def exportWrite (s : State) (d part off : Nat) (l : List (Byte × Byte)) : Option FarFault × State :=
  match exportPlaces s d part off .write l.length with
  | (.error c, s) => (some c, s)
  | (.ok as, s) => (none, s.mergeAt as l)

/-- What module `m` shows. -/
def State.peer (s : State) (m : Nat) : Peer := SMap.get {} s.peers m
def State.setPeer (s : State) (m : Nat) (x : Peer) : State := { s with peers := SMap.put s.peers m x }

/-- The export memory that module `m` shows to a partition's domain (13 R334). -/
def State.farMem (s : State) (part m : Nat) : Memory := SMap.get [] (s.peer m).mem (s.part part).tag
def State.setFarMem (s : State) (part m : Nat) (x : Memory) : State :=
  s.setPeer m { s.peer m with mem := SMap.put (s.peer m).mem (s.part part).tag x }

/-- The partition whose export space takes a request: TAG and EN match (18 R409). -/
def State.exportOf (s : State) (die tag : Nat) : Option Nat :=
  ((s.die die).xlt.find? fun x => x.2.xen && decide (x.2.tag = tag)).map (·.1)

/-- What an answer tells of another module's memory, as bytes of the export space that it shows to partition `part`'s domain. -/
def State.learn (s : State) (part m : Nat) (held : List (BitVec 46 × BitVec 8)) : State :=
  if m = s.hub.modnum then s
  else s.setFarMem part m (held.foldl (fun x b => x.setByte b.1.toNat b.2) (s.farMem part m))

/-- The fault of a request to the module's own number that meets no export space: FABRIC_PEER_ABSENT while a partition of the tag is being
reset, which answers "in reset" (19 R453, 13 R335), else PERMISSION (18 R409, 13 R334). -/
def State.noExport (s : State) (tag : Nat) : FarFault :=
  if (List.range 16).any fun p => decide ((s.part p).state = .resetting) && decide ((s.part p).tag = tag) then
    { code := Code.fabricPeerAbsent, detail := s.hub.modnum }
  else { code := Code.permission }

/-- What a request of partition `part` to the module's own number does in the export space that its domain's tag names. -/
def ownExport {α : Type} (s : State) (d part : Nat) (f : Nat → Except FarFault α × State) : Except FarFault α × State :=
  match s.exportOf d (s.part part).tag with
  | some p => f p
  | none => (.error (s.noExport (s.part part).tag), s)

/-- Bytes of module `m` at an offset of partition `part`'s domain, read for a tile of die `d`. -/
def farRead (s : State) (d part m off n : Nat) : Except FarFault (List Byte) × State :=
  if m = s.hub.modnum then ownExport s d part fun p => exportRead s d p off n else (.ok ((s.farMem part m).bytes off n), s)

/-- Masked bytes merged into a store. -/
def mergeBytes (m : Memory) (a : Nat) : List (Byte × Byte) → Memory
  | [] => m
  | (v, k) :: l => mergeBytes (m.setByte a ((m.byte a &&& ~~~k) ||| (v &&& k))) (a + 1) l

/-- A masked write at module `m`: the fault where it fails. -/
def farWrite (s : State) (d part m off : Nat) (l : List (Byte × Byte)) : Option FarFault × State :=
  if m = s.hub.modnum then
    match s.exportOf d (s.part part).tag with
    | some p => exportWrite s d p off l
    | none => (some (s.noExport (s.part part).tag), s)
  else (none, s.setFarMem part m (mergeBytes (s.farMem part m) off l))

/-- A read-modify-write of `n` bytes through an export root: the old value, or the fault where it fails. -/
def exportRmw (s : State) (d part off n : Nat) (f : Nat → Option Nat) : Except FarFault Nat × State :=
  match exportPlaces s d part off .atomic n with
  | (.error c, s) => (.error c, s)
  | (.ok as, s) =>
    match as.findSome? fun a => badGranule s.memBad a 1 with
    | some g => (.error { code := Code.uncorrectable, detail := uncDetail 1 g }, s)
    | none =>
      let old := leNat (as.map s.mem.byte)
      (.ok old, match f old with
        | some v => s.mergeAt as ((leBytes v n).map fun b => (b, 0xFF))
        | none => s)

/-- A read-modify-write of `n` bytes at module `m` (07 R165): the old value, or the fault where it fails. -/
def farRmw (s : State) (d part m off n : Nat) (f : Nat → Option Nat) : Except FarFault Nat × State :=
  if m = s.hub.modnum then ownExport s d part fun p => exportRmw s d p off n f
  else
    let old := (s.farMem part m).readLE off n
    (.ok old, match f old with
      | some v => s.setFarMem part m ((s.farMem part m).writeLE off n v)
      | none => s)

/-! ## The table of address groups (19 R449) -/

/-- The members that an entry names, in group order: none where bits 5:0 leave it unset. -/
def Group.members (g : Group) : List Nat :=
  if g.gm1 = 0 then [] else (List.range (g.gm1 + 1)).map fun k => field g.bits (10 * k) 10

/-- Whether the entry is bound to a partition: an unset one is bound to none. -/
def Group.boundTo (g : Group) (p : Nat) : Bool := decide (g.gm1 ≠ 0) && bit g.bound p

/-- An entry as a number, and the entry of a number. -/
def Group.code (g : Group) : Nat := g.gm1 + g.bound * 2 ^ 16 + g.bits * 2 ^ 64
def Group.ofCode (v : Nat) : Group := { gm1 := field v 0 6, bound := field v 16 16, bits := field v 64 640 }

/-- The member bits of a list of members. -/
def memberBits (l : List Nat) : Nat := ((List.range l.length).map fun k => l.getD k 0 % 1024 * 2 ^ (10 * k)).sum

/-- An address group. -/
def State.group (s : State) (g : Nat) : Group := SMap.get {} s.hub.groups g
def State.setGroup (s : State) (g : Nat) (x : Group) : State := { s with hub := { s.hub with groups := SMap.put s.hub.groups g x } }

/-- A write of a doubleword of the address-group table. -/
def State.groupReg (s : State) (off v : Nat) : State :=
  let g := off / 128
  s.setGroup g (Group.ofCode (setField (s.group g).code (off % 128 * 8) 64 v))

/-- Bytes whole, as a masked write. -/
def wholeBytes (l : List Byte) : List (Byte × Byte) := l.map fun b => (b, 0xFF)

end Sys2Proof.Machine
end

