-- ==== Sys2Proof/Machine/Trace.lean ====
section
/-! DEFINITION. The trace writer of a tile (20 R476 to R484). -/
namespace Sys2Proof.Machine

/-- Whether tile `t` writes trace: TREN, no write of its own that failed, and a node on the tile (20 R476, R483). -/
def State.traceOn (s : State) (t : Nat) : Bool :=
  (s.part (s.tile t).partNo).dbg.tren && !(s.tile t).trace.failed && (s.tile t).life.seat.isSome

/-- The region of tile `t`: BASE × 2^16 + 2^LOG2SZ × t. -/
def State.traceBase (s : State) (t : Nat) : Nat :=
  let d := (s.part (s.tile t).partNo).dbg
  (d.trbase * 2 ^ 16 + 2 ^ d.log2sz * t) % 2 ^ 56

/-- The trace registers of tile `t` replaced. -/
def State.setTrace (s : State) (t : Nat) (x : Trace) : State := s.setTile t { s.tile t with trace := x }

/-- S, the bytes of the ring. -/
def State.traceSize (s : State) (t : Nat) : Nat := 2 ^ (s.part (s.tile t).partNo).dbg.log2sz - 64

/-- A doubleword written at an offset of the region; TRERR where firmware cannot translate it: the tile then writes nothing more,
and no unit of it waits on its trace (20 R483). -/
def State.traceDw (s : State) (t off v : Nat) : State :=
  let part := (s.tile t).partNo
  if (s.tile t).trace.failed then s
  else match hubWritePage s (tileDie t) part ((s.traceBase t + off) % 2 ^ 56) (leBytes v 8) with
  | (none, s) => s
  | (some _, s) =>
    (s.setPart part { s.part part with dbg := { (s.part part).dbg with trerr := true } }).setTrace t
      { (s.tile t).trace with failed := true, waiting := [] }

/-- A doubleword of the header read. -/
def State.traceHeader (s : State) (t off : Nat) : Nat × State :=
  match hubReadPage s (tileDie t) (s.tile t).partNo ((s.traceBase t + off) % 2 ^ 56) 8 with
  | (.ok l, s) => (leNat l, s)
  | (.error _, s) => (0, s)

/-- A record fits if TAIL + its size + 16 - HEAD does not exceed S (20 R480). -/
def State.traceFits (s : State) (t n : Nat) : Bool :=
  decide ((s.tile t).trace.tail + n + 16 - (s.tile t).trace.head ≤ s.traceSize t)

/-- The record's doublewords as they are appended now: DT is the ticks since the region's previous record, and 0 in an MK
and a GAP; DW1 of an MK is the full tick (20 R477, Table 20.5). -/
def TraceRec.stamped (r : TraceRec) (now last : Nat) : List Nat :=
  match r.dws with
  | [] => []
  | d :: l =>
    let ty := field d.toNat 60 4
    if ty = 6 then [d.toNat, now]
    else if ty = 7 then d.toNat :: l.map (·.toNat)
    else (d.toNat + (now - last) % 2 ^ 17 * 2 ^ 40) :: l.map (·.toNat)

/-- Doublewords written at the ring from count `c` on: count c lies at region offset 64 + (c mod S). -/
def State.traceRing (s : State) (t c : Nat) : List Nat → State
  | [] => s
  | v :: l => State.traceRing (s.traceDw t (64 + c % s.traceSize t) v) t (c + 8) l

/-- A record appended now, and TAIL written after it (20 R476); TAIL stays where a write failed. -/
def State.traceEmit (s : State) (t : Nat) (r : TraceRec) : State :=
  let x := (s.tile t).trace
  let dws := r.stamped s.seiche x.lastTick
  let s := s.traceRing t x.tail dws
  let isMk := decide (field ((dws.getD 0 0)) 60 4 = 6)
  let tail := x.tail + 8 * dws.length
  if (s.tile t).trace.failed then s
  else (s.setTrace t { (s.tile t).trace with
    tail := tail, lastTick := s.seiche, lastMk := if isMk then s.seiche else x.lastMk }).traceDw t 0 tail

/-- The first doubleword of a record: TYPE, UNIT and payload. -/
def traceWord (ty unit payload : Nat) : Word := BitVec.ofNat 64 (ty * 2 ^ 60 + unit * 2 ^ 57 + payload)

/-- GAP mode: a GAP that holds the dropped record's tick, GAPS counted; the tile then drops every record (20 R481). -/
def State.traceGap (s : State) (t tick : Nat) : State :=
  let s := s.traceEmit t { unit := 7, tick := tick, dws := [traceWord 7 7 0, BitVec.ofNat 64 tick] }
  let x := (s.tile t).trace
  (s.setTrace t { x with gaps := x.gaps + 1, gapped := true, waiting := [] }).traceDw t 16 (x.gaps + 1)

/-- An MK of a REASON as a record. -/
def markWords (reason : Nat) : List Word := [traceWord 6 7 (reason * 2 ^ 32), 0]

/-- Whether MKINT ticks have passed since the region's last MK (20 R478). -/
def State.markDue (s : State) (t : Nat) : Bool :=
  decide ((s.tile t).trace.lastMk + (s.part (s.tile t).partNo).dbg.mkint ≤ s.seiche)

/-- Whether the ticks since the region's last record fit in the bits of DT (20 R477). -/
def Trace.dtFits (x : Trace) (now : Nat) : Bool := decide (now < x.lastTick + 2 ^ 17)

/-- A record placed among others by UNIT: after those of its own unit and of the units before it (20 R478). -/
def insertRec (r : TraceRec) : List TraceRec → List TraceRec
  | [] => [r]
  | x :: l => if r.unit < x.unit then r :: x :: l else x :: insertRec r l

/-- Whether a record is an MK. -/
def TraceRec.isMark (r : TraceRec) : Bool := decide (field (r.dws.getD 0 0).toNat 60 4 = 6)

/-- The MK of the interval as a record. -/
def intervalMark (now : Nat) : TraceRec := { unit := 7, tick := now, dws := markWords 1 }

/-- Whether an MK that is among no records yet must go before them: DT of the first could not hold the ticks since the region's last record
(20 R478; log 36). -/
def Trace.leads (x : Trace) (now : Nat) (l : List TraceRec) : Bool := !l.isEmpty && !x.dtFits now && !l.any TraceRec.isMark

/-- The bytes that some records take as they are appended at the end of this tick, with the MK that must go before them. -/
def Trace.bytesOf (x : Trace) (now : Nat) (l : List TraceRec) : Nat :=
  (l.map fun r => 8 * r.dws.length).sum + (if x.leads now l then 16 else 0)

/-- The records that wait and for which there is room beside those of the tick, now among these: each unit's in its order (20 R480, R482). -/
def Trace.letIn (x : Trace) (now : Nat) (fits : Nat → Bool) : Trace :=
  x.waiting.foldl (fun (y : Trace) r =>
    let l := insertRec r y.fresh
    if y.waiting.all (fun w => w.unit != r.unit) && fits (x.bytesOf now l) then { y with fresh := l }
    else { y with waiting := y.waiting ++ [r] }) { x with waiting := [] }

/-- HEAD read again, and what now fits of the records that wait joins those of the tick (20 R480). -/
def State.traceReadHead (s : State) (t : Nat) : State :=
  let (h, s) := s.traceHeader t 8
  let s := s.setTrace t { (s.tile t).trace with head := h, lastPoll := s.seiche }
  s.setTrace t ((s.tile t).trace.letIn s.seiche (s.traceFits t))

/-- Whether a record fits beside those of the tick. -/
def State.traceHolds (s : State) (t : Nat) (r : TraceRec) : Bool :=
  let x := (s.tile t).trace
  s.traceFits t (x.bytesOf s.seiche (insertRec r x.fresh))

/-- HEAD read again where a record does not fit (20 R480). -/
def State.traceRoom (s : State) (t : Nat) (r : TraceRec) : State := if s.traceHolds t r then s else s.traceReadHead t

/-- A record that waits for room, in STALL mode, after those of its unit; every unit waits on one of unit 7 (20 R482). -/
def State.traceWait (s : State) (t : Nat) (r : TraceRec) : State :=
  s.setTrace t { (s.tile t).trace with waiting := insertRec r (s.tile t).trace.waiting }

/-- A record of a unit appended if it fits; else dropped with a GAP, or waiting for room in STALL mode (20 R480 to R482). -/
def State.tracePlace (s : State) (t : Nat) (r : TraceRec) : State :=
  if !s.traceOn t || (s.tile t).trace.gapped then s
  else
    let s := s.traceRoom t r
    if s.traceHolds t r then s.traceEmit t r
    else if (s.part (s.tile t).partNo).dbg.trmode then s.traceWait t r
    else s.traceGap t r.tick

/-- The records of the tick appended, in UNIT order; an MK goes first where DT could not hold the ticks since the region's last record (20
R478; log 36). -/
def State.traceSettle (s : State) (t : Nat) : State :=
  let x := (s.tile t).trace
  let l := if x.dtFits s.seiche then x.fresh
           else match x.fresh, x.fresh.find? TraceRec.isMark with
             | [], _ => []
             | l, some k => k :: l.erase k
             | l, none => intervalMark s.seiche :: l
  if l.isEmpty then s else l.foldl (fun s r => s.tracePlace t r) (s.setTrace t { x with fresh := [] })

/-- A record of the tile appended at once, unless an earlier one of the tile waits for room (20 R482). -/
def State.tracePut (s : State) (t unit : Nat) (dws : List Word) : State :=
  let r : TraceRec := { unit := unit, tick := s.seiche, dws := dws }
  let waits := fun (s : State) => (s.tile t).trace.waiting.any fun w => w.unit == unit
  let s := if s.traceOn t && waits s then (s.traceRoom t r).traceSettle t else s
  if s.traceOn t && waits s then s.traceWait t r else s.tracePlace t r

/-- A record of a unit made in the tick under way: it is appended as the tick ends, in UNIT order (20 R478). In STALL mode one for which no
room is left beside those waits from now on, and with it its unit (20 R482). -/
def State.traceAppend (s : State) (t unit : Nat) (dws : List Word) : State :=
  let r : TraceRec := { unit := unit, tick := s.seiche, dws := dws }
  if !s.traceOn t || (s.tile t).trace.gapped then s
  else
    let stall := (s.part (s.tile t).partNo).dbg.trmode
    let s := if stall then s.traceRoom t r else s
    let x := (s.tile t).trace
    if stall && (x.waiting.any (fun w => w.unit == unit) || !s.traceHolds t r) then s.traceWait t r
    else s.setTrace t { x with fresh := insertRec r x.fresh }

/-- The outcomes as bits, the first in bit 0. -/
def outcomeBits : List Bool → Nat
  | [] => 0
  | b :: l => b2n b + 2 * outcomeBits l

/-- The branch outcomes a core holds, written as a BR; dropped where ENBR excludes the record (20 Table 20.5). -/
def State.flushBr (s : State) (t c : Nat) : State :=
  let x := (s.tile t).trace
  let l := SMap.get [] x.brs c
  if l.isEmpty then s
  else
    let s := s.setTrace t { x with brs := SMap.erase x.brs c }
    if (s.part (s.tile t).partNo).dbg.enbr then s.traceAppend t c [traceWord 1 c ((l.length - 1) * 2 ^ 35 + outcomeBits l)] else s

/-- The outcomes of all three cores, written in unit order. -/
def State.flushBrs (s : State) (t : Nat) : State := ((s.flushBr t 0).flushBr t 1).flushBr t 2

/-- A record of a core: its BR goes just before it. -/
def State.traceCore (s : State) (t c : Nat) (dws : List Word) : State :=
  if s.traceOn t then (s.flushBr t c).traceAppend t c dws else s

/-- The outcome of a conditional branch or `loop`: written when 32 are held. -/
def State.traceBranch (s : State) (taken : Bool) : State :=
  let t := s.curTile.val
  if s.traceOn t && (s.part (s.tile t).partNo).dbg.enbr then
    let x := (s.tile t).trace
    let l := SMap.get [] x.brs s.curCore.num ++ [taken]
    let s := s.setTrace t { x with brs := SMap.put x.brs s.curCore.num l }
    if l.length = 32 then s.flushBr t s.curCore.num else s
  else s

/-- JR, at each `jr` (a branch record, under ENBR). -/
def State.traceJump (s : State) (target : Nat) : State :=
  let t := s.curTile.val
  if s.traceOn t && (s.part (s.tile t).partNo).dbg.enbr then
    s.traceCore t s.curCore.num [traceWord 2 s.curCore.num 0, BitVec.ofNat 64 target]
  else s

/-- Ticks since a core was first blocked in its instruction, and whether it was. -/
def Trace.blockedFor (x : Trace) (c now : Nat) : Option Nat :=
  match SMap.get 0 x.blockedSince c with
  | 0 => none
  | n + 1 => some (now - n)

/-- The tick at which a core is first blocked in its instruction. -/
def State.markBlocked (s : State) : State :=
  let x := s.me.trace
  if (x.blockedFor s.curCore.num s.seiche).isSome then s
  else s.setTrace s.curTile.val { x with blockedSince := SMap.put x.blockedSince s.curCore.num (s.seiche + 1) }

/-- The core is blocked in nothing any more. -/
def State.clearBlocked (s : State) (t c : Nat) : State :=
  let x := (s.tile t).trace
  s.setTrace t { x with blockedSince := SMap.erase x.blockedSince c }

/-- TW, when a token instruction that blocked completes (20 Table 20.5). -/
def State.traceToken (s : State) (q : Nat) (push : Bool) : State :=
  let t := s.curTile.val
  let c := s.curCore.num
  match s.me.trace.blockedFor c s.seiche with
  | none => s
  | some n =>
    let s := s.clearBlocked t c
    if (s.part s.me.partNo).dbg.entw then
      s.traceCore t c [traceWord 3 c (q * 2 ^ 36 + b2n push * 2 ^ 35 + min n (2 ^ 32 - 1))]
    else s

/-- BW, when a `barw` or `barws` of core `c` of tile `t` completes (20 Table 20.5). -/
def State.traceBarrier (s : State) (t c bar : Nat) (ws : Bool) (phase : Nat) : State :=
  let n := ((s.tile t).trace.blockedFor c s.seiche).getD 0
  let s := if ((s.tile t).trace.blockedFor c s.seiche).isSome then s.clearBlocked t c else s
  if (s.part (s.tile t).partNo).dbg.enbw then
    s.traceCore t c [traceWord 4 c (bar * 2 ^ 35 + b2n ws * 2 ^ 34 + phase % 2 ^ 16 * 2 ^ 16 + min n (2 ^ 16 - 1))]
  else s

/-- SM, at each SCHEDULE_MISS (20 Table 20.5): by an engine, or by a core at issue. -/
def State.traceMiss (s : State) (t unit seq late : Nat) : State :=
  if (s.part (s.tile t).partNo).dbg.ensm then
    s.traceCore t unit [traceWord 5 unit (seq % 2 ^ 24 * 2 ^ 16 + min late (2 ^ 16 - 1))]
  else s

/-- MK of a REASON other than the interval (20 R478): it goes before whatever the tile does next, and every core's outcomes before it. -/
def State.traceMk (s : State) (t reason : Nat) : State :=
  if s.traceOn t then ((s.flushBrs t).traceSettle t).tracePut t 7 (markWords reason) else s

/-- The interval's MK among the records of its tick, after the outcomes that it flushes: UNIT 7 puts it last (20 R478; log 36). -/
def State.traceMark (s : State) (t : Nat) : State := (s.flushBrs t).traceAppend t 7 (markWords 1)

/-- Whether an MK is among a tile's records that are still to be appended. -/
def Trace.markWaits (x : Trace) : Bool := x.fresh.any TraceRec.isMark || x.waiting.any TraceRec.isMark

/-- The clock of a tile restarts: where a STOP stands last in its region, an MK with REASON 3 follows (20 R479). -/
def State.traceRestart (s : State) (t : Nat) : State :=
  let x := (s.tile t).trace
  if x.stopped && s.traceOn t then (s.setTrace t { x with stopped := false }).traceMk t 3 else s

/-- NODE (20 Table 20.5). -/
def State.traceNode (s : State) (t : Nat) : State :=
  match (s.tile t).life.seat with
  | some k => s.tracePut t 7 [traceWord 9 7 (k.attempt % 16 * 256 + k.rank), BitVec.ofNat 64 k.node]
  | none => s

/-- The header of the region read (20 R476). -/
def State.traceLoad (s : State) (t : Nat) : State :=
  let (tail, s) := s.traceHeader t 0
  let (head, s) := s.traceHeader t 8
  let (gaps, s) := s.traceHeader t 16
  s.setTrace t { (s.tile t).trace with tail := tail, head := head, gaps := gaps }

/-- A node starts on the tile: TAIL is read; a gapped tile writes again if the MK, the NODE and the reserve fit
(20 R476, R481). What waits for room already is of the tile, as the MK after a STOP, and goes before (20 R479): the records of the
node before were dropped as it left (`traceClose`). -/
def State.traceStart (s : State) (t : Nat) : State :=
  if s.traceOn t then
    let s := s.traceLoad t
    let x := (s.tile t).trace
    let s := s.setTrace t { x with brs := [], blockedSince := [] }
    if x.gapped then
      if s.traceFits t 32 then
        ((s.setTrace t { (s.tile t).trace with gapped := false }).traceMk t 4).traceNode t
      else s
    else (s.traceMk t 0).traceNode t
  else s

/-- A resume onto the tile: an MK with REASON 2 and a NODE (20 R478, R484). -/
def State.traceResume (s : State) (t : Nat) : State :=
  ((s.setTrace t { (s.tile t).trace with brs := [], blockedSince := [] }).traceMk t 2).traceNode t

/-- At a freeze: the outcomes that the cores hold are written (20 R477). -/
def State.traceFlush (s : State) (t : Nat) : State := if s.traceOn t then s.flushBrs t else s

/-- At an `exit` or a stop at `yield`: the outcomes that the core holds are written (20 R477). -/
def State.flushCore (s : State) (t c : Nat) : State := if s.traceOn t then s.flushBr t c else s

/-- Records still waiting when a forced save comes, or when the node leaves the tile, are dropped with a GAP (20 R482, R485). -/
def State.traceDropWaiting (s : State) (t : Nat) : State :=
  match (s.tile t).trace.waiting with
  | [] => s
  | r :: l =>
    let s := s.traceSettle t
    (s.setTrace t { (s.tile t).trace with waiting := [] }).traceGap t (l.foldl (fun n x => min n x.tick) r.tick)

/-- At a save or a node's end: the outcomes held are written, and what still waits for room is dropped (20 R476, R482, R484). -/
def State.traceClose (s : State) (t : Nat) : State := ((s.traceFlush t).traceSettle t).traceDropWaiting t

end Sys2Proof.Machine
end

