-- ==== Sys2Proof/Machine/Control.lean ====
section
/-! DEFINITION. Control flow: branches, `loop`, `b`, `call`, `jr`, `ret`, and the register window with its spills and fills
(09 R209 to R213; 08 R175 to R180). -/
namespace Sys2Proof.Machine

/-- The address of the unit plus 4 × DISP, modulo 2^56 (09 R209, R211). -/
def target {n : Nat} (pc : VAddr) (disp : BitVec n) : VAddr := pc + 4#56 * disp.signExtend 56

/-- The running core at another address. -/
def State.goto (s : State) (pc : VAddr) : State := s.setCore { s.core with pc := pc }

/-- A conditional branch (09 R209). -/
def branch (cond : Word → Word → Bool) (ga gb : Reg) (disp : BitVec 16) (s : State) : Out :=
  withSources [ga, gb] s fun s =>
    if cond (s.g ga) (s.g gb) then (s.goto (target s.core.pc disp)).traceBranch true else (s.skip 4).traceBranch false

/-- beq. -/
def execBeq (ga gb : Reg) (disp : BitVec 16) (s : State) : Out := branch (fun a b => a == b) ga gb disp s
/-- bne. -/
def execBne (ga gb : Reg) (disp : BitVec 16) (s : State) : Out := branch (fun a b => !(a == b)) ga gb disp s
/-- blt. -/
def execBlt (ga gb : Reg) (disp : BitVec 16) (s : State) : Out := branch ltS ga gb disp s
/-- bge. -/
def execBge (ga gb : Reg) (disp : BitVec 16) (s : State) : Out := branch (fun a b => !ltS a b) ga gb disp s
/-- bltn. -/
def execBltn (ga gb : Reg) (disp : BitVec 16) (s : State) : Out := branch ltU ga gb disp s
/-- bgen. -/
def execBgen (ga gb : Reg) (disp : BitVec 16) (s : State) : Out := branch (fun a b => !ltU a b) ga gb disp s

/-- loop (09 R210): the count falls by one, and the branch is taken while it is not zero. -/
def execLoop (ga : Reg) (disp : BitVec 16) (s : State) : Out :=
  if ga = 0 then .next (s.illegal (.loop ga disp))
  else withSources [ga] s fun s =>
    let v := s.g ga - 1
    let s := s.setG ga v
    if v ≠ 0 then (s.goto (target s.core.pc disp)).traceBranch true else (s.skip 4).traceBranch false

/-- b (09 R211). -/
def execB (disp : BitVec 21) (s : State) : Out := .next (s.goto (target s.core.pc disp))

/-- jr (09 R212): ALIGNMENT unless the address is a word address below 2^56. -/
def execJr (ga : Reg) (s : State) : Out :=
  withSources [ga] s fun s =>
    let a := (s.g ga).toNat
    if a % 4 ≠ 0 ∨ 2 ^ 56 ≤ a then s.fault Code.alignment a
    else (s.goto (BitVec.ofNat 56 a)).traceJump a

/-! ## The window (08 R176) -/

/-- The values of registers `lo` to `lo + n - 1`. -/
def Core.regRange (k : Core) (lo : Nat) : Nat → List Word
  | 0 => []
  | n + 1 => SMap.get 0 k.g lo :: Core.regRange k (lo + 1) n

/-- Registers from `lo` on, set to the values of a list. -/
def setRange (g : SMap Word) (lo : Nat) : List Word → SMap Word
  | [] => g
  | v :: l => setRange (SMap.set 0 g lo v) (lo + 1) l

/-- The words of the window registers among some words of registers, numbered from those of g12 (0 to 39). -/
def inWindow (l : List Nat) : List Nat := (l.filter (24 ≤ ·)).map (· - 24)

/-- The poisoned words of the window registers. -/
def Core.badWindow (k : Core) : List Nat := inWindow k.gBad

/-- A set of words of registers as the window slides over it by `n` registers, and as it slides back by `n` that bring `hid` with them. -/
def slideSet (l : List Nat) (n : Nat) : List Nat := l.filter (· < 24) ++ ((inWindow l).filter (2 * n ≤ ·)).map fun i => i - 2 * n + 24
def unslideSet (l : List Nat) (n : Nat) (hid : List Nat) : List Nat :=
  l.filter (· < 24) ++ hid.map (· + 24) ++ ((inWindow l).filter (· < 40 - 2 * n)).map fun i => i + 2 * n + 24

/-- The core after a `call` of frame size `n` (08 R176): the first `n` window registers hide in a frame record, the others
move down, and fresh zeros stand at the top. -/
def Core.slide (k : Core) (n : Nat) (ret : VAddr) : Core :=
  { k with
    g := setRange k.g 12 (k.regRange (12 + n) (20 - n) ++ List.replicate n 0)
    gBad := slideSet k.gBad n
    gCe := slideSet k.gCe n
    frames := k.frames ++ [{ size := n, ret := ret, hidden := k.regRange 12 n, bad := k.badWindow.filter (· < 2 * n)
                             ce := (inWindow k.gCe).filter (· < 2 * n) }] }

/-- The core after a `ret` into frame `f` (08 R176). -/
def Core.unslide (k : Core) (f : Frame) : Core :=
  { k with
    g := setRange k.g 12 (f.hidden ++ k.regRange 12 (20 - f.size))
    gBad := unslideSet k.gBad f.size f.bad
    gCe := unslideSet k.gCe f.size f.ce }

/-- Active frames, resident and spilled: DEPTH (08 R179). -/
def Core.depth (k : Core) : Nat := k.frames.length + k.spilled

/-- How many registers the resident frames hide. -/
def hiddenCount (fs : List Frame) : Nat := (fs.map Frame.size).sum

/-- How many of the oldest resident frames spill so that 108 hidden registers and 32 frame records remain (08 R177). -/
def spillCount : List Frame → Nat
  | [] => 0
  | f :: fs => if hiddenCount (f :: fs) ≤ 108 ∧ (f :: fs).length ≤ 32 then 0 else 1 + spillCount fs

/-- The 8 × (F + 1) bytes of a spilled frame: its hidden registers, then its frame word (08 R177). -/
def Frame.bytes (f : Frame) : List Byte :=
  (f.hidden.flatMap fun v => leBytes v.toNat 8) ++ leBytes (f.size * 2 ^ 59 + f.ret.toNat) 8

/-- The bytes that some frames spill. -/
def spillBytes (fs : List Frame) : List Byte := fs.flatMap Frame.bytes

/-- The first poisoned word of a register that some frames hide, by the name the register has in its frame (18 R430: a copy faults at
the read). -/
def spillPoison (fs : List Frame) : Option Nat := (fs.find? fun f => !f.bad.isEmpty).map fun f => 24 + f.bad.headD 0

/-- DETAIL of WINDOW_SPILL: SPTR and F (18 Table 18.5). -/
def spillDetail (sptr f : Nat) : Nat := sptr + f * 2 ^ 32

/-- call (09 R211, 08 R176, R177, R180). A spill is a core access: one into a retired bank raises UNCORRECTABLE (17 R378), and one after a
`fence` follows every earlier write of its core (07 R154, R161). DESIGN CHOICE (log 83): where a hidden register that it spills is
poisoned and the bank it spills into is retired, the register is recorded. -/
def execCall (frame : Fin 21) (disp : BitVec 21) (s : State) : Out :=
  let k := s.core
  let ret := k.pc + 4
  let k' := k.slide frame.val ret
  let n := spillCount k'.frames
  let out := k'.frames.take n
  let l := spillBytes out
  let ces := (out.map fun f => f.ce.length).sum
  if k.depth + 1 > 65535 ∨ (n ≠ 0 ∧ k.sptr + l.length > k.spillLimit) then
    .next (s.fault Code.windowSpill (spillDetail k.sptr frame.val))
  else match spillPoison out, if n = 0 then none else s.me.retiredHit k.sptr l.length with
    | some r, _ => .next (((s.countCes s.curTile.val ces).countUe s.curTile.val).fault Code.uncorrectable (regDetail r))
    | none, some w => .next (s.faultA 1 Code.uncorrectable (uncDetail 0 w))
    | none, none =>
      let s := s.setCore { k' with frames := k'.frames.drop n, spilled := k.spilled + n, sptr := k.sptr + l.length
                                   pc := target k.pc disp }
      let s := s.countCes s.curTile.val ces
      .next (if n = 0 then s else s.beforePlainWrite.writeScratch s.curTile.val k.sptr l)

/-- What a fill finds (08 R180). -/
inductive Fill where
  | frame (f : Frame)
  | poison (word : Nat)
  | broken (size : Nat)
  deriving DecidableEq, Repr

/-- The frame that a `ret` fills from below SPTR (08 R177, R180). A frame word whose registers would lie below offset 0, which
only a write that broke 08 R177 can leave, counts as broken with its own F: 08 R180 names no such word. Where SPTR is 0, so
that the frame word itself would lie below offset 0, the word read, for its F and for poison, is that at offset 0: a DESIGN CHOICE (log 61). -/
def State.fill (s : State) : Fill × State :=
  let p := s.core.sptr
  let s := s.noteRead s.curTile.val (p - 8) 8
  match s.me.readFails (p - 8) 8 with
  | some w => (.poison w, s)
  | none =>
    let w := s.me.mem.scratch.readLE (p - 8) 8
    let f := field w 59 5
    if 20 < f ∨ field w 56 3 ≠ 0 ∨ field w 0 2 ≠ 0 ∨ p < 8 * (f + 1) then (.broken f, s)
    else
      let s := s.noteRead s.curTile.val (p - 8 * (f + 1)) (8 * f)
      match s.me.readFails (p - 8 * (f + 1)) (8 * f) with
      | some w => (.poison w, s)
      | none => (.frame { size := f, ret := BitVec.ofNat 56 w, bad := []
                          hidden := (List.range f).map fun i =>
                            BitVec.ofNat 64 (s.me.mem.scratch.readLE (p - 8 * (f + 1) + 8 * i) 8) }, s)

/-- ret (09 R213). -/
def execRet (s : State) : Out :=
  let k := s.core
  if k.depth = 0 then .next (s.illegal .ret)
  else match k.frames.getLast? with
    | some f => .next (s.setCore { k.unslide f with frames := k.frames.dropLast, pc := f.ret })
    | none =>
      match s.fill with
      | (.frame f, s) => .next (s.setCore { k.unslide f with
          spilled := k.spilled - 1, sptr := k.sptr - 8 * (f.size + 1), pc := f.ret })
      | (.poison w, s) => .next (s.fault Code.uncorrectable (uncDetail 0 w))
      | (.broken f, s) => .next (s.fault Code.windowSpill (spillDetail k.sptr f))

end Sys2Proof.Machine
end

