-- ==== Sys2Proof/Machine/Sync.lean ====
section
/-! DEFINITION. Token queues, barriers, sync cells, bound regions, `sigwait`, and `pfx` (06 R131 to R142; 10 R228 to R238;
07 R166 to R170; 05 R117). -/
namespace Sys2Proof.Machine

/-! ## Queues (06 Table 6.1, R137, R138) -/

/-- The producer of a local queue; gang queues take any rank (3). -/
def producerOf (q : Nat) : Nat := [0, 0, 1, 1, 2, 2, 1, 1, 2, 2, 0, 0].getD q 3

/-- Queue `q` of a tile. -/
def Tile.queueAt (x : Tile) (q : Nat) : Queue := SMap.get {} x.queue q

/-- The consumer of a queue: fixed for a local queue, declared for a gang queue. -/
def Tile.consumerOf (x : Tile) (q : Nat) : Nat := [1, 1, 2, 2, 0, 0, 0, 0, 1, 1, 2, 2].getD q (x.queueAt q).cons

/-- Tile `t` with queue `q` replaced. -/
def State.setQueue (s : State) (t q : Nat) (k : Queue) : State :=
  s.setTile t { s.tile t with queue := SMap.put (s.tile t).queue q k }

/-- The queue with a token at its tail; TAIL counts it. -/
def Queue.push (k : Queue) (w : W32) : Queue := { k with toks := k.toks ++ [{ w := w }], tail := (k.tail + 1) % 2 ^ 16 }

/-- The queue without its head; HEAD counts it. -/
def Queue.pop (k : Queue) : Queue := { k with toks := k.toks.drop 1, head := (k.head + 1) % 2 ^ 16 }

/-- Whether a queue is full. -/
def Queue.full (k : Queue) : Bool := decide (k.depth ≤ k.toks.length)

/-- The type of a token (06 Table 6.3). -/
def tokType (w : W32) : Nat := field w.toNat 28 4

/-- Whether a core may push a token of this type: 1 to 8 (06 R135). -/
def pushable (w : W32) : Bool := decide (1 ≤ tokType w) && decide (tokType w ≤ 8)

/-- QUEUE_MISUSE: DETAIL has the token word, or zero, and the queue. -/
def State.queueMisuse (s : State) (w q : Nat) : State := s.fault Code.queueMisuse (w + q * 2 ^ 32)

/-- The number of tiles of the gang (02 Table 2.2). -/
def Tile.gsize (x : Tile) : Nat := field x.ctl.gang.toNat 16 9

/-- The rank of the tile (02 Table 2.2). -/
def Tile.rank (x : Tile) : Nat := field x.ctl.gang.toNat 0 8

/-- The tile that holds a rank (05 Table 5.2). -/
def Tile.rankTile (x : Tile) (r : Nat) : Nat := field (SMap.get 0 x.ctl.rank r).toNat 0 8

/-- Whether a SLOT or FREE token is stale under a pond table (05 R117). -/
def stale (m : SMap Word) (w : W32) : Bool :=
  let p := field w.toNat 24 4
  decide (tokType w = 1 ∨ tokType w = 2) &&
  (!Pond.v (pondOf m p) || isFollower m p || decide (field w.toNat 21 3 ≠ Pond.gen (pondOf m p)) ||
   decide (Pond.slots (pondOf m p) ≤ field w.toNat 17 4) || decide (slotBytes m p < field w.toNat 0 17 * 64))

/-- Whether an operation's token is pending on a queue: the engine's token is appended before one that a core pushes (06 R139). -/
def Tile.tokenDue (x : Tile) (q : Nat) : Bool :=
  [x.el, x.em, x.es].any fun e => e.ops.any fun o => o.token.isSome && decide (o.rcd.cq.toNat = q)

/-- qpush: it waits while the queue is full, and while a token that an engine owes the queue has not been appended (06 R137, R139). -/
def execQpush (q : Fin 16) (gs : Reg) (s : State) : Out :=
  withSources [gs] s fun s =>
    let w : W32 := (s.g gs).truncate 32
    if 12 ≤ q.val ∨ s.curCore.num ≠ producerOf q.val ∨ !pushable w then s.queueMisuse w.toNat q.val
    else if (s.me.queueAt q.val).full || s.me.tokenDue q.val then (s.block (.push q.val)).markBlocked
    else
      let s := s.flushMine
      ((s.setQueue s.curTile.val q.val ((s.me.queueAt q.val).push w)).skip 4).traceToken q.val true

/-- The byte offset of a queue's head in the token store, whose 1,024 entries its queues divide in order (06 R132, log 24). -/
def Tile.tokenPlace (x : Tile) (q : Nat) : Nat :=
  4 * (((List.range q).map fun j => (x.queueAt j).depth).sum + (x.queueAt q).head % (x.queueAt q).depth)

/-- What the read of a queue's head finds: a correctable error is corrected, written back and counted, an uncorrectable one counted (18
R429). -/
def State.noteToken (s : State) (q : Nat) (k : Tok) : State :=
  if k.ce ∨ k.latent then
    let s := (s.setQueue s.curTile.val q { s.me.queueAt q with
      toks := { k with ce := false, latent := false } :: (s.me.queueAt q).toks.drop 1 }).countCes s.curTile.val (b2n k.ce)
    if k.latent then s.countUe s.curTile.val else s
  else s

/-- The pop of a token that is there: UNCORRECTABLE, STALE_SLOT, or the token (06 R137, R141; 05 R117). -/
def State.popToken (s : State) (gd : Reg) (q : Nat) (k : Tok) : State :=
  let s := s.noteToken q k
  if k.bad then s.fault Code.uncorrectable (uncDetail 3 (s.me.tokenPlace q))
  else if stale s.me.ctl.pond k.w then s.fault Code.staleSlot (k.w.toNat + q * 2 ^ 32)
  else (((s.setQueue s.curTile.val q (s.me.queueAt q).pop).setG gd (k.w.zeroExtend 64)).skip 4).traceToken q false

/-- qpop. -/
def execQpop (gd : Reg) (q : Fin 16) (s : State) : Out :=
  .next <|
    if s.curCore.num ≠ s.me.consumerOf q.val then s.queueMisuse 0 q.val
    else match (s.me.queueAt q.val).toks with
      | [] => (s.block (.pop q.val)).markBlocked
      | k :: _ => s.popToken gd q.val k

/-- qtry. -/
def execQtry (gd : Reg) (q : Fin 16) (s : State) : Out :=
  .next <|
    if s.curCore.num ≠ s.me.consumerOf q.val then s.queueMisuse 0 q.val
    else match (s.me.queueAt q.val).toks with
      | [] => (s.setG gd 0).skip 4
      | k :: _ => s.popToken gd q.val k

/-- qpeek: the head token stays; never STALE_SLOT. -/
def execQpeek (gd : Reg) (q : Fin 16) (s : State) : Out :=
  .next <|
    if s.curCore.num ≠ s.me.consumerOf q.val then s.queueMisuse 0 q.val
    else match (s.me.queueAt q.val).toks with
      | [] => (s.setG gd 0).skip 4
      | k :: _ => ((s.noteToken q.val k).setG gd (k.w.zeroExtend 64)).skip 4

/-- qcnt: any queue, any core. -/
def execQcnt (gd : Reg) (q : Fin 16) (s : State) : Out :=
  .next ((s.setG gd (BitVec.ofNat 64 (s.me.queueAt q.val).toks.length)).skip 4)

/-! ## Gang queues (06 R142) -/

/-- Every core of the module that waits for a gang queue of tile `k` to accept its token: rank, tile, core, token. -/
def State.gangWaiters (s : State) (k q : Nat) : List (Nat × Nat × CoreId × W32) :=
  s.tiles.flatMap fun (t, x) =>
    [CoreId.l, .x, .w].filterMap fun c =>
      match (x.core c).wait with
      | .gangPush q' r tok => if q' = q ∧ x.rankTile r = k then some (x.rank, t, c, tok) else none
      | _ => none

/-- A token accepted by gang queue `q` of tile `k`, from a rank. -/
def State.gangAccept (s : State) (k q rank : Nat) (w : W32) : State :=
  s.setQueue k q { ((s.tile k).queueAt q).push w with lastRank := some rank }

/-- Whether a tile's cores have been torn down, or have not started (02 R49). -/
def Tile.torn (x : Tile) : Bool :=
  decide (x.cl.run = .halted) && decide (x.cx.run = .halted) && decide (x.cw.run = .halted)

/-- Whether a tile's engines and queues still move: it runs, or drains towards its freeze (06 R146). -/
def Tile.moves (x : Tile) : Bool := decide (x.life.phase = .running) || decide (x.life.phase = .draining)

/-- Whether two tiles share a cluster of a die (01 R12). -/
def sameCluster (t u : Nat) : Bool := t / 8 == u / 8

/-- qpushx: a token for a tile of the own cluster is accepted at once where the queue has room and no other waits; any
other waits for its acceptance (GANG_TOKEN_ACCEPT, log 23). -/
def execQpushx (gs : Reg) (q : Fin 16) (gr : Reg) (s : State) : Out :=
  withSources [gs, gr] s fun s =>
    let w : W32 := (s.g gs).truncate 32
    let r := (s.g gr).toNat
    if q.val < 12 ∨ 256 ≤ r ∨ s.me.gsize ≤ r ∨ !pushable w then s.queueMisuse w.toNat q.val
    else
      let k := s.me.rankTile r
      let s := s.flushMine
      if sameCluster k s.curTile.val && (s.tile k).moves && !((s.tile k).queueAt q.val).full && (s.gangWaiters k q.val).isEmpty then
        ((s.gangAccept k q.val s.me.rank w).skip 4).traceToken q.val true
      else (s.block (.gangPush q.val r w)).markBlocked

/-- How far a rank lies after the rank last accepted, wrapping after GSIZE - 1 (06 R142). -/
def rankDistance (gsize last r : Nat) : Nat := (r + 2 * gsize - last - 1) % gsize

/-- The waiter whose rank comes first after the last rank accepted; among the cores of one tile the first in the list. -/
def firstWaiter (gsize last : Nat) : List (Nat × Nat × CoreId × W32) → Option (Nat × Nat × CoreId × W32)
  | [] => none
  | a :: l =>
    match firstWaiter gsize last l with
    | none => some a
    | some b => if rankDistance gsize last a.1 ≤ rankDistance gsize last b.1 then some a else some b

/-- GANG_TOKEN_ACCEPT: a gang queue with room, of a tile that has not frozen (06 R148), accepts one waiting token, round-robin by rank; its `qpushx` completes. -/
def execGangTokenAccept (t : TileId) (q : Fin 16) (s : State) : Out :=
  .next <|
    let k := (s.tile t.val).queueAt q.val
    if k.full || !(s.tile t.val).moves then s
    else
      let n := (s.tile t.val).gsize
      match firstWaiter n (k.lastRank.getD (n - 1)) (s.gangWaiters t.val q.val) with
      | none => s
      | some (r, u, c, w) =>
        let s := s.gangAccept t.val q.val r w
        let s := { s with curTile := Fin.ofNat 256 u, curCore := c }
        (s.unblock.skip 4).traceToken q.val true

/-! ## Nodes, and barrier instances (10 R230, R231) -/

/-- The node of an address in a partition. -/
def State.findNode (s : State) (p a : Nat) : Option Node := (s.part p).sched.nodes.find? (·.addr == a)

/-- The scheduler of a partition replaced. -/
def State.setSched (s : State) (p : Nat) (x : Sched) : State := s.setPart p { s.part p with sched := x }

/-- The node with the address of `n` replaced by `n`. -/
def State.putNode (s : State) (p : Nat) (n : Node) : State :=
  s.setSched p { (s.part p).sched with nodes := (s.part p).sched.nodes.map fun m => if m.addr = n.addr then n else m }

/-- The node that tile `t` runs. -/
def State.nodeOf (s : State) (t : Nat) : Node :=
  match (s.tile t).life.seat with
  | some k => (s.findNode k.part k.node).getD { addr := k.node }
  | none => { addr := 0 }

/-- The instance that barrier N names for a rank: b16 to b23 the gang's, b0 to b15 its group's. -/
def Node.barKey (n : Node) (rank bar : Nat) : Nat := if 16 ≤ bar then bar else 24 + n.groups.getD rank 0 * 16 + bar

/-- The instance of barrier N for tile `t`. -/
def State.inst (s : State) (t bar : Nat) : BarInst :=
  let n := s.nodeOf t
  SMap.get {} n.bars (n.barKey (s.tile t).rank bar)

/-- The instance of barrier N for tile `t` replaced. -/
def State.setInst (s : State) (t bar : Nat) (b : BarInst) : State :=
  let n := s.nodeOf t
  s.putNode (s.tile t).partNo { n with bars := SMap.put n.bars (n.barKey (s.tile t).rank bar) b }

/-- The tiles of the group of barrier N for tile `t`. -/
def State.barTiles (s : State) (t bar : Nat) : List Nat :=
  let n := s.nodeOf t
  ((List.range n.tiles.length).filter fun r => n.barKey r bar == n.barKey (s.tile t).rank bar).map fun r => n.tiles.getD r 0

/-- A core that waits on phase p of a barrier, told that it completed (10 R233). -/
def Core.tell (k : Core) (bar p : Nat) : Core :=
  if k.barpend.v && k.barpend.bar == bar && k.barpend.phase == p then { k with barpend := { k.barpend with told := true } } else k

/-- Every waiter of a phase told. -/
def State.tellAll (s : State) (bar p : Nat) (ts : List Nat) : State :=
  ts.foldl (fun s t =>
    let x := s.tile t
    s.setTile t { x with cl := x.cl.tell bar p, cx := x.cx.tell bar p, cw := x.cw.tell bar p }) s

/-- Arrive(N) by a core of tile `t`: the phase it arrives in, or none for BARRIER_MISUSE. The arrival releases the core's
earlier writes; a phase that completes is told to its waiters (10 R231, R233). -/
def State.arrive (s : State) (t : Nat) (c : CoreId) (bar : Nat) (wait : Bool) : Option Nat × State :=
  let b := s.inst t bar
  if b.e = 0 then (none, s)
  else
    let s := s.flushRemote t c
    let p := b.ph
    let s := if wait then
        s.setCoreAt t c { s.coreAt t c with barpend := { v := true, bar := bar, phase := p, told := false } }
      else s
    if b.arr + 1 = b.e then
      (some p, (s.setInst t bar { b with arr := 0, ph := (b.ph + 1) % 2 ^ 16 }).tellAll bar p (s.barTiles t bar))
    else (some p, s.setInst t bar { b with arr := b.arr + 1 })

/-- Whether a request of tile `t` at barrier N is processed within the instruction: the tile shares the cluster of the
group's lowest rank and no earlier request waits; any other is processed by BARRIER_ARRIVAL (log 23). -/
def State.barNear (s : State) (t bar : Nat) : Bool :=
  (s.inst t bar).reqs.isEmpty && sameCluster t ((s.barTiles t bar).headD t)

/-- Whether a request is a `barw`'s. -/
def BarReq.waits : BarReq → Bool
  | .arrive _ _ w => w
  | .set _ _ _ => false

/-- A request put in order at an instance, and its core waiting for the instance. -/
def State.barRequest (s : State) (bar : Nat) (r : BarReq) : State :=
  let t := s.curTile.val
  (s.setInst t bar { s.inst t bar with reqs := (s.inst t bar).reqs ++ [r] }).block (.barrierReq bar r.waits)

/-- A `barw` whose phase is complete ends: V is cleared, BW is recorded (10 R233). -/
def State.barwDone (s : State) (bar : Nat) : State :=
  let k := s.core
  let p := k.barpend.phase
  let s := s.setCore { k with wait := .none, barpend := { k.barpend with v := false, told := false } }
  (s.skip 4).traceBarrier s.curTile.val s.curCore.num bar false p

/-- The wait of a `barw` that has arrived: it ends if its phase is told, else the core waits (or its drain leaves it). -/
def State.barwWait (s : State) (bar : Nat) : State :=
  if s.core.barpend.told then s.barwDone bar
  else if s.me.life.phase = .running then (s.block (.barw bar s.core.barpend.phase)).markBlocked
  else s.unblock

/-- barset (10 Table 10.2) at the instance: BARRIER_MISUSE, or E written. -/
def State.barsetAt (s : State) (bar : Nat) (a : Word) : State :=
  let t := s.curTile.val
  let b := s.inst t bar
  if 2 ^ 16 ≤ a.toNat ∨ a = 0 ∨ b.arr ≠ 0 then s.unblock.fault Code.barrierMisuse bar
  else (s.setInst t bar { b with e := a.toNat }).unblock.skip 4

/-- An arrival processed for the running core: BARRIER_MISUSE, or `barv` done, or `barw` waiting. -/
def State.arriveNow (s : State) (bar : Nat) (wait : Bool) : State :=
  match s.arrive s.curTile.val s.curCore bar wait with
  | (none, s) => s.unblock.fault Code.barrierMisuse bar
  | (some _, s) => if wait then s.barwWait bar else s.unblock.skip 4

/-- barset. -/
def execBarset (bar : Fin 24) (ga : Reg) (s : State) : Out :=
  withSources [ga] s fun s =>
    if s.barNear s.curTile.val bar.val then s.barsetAt bar.val (s.g ga)
    else s.barRequest bar.val (.set s.curTile.val s.curCore (s.g ga))

/-- barv. -/
def execBarv (bar : Fin 24) (s : State) : Out :=
  .next <|
    if s.barNear s.curTile.val bar.val then s.arriveNow bar.val false
    else s.barRequest bar.val (.arrive s.curTile.val s.curCore false)

/-- barw: with V = 1 it waits without arriving again (10 R233). -/
def execBarw (bar : Fin 24) (s : State) : Out :=
  .next <|
    if s.core.barpend.v then s.barwWait bar.val
    else if s.barNear s.curTile.val bar.val then s.arriveNow bar.val true
    else s.barRequest bar.val (.arrive s.curTile.val s.curCore true)

/-- bart: the phase count; it acquires nothing. -/
def execBart (gd : Reg) (bar : Fin 24) (s : State) : Out :=
  .next ((s.setG gd (BitVec.ofNat 64 (s.inst s.curTile.val bar.val).ph)).skip 4)

/-- A `barws` whose phase count has moved ends. -/
def State.barwsDone (s : State) (gd : Reg) (bar ph : Nat) : State :=
  ((s.unblock.setG gd (BitVec.ofNat 64 ph)).skip 4).traceBarrier s.curTile.val s.curCore.num bar true ph

/-- barws (10 R234). -/
def execBarws (gd : Reg) (bar : Fin 24) (ga : Reg) (s : State) : Out :=
  withSources [ga] s fun s =>
    let ph := (s.inst s.curTile.val bar.val).ph
    let o := (s.g ga).toNat % 2 ^ 16
    if ph ≠ o then s.barwsDone gd bar.val ph else (s.block (.barws bar.val o gd)).markBlocked

/-- BARRIER_ARRIVAL: the instance of barrier N for tile `t` processes its oldest request (10 R231). -/
def execBarrierArrival (t : TileId) (bar : Fin 24) (s : State) : Out :=
  .next <|
    let b := s.inst t.val bar.val
    match b.reqs with
    | [] => s
    | r :: rs =>
      let s := s.setInst t.val bar.val { b with reqs := rs }
      match r with
      | .arrive u c wait => State.arriveNow { s with curTile := Fin.ofNat 256 u, curCore := c } bar.val wait
      | .set u c a => State.barsetAt { s with curTile := Fin.ofNat 256 u, curCore := c } bar.val a

/-- BARW_WAKE: a waiter learns that its phase completed and completes its `barw` or `barws` (10 R233, R234). -/
def execBarwWake (t : TileId) (c : CoreId) (s : State) : Out :=
  .next <|
    let s' := { s with curTile := t, curCore := c }
    match (s.coreAt t.val c).wait with
    | .barw bar _ => if (s.coreAt t.val c).barpend.told then s'.barwDone bar else s
    | .barws bar seen gd =>
      if (s.inst t.val bar).ph ≠ seen then s'.barwsDone gd bar (s.inst t.val bar).ph else s
    | _ => s

/-! ## Sync cells (07 R166 to R170, 10 R237) -/

/-- SYNC_MISUSE of a case (18 Table 18.5). -/
def State.syncMisuse (s : State) (case_ : Nat) : State := s.fault Code.syncMisuse case_

/-- Fields of a cell (07 Table 7.4). -/
def Cell.next (v : Nat) : Nat := field v 48 16
def Cell.serve (v : Nat) : Nat := field v 32 16
def Cell.readers (v : Nat) : Nat := field v 16 16

/-- The physical address of the word of a cell at a virtual address: its translation, then its granule (10 R236); 0 where a
discarded page reads as zero. -/
def cellAt (s : State) (va : Nat) (acc : Access) : Res Nat :=
  (nodeTranslate s s.myDie s.myPart va acc).bind fun o s =>
    match o with
    | none => (.ok 0, s)
    | some pa =>
      match badGranule s.memBad pa 8 with
      | some g => Res.stop (accFault Code.uncorrectable (uncDetail 1 g) acc va) s
      | none => (.ok pa, s)

/-- The virtual and the physical address of a cell, after every check of its word: its SPACE, its translation, its granule
(10 R236, R237). A discarded page meets firmware first where the instruction writes the cell. -/
def cellWord (s : State) (ref : Word) (acc : Access) : Res (Nat × Nat) :=
  (resolveWord s ref (accCode acc)).bind fun w s =>
    if w.1 ≠ 0 then Res.stop (s.coreFault (accCode acc) Code.syncMisuse 8) s
    else (cellAt s w.2 acc).bind fun pa s => (.ok (w.2, pa), s)

/-- The running core stops in the middle of wait `w`: a wait for firmware comes back to it. -/
def State.stopIn (s : State) (w : Wait) (e : Stop) : State :=
  if e.wait then (s.stopCore e).setCore { (s.stopCore e).core with after := w } else s.stopCore e

/-- The hold entry of a cell. Two references name the same cell where they resolve to the same virtual address: the spec says
'cell address' (07 R167) and not which (log 57). -/
def Core.holdOf (k : Core) (va : Nat) : Option Hold := k.hold.find? (·.cell == va)

/-- The hold table with the entry of a cell replaced, or one more entry. -/
def Core.putHold (k : Core) (h : Hold) : Core :=
  if (k.holdOf h.cell).isSome then { k with hold := k.hold.map fun x => if x.cell = h.cell then h else x }
  else { k with hold := k.hold ++ [h] }

/-- CheckHold with the ticket drawn for a new entry (07 R167, R168): the ticket, or the case of SYNC_MISUSE. DESIGN CHOICE (log 53): the RMW
that draws it is relaxed after a `fence` too (07 R160, R170). -/
def checkHold (s : State) (va pa : Nat) (w : HoldState) : Except Nat (Nat × State) :=
  match s.core.holdOf va with
  | some h => if h.state = w then .ok (h.ticket, s) else .error 0
  | none =>
    if 8 ≤ s.core.hold.length then .error 1
    else
      let v := s.read8 pa
      let s := s.setCore (s.core.putHold { cell := va, state := w, ticket := Cell.next v })
      .ok (Cell.next v, s.writeMem pa (leBytes (setField v 48 16 (Cell.next v + 1)) 8))

/-- The test of an acquire that has its ticket: the hold is granted when SERVE reaches the ticket (and no reader is left for
acqx); else the core waits on that cell (07 R167). DESIGN CHOICE (log 53): the RMW of a shared grant is relaxed after a `fence` too. -/
def State.grantCell (s : State) (excl : Bool) (va pa ticket : Nat) : State :=
  let v := s.read8 pa
  if Cell.serve v = ticket ∧ (excl → Cell.readers v = 0) then
    let s := s.unblock
    let s := s.setCore (s.core.putHold { cell := va, state := if excl then .exclusive else .shared, ticket := ticket })
    if excl then s.skip 4
    else (s.writeMem pa (leBytes (setField (setField v 16 16 (Cell.readers v + 1)) 32 16 (Cell.serve v + 1)) 8)).skip 4
  else s.block (.cell excl va)

/-- acqx and acqs: the word is resolved and the ticket drawn once. -/
def acquireCell (excl : Bool) (ga : Reg) (s : State) : Out :=
  withSources [ga] s fun s =>
    match cellWord s (s.g ga) .atomic with
    | (.error e, s) => s.stopCore e
    | (.ok (va, pa), s) =>
      match checkHold s va pa (if excl then .waitX else .waitS) with
      | .error case_ => s.syncMisuse case_
      | .ok (ticket, s) => s.grantCell excl va pa ticket

/-- One more turn of an acquire that waits: the same cell with the same ticket. -/
def State.cellTurn (s : State) (excl : Bool) (va : Nat) : State :=
  match cellAt s va .atomic with
  | (.error e, s) => s.stopIn (.cell excl va) e
  | (.ok pa, s) => s.grantCell excl va pa (((s.core.holdOf va).map Hold.ticket).getD 0)

/-- acqx. -/
def execAcqx (ga : Reg) (s : State) : Out := acquireCell true ga s
/-- acqs. -/
def execAcqs (ga : Reg) (s : State) : Out := acquireCell false ga s

/-- rel. DESIGN CHOICE (log 53): its RMW of the cell word is relaxed after a `fence` too (07 R160, R170). -/
def execRel (ga : Reg) (s : State) : Out :=
  withSources [ga] s fun s =>
    match cellWord s (s.g ga) .atomic with
    | (.error e, s) => s.stopCore e
    | (.ok (va, pa), s) =>
      let drop := fun (s : State) => s.setCore { s.core with hold := s.core.hold.filter fun h => h.cell != va }
      let v := s.read8 pa
      match (s.core.holdOf va).map Hold.state with
      | some .exclusive => ((drop s).writeMem pa (leBytes (setField v 32 16 (Cell.serve v + 1)) 8)).skip 4
      | some .shared => ((drop s).writeMem pa (leBytes (setField v 16 16 (Cell.readers v + 2 ^ 16 - 1)) 8)).skip 4
      | _ => s.syncMisuse 2

/-! ## Bound regions (07 R169) -/

/-- The least and the greatest of c × STR over a dimension, summed (05 R124). -/
def spanLo : List Nat → List Int → Int
  | e :: es, t :: ts => min 0 (((e : Int) - 1) * t) + spanLo es ts
  | _, _ => 0

def spanHi : List Nat → List Int → Int
  | e :: es, t :: ts => max 0 (((e : Int) - 1) * t) + spanHi es ts
  | _, _ => 0

/-- The region of a layout record: from the lowest byte of any element, scales included, to one past the highest. -/
def regionOf (d : Layout) (f : Nat) : Nat × Nat :=
  let w : Int := Ent.width f
  if Ent.kind f = 2 then
    let r : Int := rowImage d.lastExt f
    let oe := d.ext.dropLast
    let os := d.str.dropLast
    ((d.base + spanLo oe os * r).toNat,
     (d.base + spanHi oe os * r + codeBytes d.lastExt (Ent.width f) + ceilDiv d.lastExt (Ent.block f)).toNat)
  else
    (((d.base * 8 + spanLo d.ext d.str * w) / 8).toNat, ((d.base * 8 + spanHi d.ext d.str * w + w + 7) / 8).toNat)

/-- The cell and the region that `bind` and `unbind` name (10 R236, R237): the checks of the cell's word come first. -/
def bindOperands (s : State) (a b : Word) : Res (Nat × Nat × Nat) :=
  (cellWord s a .read).bind fun w s =>
    if 2 ^ 12 ≤ b.toNat then Res.stop (s.coreFault 0 Code.descriptorInvalid (b.toNat % 2 ^ 12)) s
    else (readLayout s s.curTile.val s.me.ctl.fmt b.toNat s.core.pc.toNat).bind fun d s =>
      if d.space ≠ 0 then Res.stop (s.coreFault 0 Code.syncMisuse 6) s
      else (.ok (w.1, regionOf d (entryOf s.me.ctl.fmt d.fidx)), s)

/-- The region table of the running core's partition replaced. -/
def State.setRegions (s : State) (l : List Region) : State := s.setPart s.myPart { s.part s.myPart with regions := l }

/-- bind. DESIGN CHOICE: a second bind of the same region and cell enters a second entry, and an unbind removes one of them (log 75). -/
def execBind (ga gb : Reg) (s : State) : Out :=
  withSources [ga, gb] s fun s =>
    match bindOperands s (s.g ga) (s.g gb) with
    | (.error e, s) => s.stopCore e
    | (.ok (cell, lo, hi), s) =>
      let l := (s.part s.myPart).regions
      if 256 ≤ l.length then s.syncMisuse 4
      else if l.any fun r => r.cell != cell && decide (r.lo < hi) && decide (lo < r.hi) then s.syncMisuse 5
      else (s.setRegions (l ++ [{ lo := lo, hi := hi, cell := cell }])).skip 4

/-- unbind. -/
def execUnbind (ga gb : Reg) (s : State) : Out :=
  withSources [ga, gb] s fun s =>
    match bindOperands s (s.g ga) (s.g gb) with
    | (.error e, s) => s.stopCore e
    | (.ok (cell, lo, hi), s) =>
      let r : Region := { lo := lo, hi := hi, cell := cell }
      let l := (s.part s.myPart).regions
      if l.contains r then (s.setRegions (l.erase r)).skip 4 else s.syncMisuse 7

/-! ## sigwait (10 R238) -/

/-- A `sigwait` that ends with the value it read. -/
def State.sigwaitDone (s : State) (gd : Reg) (len v : Nat) : State :=
  (s.unblock.setG gd (BitVec.ofNat 64 v)).skip len

/-- One turn of the loop of a `sigwait`, whose word lies at `va` and which began at tick `t0`: it ends when the word holds at
least `want`, or gives up after d ticks; else it waits. -/
def State.sigwaitTurn (s : State) (t0 va : Nat) (gd : Reg) (len want : Nat) : State :=
  match nodeRead s s.myDie s.myPart va 8 .read with
  | (.error e, s) => s.stopIn (.sigwait t0 va gd len want) e
  | (.ok l, s) =>
    if want ≤ leNat l then s.sigwaitDone gd len (leNat l)
    else if s.g gd ≠ BitVec.allOnes 64 ∧ (s.g gd).toNat ≤ s.seiche - t0 then s.sigwaitDone gd len (leNat l)
    else s.block (.sigwait t0 va gd len want)

/-- sigwait: the word is resolved once, before the loop. DEDUCED (log 20): PERMISSION of a word outside SPACE 0 names the word's address in
VADDR, and its DETAIL is 0. -/
def doSigwait (_m : Modifier) (len : Nat) (gd ga gb : Reg) (s : State) : Out :=
  withSources [ga, gb, gd] s fun s =>
    match resolveWord s (s.g ga) 0 with
    | (.error e, s) => s.stopCore e
    | (.ok (sp, va), s) =>
      if sp ≠ 0 then s.faultRec (accFault Code.permission 0 .read va)
      else s.sigwaitTurn s.seiche va gd len (s.g gb).toNat

/-- sigwait. -/
def execSigwait (gd ga gb : Reg) (s : State) : Out := doSigwait s.core.memdef 4 gd ga gb s

/-- SIGWAIT_TIMEOUT: the limit has passed; the word is read once more and the `sigwait` ends without acquiring. -/
def execSigwaitTimeout (t : TileId) (c : CoreId) (s : State) : Out :=
  .next <|
    match (s.coreAt t.val c).wait with
    | .sigwait t0 va gd len want =>
      let s' := { s with curTile := t, curCore := c }
      if s'.g gd ≠ BitVec.allOnes 64 ∧ (s'.g gd).toNat ≤ s.seiche - t0 then
        match nodeRead s' s'.myDie s'.myPart va 8 .read with
        | (.error e, s) => s.stopIn (.sigwait t0 va gd len want) e
        | (.ok l, s) => s.sigwaitDone gd len (leNat l)
      else s
    | _ => s

/-! ## pfx (08 R193, R194): the second word runs with the prefix's modifier, as one unit of two words -/

/-- pfx. -/
def execPfx (m : Modifier) (second : W32) (s : State) : Out :=
  match decodeSecond second with
  | none => .next (s.illegal (.pfx m second))
  | some (.ld sz sx gd ga disp) => doLd m 8 sz sx gd ga disp s
  | some (.st sz gd ga disp) => doSt m 8 sz gd ga disp s
  | some (.ldx sz sx gd ga disp) => doLdx m 8 sz sx gd ga disp s
  | some (.stx sz gd ga disp) => doStx m 8 sz gd ga disp s
  | some (.ldt sz sx gd ga desc) => doLdt m 8 sz sx gd ga desc s
  | some (.stt sz gd ga desc) => doStt m 8 sz gd ga desc s
  | some (.dset ga desc) => doDset m 8 ga desc s
  | some (.dget ga desc) => doDget m 8 ga desc s
  | some (.sigwait gd ga gb) => doSigwait m 8 gd ga gb s
  | some (.atom op wide gd ga gb) => doAtom m 8 op wide gd ga gb s
  | some (.atomRemote op wide gd ga gb) => doAtomRemote m 8 op wide gd ga gb s
  | some (.atomTensor op wide gd ga gb desc) => doAtomTensor m 8 op wide gd ga gb desc s

end Sys2Proof.Machine
end

