-- ==== Sys2Proof/Machine/Fetch.lean ====
section
/-! DEFINITION. Fetching a unit whole before any of it executes (08 R183, R195, R197), and which core may fetch. -/
namespace Sys2Proof.Machine

/-- Whether a unit of a tile waits for room in its trace: for a record of its own, or for a tile-level one (20 R482). -/
def Tile.traceStall (x : Tile) (unit : Nat) : Bool := x.trace.waiting.any fun r => r.unit == unit || r.unit == 7

/-- Whether core `c` of tile `t` fetches its next unit: its tile runs, it has not exited or stopped, it waits for nothing (or in a
`launch`, which is then tried again). -/
def canFetch (s : State) (t : Nat) (c : CoreId) : Bool :=
  decide ((s.tile t).life.phase = .running) && decide ((s.coreAt t c).run = .running) &&
  (decide ((s.coreAt t c).wait = .none) || decide ((s.coreAt t c).wait = .launch)) && !(s.tile t).traceStall c.num

/-- What a fetch of some bytes of one page gives. -/
inductive FetchRes where
  | bytes (l : List Byte)
  | absent
  | noExec
  | hub
  | poison (granule : Nat)
  deriving DecidableEq, Repr

/-- The words of HBM replaced since the node on a tile began, newest first. -/
def State.oldsOf (s : State) (t : Nat) : List OldWord := s.olds.take (s.olds.length - (s.nodeOf t).codeMark)

/-- The words of code at an address as a core fetches them: a word that has been written since the node's start is the word
before a write or the word after it, as the free value says, and never a mix of two (08 R197). -/
def racedWords (olds : List OldWord) (a : Nat) : List Byte → State → List Byte × State
  | b0 :: b1 :: b2 :: b3 :: l, s =>
    let c := olds.filter fun o => o.pa == a
    let now := [b0, b1, b2, b3]
    if c.isEmpty then
      let r := racedWords olds (a + 4) l s
      (now ++ r.1, r.2)
    else
      let w := match (c.drop (Config.fetchesOld s.choices)).head? with
        | some o => leBytes o.w.toNat 4
        | none => now
      let r := racedWords olds (a + 4) l s.draw
      (w ++ r.1, r.2)
  | l, s => (l, s)

/-- `n` bytes at a virtual address, all within one page, fetched by a die for a partition. -/
def fetchBytes (s : State) (olds : List OldWord) (d part va n : Nat) : FetchRes × State :=
  match translate s d part .own va .fetch with
  | (.pa a, s) =>
    if hbmEnd ≤ a then (.hub, s)
    else match badGranule s.memBad a n with
    | some g => (.poison g, s)
    | none =>
      let r := racedWords olds a (s.mem.bytes a n) s
      (.bytes r.1, r.2)
  | (.zero, s) => (.bytes (List.replicate n 0), s)
  | (.fault code d _, s) =>
    (if code = Code.permission then .noExec else if code = Code.uncorrectable then .poison (d / 256) else .absent, s)

/-- The result of fetching a whole unit: its bytes, or where it stops. -/
inductive UnitRes where
  | unit (l : List Byte)
  | fetchFault (page : Nat) (straddle absent : Bool)
  /-- The translated address is the hub's (19 R435). -/
  | hub (va : Nat)
  | poison (granule : Nat)
  deriving DecidableEq, Repr

/-- The first byte of the 4 KiB page of an address. -/
def pageOf (va : Nat) : Nat := va / 4096 * 4096

/-- What the fetch of the bytes of a unit that lie in one page, from `va` on, gives the unit. -/
def FetchRes.unitRes (r : FetchRes) (va : Nat) (straddle : Bool) : UnitRes :=
  match r with
  | .bytes l => .unit l
  | .absent => .fetchFault (pageOf va) straddle true
  | .noExec => .fetchFault (pageOf va) straddle false
  | .hub => .hub va
  | .poison g => .poison g

/-- The two parts of a unit joined: FETCH for either page goes before every other stop (08 R192). -/
def UnitRes.join (a b : UnitRes) : UnitRes :=
  match a, b with
  | .unit l, .unit m => .unit (l ++ m)
  | .unit _, r => r
  | .fetchFault p st ab, _ => .fetchFault p st ab
  | _, .fetchFault p st ab => .fetchFault p st ab
  | r, _ => r

/-- The `n` bytes from `va`, in at most two pages. -/
def fetchSpan (s : State) (olds : List OldWord) (d part va n : Nat) : UnitRes × State :=
  let n1 := min n (4096 - va % 4096)
  let r1 := fetchBytes s olds d part va n1
  let u1 := r1.1.unitRes va false
  if n1 = n then (u1, r1.2)
  else
    let va2 := (va + n1) % 2 ^ 56
    let r2 := fetchBytes r1.2 olds d part va2 (n - n1)
    (u1.join (r2.1.unitRes va2 true), r2.2)

/-- The unit at core `c`'s program counter in tile `t`: its first word, then the words that this one asks for. -/
def fetchUnit (s : State) (t : Nat) (c : CoreId) : UnitRes × State :=
  let d := tileDie t
  let part := (s.tile t).partNo
  let va := (s.coreAt t c).pc.toNat
  match fetchSpan s (s.oldsOf t) d part va 4 with
  | (.unit l, s) =>
    if unitWords (leNat l) = 1 then (.unit l, s)
    else match fetchSpan s (s.oldsOf t) d part va (4 * unitWords (leNat l)) with
      | (.unit l2, s) => (.unit (l ++ l2.drop 4), s)
      | r => r
  | r => r

/-- A unit whose bytes are not all fetched and that is no FETCH: PERMISSION for the hub's addresses, UNCORRECTABLE for a
poisoned granule (18 R431, 19 R435). -/
def State.fetchStop (s : State) (u : UnitRes) : State :=
  match u with
  | .hub va => s.faultRec { code := Code.permission, access := 2, vaddr := va }
  | .poison g => s.faultA 2 Code.uncorrectable (uncDetail 1 g)
  | _ => s

/-- The leaf that the completion of a unit counts in, by its first word: a vector, a record, or a scalar unit (20 Table 20.4). -/
def unitLeaf (w : Nat) : Nat := if field w 26 6 = 0x3E then 1 else if field w 26 6 = 0x3D then 2 else 0

/-- The leaf that a wait of an instruction for memory counts in, by its word (20 Table 20.4): SYNC for `sigwait`, `launch`, `acqx`, `acqs`
and `publish`; MEM for `ldt` and the atomics of tensor memory, which wait for a value; EXEC for every other, as `stt`, `dset`
and `probe`. -/
def wordWaits (w : Nat) : Nat :=
  match field w 26 6 with
  | 0x20 => 7
  | 0x26 => 7
  | 0x27 => 7
  | 0x2A => if field w 0 11 ≤ 1 then 5 else 8
  | 0x2B => 5
  | 0x35 => 5
  | 0x38 => if field w 4 7 = 2 then 5 else 8
  | _ => 8

/-- The leaf of a unit's waits: that of its instruction, which stands second in a `pfx` unit (08 R194). -/
def unitWaits (l : List Byte) : Nat :=
  let w := leNat (l.take 4)
  wordWaits (if field w 26 6 = 0x28 then leNat ((l.drop 4).take 4) else w)

/-- The running core as it begins to execute a unit: the cycle in which it completes it goes to that unit's leaf (20 R475). -/
def State.begins (s : State) (l : List Byte) : State :=
  s.setCore { s.core with did := some (unitLeaf (leNat (l.take 4))), waits := unitWaits l }

/-- The instruction of a fetched unit: what the decoder gives, or the event of a unit that is no instruction (08 R187). -/
def instrOf (l : List Byte) : Instr :=
  match decode l with
  | .ok (i, _) => i
  | .error _ => .illegalInstructionWord (BitVec.ofNat 32 (wordAt (wordsOf l) 0))
      (if l.length ≤ 4 then none else some (BitVec.ofNat 32 (wordAt (wordsOf l) 1)))

end Sys2Proof.Machine
end

