-- ==== Sys2Proof/Machine/System.lean ====
section
/-! DEFINITION. Operation management, `exit`, `yield`, `trap`, `brk`, `publish`, the format table, control registers, the
generator, and units that are no instruction (10 R239 to R256; 05 R112; 08 R178, R182, R187, R195; 20 R469, R473). -/
namespace Sys2Proof.Machine

/-! ## Handles (02 R44, 10 R240) -/

/-- The engine and the sequence number of a handle; none where it is malformed (RECORD_FIELD). -/
def handleOf (a : Word) : Option (Engine × Nat) :=
  if field a.toNat 34 30 ≠ 0 ∨ field a.toNat 32 2 = 3 then none
  else some (Engine.ofNum (field a.toNat 32 2), field a.toNat 0 32)

/-- The operation of a sequence number that is not terminal. -/
def Eng.opOf (e : Eng) (seq : Nat) : Option Op := e.ops.find? (·.seq == seq)

/-- How many sequence numbers lie from `a` up to `b`, modulo 2^32 (02 R44). -/
def seqDist (a b : Nat) : Nat := (b + 2 ^ 32 - a % 2 ^ 32) % 2 ^ 32

/-- The state code of an operation (10 Table 10.5): one that is not kept, not assigned, or too far behind counts as
RETIRED (10 R240). -/
def Eng.stateCode (e : Eng) (seq : Nat) : Nat :=
  match e.opOf seq with
  | some o => match o.state with
    | .queued => 0
    | .running => 1
    | .faulted => 3
  | none => if seqDist seq e.last < 2 ^ 31 then SMap.get 2 e.fin seq else 2

/-- The operation replaced by a function of it. -/
def Eng.mapOp (e : Eng) (seq : Nat) (f : Op → Op) : Eng := { e with ops := e.ops.map fun o => if o.seq = seq then f o else o }

/-- An instruction on a handle: RECORD_FIELD where it is malformed. -/
def withHandle (rs : List Reg) (ga : Reg) (s : State) (f : Engine → Nat → State → State) : Out :=
  withSources (ga :: rs) s fun s =>
    match handleOf (s.g ga) with
    | none => s.fault Code.recordField 0
    | some (e, seq) => f e seq s

/-- opwait: waits until the operation is terminal. -/
def execOpwait (gd ga : Reg) (s : State) : Out :=
  withHandle [] ga s fun e seq s =>
    let c := (s.me.eng e).stateCode seq
    if c < 2 then s.block .opwait else (s.setG gd (BitVec.ofNat 64 c)).skip 4

/-- optest: writes the code without waiting. -/
def execOptest (gd ga : Reg) (s : State) : Out :=
  withHandle [] ga s fun e seq s => (s.setG gd (BitVec.ofNat 64 ((s.me.eng e).stateCode seq))).skip 4

/-- The engine of the running core's tile with an operation changed. -/
def State.onOp (s : State) (e : Engine) (seq : Nat) (f : Op → Op) : State := s.setMe (s.me.setEng e ((s.me.eng e).mapOp seq f))

/-- opcancel (10 Table 10.6): an operation with its token pending is left alone. -/
def execOpcancel (ga : Reg) (s : State) : Out :=
  withHandle [] ga s fun e seq s =>
    (s.onOp e seq fun o => if o.token.isSome then o else { o with cancel := true }).skip 4

/-- opprio: the priority becomes min(U(b), 31) (10 R244). -/
def execOpprio (ga gb : Reg) (s : State) : Out :=
  withHandle [gb] ga s fun e seq s => (s.onOp e seq fun o => { o with prio := min (s.g gb).toNat 31 }).skip 4

/-- opdetach (02 R48). -/
def execOpdetach (ga : Reg) (s : State) : Out :=
  withHandle [] ga s fun e seq s => (s.onOp e seq fun o => { o with attached := false }).skip 4

/-! ## exit and yield (02 R38, R53; 10 R246 to R248) -/

/-- Whether a core's `exit` waits: some operation that it issued is attached and not terminal. -/
def Tile.attachedOf (x : Tile) (c : CoreId) : Bool := (x.eng c.engine).ops.any fun o => o.attached && o.owner == c

/-- exit: SYNC_MISUSE with a hold; it waits for attached operations; then the stream ends and its frames are discarded. -/
def execExit (s : State) : Out :=
  .next <|
    if !s.core.hold.isEmpty then s.syncMisuse 3
    else if s.me.attachedOf s.curCore then s.block .exitOps
    else
      let s := s.flushMine
      (s.setCore { s.core with run := .exited, wait := .none, frames := [], spilled := 0, ended := true }).flushCore s.curTile.val s.curCore.num

/-- FETCH (08 R195, 18 R418): an absent page goes to firmware first, a page without X is delivered (18 Table 18.3). -/
def State.fetchFault (s : State) (page : Nat) (straddle absent : Bool) : State :=
  let f : FaultRec := { code := Code.fetch, access := 2, unit := s.curCore.num, vaddr := s.core.pc.toNat, page := page
                        straddle := straddle }
  if absent then s.block (.firmware f page) else s.faultRec f

/-- The liveness map of a `yield` is read through the fetch path (10 R247); the core then stops on the next word. -/
def State.yieldStop (s : State) (map : Nat) : State :=
  match fetchSpan s (s.oldsOf s.curTile.val) s.myDie s.myPart map 16 with
  | (.unit l, s) =>
    let s := s.flushMine
    ((s.setCore { s.core with run := .yielded, livemap := leNat l, ended := true }).skip 4).flushCore s.curTile.val s.curCore.num
  | (.fetchFault page _ absent, s) => s.fetchFault page (decide (4096 < map % 4096 + 16)) absent
  | (u, s) => s.fetchStop u

/-- yield: it stops the core only where a request is latched. -/
def execYield (disp : BitVec 21) (s : State) : Out :=
  if disp = 0 then .next (s.illegal (.yield disp))
  else if s.me.life.latched.isSome then .next (s.yieldStop (s.core.pc + 4#56 * disp.signExtend 56).toNat)
  else .next (s.skip 4)

/-! ## trap, brk, publish (10 R249 to R251) -/

/-- trap n. -/
def execTrap (n : Fin 16) (s : State) : Out := .next (s.fault Code.trap n.val)

/-- Whether a new reason for a rest takes the place of that of a tile at rest: of a chain's; and a debug stop, which a `brk` of another
tile begins, of a pre-emption whose save has not begun: the request takes effect after RESUME (20 R469, R470). -/
def Rest.yieldsTo (old r : Rest) : Bool :=
  decide (old = .chain) || (decide (r = .debug) && (decide (old = .cooperative) || decide (old = .forced)))

/-- A tile brought to rest at the next boundary of each core and engine, without a fault (20 R468, 02 R55); one that is
frozen already stays so, but one whose reason yields to the new one and that holds no fault freezes anew. -/
def Tile.bringToRest (x : Tile) (r : Rest) : Tile :=
  let yields := x.life.rest.any (·.yieldsTo r)
  if x.life.phase = .running then { x.drainCores with life := { x.life with phase := .draining, rest := some r } }
  else if yields ∧ x.life.fault = none ∧ x.life.phase = .frozen then
    { x with life := { x.life with phase := .draining, rest := some r } }
  else if yields ∧ (x.life.phase = .frozen ∨ x.life.phase = .draining) then { x with life := { x.life with rest := some r } }
  else if (x.life.phase = .frozen ∨ x.life.phase = .draining) ∧ x.life.rest = none then { x with life := { x.life with rest := some r } }
  else x

/-- A debug stop of a node begins: its tiles come to rest, and the hit it will report is kept (20 R468, R469). A stop under
way keeps the KIND it began with. -/
def State.stopGang (s : State) (p node kind : Nat) : State :=
  match s.findNode p node with
  | none => s
  | some n =>
    if n.stopping.isSome then s
    else n.tiles.foldl (fun s t => s.setTile t ((s.tile t).bringToRest .debug)) (s.putNode p { n with stopping := some kind })

/-- brk: BREAKPOINT. With a debugger attached the fault rests the tile, and the rest of the gang stops with it (20 R469). -/
def execBrk (s : State) : Out :=
  .next <|
    let p := s.myPart
    let node := match s.me.life.seat with
      | some k => k.node
      | none => 0
    if (s.part p).dbg.attach then
      let s' := s.coreTakes { coreRec s.core s.curCore Code.breakpoint 0 with attached := true }
      (s'.setMe { s'.me with life := { s'.me.life with rest := some .debug } }).stopGang p node 3
    else s.fault Code.breakpoint 0

/-- publish: every held granule is performed at host memory, then the version counter (07 R174). It waits while no link port
is up (19 R439). DESIGN CHOICE: one that so waits has not begun step 2: a drain abandons its wait, and it executes again (log 76). -/
def execPublish (s : State) : Out :=
  .next (if s.linkUp then (s.flushMine.publishDrain s.myPart).unblock.skip 4 else s.block .publish)

/-! ## Format table, generator, tick counter (10 R252, R255, R256; 03 R59) -/

/-- The registers of the running core's tile replaced. -/
def State.setCtl (s : State) (c : TileCtl) : State := s.setMe { s.me with ctl := c }

/-- fmtset: an entry with V = 1 that is not legal raises ILLEGAL_FORMAT_ENTRY. DESIGN CHOICE (log 85): bit 4 of its DETAIL is clear. -/
def execFmtset (f : Fin 16) (ga : Reg) (s : State) : Out :=
  withSources [ga] s fun s =>
    let a := s.g ga
    if Ent.v a.toNat && !Ent.legal a.toNat then s.fault Code.illegalFormatEntry (fmtDetail f.val false)
    else (s.setCtl { s.me.ctl with fmt := SMap.set 0 s.me.ctl.fmt f.val a }).skip 4

/-- fmtget. -/
def execFmtget (gd : Reg) (f : Fin 16) (s : State) : Out := .next ((s.setG gd (SMap.get 0 s.me.ctl.fmt f.val)).skip 4)

/-- rdsc. -/
def execRdsc (gd : Reg) (s : State) : Out := .next ((s.setG gd (BitVec.ofNat 64 s.seiche)).skip 4)

/-- The register after GB, which `rndk` also reads. -/
def nextReg (r : Reg) : Reg := Fin.ofNat 32 (r.val + 1)

/-- Rand(a, g(GB+1) : g(GB)) shifted so that the half wanted is lowest; GB = 31 is no instruction. -/
def drawRand (i : Instr) (shift : Nat) (gd ga gb : Reg) (s : State) : Out :=
  if gb.val = 31 then .next (s.illegal i)
  else writeResult [ga, gb, nextReg gb] gd 4 (fun s =>
    BitVec.ofNat 64 (rand (s.g ga).toNat ((s.g (nextReg gb)).toNat * 2 ^ 64 + (s.g gb).toNat) / 2 ^ shift)) s

/-- rndk.lo. -/
def execRndkLo (gd ga gb : Reg) (s : State) : Out := drawRand (.rndkLo gd ga gb) 0 gd ga gb s
/-- rndk.hi. -/
def execRndkHi (gd ga gb : Reg) (s : State) : Out := drawRand (.rndkHi gd ga gb) 64 gd ga gb s

/-! ## Control registers (08 R182, 10 R253, R254) -/

/-- `ctl.queueq` (06 Table 6.2). -/
def Tile.queueReg (x : Tile) (q : Nat) : Nat :=
  let k := x.queueAt q
  k.tail * 2 ^ 48 + k.head * 2 ^ 32 + k.depth * 2 ^ 16 + producerOf q * 2 ^ 12 + x.consumerOf q * 2 ^ 10 + k.toks.length

/-- `ctl.barpend` (10 Table 10.3). -/
def BarPend.reg (b : BarPend) : Nat := b2n b.v * 2 ^ 63 + b.bar * 2 ^ 16 + b.phase

/-- The leaf of an index of the `ctl.perf` group (20 Table 20.3), as its key in `Perf.leaf`. -/
def perfLeaf (i : Nat) : Option Nat :=
  let u := (i - 0x210) / 16
  let c := i % 16
  if 0x210 ≤ i ∧ i < 0x240 ∧ c < 10 then some (16 * u + c)
  else if 0x240 ≤ i ∧ i < 0x270 ∧ c < 6 then some (16 * u + c) else none

/-- The value of a user control register; none for an index that is not assigned (08 Table 8.3). -/
def readCtl (s : State) (i : Nat) : Option Word :=
  let x := s.me
  let k := s.core
  match i with
  | 0x010 => some x.ctl.tile
  | 0x011 => some x.ctl.gang
  | 0x012 => some x.ctl.stage
  | 0x013 => some x.ctl.node
  | 0x014 => some x.ctl.dbase
  | 0x015 => some (BitVec.ofNat 64 s.seiche)
  | 0x020 => some (BitVec.ofNat 64 x.ctl.round)
  | 0x021 => some x.ctl.srkey
  | 0x022 => some (BitVec.ofNat 64 x.ctl.profile)
  | 0x023 => some (BitVec.ofNat 64 (Modifier.code k.memdef))
  | 0x024 => some (BitVec.ofNat 64 (k.spillLimit * 2 ^ 32 + k.spillBase))
  | 0x025 => some (BitVec.ofNat 64 (k.depth * 2 ^ 32 + k.sptr))
  | 0x030 => some (BitVec.ofNat 64 k.barpend.reg)
  | 0x200 => some x.perf.cycles
  | 0x201 => some (BitVec.ofNat 64 (b2n x.perf.freeze))
  | _ =>
    if 0x040 ≤ i ∧ i < 0x060 then some (BitVec.ofNat 64 (SMap.get 0 x.ctl.bfmt (i - 0x040)))
    else if 0x060 ≤ i ∧ i < 0x070 then some (SMap.get 0 x.ctl.pond (i - 0x060))
    else if 0x070 ≤ i ∧ i < 0x080 then some (BitVec.ofNat 64 (x.queueReg (i - 0x070)))
    else if 0x100 ≤ i ∧ i < 0x200 then some (SMap.get 0 x.ctl.rank (i - 0x100))
    else (perfLeaf i).map fun l => SMap.get 0 x.perf.leaf l

/-- The counters with every one of them 0 (20 Table 20.3, CLEAR). -/
def Perf.clear (x : Perf) : Perf := { x with cycles := 0, leaf := [] }

/-- The counters as the write that waits for the end of its cycle leaves them. -/
def Perf.settle (x : Perf) : Perf :=
  match x.next with
  | none => x
  | some w => { (if w.clear then x.clear else x) with freeze := w.freeze, next := none }

/-- A register of `ctl.perf` about to be read: a write of `ctl.perf.ctl` that the running core made, in an earlier cycle therefore, has taken
effect; one that another core may have made in this cycle has not (20 R474). -/
def State.settlePerf (s : State) (i : Nat) : State :=
  if 0x200 ≤ i ∧ i < 0x300 ∧ s.me.perf.next.any (·.cores.contains s.curCore) then s.setMe { s.me with perf := s.me.perf.settle } else s

/-- ctlrd. -/
def execCtlrd (gd : Reg) (index : BitVec 12) (s : State) : Out :=
  .next <|
    let s := s.settlePerf index.toNat
    if 0x800 ≤ index.toNat then s.fault Code.permission 8
    else match readCtl s index.toNat with
      | none => s.illegal (.ctlrd gd index)
      | some v => (s.setG gd v).skip 4

/-! ### The writes -/

/-- The number of the first condition on a pond entry that fails (05 R112). -/
def pondFails (p v : Nat) : Option Nat :=
  if Pond.slotSz v = 0 ∨ 1024 < Pond.slotSz v then some 1
  else if 1024 < Pond.base v + Pond.slots v * Pond.slotSz v then some 2
  else if 15 < p + 2 ^ Pond.group v - 1 then some 3 else none

/-- The writable fields of a pond entry, without GEN. -/
def pondFields (v : Nat) : Nat :=
  field v 63 1 * 2 ^ 63 + field v 53 7 * 2 ^ 53 + field v 44 4 * 2 ^ 44 + field v 32 11 * 2 ^ 32 + field v 22 10 * 2 ^ 22

/-- A pond entry with its GEN raised by one, modulo 8. -/
def genUp (v : Nat) : Nat := setField v 60 3 (Pond.gen v + 1)

/-- The pond table after a write of `v` to pond `p` (05 R112, R113): a defined pond's GEN rises, and with it that of every
leader whose group covers it; an undefined pond keeps its GEN, and V = 0 leaves it. -/
def writePond (m : SMap Word) (p v : Nat) : SMap Word :=
  let old := pondOf m p
  if Pond.v old then
    let m' := (leadersOf m p).foldl (fun m l => SMap.set 0 m l (BitVec.ofNat 64 (genUp (pondOf m l)))) m
    SMap.set 0 m' p (BitVec.ofNat 64 (setField (pondFields v) 60 3 (Pond.gen old + 1)))
  else if Pond.v v then SMap.set 0 m p (BitVec.ofNat 64 (setField (pondFields v) 60 3 (Pond.gen old)))
  else m

/-- A write of `ctl.pondp`. -/
def State.writePondReg (s : State) (p : Nat) (v : Word) : State :=
  match (if Pond.v v.toNat then pondFails p v.toNat else none) with
  | some c => s.fault Code.scratchBounds (0x060 + p + c * 4096)
  | none => (s.setCtl { s.me.ctl with pond := writePond s.me.ctl.pond p v.toNat }).skip 4

/-- A write of `ctl.spill` (08 R178); `i` is the instruction, for ILLEGAL_INSTRUCTION. -/
def State.writeSpill (s : State) (i : Instr) (v : Word) : State :=
  let base := field v.toNat 0 21
  let limit := field v.toNat 32 22
  if base % 8 ≠ 0 ∨ limit % 8 ≠ 0 ∨ limit < base ∨ 0x200000 < limit ∨ s.core.sptr ≠ s.core.spillBase then s.illegal i
  else (s.setCore { s.core with spillBase := base, spillLimit := limit, sptr := base }).skip 4

/-- A write of `ctl.perf.ctl`: CLEAR, and FREEZE as written, take effect at the end of its cycle (20 R474): as COUNTED_CYCLE ends it, or
before the next access of its core to these registers, which a later cycle makes. DESIGN CHOICE (log 89): of the writes of two cores in
one cycle the last gives FREEZE, and either clears. -/
def State.writePerf (s : State) (v : Word) : State :=
  let p := if s.me.perf.next.any (·.cores.contains s.curCore) then s.me.perf.settle else s.me.perf
  let w : PerfWrite := p.next.getD { cores := [], freeze := false, clear := false }
  let w : PerfWrite := { cores := s.curCore :: w.cores, freeze := bit v.toNat 0, clear := w.clear || bit v.toNat 1 }
  (s.setMe { s.me with perf := { p with next := some w } }).skip 4

/-- A write of a user control register: the checks of its own rule; an RO register ignores it (10 R253). -/
def writeCtl (s : State) (i : Instr) (idx : Nat) (v : Word) : State :=
  let c := s.me.ctl
  match idx with
  | 0x020 => if 5 ≤ field v.toNat 0 3 then s.illegal i else (s.setCtl { c with round := field v.toNat 0 4 }).skip 4
  | 0x021 => (s.setCtl { c with srkey := v }).skip 4
  | 0x022 => if field v.toNat 0 2 = 3 then s.illegal i else (s.setCtl { c with profile := field v.toNat 0 2 }).skip 4
  | 0x023 => match Modifier.ofCode v.toNat with
    | none => s.illegal i
    | some m => (s.setCore { s.core with memdef := m }).skip 4
  | 0x024 => s.writeSpill i v
  | 0x201 => s.writePerf v
  | _ =>
    if 0x040 ≤ idx ∧ idx < 0x060 then
      (s.setCtl { c with bfmt := SMap.set 0 c.bfmt (idx - 0x040) (field v.toNat 0 4) }).skip 4
    else if 0x060 ≤ idx ∧ idx < 0x070 then s.writePondReg (idx - 0x060) v
    else s.skip 4

/-- ctlwr: PERMISSION for a privileged index, ILLEGAL_INSTRUCTION for one not assigned. -/
def execCtlwr (index : BitVec 12) (ga : Reg) (s : State) : Out :=
  withSources [ga] s fun s =>
    if 0x800 ≤ index.toNat then s.fault Code.permission 8
    else if (readCtl s index.toNat).isNone then s.illegal (.ctlwr index ga)
    else writeCtl s (.ctlwr index ga) index.toNat (s.g ga)

/-- POND_WRITE: the step of a `ctlwr` to `ctl.pondp` (05 R112). -/
def execPondWrite (p : Fin 16) (ga : Reg) (s : State) : Out := withSources [ga] s fun s => s.writePondReg p.val (s.g ga)

/-- SPILL_WRITE: the step of a `ctlwr` to `ctl.spill` (08 R178). -/
def execSpillWrite (ga : Reg) (s : State) : Out := withSources [ga] s fun s => s.writeSpill (.ctlwr 0x024 ga) (s.g ga)

/-- PERF_CLEAR: the step of a `ctlwr` to `ctl.perf.ctl` that clears the counters (20 R473). -/
def execPerfClear (ga : Reg) (s : State) : Out := withSources [ga] s fun s => s.writePerf (s.g ga)

/-- PERF_FREEZE: the step of a `ctlwr` to `ctl.perf.ctl` that sets or clears FREEZE (20 R474). -/
def execPerfFreeze (ga : Reg) (s : State) : Out := withSources [ga] s fun s => s.writePerf (s.g ga)

/-! ## Units that are no instruction (08 R187, R189, R190, R195) -/

/-- ILLEGAL_INSTRUCTION_WORD: DETAIL holds the unit's first word and its second, if any. -/
def execIllegalInstructionWord (w0 : W32) (w1 : Option W32) (s : State) : Out :=
  .next (s.fault Code.illegalInstruction (w0.toNat + (w1.getD 0).toNat * 2 ^ 32))

/-- INSTRUCTION_FETCH_FAULT: FETCH at the unit's first word. -/
def execInstructionFetchFault (page : VAddr) (straddle absent : Bool) (s : State) : Out :=
  .next (s.fetchFault page.toNat straddle absent)

end Sys2Proof.Machine
end

