-- ==== Sys2Proof/Machine/Records.lean ====
section
/-! DEFINITION. Records at issue: the operands of each record, the checks of 12 R289 in their order, and acceptance
(12 R284 to R298, R302 to R313; 13 R316, R317). -/
namespace Sys2Proof

/-! ## The fields of a record by operand (12 Table 12.2) -/

/-- The three operands. -/
inductive Opd where | a | b | d
  deriving DecidableEq, Repr

/-- The number of an operand in the stride field. -/
def Opd.num : Opd → Nat
  | .a => 0
  | .b => 1
  | .d => 2

/-- The record word that holds an operand's handle. -/
def Opd.word : Opd → Nat
  | .d => 13
  | _ => 12

/-- The handle of an operand. -/
def Rec.h (r : Rec) : Opd → Nat
  | .a => r.ha.toNat
  | .b => r.hb.toNat
  | .d => r.hd.toNat

/-- Whether an operand's override is in force, and the entry it names. -/
def Rec.ov (r : Rec) : Opd → Bool
  | .a => r.ea
  | .b => r.eb
  | .d => r.ed

def Rec.ovf (r : Rec) : Opd → Nat
  | .a => r.fa.val
  | .b => r.fb.val
  | .d => r.fd.val

/-- The strides of an operand. -/
def Rec.strides (r : Rec) : Opd → List (BitVec 24)
  | .a => r.sa.toList
  | .b => r.sb.toList
  | .d => r.sd.toList

/-- The trip counts, and how many iterations they give. -/
def Rec.trips (r : Rec) : List Nat := r.trip.toList.map (·.toNat)
def Rec.total (r : Rec) : Nat := r.trips.foldl (· * ·) 1

/-- The iteration vector of linear index `t`, i0 innermost (12 R290). -/
def ivecOf : List Nat → Nat → List Nat
  | [], _ => []
  | n :: ns, t => t % n :: ivecOf ns (t / n)

/-- The record words in which a stride of an operand has a bit of `mask` set. -/
def Rec.strideWords (r : Rec) (x : Opd) (mask : Nat) : List Nat :=
  (List.range 4).filterMap fun j =>
    let v := ((r.strides x).getD j 0).toNat &&& mask
    if v = 0 then none else some (3 + (24 * (4 * x.num + j) + Machine.lowZeros v 24 0) / 32)

/-- The words at fault of an operand that must be of none form: no handle, no strides, no override (12 R298). -/
def Rec.noneWords (r : Rec) (x : Opd) : List Nat :=
  (if r.h x ≠ 0 then [x.word] else []) ++ r.strideWords x 0xFFFFFF ++ (if r.ov x then [13] else [])

/-- The words at fault of an accumulator operand that stands for whole rows (12 R292). -/
def Rec.accWords (r : Rec) (x : Opd) : List Nat :=
  (if r.h x % 128 ≠ 0 then [x.word] else []) ++ r.strideWords x 0x7F ++ (if r.ov x then [13] else [])

/-- The words at fault of an operand whose strides must be zero and that takes no override: a block, a count, a word. 12 Table 12.3 gives these
forms no stride unit; DESIGN CHOICE (log 88): a stride of theirs that is not zero raises RECORD_FIELD. -/
def Rec.fixedWords (r : Rec) (x : Opd) : List Nat := r.strideWords x 0xFFFFFF ++ (if r.ov x then [13] else [])

/-- Fields of a pond handle (12 Table 12.3). -/
def Hnd.pond (h : Nat) : Nat := field h 12 4
def Hnd.slot (h : Nat) : Nat := field h 8 4
def Hnd.pen (h : Nat) : Bool := bit h 7
def Hnd.rshift (h : Nat) : Nat := field h 3 4
def Hnd.xm (h : Nat) : Nat := field h 0 3

/-- The words at fault of a pond handle of a matrix record (12 R287). -/
def Rec.pondWords (r : Rec) (x : Opd) : List Nat :=
  let h := r.h x
  if 6 ≤ Hnd.xm h ∨ (!Hnd.pen h ∧ (Hnd.rshift h ≠ 0 ∨ Hnd.xm h ≠ 0)) then [x.word] else []

/-- The words at fault of a record whose trip counts must be 1. -/
def Rec.onceWords (r : Rec) : List Nat :=
  (if r.trip.q0 ≠ 1 ∨ r.trip.q1 ≠ 1 then [1] else []) ++ (if r.trip.q2 ≠ 1 ∨ r.trip.q3 ≠ 1 then [2] else [])

end Sys2Proof

namespace Sys2Proof.Machine

/-- The operation code (08 Table 8.9). -/
def RecKind.opc : RecKind → Nat
  | .tload => 0x01
  | .tgather => 0x02
  | .sload => 0x03
  | .xpull => 0x04
  | .fill => 0x05
  | .mcred => 0x06
  | .rload => 0x07
  | .wload => 0x10
  | .wswap => 0x11
  | .mma => 0x12
  | .mmas => 0x13
  | .mdrain => 0x14
  | .mdrainDirect => 0x14
  | .mzero => 0x15
  | .mchain => 0x16
  | .mcopy => 0x17
  | .tstore => 0x20
  | .tscatter => 0x21
  | .tred => 0x22
  | .rstore => 0x23
  | .rsig => 0x24
  | .xpush => 0x25

/-- The engine that accepts a record. -/
def RecKind.engine (k : RecKind) : Engine := if k.opc < 0x10 then .load else if k.opc < 0x20 then .matrix else .store

/-- Whether the record uses RM (12 R286, 13 R316). -/
def RecKind.usesRm : RecKind → Bool
  | .mdrain => true
  | .mdrainDirect => true
  | .mcopy => true
  | .tload => true
  | .tgather => true
  | .rload => true
  | .mcred => true
  | .tstore => true
  | .tscatter => true
  | .tred => true
  | .rstore => true
  | _ => false

/-- The operand of transfer form (13 Table 13.1). -/
def RecKind.transferOpd : RecKind → Option Opd
  | .tload => some .a
  | .tgather => some .a
  | .sload => some .a
  | .xpull => some .a
  | .mcred => some .a
  | .rload => some .a
  | .tstore => some .d
  | .tscatter => some .d
  | .tred => some .d
  | .rstore => some .d
  | .rsig => some .d
  | .xpush => some .d
  | _ => none

/-- Whether the A handle may be of drain form (13 Table 13.1). -/
def RecKind.mayDrain : RecKind → Bool
  | .tstore => true
  | .rstore => true
  | _ => false

/-! ## Formats of operands (03 R83, R84) -/

/-- The values that a record latches as it issues (03 R84, 04 R96, 05 R115). -/
def Tile.latch (x : Tile) : Latch :=
  { fmt := x.ctl.fmt, bfmt := x.ctl.bfmt, round := x.ctl.round, srkey := x.ctl.srkey, profile := x.ctl.profile, ponds := x.ctl.pond }

/-- The entry that the register of pond `p`'s bank names. -/
def Latch.bankIdx (l : Latch) (p : Nat) : Nat := SMap.get 0 l.bfmt (Pond.bank (pondOf l.ponds p))

/-- The index of an operand's format: its override, or the register of its pond's bank. -/
def Latch.idx (l : Latch) (r : Rec) (x : Opd) : Nat := if r.ov x then r.ovf x else l.bankIdx (Hnd.pond (r.h x))

/-- The indices that the elements of an operand decode by: one for each bank of a group (03 R83). DESIGN CHOICE: a record on a group uses
the entries of all its banks, those that its rows never reach included, so that issue checks each (03 R60; log 33). -/
def Latch.idxs (l : Latch) (r : Rec) (x : Opd) : List Nat :=
  if r.ov x then [r.ovf x] else (membersOf l.ponds (Hnd.pond (r.h x))).map l.bankIdx

/-- The format of an operand. -/
def Latch.fmtOf (l : Latch) (r : Rec) (x : Opd) : Nat := entryOf l.fmt (l.idx r x)

/-! ## Planes and chain as issue order fixes them (12 R302, R304) -/

/-- What a later record can see of a plane: whether it is loaded, its entry, its SP. -/
structure PlaneView where
  loaded : Bool
  fmt : Nat
  sp : Nat
  deriving DecidableEq, Repr

/-- The active and the shadow plane, the chain's LEN and POS. -/
structure MatView where
  act : PlaneView
  shd : PlaneView
  chainLen : Nat
  chainPos : Nat
  deriving DecidableEq, Repr

def Plane.view (p : Plane) : PlaneView := { loaded := p.loaded, fmt := p.fmt.toNat, sp := p.sp }

/-- LEN and POS of `mchain`'s A word. -/
def chainLenOf (r : Rec) : Nat := field r.ha.toNat 0 3 + 1
def chainPosOf (r : Rec) : Nat := field r.ha.toNat 3 3

/-- The view after one more operation that is not terminal: one whose iterations are done shows its effect already. -/
def MatView.after (v : MatView) (o : Op) : MatView :=
  if o.rcd.total ≤ o.t then v
  else match o.kind with
    | .wload => { v with shd := { loaded := true, fmt := o.latch.fmtOf o.rcd .a, sp := field o.rcd.hd.toNat 0 2 } }
    | .mma => if o.rcd.epi then { v with shd := { loaded := true, fmt := o.latch.fmtOf o.rcd .b, sp := 0 } } else v
    | .wswap => { v with act := v.shd, shd := v.act }
    | .mchain => { v with chainLen := chainLenOf o.rcd, chainPos := chainPosOf o.rcd }
    | _ => v

/-- What the next record of the matrix engine will find. -/
def Tile.matView (x : Tile) : MatView :=
  x.em.ops.foldl MatView.after
    { act := x.mem.act.view, shd := x.mem.shd.view, chainLen := x.mem.chainLen, chainPos := x.mem.chainPos }

/-- N of an SP, the groups of a pass, and the K positions of a pass (01 Table 1.5). -/
def spN : Nat → Nat
  | 1 => 6
  | 2 => 8
  | 3 => 12
  | _ => 0

def spGroups : Nat → Nat
  | 1 => 21
  | 2 => 16
  | 3 => 10
  | _ => 0

def kPositions (sp : Nat) : Nat := if sp = 0 then 128 else 24 * spGroups sp

/-- Bytes of a row of `n` elements: a row image for KIND 2, packed codes otherwise (03 R64, R80). -/
def rowBytes (n f : Nat) : Nat := if Ent.kind f = 2 then rowImage n f else ceilDiv (n * Ent.width f) 8

/-- Bytes of a plane row of 128 codes (12 R299). -/
def planeRowBytes (f : Nat) : Nat := ceilDiv (128 * Ent.width f) 8

/-- Bytes of a plane's scales (12 R299). -/
def planeScaleBytes (f : Nat) : Nat := 128 * 128 / Ent.block f

/-- Bytes of a sparse plane's metadata (12 R300). -/
def planeMetaBytes (sp : Nat) : Nat := 8 * 128 * spGroups sp

/-- The units that hold some bytes. -/
def unitsOf (n : Nat) : Nat := ceilDiv n 64

/-! ## What an issue needs to know besides the record -/

/-- The latched values, the view of the matrix engine, and DRAIN of the transfer block (12 R289). -/
structure IssueCtx where
  l : Latch
  v : MatView
  drain : Bool
  deriving DecidableEq, Repr

/-- SP of `wload`'s D word. -/
def spOf (r : Rec) : Nat := field r.hd.toNat 0 2

/-- Whether B of `wload` is of pond form (12 R299). -/
def wloadB (c : IssueCtx) (r : Rec) : Bool := decide (spOf r ≠ 0) || decide (Ent.kind (c.l.fmtOf r .a) = 2)

/-- Whether the A operand of a chained record is of none form: a tile other than the westmost (12 R304). -/
def fromWest (c : IssueCtx) (r : Rec) : Bool := r.chain && decide (0 < c.v.chainPos)

/-- The operands of pond form (12 Table 12.4, 13 Table 13.1). -/
def pondOpds (k : RecKind) (c : IssueCtx) (r : Rec) : List Opd :=
  match k with
  | .tload => [.d]
  | .tgather => [.b, .d]
  | .sload => []
  | .xpull => [.d]
  | .fill => [.d]
  | .mcred => [.d]
  | .rload => [.d]
  | .wload => if wloadB c r then [.a, .b] else [.a]
  | .wswap => []
  | .mma => (if fromWest c r then [] else [.a]) ++ (if r.epi then [.b] else [])
  | .mmas => if fromWest c r then [] else [.a]
  | .mdrain => [.d]
  | .mdrainDirect => []
  | .mzero => []
  | .mchain => []
  | .mcopy => [.a, .d]
  | .tstore => if c.drain then [] else [.a]
  | .tscatter => [.a, .b]
  | .tred => [.a]
  | .rstore => if c.drain then [] else [.a]
  | .rsig => []
  | .xpush => [.a]

/-! ## Step 2: fields that need neither a pond entry nor a format -/

/-- EPI, CHAIN, ACCSAT and PROF zero where Table 12.1 has them so. -/
def flagWords (k : RecKind) (r : Rec) : List Nat :=
  let ok := match k with
    | .mma => true
    | .mmas => !r.epi
    | .mdrain => !r.chain && decide (r.prof = 0)
    | .mdrainDirect => r.chain && decide (r.prof = 0)
    | _ => !r.epi && !r.chain && !r.accsat && decide (r.prof = 0)
  if ok then [] else [0]

/-- The completion fields and DET with STAMP (12 R285, 06 R136). -/
def completionWords (k : RecKind) (r : Rec) : List Nat :=
  (if r.det && r.stamp then [0] else []) ++
  (if r.cq.toNat = 31 then (if r.tok = 0 then [] else [0])
   else if 11 < r.cq.toNat ∨ producerOf r.cq.toNat ≠ k.engine.owner.num ∨ r.tok.toNat = 0 ∨ 4 < r.tok.toNat then [0] else []) ++
  (if (r.cq.toNat = 31 ∨ r.tok.toNat = 3) ∧ r.cpay ≠ 0 then [15] else []) ++
  (if (r.tok.toNat = 1 ∨ r.tok.toNat = 2) ∧ field r.cpay.toNat 21 3 ≠ 0 then [15] else [])

/-- Whether RM has a value that R286 admits. -/
def rmOk (rm : Nat) : Bool := decide (rm ≤ 4) || (decide (8 ≤ rm) && decide (rm ≤ 12)) || decide (rm = 15)

/-- Trip counts, reserved bits, word 14, RM. -/
def bodyWords (k : RecKind) (r : Rec) : List Nat :=
  (if r.trip.q0 = 0 ∨ r.trip.q1 = 0 then [1] else []) ++ (if r.trip.q2 = 0 ∨ r.trip.q3 = 0 then [2] else []) ++
  (if r.rsv13 then [13] else []) ++ (if !r.det && !r.stamp && decide (r.w14 ≠ 0) then [14] else []) ++
  (if rmOk r.rm.toNat && (k.usesRm || decide (r.rm = 0)) then [] else [15])

/-- The operands of copy records (13 R316, R319, R331). -/
def copyWords (k : RecKind) (c : IssueCtx) (r : Rec) : List Nat :=
  let dims := fun x => (List.range 4).filterMap fun j =>
    if 4 < field ((r.strides x).getD j 0).toNat 21 3 then some (3 + (24 * (4 * x.num + j) + 21) / 32) else none
  let pond := fun x => if r.h x % 256 ≠ 0 then [Opd.word x] else []
  let ov := fun x => if r.ov x then [13] else []
  match k with
  | .tload => dims .a ++ ov .a ++ r.noneWords .b ++ pond .d
  | .rload => dims .a ++ ov .a ++ r.noneWords .b ++ pond .d
  | .mcred => dims .a ++ ov .a ++ r.noneWords .b ++ pond .d
  | .tgather => dims .a ++ ov .a ++ pond .b ++ r.strideWords .b 0xFFFFFF ++ pond .d
  | .sload => dims .a ++ ov .a ++ r.noneWords .b ++ (if 64 ≤ r.h .d then [13] else []) ++ ov .d
  | .xpull => ov .a ++ r.noneWords .b ++ pond .d
  | .fill => r.fixedWords .a ++ r.fixedWords .b ++ (if r.h .b = 0 ∨ 1024 < r.h .b then [12] else []) ++ pond .d
  | .tstore => (if c.drain then ov .a else pond .a) ++ r.noneWords .b ++ dims .d ++ ov .d
  | .rstore => (if c.drain then ov .a else pond .a) ++ r.noneWords .b ++ dims .d ++ ov .d
  | .tscatter => pond .a ++ pond .b ++ r.strideWords .b 0xFFFFFF ++ dims .d ++ ov .d
  | .tred => pond .a ++ r.noneWords .b ++ dims .d ++ ov .d
  | .rsig => r.noneWords .a ++ r.noneWords .b ++ r.fixedWords .d ++ r.onceWords
  | .xpush => pond .a ++ r.noneWords .b ++ ov .d
  | _ => []

/-- The operands of matrix records that need no format (12 R298 to R313). -/
def matrixWords (k : RecKind) (c : IssueCtx) (tic : Nat) (r : Rec) : List Nat :=
  match k with
  | .wload =>
    r.pondWords .a ++ (if wloadB c r then r.pondWords .b else []) ++ r.strideWords .b 0xFFFFFF ++
    (if 4 ≤ r.h .d then [13] else []) ++ r.fixedWords .d ++
    (if (if spOf r = 0 then 128 else spGroups (spOf r) * spN (spOf r)) < r.total then [1] else [])
  | .wswap => r.onceWords ++ r.noneWords .a ++ r.noneWords .b ++ r.noneWords .d
  | .mma =>
    (if r.chain && decide (c.v.chainLen = 1) then [0] else []) ++ (if c.v.act.sp ≠ 0 then [0] else []) ++
    (if fromWest c r then (if r.h .a ≠ 0 then [12] else []) ++ r.strideWords .a 0xFFFFFF ++ (if r.ov .a then [] else [13])
     else r.pondWords .a) ++
    (if r.epi then r.pondWords .b ++ r.strideWords .b 0xFFFFFF
     else if c.v.act.loaded && decide (Ent.kind c.v.act.fmt = 3) then
       (if 64 ≤ r.h .b then [12] else []) ++ (if r.ov .b then [13] else [])
     else r.noneWords .b) ++ r.accWords .d
  | .mmas =>
    (if r.chain && decide (c.v.chainLen = 1) then [0] else []) ++ (if c.v.act.sp = 0 then [0] else []) ++
    (if fromWest c r then (if r.h .a ≠ 0 then [12] else []) ++ r.strideWords .a 0xFFFFFF ++ (if r.ov .a then [] else [13])
     else r.pondWords .a) ++ r.noneWords .b ++ r.accWords .d
  | .mdrain => r.accWords .a ++ (if r.epi then r.fixedWords .b else r.noneWords .b) ++ r.pondWords .d
  | .mdrainDirect =>
    r.accWords .a ++ (if r.epi then r.fixedWords .b else r.noneWords .b) ++ (if r.h .d ≠ 0 then [13] else []) ++
    r.strideWords .d 0xFFFFFF ++ (if r.ov .d then [] else [13])
  | .mzero => r.noneWords .a ++ r.noneWords .b ++ r.accWords .d
  | .mchain =>
    r.onceWords ++ r.noneWords .b ++ r.noneWords .d ++ r.fixedWords .a ++
    (if 64 ≤ r.h .a ∨ chainLenOf r ≤ chainPosOf r ∨ tic < chainPosOf r ∨ 7 < tic - chainPosOf r + chainLenOf r - 1 then [12] else [])
  | .mcopy => r.pondWords .a ++ (if r.h .b = 0 ∨ 4096 < r.h .b then [12] else []) ++ r.fixedWords .b ++ r.pondWords .d
  | _ => []

/-- CPAY of SLOT and FREE: the pond it names, its slot and its count (12 R288). -/
def payloadWords (c : IssueCtx) (r : Rec) : List Nat :=
  if r.tok.toNat = 1 ∨ r.tok.toNat = 2 then
    let p := field r.cpay.toNat 24 4
    if !pondUsable c.l.ponds p ∨ Pond.slots (pondOf c.l.ponds p) ≤ field r.cpay.toNat 17 4 ∨
      slotBytes c.l.ponds p < field r.cpay.toNat 0 17 * 64 then [15] else []
  else []

/-- The words at fault in step 2, the completion fields of 12 R288 among them. -/
def fieldWords (k : RecKind) (c : IssueCtx) (tic : Nat) (r : Rec) : List Nat :=
  flagWords k r ++ completionWords k r ++ payloadWords c r ++ bodyWords k r ++ copyWords k c r ++ matrixWords k c tic r

/-! ## Step 3: ponds (05 R113, R115) -/

/-- The words at fault in step 3. -/
def pondStepWords (k : RecKind) (c : IssueCtx) (r : Rec) : List Nat :=
  ((pondOpds k c r).filter fun x => !pondUsable c.l.ponds (Hnd.pond (r.h x))).map Opd.word

/-! ## Step 4: formats (03 R60, R78, R82; 04 R90) -/

/-- The DETAIL of the first entry of `is` that is not usable, not of a kind of `ks`, or refused by `ok`. -/
def checkEntries (fmt : SMap Word) (is : List Nat) (ks : List Nat) (ok : Nat → Bool) : Option Nat :=
  is.findSome? fun i =>
    match useEntry fmt i ks with
    | some d => some d
    | none => if ok (entryOf fmt i) then none else some (fmtDetail i false)

/-- Neither 32 bits wide nor UEXP (04 R90). -/
def narrow (f : Nat) : Bool := decide (Ent.width f ≠ 32) && !(decide (Ent.kind f = 0) && decide (Ent.policy f = 4))

/-- Whether an A format and a plane make a pair of Table 4.1; an unloaded plane pairs with KIND 0, 1 and 2 (12 R301). -/
def pairs (v : PlaneView) (f : Nat) : Bool :=
  if !v.loaded then decide (Ent.kind f ≤ 2)
  else if Ent.kind f = 1 then decide (Ent.kind v.fmt = 1) || decide (Ent.kind v.fmt = 3)
  else decide (Ent.kind f ≠ 3) && (decide (Ent.kind v.fmt = 0) || decide (Ent.kind v.fmt = 2))

/-- The DETAIL of step 4. -/
def formatStep (k : RecKind) (c : IssueCtx) (r : Rec) : Option Nat :=
  let idx := c.l.idxs r
  let any := fun x => checkEntries c.l.fmt (idx x) [0, 1, 2, 3] fun _ => true
  match k with
  | .wload => checkEntries c.l.fmt (idx .a) [0, 1, 2, 3] fun f =>
      narrow f && (decide (spOf r = 0) || (decide (Ent.kind f ≤ 1) && decide (8 ≤ Ent.width f) && decide (Ent.width f ≠ 6)))
  | .mma =>
    match checkEntries c.l.fmt (idx .a) [0, 1, 2] fun f => narrow f && pairs c.v.act f with
    | some d => some d
    | none => if r.epi then checkEntries c.l.fmt (idx .b) [0, 1, 2] narrow else none
  | .mmas => checkEntries c.l.fmt (idx .a) [0, 1] fun f => narrow f && pairs c.v.act f
  | .mdrain => checkEntries c.l.fmt (idx .d) [0, 1] fun _ => true
  | .mdrainDirect => checkEntries c.l.fmt (idx .d) [0, 1] fun _ => true
  | .mcopy =>
    match checkEntries c.l.fmt (idx .a) [0, 1, 2] fun _ => true with
    | some d => some d
    | none => checkEntries c.l.fmt (idx .d) [0, 1] fun _ => true
  | .tload => any .d
  | .tgather => any .d
  | .mcred => any .d
  | .rload => any .d
  | .tstore => if c.drain then none else any .a
  | .tscatter => any .a
  | .tred => any .a
  | .rstore => if c.drain then none else any .a
  | _ => none

/-! ## Step 5: fields that need a pond entry or a format -/

/-- A permuted pond operand whose row of `n` units is not a multiple of 2^XM (12 R291). -/
def penWords (r : Rec) (x : Opd) (n : Nat) : List Nat :=
  if Hnd.pen (r.h x) && decide (n % 2 ^ Hnd.xm (r.h x) ≠ 0) then [x.word] else []

/-- The words at fault in step 5. -/
def lateWords (k : RecKind) (c : IssueCtx) (r : Rec) : List Nat :=
  let f := c.l.fmtOf r
  match k with
  | .wload =>
    penWords r .a (unitsOf (planeRowBytes (f .a))) ++
    (if spOf r ≠ 0 then penWords r .b (unitsOf (planeMetaBytes (spOf r)))
     else if wloadB c r then penWords r .b (unitsOf (planeScaleBytes (f .a))) else r.noneWords .b)
  | .mma =>
    (if fromWest c r then [] else penWords r .a (unitsOf (rowBytes 128 (f .a)))) ++
    (if r.epi then
      (if c.v.act.loaded && decide (Ent.kind c.v.act.fmt = 3) then [0] else []) ++ penWords r .b (unitsOf (planeRowBytes (f .b))) ++
      (if Ent.kind (f .b) = 2 then penWords r .b (unitsOf (planeScaleBytes (f .b))) else [])
     else [])
  | .mmas => if fromWest c r then [] else penWords r .a (unitsOf (rowBytes (kPositions c.v.act.sp) (f .a)))
  | .mdrain =>
    penWords r .d (unitsOf (planeRowBytes (f .d))) ++ (if Hnd.pen (r.h .d) && decide (Ent.width (f .d) = 6) then [13] else [])
  | .mcopy =>
    (if Ent.kind (f .a) = 2 ∧ r.h .b % Ent.block (f .a) ≠ 0 then [12] else []) ++
    penWords r .a (unitsOf (rowBytes (r.h .b) (f .a))) ++ penWords r .d (unitsOf (rowBytes (r.h .b) (f .d)))
  | _ => []

/-! ## Step 6: OVERLAP (12 R297) -/

/-- An integer modulo `m`. -/
def intMod (m : Nat) (i : Int) : Nat := (i % (m : Int)).toNat

/-- The residues modulo `m` that a set of residues reaches by i × step for i below `n`, as a set of bits. -/
def orbit (m : Nat) (set : Nat) (n : Nat) (step : Int) : Nat :=
  (List.range (min n m)).foldl (fun acc i =>
    let k := intMod m ((i : Nat) * step)
    acc ||| (set * 2 ^ k % 2 ^ m ||| set / 2 ^ (m - k))) 0

/-- The residues modulo `m` of the offsets of a loop nest. -/
def reach (m : Nat) : List Nat → List Int → Nat
  | n :: ns, t :: ts => orbit m (reach m ns ts) n t
  | _, _ => 1

/-- The scratchpad spans of slot `i` of pond `p` or its group. -/
def slotSpans (ponds : SMap Word) (p i : Nat) : List (Nat × Nat) :=
  (membersOf ponds p).map fun q =>
    let e := pondOf ponds q
    (Pond.bank e * 0x10000 + (Pond.base e + i * Pond.slotSz e) * 64, Pond.slotSz e * 64)

/-- The spans of every slot that offsets reach, given their residues. -/
def reachSpans (ponds : SMap Word) (h set : Nat) : List (Nat × Nat) :=
  let p := Hnd.pond h
  let n := Pond.slots (pondOf ponds p)
  let u := slotBytes ponds p / 64
  (List.range n).flatMap fun q => if field set (q * u) u ≠ 0 then slotSpans ponds p ((Hnd.slot h + q) % n) else []

/-- The spans that an operand of pond form reaches by trip counts and strides. -/
def Op.pondSpans (o : Op) (x : Opd) (trips : List Nat) (strides : List Int) : List (Nat × Nat) :=
  let p := Hnd.pond (o.rcd.h x)
  reachSpans o.latch.ponds (o.rcd.h x) (reach (slotBytes o.latch.ponds p / 64 * Pond.slots (pondOf o.latch.ponds p)) trips strides)

/-- The spans of an operand's own loop nest. -/
def Op.nestSpans (o : Op) (x : Opd) : List (Nat × Nat) := o.pondSpans x o.rcd.trips ((o.rcd.strides x).map (·.toInt))

/-- The spans of an index operand: one 32-bit word an iteration (13 R323). -/
def Op.indexSpans (o : Op) : List (Nat × Nat) := o.pondSpans .b [(o.rcd.total + 15) / 16] [1]

/-- The bytes that an operation's operands can read and can write (12 R297, 13 R318). -/
def Op.footprint (o : Op) : List (Nat × Nat) × List (Nat × Nat) :=
  let r := o.rcd
  let block := match o.kind.transferOpd with
    | some x => [(64 * r.h x, 64)]
    | none => []
  match o.kind with
  | .tload => (block, o.nestSpans .d)
  | .tgather => (block ++ o.indexSpans, o.nestSpans .d)
  | .xpull => (block, o.nestSpans .d)
  | .fill => ([(64 * r.h .a, 64)], o.nestSpans .d)
  | .mcred => (block, o.nestSpans .d)
  | .rload => (block, o.nestSpans .d)
  | .wload => (o.nestSpans .a ++
      (if spOf r ≠ 0 ∨ Ent.kind (o.latch.fmtOf r .a) = 2 then o.pondSpans .b [1] [0] else []), [])
  | .mma =>
    let rw := unitsOf (planeRowBytes (o.latch.fmtOf r .b))
    ((if o.west then [] else o.nestSpans .a) ++
     (if r.epi then o.pondSpans .b [128] [rw] ++
        (if Ent.kind (o.latch.fmtOf r .b) = 2 then o.pondSpans .b [129] [rw] else []) else []), [])
  | .mmas => ((if o.west then [] else o.nestSpans .a), [])
  | .mdrain => ((if r.epi then [(64 * r.h .b, 1036)] else []), o.nestSpans .d)
  | .mdrainDirect => ((if r.epi then [(64 * r.h .b, 1036)] else []), [])
  | .mcopy => (o.nestSpans .a, o.nestSpans .d)
  | .tstore => (block ++ (if o.drainForm then [] else o.nestSpans .a), [])
  | .tscatter => (block ++ o.nestSpans .a ++ o.indexSpans, [])
  | .tred => (block ++ o.nestSpans .a, [])
  | .rstore => (block ++ (if o.drainForm then [] else o.nestSpans .a), [])
  | .xpush => (block ++ o.nestSpans .a, [])
  | _ => (block, [])

/-- Whether two lists of spans meet. -/
def anyMeet (l m : List (Nat × Nat)) : Bool := l.any fun a => m.any fun b => spansMeet a.1 a.2 b.1 b.2

/-- Whether two footprints meet where one of them writes. -/
def conflict (a b : List (Nat × Nat) × List (Nat × Nat)) : Bool := anyMeet a.2 (b.1 ++ b.2) || anyMeet b.2 a.1

/-- The handle of an operation (02 R44). -/
def handleNum (e : Engine) (seq : Nat) : Nat := e.num * 2 ^ 32 + seq

/-- The operations of an engine that are not ordered before a record that names predecessor `p`. -/
def unordered (ops : List Op) (p : Option Nat) : List Op :=
  match p with
  | none => ops
  | some q => if ops.any (·.seq == q) then (ops.dropWhile (·.seq != q)).drop 1 else ops

/-- The handle of the first operation that the record conflicts with. -/
def overlapWith (x : Tile) (o : Op) : Option Nat :=
  [Engine.load, .matrix, .store].findSome? fun e =>
    if e = o.kind.engine then none
    else ((unordered (x.eng e).ops ((o.preds.find? (·.1 == e.num)).map (·.2))).find? fun a =>
      conflict a.footprint o.footprint).map fun a => handleNum e a.seq

/-! ## Predecessors and stamps (12 R295, R296) -/

/-- The two other engines, ascending. -/
def otherEngines : Engine → List Engine
  | .load => [.matrix, .store]
  | .matrix => [.load, .store]
  | .store => [.load, .matrix]

/-- The most recent operation with low sequence bits `v` that is not terminal; a terminal one holds nothing back. -/
def Tile.predOf (x : Tile) (e : Engine) (v : Nat) : List (Nat × Nat) :=
  if v = 0 then []
  else match (x.eng e).ops.reverse.find? fun o => o.seq % 2 ^ 16 == v with
    | some o => [(e.num, o.seq)]
    | none => []

/-- The predecessors that word 14 names. -/
def Tile.predsOf (x : Tile) (k : RecKind) (r : Rec) : List (Nat × Nat) :=
  if r.det then
    match otherEngines k.engine with
    | [e0, e1] => x.predOf e0 (field r.w14.toNat 0 16) ++ x.predOf e1 (field r.w14.toNat 16 16)
    | _ => []
  else []

/-- The tick that a stamp names: the one with those low bits in (now - 2^31, now + 2^31]. -/
def stampTick (now : Nat) (w : Nat) : Int :=
  let d : Nat := (w + 2 ^ 32 - now % 2 ^ 32) % 2 ^ 32
  if d ≤ 2 ^ 31 then (now : Int) + d else (now : Int) + d - 2 ^ 32

/-! ## Issue (12 R289) -/

/-- DETAIL of RECORD_FIELD: the index of the first record word at fault (18 Table 18.5). -/
def firstWord (l : List Nat) : Nat := l.foldl min 15

/-- The sequence number after `n` (02 R44): 0 is never assigned. -/
def nextSeq (n : Nat) : Nat := if n + 1 = 2 ^ 32 then 1 else n + 1

/-- The priority of an operation at issue (02 R51). -/
def issuePrio (node : Word) (r : Rec) : Nat := (min 31 (max 0 ((field node.toNat 59 5 : Int) + r.prio.toInt))).toNat

/-- The operation that a record becomes. -/
def newOp (s : State) (k : RecKind) (c : IssueCtx) (r : Rec) : Op :=
  let x := s.me
  { seq := nextSeq (x.eng k.engine).last, kind := k, rcd := r, owner := s.curCore, attached := !r.detach
    prio := issuePrio x.ctl.node r, latch := c.l
    stamp := if r.stamp then some (stampTick s.seiche r.w14.toNat).toNat else none
    preds := x.predsOf k r, drainForm := c.drain, issueTick := s.seiche, mark := s.dsets.length, mlast := x.em.last
    west := (decide (k = .mma) || decide (k = .mmas)) && fromWest c r }

/-- Step 7: the engine assigns the sequence number, and the core's earlier accesses are released to the operation. -/
def acceptRecord (s : State) (o : Op) : State :=
  let s := s.flushMine
  let e := s.me.eng o.kind.engine
  (s.setMe (s.me.setEng o.kind.engine { e with last := o.seq, ops := e.ops ++ [o] })).skip 64

/-- The PERMISSION check of `mchain`: every tile of the chain is reserved to the node (12 R311). -/
def chainTiles (t : Nat) (r : Rec) : List Nat := (List.range (chainLenOf r)).map fun j => t - chainPosOf r + j

/-- Steps 5 and 6, `mchain`'s second check, and step 7. DESIGN CHOICE: 12 R311 does not place its PERMISSION check among the steps of 12
R289; it stands after step 5 and before step 6 (log 79). -/
def issueLate (s : State) (k : RecKind) (c : IssueCtx) (r : Rec) : State :=
  let o := newOp s k c r
  match lateWords k c r with
  | w :: ws => s.fault Code.recordField (firstWord (w :: ws))
  | [] =>
    if k = .mchain ∧ (chainTiles s.curTile.val r).any fun t => !sameNode s.me (s.tile t) then s.fault Code.permission 16
    else match (if bit s.me.ctl.node.toNat 58 then overlapWith s.me o else none) with
      | some h => s.fault Code.overlap h
      | none =>
        let t := stampTick s.seiche r.w14.toNat
        if r.stamp ∧ t < s.seiche then
          (s.fault Code.scheduleMiss (uMod 64 t)).traceMiss s.curTile.val s.curCore.num 0 ((s.seiche : Int) - t).toNat
        else acceptRecord s o

/-- Steps 2 to 4. -/
def issueChecked (s : State) (k : RecKind) (c : IssueCtx) (r : Rec) : State :=
  match fieldWords k c (tileTic s.curTile.val) r with
  | w :: ws => s.fault Code.recordField (firstWord (w :: ws))
  | [] => match pondStepWords k c r with
    | w :: ws => s.fault Code.recordField (firstWord (w :: ws))
    | [] => match formatStep k c r with
      | some d => s.fault Code.illegalFormatEntry d
      | none => issueLate s k c r

/-- What the issue reads of its tile. -/
def Tile.issueCtx (x : Tile) (drain : Bool) : IssueCtx := { l := x.latch, v := x.matView, drain := drain }

/-- Steps 2 to 7: `tstore` and `rstore` first read DRAIN of their transfer block. -/
def issueNow (s : State) (k : RecKind) (r : Rec) : State :=
  if k.mayDrain then
    let off := 64 * r.h .d
    if scratchSize < off + 64 then s.faultA 0 Code.scratchBounds off
    else
      let s := s.noteRead s.curTile.val (off + 8) 8
      match s.me.readFails (off + 8) 8 with
      | some w => s.faultA 0 Code.uncorrectable (uncDetail 0 w)
      | none => issueChecked s k (s.me.issueCtx (bit (s.me.mem.scratch.readLE (off + 8) 8) 53)) r
  else issueChecked s k (s.me.issueCtx false) r

/-- An engine's room (12 R289): at most 16 operations that are not terminal. -/
def Tile.hasRoom (x : Tile) (e : Engine) : Bool := decide ((x.eng e).ops.length < 16)

/-- Issue: the wrong core first; then a wait for room in the engine, which is pure; then the checks, all together. -/
def issue (k : RecKind) (r : Rec) (s : State) : Out :=
  .next <|
    if s.curCore ≠ k.engine.owner then s.fault Code.recordField (4095 * 16)
    else if s.me.hasRoom k.engine then issueNow s k r
    else s.block (.engineRoom k r)

/-- tload. -/
def execTload (r : Rec) (s : State) : Out := issue .tload r s
/-- tgather. -/
def execTgather (r : Rec) (s : State) : Out := issue .tgather r s
/-- sload. -/
def execSload (r : Rec) (s : State) : Out := issue .sload r s
/-- xpull. -/
def execXpull (r : Rec) (s : State) : Out := issue .xpull r s
/-- fill. -/
def execFill (r : Rec) (s : State) : Out := issue .fill r s
/-- mcred. -/
def execMcred (r : Rec) (s : State) : Out := issue .mcred r s
/-- rload. -/
def execRload (r : Rec) (s : State) : Out := issue .rload r s
/-- wload. -/
def execWload (r : Rec) (s : State) : Out := issue .wload r s
/-- wswap. -/
def execWswap (r : Rec) (s : State) : Out := issue .wswap r s
/-- mma. -/
def execMma (r : Rec) (s : State) : Out := issue .mma r s
/-- mmas. -/
def execMmas (r : Rec) (s : State) : Out := issue .mmas r s
/-- mdrain. -/
def execMdrain (r : Rec) (s : State) : Out := issue .mdrain r s
/-- mdrain, direct form. -/
def execMdrainDirect (r : Rec) (s : State) : Out := issue .mdrainDirect r s
/-- mzero. -/
def execMzero (r : Rec) (s : State) : Out := issue .mzero r s
/-- mchain. -/
def execMchain (r : Rec) (s : State) : Out := issue .mchain r s
/-- mcopy. -/
def execMcopy (r : Rec) (s : State) : Out := issue .mcopy r s
/-- tstore. -/
def execTstore (r : Rec) (s : State) : Out := issue .tstore r s
/-- tscatter. -/
def execTscatter (r : Rec) (s : State) : Out := issue .tscatter r s
/-- tred. -/
def execTred (r : Rec) (s : State) : Out := issue .tred r s
/-- rstore. -/
def execRstore (r : Rec) (s : State) : Out := issue .rstore r s
/-- rsig. -/
def execRsig (r : Rec) (s : State) : Out := issue .rsig r s
/-- xpush. -/
def execXpush (r : Rec) (s : State) : Out := issue .xpush r s

/-- RECORD_ACCEPT: a record that waited for room makes the rest of its checks in the cycle in which room appears. -/
def execRecordAccept (t : TileId) (c : CoreId) (s : State) : Out :=
  .next <|
    match (s.coreAt t.val c).wait with
    | .engineRoom k r =>
      if (s.tile t.val).hasRoom k.engine then issueNow ({ s with curTile := t, curCore := c } : State).unblock k r else s
    | _ => s

end Sys2Proof.Machine
end

