-- ==== Sys2Proof/Machine/Vector.lean ====
section
/-! DEFINITION. The vector unit of the X-core: panels, masks, and the format V instructions (11 R257 to R283; 04 R102,
R103). Each is one unit of two words; a fault in any lane leaves everything unchanged. -/
namespace Sys2Proof

/-- The row and the column of lane l (11 Table 11.1). -/
def VOpnd.elem (o : VOpnd) (l : Nat) : Nat × Nat :=
  match o.dir.val with
  | 0 => (o.idx.val, l)
  | 1 => (l, o.idx.val)
  | 2 => (l, (l + o.idx.val) % 16)
  | _ => (l / 16, l % 16)

/-- The key of an element in the panel store: 256 × panel + 16 × row + column. -/
def panelKey (p r c : Nat) : Nat := 256 * p + 16 * r + c

/-- The key of lane l of an operand. -/
def VOpnd.key (o : VOpnd) (l : Nat) : Nat := panelKey o.p.val (o.elem l).1 (o.elem l).2

/-- The scalar register that a field's P bits hold. -/
def VOpnd.reg (o : VOpnd) : Reg := o.p

end Sys2Proof

namespace Sys2Proof.Machine

/-! ## Operands, lanes and masks (11 R257 to R260) -/

/-- Mask k: k0 reads as all ones (08 R181). -/
def TileMem.maskOf (m : TileMem) (k : Nat) : BitVec 256 := if k = 0 then BitVec.allOnes 256 else SMap.get 0 m.mask k

/-- A write of mask k in which the words `whole` are written whole: k0 discards it; a word written whole loses its poison, a
narrower write leaves it (11 R260, 18 R430). -/
def TileMem.setMaskWords (m : TileMem) (k : Nat) (whole : List Nat) (v : BitVec 256) : TileMem :=
  if k = 0 then m else { m with mask := SMap.set 0 m.mask k v
                                maskBad := m.maskBad.filter fun i => !(decide (i / 8 = k) && whole.contains (i % 8))
                                maskCe := m.maskCe.filter fun i => !(decide (i / 8 = k) && whole.contains (i % 8)) }

/-- A write of the whole of mask k. -/
def TileMem.setMask (m : TileMem) (k : Nat) (v : BitVec 256) : TileMem := m.setMaskWords k (List.range 8) v

/-- The 32-bit words of a mask all of whose lanes are among `ls`. -/
def wholeWords (ls : List Nat) : List Nat :=
  (List.range 8).filter fun w => (List.range 32).all fun i => ls.contains (32 * w + i)

/-- The active lanes among the first `n`, in rising order (11 R259). -/
def TileMem.active (m : TileMem) (km n : Nat) : List Nat := (List.range n).filter fun l => (m.maskOf km).getLsbD l

/-- The value of an element. -/
def TileMem.elemAt (m : TileMem) (key : Nat) : Nat := (SMap.get 0 m.panel key).toNat

/-- Elements written: each write of a whole element clears its poison. -/
def TileMem.writeElems (m : TileMem) (l : List (Nat × Nat)) : TileMem :=
  l.foldl (fun m kv => { m with panel := SMap.set 0 m.panel kv.1 (BitVec.ofNat 32 kv.2)
                                panelBad := eraseNat m.panelBad kv.1, panelCe := eraseNat m.panelCe kv.1 }) m

/-- The running core's tile with its stores replaced. -/
def State.setMem (s : State) (m : TileMem) : State := s.setMe { s.me with mem := m }

/-- The place that DETAIL of UNCORRECTABLE names for a panel element or a word of a mask: its byte offset in the panels, the
masks after them (log 24). -/
def panelPlace (key : Nat) : Nat := 4 * key
def maskPlace (i : Nat) : Nat := 0x8000 + 4 * i

/-- The first poisoned word of a mask, or the first poisoned element, that an instruction reads, as its place. A mask that is
read is read whole. DESIGN CHOICE (log 96): 11 R260 does not say which of several poisoned sources DETAIL names: a g register comes first
(its read stands before this one), then a mask, then the elements in the order of the lanes, and within one in that of the operands. -/
def TileMem.vecPoison (m : TileMem) (masks keys : List Nat) : Option Nat :=
  match masks.findSome? (fun k => if k = 0 then none else m.maskBad.find? fun i => decide (i / 8 = k)) with
  | some i => some (maskPlace i)
  | none => if m.panelBad.isEmpty then none else (keys.find? m.panelBad.contains).map panelPlace

/-- A vector instruction: only the X-core runs it (08 R191), and only with the fields of 11 Table 11.2. -/
def vec (i : Instr) (s : State) (k : State → State) : Out :=
  .next (if s.curCore = .x ∧ i.wellFormed then k s else s.illegal i)

/-- A vector instruction that reads the scalar registers `rs`. -/
def vecG (i : Instr) (rs : List Reg) (s : State) (k : State → State) : Out :=
  if s.curCore = .x ∧ i.wellFormed then withSources rs s k else .next (s.illegal i)

/-- What the read of masks and elements finds: the correctable errors are corrected, written back and counted (18 R429). -/
def State.noteVec (s : State) (masks keys : List Nat) : State :=
  let m := s.me.mem
  match m.maskCe.filter (fun i => masks.contains (i / 8)), m.panelCe.filter keys.contains with
  | [], [] => s
  | a, b => (s.setMem { m with maskCe := m.maskCe.filter (!a.contains ·), panelCe := m.panelCe.filter (!b.contains ·) }).countCes
      s.curTile.val (a.length + b.length)

/-- What follows the read of masks and elements: UNCORRECTABLE where one is poisoned. -/
def State.vecRead (s : State) (masks keys : List Nat) (k : State → State) : State :=
  let s := s.noteVec masks keys
  match s.me.mem.vecPoison masks keys with
  | some a => (s.countUe s.curTile.val).fault Code.uncorrectable (uncDetail 2 a)
  | none => k s

/-- For each active lane of `dst`, the sources' lanes are read and `fn` of the lane and them is written. -/
def lanewise (km : Nat) (dst : VOpnd) (srcs : List VOpnd) (fn : Nat → List Nat → Nat) (s : State) : State :=
  let m := s.me.mem
  let ls := m.active km dst.lanes
  s.vecRead [km] (ls.flatMap fun l => srcs.map fun o => o.key l) fun s =>
    (s.setMem (s.me.mem.writeElems (ls.map fun l => (dst.key l, fn l (srcs.map fun o => m.elemAt (o.key l)))))).skip 8

/-! ## Rounding (08 R185, 11 R262) -/

/-- The mode and the SAT bit that RM selects. -/
def State.rmOf (s : State) (rm : Nat) : Nat × Bool :=
  if rm = 15 then (s.me.ctl.round % 8, bit s.me.ctl.round 3)
  else if 8 ≤ rm then (rm - 8, true) else (rm, false)

/-- The 24 bits of stochastic rounding for the destination element of lane l. -/
def vecRnd (key : Word) (vop : Nat) (dst : VOpnd) (l : Nat) : Nat :=
  srRnd key 0x03 (vop * 2 ^ 24 + dst.p.val * 2 ^ 16 + (dst.elem l).1 * 2 ^ 8 + (dst.elem l).2)

/-- A rounding instruction: the exact result of the lane values, given the mode, rounded once to FP32 (04 R102). -/
def rounding (vop : Nat) (f : VFields) (srcs : List VOpnd) (ex : Nat → List Val → Val) (s : State) : State :=
  let (mode, sat) := s.rmOf f.rm.val
  lanewise f.km.val f.vd srcs (fun l vs =>
    round entFp32 (ex mode (vs.map fp32)) mode (vecRnd s.me.ctl.srkey vop f.vd l) sat) s

/-- A function of one lane value. -/
def un (f : Val → Val) : Nat → List Val → Val := fun _ vs => f (vs.getD 0 .nan)

/-- A function of two lane values and the mode. -/
def bi (f : Nat → Val → Val → Val) : Nat → List Val → Val := fun m vs => f m (vs.getD 0 .nan) (vs.getD 1 .nan)

/-- A function of three lane values and the mode. -/
def tri (f : Nat → Val → Val → Val → Val) : Nat → List Val → Val :=
  fun m vs => f m (vs.getD 0 .nan) (vs.getD 1 .nan) (vs.getD 2 .nan)

/-- vadd: a + b. -/
def execVadd (f : VFields) (s : State) : Out :=
  vec (.vadd f) s (rounding 0x00 f [f.va, f.vb] (bi fun m a b => vsum m a b))
/-- vsub: a - b. -/
def execVsub (f : VFields) (s : State) : Out :=
  vec (.vsub f) s (rounding 0x01 f [f.va, f.vb] (bi fun m a b => vsum m a b.negate))
/-- vmul: a × b. -/
def execVmul (f : VFields) (s : State) : Out := vec (.vmul f) s (rounding 0x02 f [f.va, f.vb] (bi fun _ a b => a.mul b))
/-- vfma: a × b + c, rounded once. -/
def execVfma (f : VFields) (s : State) : Out :=
  vec (.vfma f) s (rounding 0x03 f [f.va, f.vb, f.vc] (tri fun m a b c => vsum m (a.mul b) c))
/-- vfms: a × b - c. -/
def execVfms (f : VFields) (s : State) : Out :=
  vec (.vfms f) s (rounding 0x04 f [f.va, f.vb, f.vc] (tri fun m a b c => vsum m (a.mul b) c.negate))
/-- vfnma: -(a × b) + c. -/
def execVfnma (f : VFields) (s : State) : Out :=
  vec (.vfnma f) s (rounding 0x05 f [f.va, f.vb, f.vc] (tri fun m a b c => vsum m (a.mul b).negate c))
/-- vrcp: 1 / a. -/
def execVrcp (f : VFields) (s : State) : Out := vec (.vrcp f) s (rounding 0x0A f [f.va] (un vrcpVal))
/-- vrsq: 1 / √a. -/
def execVrsq (f : VFields) (s : State) : Out := vec (.vrsq f) s (rounding 0x0B f [f.va] (un vrsqVal))
/-- vsqrt: √a. -/
def execVsqrt (f : VFields) (s : State) : Out := vec (.vsqrt f) s (rounding 0x0C f [f.va] (un vsqrtVal))
/-- vdiv: a / b. -/
def execVdiv (f : VFields) (s : State) : Out := vec (.vdiv f) s (rounding 0x0D f [f.va, f.vb] (bi fun _ a b => vquot a b))
/-- vexp2: 2^a. -/
def execVexp2 (f : VFields) (s : State) : Out := vec (.vexp2 f) s (rounding 0x0E f [f.va] (un vexp2Val))
/-- vlog2: log2 a. -/
def execVlog2 (f : VFields) (s : State) : Out := vec (.vlog2 f) s (rounding 0x0F f [f.va] (un vlog2Val))

/-! ## vmin, vmax, vabs, vneg (11 R266) -/

/-- The canonical FP32 NaN. -/
def nan32 : Nat := 0x7FC00000

/-- Whether a precedes b, with -0 less than +0; neither is NaN. -/
def fpLess (a b : Nat) : Bool :=
  (fp32 a).lt (fp32 b) || ((fp32 a).isZero && (fp32 b).isZero && bit a 31 && !bit b 31)

/-- The smaller, or the larger, of two FP32 words, unchanged. -/
def fpMin (a b : Nat) : Nat := if (fp32 a).isNan || (fp32 b).isNan then nan32 else if fpLess b a then b else a
def fpMax (a b : Nat) : Nat := if (fp32 a).isNan || (fp32 b).isNan then nan32 else if fpLess a b then b else a

/-- A raw function of one element, of two, of three. -/
def raw1 (f : Nat → Nat) : Nat → List Nat → Nat := fun _ vs => f (vs.getD 0 0)
def raw2 (f : Nat → Nat → Nat) : Nat → List Nat → Nat := fun _ vs => f (vs.getD 0 0) (vs.getD 1 0)

/-- vmin. -/
def execVmin (f : VFields) (s : State) : Out := vec (.vmin f) s (lanewise f.km.val f.vd [f.va, f.vb] (raw2 fpMin))
/-- vmax. -/
def execVmax (f : VFields) (s : State) : Out := vec (.vmax f) s (lanewise f.km.val f.vd [f.va, f.vb] (raw2 fpMax))
/-- vabs: bit 31 is cleared. -/
def execVabs (f : VFields) (s : State) : Out := vec (.vabs f) s (lanewise f.km.val f.vd [f.va] (raw1 fun a => a % 2 ^ 31))
/-- vneg: bit 31 is inverted. -/
def execVneg (f : VFields) (s : State) : Out := vec (.vneg f) s (lanewise f.km.val f.vd [f.va] (raw1 fun a => a ^^^ 2 ^ 31))

/-! ## Comparison and selection (11 R267, R268) -/

/-- The conditions of 11 Table 11.4. -/
def vcond (code a b : Nat) : Bool :=
  let x := fp32 a
  let y := fp32 b
  match code with
  | 0 => x.eq y
  | 1 => !x.eq y
  | 2 => x.lt y
  | 3 => x.lt y || x.eq y
  | 4 => x.isNan || y.isNan
  | 5 => a == b
  | 6 => decide (sInt 32 a < sInt 32 b)
  | _ => decide (a < b)

/-- The mask with the bits of some lanes replaced. -/
def setBits (v : BitVec 256) (l : List (Nat × Bool)) : BitVec 256 :=
  l.foldl (fun v lb => if lb.2 then v ||| (1#256 <<< lb.1) else v &&& ~~~(1#256 <<< lb.1)) v

/-- vcmp: bit l of kd for each active lane l. -/
def execVcmp (f : VFields) (s : State) : Out :=
  vec (.vcmp f) s fun s =>
    let m := s.me.mem
    let ls := m.active f.km.val f.va.lanes
    s.vecRead [f.km.val] (ls.flatMap fun l => [f.va.key l, f.vb.key l]) fun s =>
      (s.setMem (s.me.mem.setMaskWords f.vd.p.val (wholeWords ls) (setBits (m.maskOf f.vd.p.val)
        (ls.map fun l => (l, vcond f.vc.p.val (m.elemAt (f.va.key l)) (m.elemAt (f.vb.key l))))))).skip 8

/-- vsel: the raw element of a or b as kn says. DESIGN CHOICE (log 86): both are read in every lane that is written, so that a poisoned
element raises UNCORRECTABLE where kn does not select it too. -/
def execVsel (f : VFields) (s : State) : Out :=
  vec (.vsel f) s fun s =>
    s.vecRead [f.vc.p.val] [] (lanewise f.km.val f.vd [f.va, f.vb] (fun l vs =>
      if (s.me.mem.maskOf f.vc.p.val).getLsbD l then vs.getD 0 0 else vs.getD 1 0))

/-! ## Bitwise, shift and integer (11 R269, R270) -/

/-- vand. -/
def execVand (f : VFields) (s : State) : Out :=
  vec (.vand f) s (lanewise f.km.val f.vd [f.va, f.vb] (raw2 fun a b => a &&& b))
/-- vor. -/
def execVor (f : VFields) (s : State) : Out :=
  vec (.vor f) s (lanewise f.km.val f.vd [f.va, f.vb] (raw2 fun a b => a ||| b))
/-- vxor. -/
def execVxor (f : VFields) (s : State) : Out :=
  vec (.vxor f) s (lanewise f.km.val f.vd [f.va, f.vb] (raw2 fun a b => a ^^^ b))
/-- vshl. -/
def execVshl (f : VFields) (s : State) : Out :=
  vec (.vshl f) s (lanewise f.km.val f.vd [f.va, f.vb] (raw2 fun a b => a * 2 ^ (b % 32)))
/-- vshr. -/
def execVshr (f : VFields) (s : State) : Out :=
  vec (.vshr f) s (lanewise f.km.val f.vd [f.va, f.vb] (raw2 fun a b => a / 2 ^ (b % 32)))
/-- vsra. -/
def execVsra (f : VFields) (s : State) : Out :=
  vec (.vsra f) s (lanewise f.km.val f.vd [f.va, f.vb] (raw2 fun a b => uMod 32 (sInt 32 a / 2 ^ (b % 32))))

/-- A 32-bit result: modulo 2^32, or clamped where SAT is 1 (11 R270). -/
def wrapOrClamp (sat : Bool) (v : Int) : Nat :=
  if sat then uMod 32 (max (-(2 ^ 31)) (min v (2 ^ 31 - 1))) else uMod 32 v

/-- An integer instruction: its exact value, wrapped or clamped. -/
def integer (op : Int → Int → Int) (f : VFields) (s : State) : State :=
  let sat := (s.rmOf f.rm.val).2
  lanewise f.km.val f.vd [f.va, f.vb] (raw2 fun a b => wrapOrClamp sat (op (sInt 32 a) (sInt 32 b))) s

/-- viadd. -/
def execViadd (f : VFields) (s : State) : Out := vec (.viadd f) s (integer (· + ·) f)
/-- visub. -/
def execVisub (f : VFields) (s : State) : Out := vec (.visub f) s (integer (· - ·) f)
/-- vimul. -/
def execVimul (f : VFields) (s : State) : Out := vec (.vimul f) s (integer (· * ·) f)

/-! ## Conversion (11 R271) -/

/-- vcvt: from entry fs to entry fd, both KIND 0 or 1. DESIGN CHOICE: where both entries are unusable DETAIL names fs, and both are checked
before the poison of the mask and of the source, which 11 R271 does not list (log 77). -/
def execVcvt (f : VFields) (s : State) : Out :=
  vec (.vcvt f) s fun s =>
    let fmt := s.me.ctl.fmt
    match useEntry fmt f.vb.p.val [0, 1], useEntry fmt f.vc.p.val [0, 1] with
    | some d, _ => s.fault Code.illegalFormatEntry d
    | none, some d => s.fault Code.illegalFormatEntry d
    | none, none =>
      let g := entryOf fmt f.vb.p.val
      let t := entryOf fmt f.vc.p.val
      let (mode, sat) := s.rmOf f.rm.val
      lanewise f.km.val f.vd [f.va] (fun l vs =>
        convert g t (vs.getD 0 0 % 2 ^ Ent.width g) mode (vecRnd s.me.ctl.srkey 0x28 f.vd l) sat) s

/-! ## Broadcast and moves (11 R272, R273) -/


/-- vbcast md, ga. -/
def execVbcast (f : VFields) (s : State) : Out :=
  vecG (.vbcast f) [f.va.reg] s fun s => lanewise f.km.val f.vd [] (fun _ _ => (s.g f.va.reg).toNat % 2 ^ 32) s

/-- For each active lane of `dst`, the lane of `src` that `pick` names is read and written, raw. -/
def picking (km : Nat) (dst src : VOpnd) (pick : Nat → Nat) (s : State) : State :=
  let m := s.me.mem
  let ls := m.active km dst.lanes
  s.vecRead [km] (ls.map fun l => src.key (pick l)) fun s =>
    (s.setMem (s.me.mem.writeElems (ls.map fun l => (dst.key l, m.elemAt (src.key (pick l)))))).skip 8

/-- vbcast md, ma, rows: every row becomes a copy of the source. -/
def execVbcastRows (f : VFields) (s : State) : Out := vec (.vbcastRows f) s (picking f.km.val f.vd f.va (· % 16))
/-- vbcast md, ma, cols: every column becomes a copy of the source. -/
def execVbcastCols (f : VFields) (s : State) : Out := vec (.vbcastCols f) s (picking f.km.val f.vd f.va (· / 16))
/-- vmov md, ma. -/
def execVmov (f : VFields) (s : State) : Out := vec (.vmov f) s (picking f.km.val f.vd f.va id)

/-- vmov gd, ma, j: lane j, zero-extended. -/
def execVmovToG (f : VFields) (s : State) : Out :=
  vec (.vmovToG f) s fun s =>
    s.vecRead [] [f.va.key f.vb.idx.val] fun s =>
      (s.setG f.vd.reg (BitVec.ofNat 64 (s.me.mem.elemAt (f.va.key f.vb.idx.val)))).skip 8

/-- vmov md, j, ga: the low 32 bits into lane j. -/
def execVmovFromG (f : VFields) (s : State) : Out :=
  vecG (.vmovFromG f) [f.va.reg] s fun s =>
    (s.setMem (s.me.mem.writeElems [(f.vd.key f.vb.idx.val, (s.g f.va.reg).toNat % 2 ^ 32)])).skip 8

/-! ## Scratchpad access (11 R274, R275) -/

/-- The address of lane l of an `n`-lane access. -/
def laneAddr (n : Nat) (a b : Word) (l : Nat) : Nat :=
  if n = 16 then (a + BitVec.ofNat 64 l * b).toNat
  else (a + BitVec.ofNat 64 (l / 16) * b + BitVec.ofNat 64 (4 * (l % 16))).toNat

/-- SCRATCH_BOUNDS for any active lane, then ALIGNMENT for any: the code and the address. -/
def laneFault (as : List Nat) : Option (Nat × Nat) :=
  match as.find? (fun a => decide (scratchSize < a + 4)) with
  | some a => some (Code.scratchBounds, a)
  | none => (as.find? (fun a => decide (a % 4 ≠ 0))).map fun a => (Code.alignment, a)

/-- The first word that some lanes cannot read, or write. -/
def Tile.laneUnreadable (x : Tile) (as : List Nat) : Option Nat := as.findSome? fun a => x.readFails a 4
def Tile.laneRetired (x : Tile) (as : List Nat) : Option Nat := as.findSome? fun a => x.retiredHit a 4

/-- What the loads of some lanes find in their words (18 R429). -/
def State.noteLanes (s : State) : List Nat → State
  | [] => s
  | a :: as =>
    let s := s.noteRead s.curTile.val a 4
    if (s.me.readFails a 4).isSome then s else State.noteLanes s as

/-- vld. DESIGN CHOICE (log 87): a poisoned mask or address register is met before the checks of the addresses. -/
def execVld (f : VFields) (s : State) : Out :=
  vecG (.vld f) [f.va.reg, f.vb.reg] s fun s =>
    let m := s.me.mem
    let ls := m.active f.km.val f.vd.lanes
    let addr := laneAddr f.vd.lanes (s.g f.va.reg) (s.g f.vb.reg)
    s.vecRead [f.km.val] [] fun s =>
      match laneFault (ls.map addr) with
      | some (code, a) => s.faultA 0 code a
      | none =>
        let s := s.noteLanes (ls.map addr)
        match s.me.laneUnreadable (ls.map addr) with
        | some w => s.faultA 0 Code.uncorrectable (uncDetail 0 w)
        | none => (s.setMem (s.me.mem.writeElems (ls.map fun l => (f.vd.key l, m.scratch.readLE (addr l) 4)))).skip 8

/-- vst: lanes in ascending order, so the higher lane's write stands. DESIGN CHOICE (log 87): a poisoned mask or address register is met before
the checks of the addresses, and a retired bank before a poisoned source element. -/
def execVst (f : VFields) (s : State) : Out :=
  vecG (.vst f) [f.va.reg, f.vb.reg] s fun s =>
    let m := s.me.mem
    let ls := m.active f.km.val f.vd.lanes
    let addr := laneAddr f.vd.lanes (s.g f.va.reg) (s.g f.vb.reg)
    s.vecRead [f.km.val] [] fun s =>
      match laneFault (ls.map addr) with
      | some (code, a) => s.faultA 1 code a
      | none => match s.me.laneRetired (ls.map addr) with
        | some w => s.faultA 1 Code.uncorrectable (uncDetail 0 w)
        | none => s.vecRead [] (ls.map f.vd.key) fun s =>
          let s := s.beforePlainWrite
          (s.setMem (ls.foldl (fun x l => x.writeScratch (addr l) (leBytes (m.elemAt (f.vd.key l)) 4)) s.me.mem)).skip 8

/-! ## Reductions and scans (11 R276 to R278) -/

/-- The result where no lane is present (11 Table 11.5). -/
def ropEmpty (rop : Nat) : Nat := [0, 0xFF800000, 0x7F800000, 0, 0x80000000, 0x7FFFFFFF].getD rop 0

/-- Combine(x, y) of 11 Table 11.5, for the operations that take steps. -/
def combine (rop mode : Nat) (sat : Bool) (x y : Nat) : Nat :=
  match rop with
  | 0 => round entFp32 (vsum mode (fp32 x) (fp32 y)) mode 0 sat
  | 1 => fpMax x y
  | 2 => fpMin x y
  | 4 => if sInt 32 x < sInt 32 y then y else x
  | _ => if sInt 32 y < sInt 32 x then y else x

/-- A value as it enters: under fadd, fmax and fmin a NaN becomes the canonical one. -/
def ropEnter (rop x : Nat) : Nat := if rop ≤ 2 ∧ (fp32 x).isNan then nan32 else x

/-- One level of the tree: neighbours combined, an absent one passing the other through. -/
def treeLevel (f : Nat → Nat → Nat) : List (Option Nat) → List (Option Nat)
  | none :: y :: l => y :: treeLevel f l
  | x :: none :: l => x :: treeLevel f l
  | some x :: some y :: l => some (f x y) :: treeLevel f l
  | l => l

/-- The exact sum of the present values as two's complement. -/
def presentSum (l : List (Option Nat)) : Int := l.foldl (fun a o => a + (o.map (sInt 32)).getD 0) 0

/-- The result of one group of 16 lanes (11 R277). -/
def reduceGroup (rop mode : Nat) (sat : Bool) (l : List (Option Nat)) : Nat :=
  if rop = 3 then wrapOrClamp sat (presentSum l)
  else
    let t := treeLevel (combine rop mode sat)
    match (t (t (t (t (l.map (Option.map (ropEnter rop))))))).headD none with
    | some v => v
    | none => ropEmpty rop

/-- The prefixes of one group (11 R278). -/
def scanGroup (rop mode : Nat) (sat : Bool) : Option Nat → Int → List (Option Nat) → List Nat
  | _, _, [] => []
  | acc, sum, o :: l =>
    let sum := sum + (o.map (sInt 32)).getD 0
    let acc := match acc, o with
      | none, o => o.map (ropEnter rop)
      | some a, some v => some (combine rop mode sat a (ropEnter rop v))
      | a, none => a
    (if rop = 3 then wrapOrClamp sat sum else acc.getD (ropEmpty rop)) :: scanGroup rop mode sat acc sum l

/-- The lanes of group r of an operand with absent ones marked, under a mask. -/
def TileMem.group (m : TileMem) (km : Nat) (o : VOpnd) (r : Nat) : List (Option Nat) :=
  (List.range 16).map fun l => if (m.maskOf km).getLsbD (16 * r + l) then some (m.elemAt (o.key (16 * r + l))) else none

/-- What `vred` and `vscan` share: SR is ILLEGAL_INSTRUCTION; the present lanes are read. -/
def reducing (i : Instr) (f : VFields) (k : Nat → Bool → State → State) (s : State) : State :=
  let (mode, sat) := s.rmOf f.rm.val
  if mode = 4 then s.illegal i
  else s.vecRead [f.km.val] ((s.me.mem.active f.km.val f.va.lanes).map f.va.key) (k mode sat)

/-- vred. -/
def execVred (f : VFields) (s : State) : Out :=
  vec (.vred f) s (reducing (.vred f) f fun mode sat s =>
    let m := s.me.mem
    (s.setMem (m.writeElems ((List.range (f.va.lanes / 16)).map fun r =>
      (f.vd.key r, reduceGroup f.vc.p.val mode sat (m.group f.km.val f.va r))))).skip 8)

/-- vscan. -/
def execVscan (f : VFields) (s : State) : Out :=
  vec (.vscan f) s (reducing (.vscan f) f fun mode sat s =>
    let m := s.me.mem
    (s.setMem (m.writeElems ((List.range (f.va.lanes / 16)).flatMap fun r =>
      ((scanGroup f.vc.p.val mode sat none 0 (m.group f.km.val f.va r)).zipIdx).map fun vi =>
        (f.vd.key (16 * r + vi.2), vi.1)))).skip 8)

/-! ## Permutation, transposition, indices, random bits (11 R279 to R281) -/

/-- vperm: lane l takes the lane of ma that lane l of mb names. -/
def execVperm (f : VFields) (s : State) : Out :=
  vec (.vperm f) s fun s =>
    let m := s.me.mem
    let ls := m.active f.km.val f.vd.lanes
    let pick := fun l => m.elemAt (f.vb.key l) % f.vd.lanes
    s.vecRead [f.km.val] (ls.map f.vb.key) fun s => picking f.km.val f.vd f.va pick s

/-- vtrans: element (r, c) takes element (c, r). -/
def execVtrans (f : VFields) (s : State) : Out :=
  vec (.vtrans f) s (picking f.km.val f.vd f.va fun l => l % 16 * 16 + l / 16)

/-- vidx: (a[31:0] + l) mod 2^32. -/
def execVidx (f : VFields) (s : State) : Out :=
  vecG (.vidx f) [f.va.reg] s fun s =>
    lanewise f.km.val f.vd [] (fun l _ => ((s.g f.va.reg).toNat % 2 ^ 32 + l) % 2 ^ 32) s

/-- vrng: generator output under DOMAIN 0x04. -/
def execVrng (f : VFields) (s : State) : Out :=
  vecG (.vrng f) [f.va.reg, f.vb.reg, f.vc.reg] s fun s =>
    lanewise f.km.val f.vd [] (fun l _ =>
      field (rand (s.g f.va.reg).toNat (0x04 * 2 ^ 120 + (s.g f.vb.reg).toNat % 2 ^ 56 * 2 ^ 64 +
        ((s.g f.vc.reg).toNat + l / 4) % 2 ^ 64)) (32 * (l % 4)) 32) s

/-! ## Mask instructions (11 R282) -/

/-- A mask written with a function of masks that it reads. -/
def maskOp (srcs : List Nat) (kd : Nat) (v : TileMem → BitVec 256) (s : State) : State :=
  s.vecRead srcs [] fun s => (s.setMem (s.me.mem.setMask kd (v s.me.mem))).skip 8

/-- kand. -/
def execKand (f : VFields) (s : State) : Out :=
  vec (.kand f) s (maskOp [f.va.p.val, f.vb.p.val] f.vd.p.val fun m => m.maskOf f.va.p.val &&& m.maskOf f.vb.p.val)
/-- kor. -/
def execKor (f : VFields) (s : State) : Out :=
  vec (.kor f) s (maskOp [f.va.p.val, f.vb.p.val] f.vd.p.val fun m => m.maskOf f.va.p.val ||| m.maskOf f.vb.p.val)
/-- knot. -/
def execKnot (f : VFields) (s : State) : Out :=
  vec (.knot f) s (maskOp [f.va.p.val] f.vd.p.val fun m => ~~~m.maskOf f.va.p.val)
/-- kpop: the number of 1 bits, 0 to 256. -/
def execKpop (f : VFields) (s : State) : Out :=
  vec (.kpop f) s fun s => s.vecRead [f.va.p.val] [] fun s =>
    (s.setG f.vd.reg (BitVec.ofNat 64 (popCount (s.me.mem.maskOf f.va.p.val).toNat 256))).skip 8

end Sys2Proof.Machine
end

