-- ==== Sys2Proof/Machine/Engine.lean ====
section
/-! DEFINITION. Operations on their engine: rows of the ponds, tokens, terminal states, faults (02 R43 to R49; 06 R140, R148;
12 R290, R291, R308; 13 R320, R336). -/
namespace Sys2Proof.Machine

/-! ## The loop nest (12 R290) -/

/-- The iteration vector of the operation. -/
def Op.ivec (o : Op) : List Nat := ivecOf o.rcd.trips o.t

/-- Σ i_j × S_j over given strides. -/
def dotNat : List Nat → List Int → Int
  | i :: is, t :: ts => (i : Int) * t + dotNat is ts
  | _, _ => 0

/-- The sum of an operand's strides at the iteration. -/
def Op.stride (o : Op) (x : Opd) : Int := dotNat o.ivec ((o.rcd.strides x).map (·.toInt))

/-- The counter of stochastic rounding at the iteration, for element `e` (12 R308). -/
def srCoord (opc : Nat) (iv : List Nat) (e : Nat) : Nat :=
  opc * 2 ^ 112 + iv.getD 3 0 * 2 ^ 96 + iv.getD 2 0 * 2 ^ 80 + iv.getD 1 0 * 2 ^ 64 + iv.getD 0 0 * 2 ^ 48 + e

/-- The mode and the SAT bit of the record's RM, 15 from `ctl.round` as latched (12 R286). -/
def Op.rm (o : Op) : Nat × Bool :=
  let rm := o.rcd.rm.toNat
  if rm = 15 then (o.latch.round % 8, bit o.latch.round 3) else if 8 ≤ rm then (rm - 8, true) else (rm, false)

/-- One rounding of the operation: element `e` of its iteration into format `f`. -/
def Op.round (o : Op) (domain f : Nat) (iv : List Nat) (e : Nat) (v : Val) : Nat :=
  let (mode, sat) := o.rm
  Machine.round f v mode (if mode = 4 then srRnd o.latch.srkey domain (srCoord o.kind.opc iv e) else 0) sat

/-! ## Rows of a pond (12 R291, 05 R114) -/

/-- One unit of a row: its scratchpad offset and the pond whose bank holds it. -/
structure UnitAt where
  off : Nat
  pond : Nat
  deriving DecidableEq, Repr

/-- The units of a row of `n` units at ring offset `u`, data unit by data unit; `perm r k` is the place of unit k of row r.
None where the row runs past its slot. -/
def ringRow (l : Latch) (h : Nat) (u : Int) (n : Nat) (perm : Nat → Nat → Nat) : Option (List UnitAt) :=
  let p := Hnd.pond h
  let size := slotBytes l.ponds p / 64
  let us := intMod size u
  let slot := intMod (Pond.slots (pondOf l.ponds p)) (Hnd.slot h + u / (size : Int))
  if size < us + n then none
  else some ((List.range n).map fun k =>
    let j := us + perm (us / n) k
    { off := slotByte l.ponds p slot (64 * j), pond := p + j % groupSize l.ponds p })

/-- The permutation of a matrix handle: PEN, RSHIFT, XM. -/
def handlePerm (h : Nat) (r k : Nat) : Nat :=
  if Hnd.pen h then k ^^^ (r / 2 ^ Hnd.rshift h &&& (2 ^ Hnd.xm h - 1)) else k

/-- A fault of an iteration or of a start. -/
def opRec (code detail access : Nat) : FaultRec := { code := code, detail := detail, access := access }

/-- The units of a row of `bytes` bytes of a matrix operand at ring offset `u`: SCRATCH_BOUNDS where it runs past its slot. -/
def Op.row (o : Op) (x : Opd) (u : Int) (bytes : Nat) (s : State) : Res (List UnitAt) :=
  match ringRow o.latch (o.rcd.h x) u (unitsOf bytes) (handlePerm (o.rcd.h x)) with
  | some l => (.ok l, s)
  | none => Res.stop (opRec Code.scratchBounds (uMod 64 u) (if x = .d then 1 else 0)) s

/-- The bytes of a row, `n` in all; or the first word that is poisoned or in a retired bank. -/
def Tile.rowRead (x : Tile) : List UnitAt → Nat → Except Nat (List Byte)
  | [], _ => .ok []
  | u :: us, n =>
    let k := min 64 n
    if k = 0 then .ok []
    else match x.readFails u.off k with
      | some w => .error w
      | none => match Tile.rowRead x us (n - k) with
        | .ok l => .ok (x.mem.scratch.bytes u.off k ++ l)
        | .error w => .error w

/-- What a read of a row finds in its words (18 R429): unit by unit, up to the first that cannot be read. -/
def State.noteRow (s : State) (t : Nat) : List UnitAt → Nat → State
  | [], _ => s
  | u :: us, n =>
    let k := min 64 n
    if k = 0 then s
    else
      let s := s.noteRead t u.off k
      if ((s.tile t).readFails u.off k).isSome then s else State.noteRow s t us (n - k)

/-- The bytes of a row read by an operation: UNCORRECTABLE where a word of it is poisoned. -/
def readRow (t : Nat) (us : List UnitAt) (n : Nat) (s : State) : Res (List Byte) :=
  let s := s.noteRow t us n
  match (s.tile t).rowRead us n with
  | .ok l => (.ok l, s)
  | .error w => Res.stop (opRec Code.uncorrectable (uncDetail 0 w) 0) s

/-- Whether a row can be written: no unit lies in a retired bank (17 R378). -/
def rowWritable (t : Nat) (us : List UnitAt) (s : State) : Res Unit :=
  match us.findSome? fun u => (s.tile t).retiredHit u.off 64 with
  | some w => Res.stop (opRec Code.uncorrectable (uncDetail 0 w) 1) s
  | none => (.ok (), s)

/-- A row written, unit by unit. -/
def State.writeRow (s : State) (t : Nat) : List UnitAt → List Byte → State
  | [], _ => s
  | u :: us, l => if l.isEmpty then s else State.writeRow (s.writeScratch t u.off (l.take 64)) t us (l.drop 64)

/-! ## Packed elements (03 R64, R80) -/

/-- Codes packed by bit, the first in the lowest bits, as one number. -/
def packNat (w : Nat) : List Nat → Nat
  | [] => 0
  | c :: cs => c % 2 ^ w + 2 ^ w * packNat w cs

/-- Codes packed into bytes. -/
def packBytes (w : Nat) (cs : List Nat) : List Byte := leBytes (packNat w cs) (ceilDiv (cs.length * w) 8)

/-- Code `j` of a packed row. -/
def codeAt (row w j : Nat) : Nat := field row (w * j) w

/-- The bytes lengthened with zeros to a multiple of 64. -/
def padUnits (l : List Byte) : List Byte := l ++ List.replicate (64 * unitsOf l.length - l.length) 0

/-- Whether an element of a row laid out as entry `f` has can decode as entry `g` says: the widths agree, and `g` needs no scale
or the row's scales are its own. -/
def fitsRow (f g : Nat) : Bool :=
  decide (Ent.width g = Ent.width f) &&
  (decide (Ent.kind g ≤ 1) || (decide (Ent.kind g = Ent.kind f) && decide (Ent.blen g = Ent.blen f)))

/-- The entry that element `j` of a row decodes by (03 R83): that of the bank that holds its first bit, where the row's layout,
which follows its own format `f`, lets it; else a free entry, since the rule does not say how an element is laid out whose bank's entry
does not fit the row. Nor does it say which bank holds a 6-bit element whose bits lie in two units of different banks: DESIGN CHOICE
(log 33). -/
def Op.elemEntry (o : Op) (x : Opd) (f : Nat) (us : List UnitAt) (j : Nat) : Nat :=
  if o.rcd.ov x then f
  else match us[j * Ent.width f / 512]? with
    | none => f
    | some u =>
      let g := entryOf o.latch.fmt (o.latch.bankIdx u.pond)
      if fitsRow f g && (useEntry o.latch.fmt (o.latch.bankIdx u.pond) [0, 1, 2, 3]).isNone then g
      else Config.misfitEntry [o.seq, o.t, j, f, g]

/-- The scale entry of a scaled format. -/
def scaleEntry (fmt : SMap Word) (f : Nat) : Nat := entryOf fmt (Ent.sfmt f)

/-- The value of element `j` of a row of `n` elements of format `f`, by entry `g` (03 R61 to R65, R80). -/
def rowVal (fmt : SMap Word) (row n f g j : Nat) : Val :=
  let c := codeAt row (Ent.width f) j
  if Ent.kind g = 2 then
    decodeScaled g (scaleEntry fmt g) c (field row (8 * (codeBytes n (Ent.width f) + j / Ent.block f)) 8)
  else decodeElem g c

/-- The code that an element becomes in a place of entry `gd`, from code `c` and value `v` of entry `gs`: raw where the
entries are equal, else one rounding (03 R77, R78). -/
def Op.convert (o : Op) (gs gd j c : Nat) (v : Val) : Nat :=
  if gs = gd ∨ 2 ≤ Ent.kind gd then c else o.round 0x02 gd o.ivec j v

/-! ## Tokens and terminal states (02 R45 to R47, 06 R140, R148, Table 6.3) -/

/-- How an operation ends. -/
inductive OpEnd where | retired | faulted | cancelled
  deriving DecidableEq, Repr

/-- The state code (10 Table 10.5). -/
def OpEnd.code : OpEnd → Nat
  | .retired => 2
  | .faulted => 3
  | .cancelled => 4

/-- The token of an operation that retires or is cancelled: none where the completion queue is 31. -/
def Op.endToken (o : Op) (e : Engine) (how : OpEnd) : Option W32 :=
  if o.rcd.cq.toNat = 31 then none
  else some <| BitVec.ofNat 32 <|
    match how with
    | .cancelled => 7 * 2 ^ 28 + e.num * 2 ^ 26 + o.seq % 2 ^ 24
    | _ => match o.rcd.tok.toNat with
      | 3 => 3 * 2 ^ 28 + e.num * 2 ^ 26 + o.seq % 2 ^ 24
      | 4 => 4 * 2 ^ 28 + o.rcd.cpay.toNat
      | k => k * 2 ^ 28 + o.rcd.cpay.toNat + Pond.gen (pondOf o.latch.ponds (field o.rcd.cpay.toNat 24 4)) * 2 ^ 21

/-- The ERROR token of a fault code. -/
def Op.errorToken (o : Op) (e : Engine) (code : Nat) : W32 :=
  BitVec.ofNat 32 (5 * 2 ^ 28 + code % 64 * 2 ^ 22 + e.num * 2 ^ 20 + o.seq % 2 ^ 20)

/-- The sequence number that a drain source names: the most recent at issue with those low 16 bits (13 R328). 0 is no record's
(02 R44), so low bits of 0 right after the wrap name the record stamped 0xFFFF_0000. -/
def Op.drainSeq (o : Op) : Nat :=
  match (o.mlast + 2 ^ 32 - (o.mlast % 2 ^ 16 + 2 ^ 16 - o.rcd.h .a % 2 ^ 16) % 2 ^ 16) % 2 ^ 32 with
  | 0 => 2 ^ 32 - 2 ^ 16
  | q + 1 => q + 1

/-- The pin that a store names: the one it took at its start, or, where it has not started and no store that has names it, the one
its A handle names (12 R309, 13 R328; log 47). -/
def Op.namedPin (o : Op) (g : Eng) : Option Nat :=
  match o.started.pin with
  | some q => some q
  | none => if o.drainForm && !g.ops.any (fun p => p.started.pin == some o.drainSeq) then some o.drainSeq else none

/-- Whether a pin outlasts its store: one that ends FAULTED keeps it (12 R309). -/
def OpEnd.keepsPin (how : OpEnd) : Bool := decide (how = .faulted)

/-- The operation leaves its engine in a terminal state; the engine keeps which (10 R240). A store that retires or is cancelled
releases the pin it named (12 R309, 13 R328). -/
def State.endOp (s : State) (t : Nat) (e : Engine) (o : Op) (how : OpEnd) : State :=
  let x := s.tile t
  let g := x.eng e
  let x := x.setEng e { g with ops := g.ops.filter (·.seq != o.seq), lastTerm := o.seq, ended := true
                               fin := SMap.set 2 g.fin o.seq how.code }
  match o.namedPin g with
  | some q => s.setTile t (if how.keepsPin then x else { x with mem := { x.mem with pins := x.mem.pins.filter (·.seq != q) } })
  | none => s.setTile t x

/-- An operation changed in place. -/
def State.setOp (s : State) (t : Nat) (e : Engine) (o : Op) : State := s.setEngAt t e ((s.engAt t e).mapOp o.seq fun _ => o)

/-- Retirement or cancellation and the push of its token are one event; a full queue keeps the token pending, unless the
attempt has ended: then the token is discarded (02 R49). An operation that is cancelled while QUEUED stays QUEUED until its CANCEL
token is appended: 06 R140 speaks of an operation that stays RUNNING (log 62). -/
def State.finishOp (s : State) (t : Nat) (e : Engine) (o : Op) (how : OpEnd) : State :=
  match o.endToken e how with
  | none => s.endOp t e o how
  | some w =>
    let q := (s.tile t).queueAt o.rcd.cq.toNat
    if q.full then
      if (s.tile t).life.rest = some .ending then s.endOp t e o how
      else s.setOp t e { o with t := o.rcd.total, token := some w, cancel := false, wait := .none }
    else (s.setQueue t o.rcd.cq.toNat (q.push w)).endOp t e o how

/-! ## Faults of an operation (06 R146, 18 R421, 13 R336) -/

/-- The iteration vector as IVEC holds it. -/
def packIvec (l : List Nat) : Nat := l.getD 0 0 + l.getD 1 0 * 2 ^ 16 + l.getD 2 0 * 2 ^ 32 + l.getD 3 0 * 2 ^ 48

/-- The units of the destination row of a load's iteration, permuted by its layout record (13 R320). -/
def Op.loadUnits (o : Op) : Option (List UnitAt) :=
  match o.started.layout, o.started.transfer with
  | some d, some b =>
    ringRow o.latch (o.rcd.h .d) (o.stride .d) (unitsOf (rowBytes b.len (o.latch.fmtOf o.rcd .d))) (permUnit d.perm)
  | _, _ => none

/-- A load under the poisoning policy poisons every word of its destination row: the words are written, so an error that lay in them unread is gone
(13 R336). -/
def State.poisonRow (s : State) (t : Nat) (o : Op) : State :=
  match o.kind with
  | .rload => go (o.loadUnits.getD []) s
  | .mcred => go (o.loadUnits.getD []) s
  | _ => s
where
  /-- Each unit's sixteen words. -/
  go (us : List UnitAt) (s : State) : State :=
    let x := s.tile t
    let ws := us.flatMap fun u => (List.range 16).map (u.off + 4 * ·)
    s.setTile t { x with mem := { x.mem with
      scratchBad := ws.foldl insertNat x.mem.scratchBad, scratchLatent := ws.foldl eraseNat x.mem.scratchLatent } }

/-- Whether a fault runs under the poisoning policy. -/
def Op.poisons (o : Op) (code : Nat) : Bool :=
  (decide (code = Code.fabricPeerAbsent) || decide (code = Code.fabricTimeout)) &&
  (match o.started.transfer with
   | some b => b.poison
   | none => false)

/-- An operation faults: it becomes FAULTED at its iteration and its tile drains. A fault that the tile cannot record
suspends it instead; of two of one cycle the first in the order of 18 R421 is recorded. -/
def State.opFault (s : State) (t : Nat) (e : Engine) (o : Op) (f : FaultRec) : State :=
  let o := { o with wait := .none, inIter := false }
  let f := { f with source := 1, unit := e.num, handle := handleNum e o.seq, ivec := packIvec o.ivec }
  let s := s.setTile t ((s.tile t).settle t s.seiche f)
  if (s.tile t).life.fault.isSome then s.setOp t e { o with suspended := true }
  else
    let s := if o.poisons f.code then s.poisonRow t o else s
    let q := (s.tile t).queueAt o.rcd.cq.toNat
    let s :=
      if o.poisons f.code && decide (o.rcd.cq.toNat ≠ 31) then
        if q.full then s.setOp t e { o with state := .faulted, token := some (o.errorToken e f.code) }
        else (s.setQueue t o.rcd.cq.toNat (q.push (o.errorToken e f.code))).setOp t e { o with state := .faulted }
      else s.setOp t e { o with state := .faulted }
    s.takeFault t f

/-- SCHEDULE_MISS at a start (12 R295). -/
def State.missOp (s : State) (t : Nat) (e : Engine) (o : Op) (tick : Nat) : State :=
  (s.opFault t e o (opRec Code.scheduleMiss tick 0)).traceMiss t (3 + e.num) o.seq (s.seiche - tick)

end Sys2Proof.Machine
end

