-- ==== Sys2Proof/Machine/Matrix.lean ====
section
/-! DEFINITION. The matrix engine: passes under the numerics profiles, planes, drains, clears, copies and chains
(03 R79 to R82; 04 R89 to R101; 12 R293, R299 to R315). -/
namespace Sys2Proof.Machine

/-! ## Accumulation (04 R94, R95, R98) -/

/-- The rounded sum of an accumulator value and terms: profile 1. -/
def accExact (acc : Val) (blocks : List (List Val)) : Nat := roundFp32 (Val.sum acc blocks.flatten)

/-- The exact sum of a block, rounded; an empty block gives +0. -/
def blockSum : List Val → Val
  | [] => Val.zero
  | a :: l => fp32 (roundFp32 (Val.sum a l))

/-- Rounded sums, one addition at a time. -/
def foldRounded (a : Val) : List Val → Val
  | [] => a
  | x :: l => foldRounded (fp32 (roundFp32 (a.add x))) l

/-- Profile 2: each block rounded, the block sums added in order, then the accumulator. -/
def accBlocks (acc : Val) (blocks : List (List Val)) : Nat :=
  match blocks.map blockSum with
  | [] => roundFp32 acc
  | b :: bs => roundFp32 (acc.add (foldRounded b bs))

/-- A sum inside the tree of profile 0, rounded RNE to a format of at least 24 significand bits and the FP32 exponent range, as
`Config.treeRound` codes it: every rounding of 04 Table 4.2 is RNE. -/
def roundNode (code : Nat) (v : Val) : Val :=
  match v with
  | .fin neg m e =>
    if m = 0 then v
    else
      let p : Nat := 23 + code / 64
      let bias : Int := 2 ^ (7 + code % 64) - 1
      let ex := max (1 - bias) (valLog m e)
      let n := gridInt m e (ex - p) neg 0 0
      if bias < valLog n (ex - p) then .inf neg else .fin neg n (ex - p)
  | _ => v

/-- The tree of profile 0: two addends combined at each step, until one is left. The last sum is the root and stays exact here:
`accumulate` rounds it once, RNE to FP32. -/
def treeSum (op : Nat) (f g : Word) : Nat → Nat → List Val → Val
  | 0, _, l => l.headD Val.zero
  | _ + 1, _, [] => Val.zero
  | _ + 1, _, [x] => x
  | fuel + 1, n, l =>
    let i := Config.treePick op f g (2 * n) l.length % l.length
    let l' := l.eraseIdx i
    let j := Config.treePick op f g (2 * n + 1) l'.length % l'.length
    let x := (l.getD i Val.zero).add (l'.getD j Val.zero)
    let rest := l'.eraseIdx j
    treeSum op f g fuel (n + 1) ((match if rest.isEmpty then none else Config.treeRound op f g n with
      | some code => roundNode code x
      | none => x) :: rest)

/-- Accumulate(profile, acc, T) for an FP32 accumulator word (04 Table 4.2). -/
def accumulate (prof op : Nat) (f g : Word) (acc : Nat) (blocks : List (List Val)) : Nat :=
  match prof with
  | 0 => let l := fp32 acc :: blocks.flatten
    roundFp32 (treeSum op f g l.length 0 l)
  | 2 => accBlocks (fp32 acc) blocks
  | _ => accExact (fp32 acc) blocks

/-- Accumulation into an INT32 word (04 R98). -/
def accInt (sat : Bool) (acc : Nat) (sum : Int) : Nat := wrapOrClamp sat (sInt 32 acc + sum)

/-- Consecutive pieces of `n` elements. -/
def chunks {α : Type} (n : Nat) : Nat → List α → List (List α)
  | 0, _ => []
  | fuel + 1, l => if l.isEmpty then [] else l.take n :: chunks n fuel (l.drop n)

/-! ## What a plane holds -/

/-- The code of plane row `k`, column `n`. -/
def Plane.code (p : Plane) (k n : Nat) : Nat := (SMap.get 0 p.codes (128 * k + n)).toNat

/-- Whether the weight of plane row `k`, column `n`, came from a bank that named another entry than the plane's (03 R83). -/
def Plane.apart (p : Plane) (k n : Nat) : Bool := decide (SMap.get 0 p.ents (128 * k + n) ≠ 0)

/-- The entry that a weight decodes by, and its scale entry. -/
def Plane.ent (p : Plane) (k n : Nat) : Nat := (if p.apart k n then SMap.get 0 p.ents (128 * k + n) else p.fmt).toNat
def Plane.scaleEnt (p : Plane) (k n : Nat) : Nat := (if p.apart k n then SMap.get 0 p.sents (128 * k + n) else p.sfmt).toNat

/-- The value of a weight where the plane's terms are values. -/
def Plane.val (p : Plane) (k n : Nat) : Val :=
  let f := p.ent k n
  if Ent.kind f = 2 then
    decodeScaled f (p.scaleEnt k n) (p.code k n) (p.scale.byte (128 * (k / Ent.block p.fmt.toNat) + n)).toNat
  else decodeElem f (p.code k n)

/-- The integer of a weight where the plane's terms are integers: an element of another KIND than the plane's has none that the spec
states (log 33). -/
def Plane.int (p : Plane) (k n : Nat) : Int :=
  let f := p.ent k n
  if Ent.kind f = Ent.kind p.fmt.toNat then decodeInt f (p.code k n) else Config.mixedWeight f (p.code k n)

/-- The index of value i of group h in column n (04 R99). -/
def Plane.index (p : Plane) (h n i : Nat) : Nat := field (p.meta_.readLE (8 * (128 * h + n)) 8) (5 * i) 5

/-! ## Terms (04 R92, R93, R100) -/

/-- The dense terms of column `n`, in blocks of 32 K positions. -/
def denseTerms (p : Plane) (x : List Val) (n : Nat) : List (List Val) :=
  chunks 32 4 ((List.range 128).map fun k => (x.getD k Val.zero).mul (p.val k n))

/-- The sparse pairs of group `h` in column `n`: the index and the plane row, sorted by index, ties in stored order. -/
def sparsePairs (p : Plane) (h n : Nat) : List (Nat × Nat) :=
  let l := (List.range (spN p.sp)).map fun i => (p.index h n i, spN p.sp * h + i)
  (List.range 32).flatMap fun idx => l.filter fun a => a.1 == idx

/-- The sparse terms of column `n`, one block a group. -/
def sparseTerms (p : Plane) (x : List Val) (n : Nat) : List (List Val) :=
  (List.range (spGroups p.sp)).map fun h =>
    (sparsePairs p h n).map fun a => if a.1 ≤ 23 then (x.getD (24 * h + a.1) Val.zero).mul (p.val a.2 n) else Val.zero

/-- The dense and the sparse integer sums of column `n`. -/
def denseSum (p : Plane) (x : List Int) (n : Nat) : Int :=
  (List.range 128).foldl (fun a k => a + x.getD k 0 * p.int k n) 0

def sparseSum (p : Plane) (x : List Int) (n : Nat) : Int :=
  (List.range (spGroups p.sp)).foldl (fun a h =>
    (sparsePairs p h n).foldl (fun a b => if b.1 ≤ 23 then a + x.getD (24 * h + b.1) 0 * p.int b.2 n else a) a) 0

/-- A group term's scale and zero point, from its word (03 R81). -/
def groupScale (p : Plane) (w : Nat) : Val := decodeFloat p.sfmt.toNat (field w 0 16)
def groupZero (p : Plane) (w : Nat) : Int :=
  if Ent.zp p.fmt.toNat then (if Ent.sign p.fmt.toNat then sInt 16 (field w 16 16) else (field w 16 16 : Nat)) else 0

/-- The terms of a KIND 3 plane in column `n`, `sub` K positions each, with the groups from `g0` on (04 R93). DESIGN CHOICE (log 95): a
bracket that is the integer 0 counts as +0, so that the term is -0 under a negative scale. -/
def groupTerms (p : Plane) (scale : Memory) (g0 sub : Nat) (x : List Int) (n : Nat) : List (List Val) :=
  (List.range (128 / sub)).map fun j =>
    let ks := (List.range sub).map (sub * j + ·)
    let w := scale.readLE (512 * (g0 + sub * j / Ent.block p.fmt.toNat) + 4 * n) 4
    let q := ks.foldl (fun a k => a + p.int k n * x.getD k 0) (0 : Int)
    let a := ks.foldl (fun a k => a + x.getD k 0) (0 : Int)
    [(groupScale p w).mul (Val.ofInt (q - groupZero p w * a))]

/-! ## One pass (04 R89, 12 R302, R305) -/

/-- What a pass works on: the plane, the A format, its row as a number with the entry of each element, the profile. -/
structure Pass where
  plane : Plane
  f : Nat
  fmt : SMap Word
  row : Nat
  n : Nat
  entries : List Nat
  prof : Nat
  sat : Bool
  g0 : Nat
  opc : Nat
  deriving DecidableEq, Repr

/-- The activations as values, and as integers. -/
def Pass.vals (p : Pass) : List Val := (List.range p.n).map fun j => rowVal p.fmt p.row p.n p.f (p.entries.getD j p.f) j
def Pass.ints (p : Pass) : List Int :=
  (List.range p.n).map fun j => decodeInt (p.entries.getD j p.f) (codeAt p.row (Ent.width p.f) j)

/-- The new words of an accumulator row; `open_` gives the words where the operand kinds do not pair. -/
def Pass.run (p : Pass) (old : List Nat) (open_ : Nat → W32) : List Nat :=
  let pf := p.plane.fmt.toNat
  let sparse := decide (p.plane.sp ≠ 0)
  let acc := fun (blocks : Nat → List (List Val)) =>
    (List.range 128).map fun n => accumulate p.prof p.opc (BitVec.ofNat 64 p.f) p.plane.fmt (old.getD n 0) (blocks n)
  let int := fun (sum : Nat → Int) => (List.range 128).map fun n => accInt p.sat (old.getD n 0) (sum n)
  if !p.plane.loaded then
    if Ent.kind p.f = 1 then int fun _ => 0
    else acc fun _ => if sparse then (List.range (spGroups p.plane.sp)).map fun _ => [Val.zero] else List.replicate 4 [Val.zero]
  else if Ent.kind p.f = 1 ∧ Ent.kind pf = 1 then
    int (if sparse then sparseSum p.plane p.ints else denseSum p.plane p.ints)
  else if Ent.kind p.f = 1 ∧ Ent.kind pf = 3 then acc fun _ => []
  else if Ent.kind p.f ≠ 1 ∧ Ent.kind p.f ≠ 3 ∧ (Ent.kind pf = 0 ∨ Ent.kind pf = 2) then
    acc (if sparse then sparseTerms p.plane p.vals else denseTerms p.plane p.vals)
  else (List.range 128).map fun n => (open_ n).toNat

/-- The new words under a KIND 3 plane, whose terms scale memory completes. -/
def Pass.runGroups (p : Pass) (scale : Memory) (old : List Nat) : List Nat :=
  let sub := if p.prof = 2 then 32 else Ent.block p.plane.fmt.toNat
  (List.range 128).map fun n =>
    accumulate p.prof p.opc (BitVec.ofNat 64 p.f) p.plane.fmt (old.getD n 0) (groupTerms p.plane scale p.g0 sub p.ints n)

/-! ## Accumulator rows (05 R119, 12 R292) -/

/-- The row that an accumulator operand names at the iteration, or SCRATCH_BOUNDS. -/
def Op.accRow (o : Op) (x : Opd) (s : State) : Res Nat :=
  let a := (o.rcd.h x : Int) + o.stride x
  if a < 0 ∨ 65535 < a then Res.stop (opRec Code.scratchBounds (uMod 64 a) (if x = .d then 1 else 0)) s
  else (.ok (a.toNat / 128), s)

/-- The place of a word of an array in DETAIL: its byte offset (log 24). -/
def wordPlace (i : Nat) : Nat := uncDetail 3 (4 * i)

/-- What the read of an accumulator row finds: the correctable errors are corrected, written back and counted (18 R429). -/
def State.noteAcc (s : State) (t r : Nat) : State :=
  let m := (s.tile t).mem
  match m.accCe.filter fun i => decide (i / 128 = r) with
  | [] => s
  | l => (s.setTile t { s.tile t with mem := { m with accCe := m.accCe.filter fun i => decide (i / 128 ≠ r) } }).countCes t l.length

/-- The words of an accumulator row; UNCORRECTABLE where one is poisoned. -/
def accWordsOf (t r : Nat) (s : State) : Res (List Nat) :=
  let s := s.noteAcc t r
  let m := (s.tile t).mem
  match (List.range 128).find? fun n => m.accBad.contains (128 * r + n) with
  | some n => Res.stop (opRec Code.uncorrectable (wordPlace (128 * r + n)) 0) (s.countUe t)
  | none => (.ok ((List.range 128).map fun n => (SMap.get 0 m.acc (128 * r + n)).toNat), s)

/-- An accumulator row written whole: its poison is cleared. -/
def TileMem.writeAcc (m : TileMem) (r : Nat) (ws : List Nat) : TileMem :=
  (List.range 128).foldl (fun m n => { m with acc := SMap.set 0 m.acc (128 * r + n) (BitVec.ofNat 32 (ws.getD n 0))
                                              accBad := eraseNat m.accBad (128 * r + n)
                                              accCe := eraseNat m.accCe (128 * r + n) }) m

/-- A tile's stores replaced. -/
def State.setMemOf (s : State) (t : Nat) (m : TileMem) : State := s.setTile t { s.tile t with mem := m }

/-! ## Planes (12 R299 to R301, R303) -/

/-- The key of the shadow plane's poison: the active plane's words come first (log 24). -/
def shadowKey (i : Nat) : Nat := 16384 + i

/-- The key of word `w` of a plane's scales, or of its metadata, which follow the codes of both planes (log 24). -/
def sideKey (shadow meta_ : Bool) (w : Nat) : Nat := 32768 + b2n shadow * 16384 + b2n meta_ * 8192 + w

/-- Whether a word of the planes is of the active plane. -/
def ofActive (i : Nat) : Bool := decide (i / 16384 % 2 = 0)

/-- Whether a pass reads a word of the planes: the codes of the active plane, its scales under KIND 2, its metadata where it is sparse. -/
def Plane.reads (p : Plane) (i : Nat) : Bool :=
  let part := fun meta_ bytes => decide (sideKey false meta_ 0 ≤ i) && decide (i < sideKey false meta_ (bytes / 4))
  decide (i < 16384) || (p.loaded && ((decide (Ent.kind p.fmt.toNat = 2) && part false (planeScaleBytes p.fmt.toNat)) ||
    (decide (p.sp ≠ 0) && part true (planeMetaBytes p.sp))))

/-- The shadow plane cleared, with an entry, its scale entry and an SP. The scale entry is that of the table which the `wload` or the
preload latched: 03 R84 and 12 R301 do not say whether a later pass resolves it anew from its own (log 65). The plane's own entry, which
12 R299 and R302 speak of, is that of the pond's own bank; `writeShadow` keeps beside it the entry of each weight that another bank
held (03 R83; log 33). -/
def TileMem.clearShadow (m : TileMem) (fmt : SMap Word) (f sp : Nat) : TileMem :=
  { m with shd := { loaded := true, fmt := BitVec.ofNat 64 f, sfmt := BitVec.ofNat 64 (scaleEntry fmt f), sp := sp }
           planeBad := m.planeBad.filter ofActive, planeCe := m.planeCe.filter ofActive }

/-- Whether a word of the planes is of row `k` of the shadow plane. -/
def inShadowRow (k i : Nat) : Bool := decide (shadowKey (128 * k) ≤ i) && decide (i < shadowKey (128 * k + 128))

/-- A map over the weights of plane row `k` set from a function of the column. -/
def setPlaneRow {w : Nat} (c : SMap (BitVec w)) (k : Nat) (v : Nat → Nat) : SMap (BitVec w) :=
  (List.range 128).foldl (fun c n => SMap.set 0 c (128 * k + n) (BitVec.ofNat w (v n))) c

/-- A row of codes of format `f` written into the shadow plane, weight `n` decoding by entry `ent n`; `fmt` is the latched table. -/
def TileMem.writeShadow (m : TileMem) (fmt : SMap Word) (f k : Nat) (ent : Nat → Nat) (row : Nat) : TileMem :=
  { m with shd := { m.shd with
              codes := setPlaneRow m.shd.codes k fun n => codeAt row (Ent.width f) n
              ents := setPlaneRow m.shd.ents k fun n => if ent n = f then 0 else ent n
              sents := setPlaneRow m.shd.sents k fun n => if ent n = f then 0 else scaleEntry fmt (ent n) }
           planeBad := m.planeBad.filter fun i => !inShadowRow k i, planeCe := m.planeCe.filter fun i => !inShadowRow k i }

/-- A set of words of the planes as the planes are exchanged. -/
def otherPlane (l : List Nat) : List Nat := (l.map fun i => if ofActive i then i + 16384 else i - 16384).foldl insertNat []

/-- The scales or the metadata of the shadow plane written whole. -/
def TileMem.writeSide (m : TileMem) (meta_ : Bool) (l : List Byte) : TileMem :=
  let keep := fun i => !(decide (sideKey true meta_ 0 ≤ i) && decide (i < sideKey true meta_ 8192))
  let m := { m with planeBad := m.planeBad.filter keep, planeCe := m.planeCe.filter keep }
  if meta_ then { m with shd := { m.shd with meta_ := Memory.setBytes [] 0 l } } else { m with shd := { m.shd with scale := Memory.setBytes [] 0 l } }

/-- The planes exchanged, and their errors with them. -/
def TileMem.swapPlanes (m : TileMem) : TileMem :=
  { m with act := m.shd, shd := m.act
           planeBad := otherPlane m.planeBad, planeCe := otherPlane m.planeCe }

/-- One iteration of `wload`: every row is read before any is written. -/
def iterWload (t : Nat) (o : Op) (s : State) : Res Unit :=
  let f := o.latch.fmtOf o.rcd .a
  let sp := spOf o.rcd
  let first := decide (o.t = 0)
  let bBytes := if first && decide (sp ≠ 0) then planeMetaBytes sp
                else if first && decide (Ent.kind f = 2) then planeScaleBytes f else 0
  (o.row .a (o.stride .a) (planeRowBytes f) s).bind fun ua s =>
  (if bBytes = 0 then Res.ok [] s else o.row .b 0 bBytes s : Res (List UnitAt)).bind fun ub s =>
  (readRow t ua (planeRowBytes f) s).bind fun la s =>
  (readRow t ub bBytes s).bind fun lb s =>
    let m := (s.tile t).mem.writeShadow o.latch.fmt f o.t (o.elemEntry .a f ua) (leNat la)
    let m := if bBytes = 0 then m else m.writeSide (decide (sp ≠ 0)) lb
    (.ok (), s.setMemOf t m)

/-- One iteration of `wswap`. -/
def iterWswap (t : Nat) (s : State) : Res Unit := (.ok (), s.setMemOf t (s.tile t).mem.swapPlanes)

/-! ## Chains (12 R304, R312) -/

/-- The tiles of tile `t`'s chain, from west to east. -/
def State.chainOf (s : State) (t : Nat) : List Nat :=
  (List.range (s.tile t).mem.chainLen).map fun j => t - (s.tile t).mem.chainPos + j

/-- Whether every tile of tile `t`'s chain runs. -/
def State.chainRuns (s : State) (t : Nat) : Bool := (s.chainOf t).all fun u => decide ((s.tile u).life.phase = .running)

/-- Whether the operation at the head of a tile's matrix engine consumes and passes on the rows that reach the tile: a chained one
that runs and is neither suspended nor to be cancelled. -/
def Tile.passesRows (x : Tile) : Bool :=
  match x.em.ops with
  | o :: _ => decide (o.state = .running) && o.token.isNone && o.rcd.chain && decide (o.kind ≠ .mdrainDirect) && !o.suspended && !o.cancel
  | [] => false

/-- Whether the tile east of `t` can take a row: fewer than four wait there and it is not frozen. A tile that drains consumes every row
already sent to it (12 R312), so that the chain comes to rest as one unit: where its east neighbour neither runs nor has an operation
that will consume rows, they stay there for its own operation, however many they are (log 50). -/
def State.eastReady (s : State) (t : Nat) : Bool :=
  let x := s.tile (t + 1)
  let drains := decide ((s.tile t).life.phase = .draining)
  if x.mem.chainIn.length < 4 then drains || decide (x.life.phase = .running) || decide (x.life.phase = .draining)
  else drains && decide (x.life.phase ≠ .running) && !x.passesRows

/-- Whether a chained pass of tile `t` has its row and room to send it on (12 R304, R312). -/
def State.chainReady (s : State) (t : Nat) (o : Op) : Bool :=
  let m := (s.tile t).mem
  (if o.west then !m.chainIn.isEmpty else s.chainRuns t) &&
  (decide (m.chainLen ≤ m.chainPos + 1) || s.eastReady t)

/-- The row sent east, and the one consumed from the west gone. -/
def State.passRow (s : State) (t : Nat) (o : Op) (row : List Byte) : State :=
  if o.rcd.chain then
    let m := (s.tile t).mem
    let s := if o.west then s.setMemOf t { m with chainIn := m.chainIn.drop 1 } else s
    if m.chainPos + 1 < m.chainLen then
      let y := (s.tile (t + 1)).mem
      s.setMemOf (t + 1) { y with chainIn := y.chainIn ++ [row] }
    else s
  else s

/-! ## mma and mmas -/

/-- The plane rows that the iteration preloads: row t, and every row left at the last one (12 R303). DESIGN CHOICE: the rows left when the
last pass ends belong to its iteration, so that a fault in one of them undoes that pass (log 78). -/
def preloadRows (o : Op) : List Nat :=
  let last := if o.t + 1 = o.rcd.total then 128 else min (o.t + 1) 128
  (List.range last).filter fun k => decide (o.t ≤ k)

/-- The preloaded rows read, with the entries of their weights: plane row k lies at unit k × R_w. -/
def readPreload (t : Nat) (o : Op) (f : Nat) : List Nat → State → Res (List (Nat × (Nat → Nat) × Nat))
  | [], s => (.ok [], s)
  | k :: ks, s =>
    (o.row .b ((k * unitsOf (planeRowBytes f) : Nat) : Int) (planeRowBytes f) s).bind fun us s =>
    (readRow t us (planeRowBytes f) s).bind fun l s =>
    (readPreload t o f ks s).bind fun r s => (.ok ((k, o.elemEntry .b f us, leNat l) :: r), s)

/-- Whether every row that the preload reads lies in its slot. -/
def boundPreload (o : Op) (f : Nat) : List Nat → State → Res Unit
  | [], s => (.ok (), s)
  | k :: ks, s =>
    (o.row .b ((k * unitsOf (planeRowBytes f) : Nat) : Int) (planeRowBytes f) s).bind fun _ s => boundPreload o f ks s

/-- The groups of a KIND 3 pass: each lies from 0 to 63 (12 R292). -/
def Op.groupBase (o : Op) (p : Plane) (s : State) : Res Nat :=
  if p.loaded && decide (Ent.kind p.fmt.toNat = 3) then
    let g := (o.rcd.h .b : Int) + o.stride .b
    let last := g + (128 / Ent.block p.fmt.toNat : Nat) - 1
    if g < 0 then Res.stop (opRec Code.scratchBounds (uMod 64 g) 0) s
    else if 63 < last then Res.stop (opRec Code.scratchBounds (uMod 64 (max g 64)) 0) s
    else (.ok g.toNat, s)
  else (.ok 0, s)

/-- The first poisoned word that a pass reads in its plane or in the scale memory, as DETAIL. -/
def TileMem.passPoison (m : TileMem) (p : Plane) (g0 : Nat) : Option Nat :=
  match m.planeBad.find? p.reads with
  | some i => some (wordPlace i)
  | none =>
    if p.loaded && decide (Ent.kind p.fmt.toNat = 3) then
      (m.scaleBad.find? fun w => decide (512 * g0 ≤ w) && decide (w < 512 * (g0 + 128 / Ent.block p.fmt.toNat))).map (uncDetail 3)
    else none

/-- What a pass's read of its plane and of the scale memory finds (18 R429). -/
def State.notePass (s : State) (t : Nat) (p : Plane) (g0 : Nat) : State :=
  let m := (s.tile t).mem
  let scaled := p.loaded && decide (Ent.kind p.fmt.toNat = 3)
  let a := m.planeCe.filter p.reads
  let b := m.scaleCe.filter fun w => scaled && decide (512 * g0 ≤ w) && decide (w < 512 * (g0 + 128 / Ent.block p.fmt.toNat))
  match a, b with
  | [], [] => s
  | a, b => (s.setTile t { s.tile t with mem := { m with
      planeCe := m.planeCe.filter (!a.contains ·), scaleCe := m.scaleCe.filter (!b.contains ·) } }).countCes t (a.length + b.length)

/-- The profile that a record runs under (04 R96, 12 Table 12.1). -/
def Op.profile (o : Op) (det : Bool) : Nat :=
  let p := match o.rcd.prof.toNat with
    | 0 => o.latch.profile
    | 3 => 0
    | k => k
  if p = 0 && det then 1 else p

/-- The row of activations: from the west, or from the pond; with the entry of each element. DESIGN CHOICE (log 97): 12 R304 has rows travel
as raw bits; of one that is longer than this tile's own A format and record need the first bits count, and one that is shorter reads as
zeros beyond its end. -/
def readActivations (t : Nat) (o : Op) (f n : Nat) (ua : List UnitAt) (s : State) : Res (List Byte × List Nat) :=
  if o.west then (.ok ((s.tile t).mem.chainIn.headD [], []), s)
  else (readRow t ua (rowBytes n f) s).bind fun l s => (.ok (l, (List.range n).map (o.elemEntry .a f ua)), s)

/-- The writes of a pass: the accumulator row, the preloaded rows and scales, the chain's row. -/
def State.passWrites (s : State) (t : Nat) (o : Op) (r : Nat) (new : List Nat) (fb : Nat) (pre : List (Nat × (Nat → Nat) × Nat))
    (scales : List Byte) (row : List Byte) : State :=
  let m := (s.tile t).mem.writeAcc r new
  let m := pre.foldl (fun m kr => m.writeShadow o.latch.fmt fb kr.1 kr.2.1 kr.2.2) m
  let m := if scales.isEmpty then m else m.writeSide false scales
  (s.setMemOf t m).passRow t o row

/-- One pass of `mma` or `mmas`. Its bounds are checked first, then its reads, then it writes. DESIGN CHOICE (log 25): where the active plane
is of another SP than issue order gave it, since a `wload` or a `wswap` between was cancelled, the pass runs by the SP that it finds, and one
with EPI that finds a KIND 3 plane takes its groups from 0 on. -/
def iterPass (t : Nat) (o : Op) (s : State) : Res Unit :=
  if o.rcd.chain && !s.chainReady t o then (.error { f := opRec 0 0 0, stall := true }, s)
  else
    let x := s.tile t
    let p := x.mem.act
    let f := o.latch.fmtOf o.rcd .a
    let n := kPositions p.sp
    let epi := o.rcd.epi && decide (o.kind = .mma)
    let fb := o.latch.fmtOf o.rcd .b
    let rows := if epi then preloadRows o else []
    let sBytes := if epi && decide (o.t = 0) && decide (Ent.kind fb = 2) then planeScaleBytes fb else 0
    (if o.west then Res.ok [] s else o.row .a (o.stride .a) (rowBytes n f) s : Res (List UnitAt)).bind fun ua s =>
    (o.accRow .d s).bind fun r s =>
    (if epi then Res.ok 0 s else o.groupBase p s : Res Nat).bind fun g0 s =>
    (boundPreload o fb rows s).bind fun _ s =>
    (if sBytes = 0 then Res.ok [] s else o.row .b ((128 * unitsOf (planeRowBytes fb) : Nat) : Int) sBytes s : Res (List UnitAt)).bind fun us s =>
    (readActivations t o f n ua s).bind fun a s =>
    (accWordsOf t r s).bind fun old s =>
    let s := s.notePass t p g0
    match x.mem.passPoison p g0 with
    | some d => Res.stop (opRec Code.uncorrectable d 0) (s.countUe t)
    | none =>
      (readPreload t o fb rows s).bind fun pre s =>
      (readRow t us sBytes s).bind fun scales s =>
        let q : Pass := { plane := p, f := f, fmt := o.latch.fmt, row := leNat a.1, n := n, entries := a.2
                          prof := o.profile (bit x.ctl.node.toNat 58), sat := o.rcd.accsat, g0 := g0, opc := o.kind.opc }
        let new := if p.loaded ∧ Ent.kind f = 1 ∧ Ent.kind p.fmt.toNat = 3 then q.runGroups x.mem.scale old
                   else q.run old fun i => Config.openAcc (s.choices + i)
        (.ok (), ({ s with choices := s.choices + 128 } : State).passWrites t o r new fb pre scales a.1)

/-! ## The drain (04 R101, 12 R306 to R309) -/

/-- Word `i` of the epilogue block, as a value. -/
def epiVal (e : Epilogue) (i : Nat) : Val := fp32 (SMap.get 0 e i).toNat

/-- An accumulator word through the epilogue, not yet rounded. DESIGN CHOICE (log 95): an INT32 word of 0 counts as +0, so that a negative
column scale makes it -0. A zero clamped by a zero of the other sign stays as it is: 04 R101 does
not order the two (log 54). -/
def drainVal (o : Op) (word n : Nat) : Val :=
  let e := o.started.epilogue
  let ctl := if o.rcd.epi then (SMap.get 0 e 258).toNat else 0
  let v := if o.rcd.accsat then Val.ofInt (sInt 32 word) else fp32 word
  let v := if bit ctl 0 then v.mul (epiVal e n) else v
  let v := if bit ctl 1 then v.add (epiVal e (128 + n)) else v
  if bit ctl 2 then
    let lo := epiVal e 256
    let hi := epiVal e 257
    let v := if v.lt lo then lo else v
    if hi.lt v then hi else v
  else v

/-- The codes that iteration `t` of a drain gives of a row's words, element `n` in entry `ent n`. -/
def drainCodes (o : Op) (t : Nat) (ent : Nat → Nat) (words : List Nat) : List Nat :=
  (List.range 128).map fun n => o.round 0x01 (ent n) (ivecOf o.rcd.trips t) n (drainVal o (words.getD n 0) n)

/-- The row that iteration `t` of a drain reads. -/
def drainRowNo (o : Op) (t : Nat) : Nat :=
  (((o.rcd.h .a : Int) + dotNat (ivecOf o.rcd.trips t) ((o.rcd.strides .a).map (·.toInt))) / 128).toNat

/-- One iteration of `mdrain`. -/
def iterDrain (t : Nat) (o : Op) (s : State) : Res Unit :=
  let f := o.latch.fmtOf o.rcd .d
  (o.accRow .a s).bind fun r s =>
  (o.row .d (o.stride .d) (planeRowBytes f) s).bind fun us s =>
  (accWordsOf t r s).bind fun words s =>
  (rowWritable t us s).bind fun _ s =>
    (.ok (), s.writeRow t us (packBytes (Ent.width f) (drainCodes o o.t (o.elemEntry .d f us) words)))

/-- One iteration of `mzero`. -/
def iterZero (t : Nat) (o : Op) (s : State) : Res Unit :=
  (o.accRow .d s).bind fun r s => (.ok (), s.setMemOf t ((s.tile t).mem.writeAcc r []))

/-- One iteration of `mcopy`. -/
def iterMcopy (t : Nat) (o : Op) (s : State) : Res Unit :=
  let n := o.rcd.h .b
  let f := o.latch.fmtOf o.rcd .a
  let g := o.latch.fmtOf o.rcd .d
  (o.row .a (o.stride .a) (rowBytes n f) s).bind fun ua s =>
  (o.row .d (o.stride .d) (rowBytes n g) s).bind fun ud s =>
  (readRow t ua (rowBytes n f) s).bind fun l s =>
  (rowWritable t ud s).bind fun _ s =>
    let row := leNat l
    let codes := (List.range n).map fun j =>
      let e := o.elemEntry .a f ua j
      o.convert e (o.elemEntry .d g ud j) j (codeAt row (Ent.width f) j) (rowVal o.latch.fmt row n f e j)
    (.ok (), s.writeRow t ud (packBytes (Ent.width g) codes))

/-! ## Start (12 R293, R307, R309) -/

/-- The rows that a record's D operand writes in its loop nest, or a direct drain's A names. -/
def Op.rowsOf (o : Op) (x : Opd) : List Int :=
  (List.range o.rcd.total).map fun t =>
    (o.rcd.h x : Int) + dotNat (ivecOf o.rcd.trips t) ((o.rcd.strides x).map (·.toInt))

/-- Whether a pin covers a row that the record writes. -/
def Op.coveredBy (o : Op) (p : Pin) : Bool :=
  (o.rowsOf .d).any fun a => (p.op.rowsOf .a).any fun b => decide (a / 128 = b / 128)

/-- Whether some pin does. -/
def Tile.pinned (x : Tile) (o : Op) : Bool := x.mem.pins.any o.coveredBy

/-- Items 3 and 4 of 12 R293. -/
def Tile.matrixReady (x : Tile) (o : Op) : Bool :=
  match o.kind with
  | .mma => !x.pinned o
  | .mmas => !x.pinned o
  | .mzero => !x.pinned o
  | .mdrainDirect => decide (x.mem.pins.length < 4)
  | _ => true

/-- The epilogue block read at start: SCRATCH_BOUNDS, UNCORRECTABLE, RECORD_FIELD for a reserved bit (12 R307). -/
def readEpilogue (t : Nat) (o : Op) (s : State) : Res Epilogue :=
  if !o.rcd.epi then (.ok [], s)
  else
    let off := 64 * o.rcd.h .b
    if scratchSize < off + 1036 then Res.stop (opRec Code.scratchBounds off 0) s
    else
      let s := s.noteRead t off 1036
      match (s.tile t).readFails off 1036 with
      | some w => Res.stop (opRec Code.uncorrectable (uncDetail 0 w) 0) s
      | none =>
        let m := (s.tile t).mem.scratch
        if 8 ≤ m.readLE (off + 1032) 4 then Res.stop (opRec Code.recordField 12 0) s
        else (.ok ((List.range 259).foldl (fun e i => SMap.set 0 e i (BitVec.ofNat 32 (m.readLE (off + 4 * i) 4))) []), s)

/-- The start of a matrix operation: what it reads and writes before its first iteration. The operation it leaves. -/
def startMatrix (t : Nat) (o : Op) (s : State) : Res Op :=
  let m := (s.tile t).mem
  match o.kind with
  | .wload => (.ok o, s.setMemOf t (m.clearShadow o.latch.fmt (o.latch.fmtOf o.rcd .a) (spOf o.rcd)))
  | .mma => (.ok o, if o.rcd.epi then s.setMemOf t (m.clearShadow o.latch.fmt (o.latch.fmtOf o.rcd .b) 0) else s)
  | .mdrain => (readEpilogue t o s).bind fun e s => (.ok { o with started := { o.started with epilogue := e } }, s)
  | .mdrainDirect =>
    (readEpilogue t o s).bind fun e s =>
      match (o.rowsOf .a).find? fun a => decide (a < 0) || decide (65535 < a) with
      | some a => Res.stop (opRec Code.scratchBounds (uMod 64 a) 0) s
      | none =>
        let o := { o with started := { o.started with epilogue := e }, t := o.rcd.total }
        (.ok o, s.setMemOf t { m with pins := m.pins ++ [{ seq := o.seq, op := o }] })
  | _ => (.ok o, s)

end Sys2Proof.Machine
end

