-- ==== Sys2Proof/Machine/Copy.lean ====
section
/-! DEFINITION. The load and the store engine: transfer blocks, start checks, and the iterations of the copy, remote and
collective records (13 R316 to R339; 05 R124 to R130). -/
namespace Sys2Proof.Machine

/-! ## The transfer block (13 R317) -/

/-- The fields of the 512-bit value. -/
def transferOf (v : Nat) : Transfer :=
  { arg := field v 0 64, len := field v 64 32, didx := field v 96 12, rop := field v 112 3, poison := bit v 116
    drain := bit v 117, set := bit v 118, agrp := field v 128 12
    coord := (List.range 5).map fun k => sInt 32 (field v (160 + 32 * k) 32) }

/-- The bits of a block that a record uses (13 Table 13.3). -/
def transferMask (k : RecKind) : Nat :=
  let ones := fun (lo n : Nat) => (2 ^ n - 1) * 2 ^ lo
  let place := ones 96 12 + ones 160 160
  let len := ones 64 32
  match k with
  | .rload => place + len + ones 116 1
  | .tstore => place + len + ones 117 1
  | .rstore => place + len + ones 116 2
  | .tred => place + len + ones 112 3
  | .mcred => place + len + ones 112 3 + ones 116 1 + ones 128 12
  | .rsig => place + len + ones 0 64 + ones 116 1 + ones 118 1
  | .xpull => len + ones 0 64
  | .xpush => len + ones 0 64
  | _ => place + len

/-- The largest LEN of a record (13 Table 13.3). -/
def maxLen : RecKind → Nat
  | .sload => 128
  | .rsig => 1
  | .xpull => 1024
  | .xpush => 1024
  | _ => 65536

/-- Item 2 of 13 R318. -/
def transferOk (o : Op) (v : Nat) : Bool :=
  let b := transferOf v
  decide (v &&& transferMask o.kind = v) && decide (1 ≤ b.len) && decide (b.len ≤ maxLen o.kind) && decide (b.rop < 6) &&
  (!o.kind.mayDrain || b.drain == o.drainForm)

/-- The block of an operation read at start: SCRATCH_BOUNDS, UNCORRECTABLE, or its bytes. -/
def readBlock (t off : Nat) (s : State) : Res (List Byte) :=
  if scratchSize < off + 64 then Res.stop (opRec Code.scratchBounds off 0) s
  else
    let s := s.noteRead t off 64
    match (s.tile t).readFails off 64 with
    | some w => Res.stop (opRec Code.uncorrectable (uncDetail 0 w) 0) s
    | none => (.ok ((s.tile t).mem.scratch.bytes off 64), s)

/-! ## The layout record at start (05 R123, R128, R129) -/

/-- The bytes of a layout record as an operation reads them: those now in the table, or, where a `dset` came after the
record's issue, the ones before it, as the free value says (log 7). -/
def racedBytes (part va : Nat) : List DsetRec → List Byte → State → List Byte × State
  | [], l, s => (l, s)
  | d :: ds, l, s =>
    if d.part = part ∧ d.va = va then
      (if Config.readsOld s.choices then racedBytes part va ds d.old s.draw else (l, s.draw))
    else racedBytes part va ds l s

/-- Whether the record places scratchpad rows by its layout record (05 R127). -/
def Op.placesRows (o : Op) : Bool :=
  match o.kind with
  | .sload => false
  | .rsig => false
  | _ => !o.drainForm

/-- The pond operand of a copy record. -/
def RecKind.pondOpd : RecKind → Opd
  | .tload => .d
  | .tgather => .d
  | .sload => .d
  | .xpull => .d
  | .fill => .d
  | .mcred => .d
  | .rload => .d
  | _ => .a

/-- The format of the pond side of the row. -/
def Op.pondFmt (o : Op) : Nat := o.latch.fmtOf o.rcd o.kind.pondOpd

/-- Whether the rows that an operation places fail item 8 of 05 R123: they do not hold a multiple of 2^m units (05 R127). -/
def Op.rowsFail (o : Op) (b : Transfer) (d : Layout) : Bool :=
  o.placesRows && permEn d.perm && decide (unitsOf (rowBytes b.len o.pondFmt) % (permMask d.perm + 1) ≠ 0)

/-- The layout record that a transfer block names, read and checked (item 3 of 13 R318; the row multiple, which 05 R127 has checked at
start, in the place that `checkLayout` gives it: DESIGN CHOICE, log 91). -/
def startLayout (t : Nat) (o : Op) (b : Transfer) (s : State) : Res Layout :=
  let x := s.tile t
  let va := x.descAddr b.didx
  match nodeRead s (tileDie t) x.partNo va 64 .read with
  | (.error e, s) => (.error e.table, s)
  | (.ok l, s) =>
    let (l, s) := racedBytes x.partNo va (s.dsets.take (s.dsets.length - o.mark)) l s
    let d := layoutOf (leNat l)
    match checkLayout o.latch.fmt b.didx (leNat l) (o.rowsFail b d) with
    | some (code, det) => Res.stop (opRec code det 0) s
    | none => (.ok d, s)

/-- Whether a record may name a SPACE (13 Table 13.1). -/
def spaceOk (k : RecKind) (sp : Nat) : Bool :=
  match k with
  | .tred => decide (sp = 0)
  | .mcred => decide (sp = 2)
  | .rload => decide (sp = 2)
  | .rstore => decide (sp = 2)
  | .rsig => decide (sp = 2)
  | _ => decide (sp ≤ 1)

/-- The pin of a sequence number. -/
def Tile.pinOf (x : Tile) (seq : Nat) : Option Pin := x.mem.pins.find? (·.seq == seq)

/-- The source and the destination entry of a record, with the index of each (13 R320): of a drain, fOUT as latched. -/
def Op.formats (o : Op) (x : Tile) (d : Layout) : Nat × Nat × Nat × Nat :=
  let m := entryOf o.latch.fmt d.fidx
  let i := o.latch.idx o.rcd o.kind.pondOpd
  if o.kind.engine = .load then (m, d.fidx, o.pondFmt, i)
  else if o.drainForm then
    match x.pinOf o.drainSeq with
    | some p => (p.op.latch.fmtOf p.op.rcd .d, p.op.rcd.fd.val, m, d.fidx)
    | none => (m, d.fidx, m, d.fidx)
  else (o.pondFmt, i, m, d.fidx)

/-- The word of the record at fault among its own conditions at start (item 5 of 13 R318; R319, R320, R323, R328, R329,
R338). -/
def startFieldWord (t : Nat) (o : Op) (b : Transfer) (d : Layout) (s : State) : Option Nat :=
  let x := s.tile t
  let r := o.rcd
  let op := o.kind.transferOpd.getD .a
  let blockWord := Opd.word op
  let (fs, _, fd, _) := o.formats x d
  let named := (r.strides op).map fun v => field v.toNat 21 3
  let strides := (List.range 4).find? fun j => decide (d.rank ≤ named.getD j 0)
  let kf := if Ent.kind fs = 2 then fs else fd
  let last := b.coord.getD (d.rank - 1) 0
  let index := decide (o.kind = .tgather) || decide (o.kind = .tscatter)
  let pinBad :=
    match x.pinOf o.drainSeq with
    | none => true
    | some p => x.es.ops.any (fun q => q.seq != o.seq && q.started.pin == some p.seq) || decide (b.len ≠ 128) ||
        r.sa.toList.any (· != 0) || decide (r.total ≠ p.op.rcd.total)
  match strides with
  | some j => some (3 + (24 * (4 * op.num + j) + 21 + Machine.lowZeros (named.getD j 0) 3 0) / 32)
  | none =>
    if index && decide (d.rank < 2) then some blockWord
    else if o.drainForm && pinBad then some 12
    else if o.kind = .tred ∧ b.rop = 0 ∧ bit x.ctl.node.toNat 58 then some blockWord
    else if o.kind = .mcred ∧ !(s.group b.agrp).boundTo x.partNo then some blockWord
    else if o.kind ≠ .rsig ∧ o.kind ≠ .sload ∧ Ent.kind kf = 2 ∧
        (last % (Ent.block kf : Int) ≠ 0 ∨ b.len % Ent.block kf ≠ 0) then some blockWord
    else none

/-- What refuses a conversion from entry `fs`, of index `is`, into entry `fd`, of index `id` (03 R78). -/
def convertDetail (fs is fd id : Nat) : Option Nat :=
  if fs = fd then none
  else if 2 ≤ Ent.kind fd then some (fmtDetail id false)
  else if Ent.kind fs = 3 then some (fmtDetail is false) else none

/-- The DETAIL of ILLEGAL_FORMAT_ENTRY at start (item 6 of 13 R318; R324, R328, R329, R339). 03 R78 holds for the entry of every
bank that the record's rows can reach. -/
def startFormat (x : Tile) (o : Op) (b : Transfer) (d : Layout) : Option Nat :=
  let (fs, is, fd, id) := o.formats x d
  let m := entryOf o.latch.fmt d.fidx
  let r78 := (o.latch.idxs o.rcd o.kind.pondOpd).findSome? fun i =>
    let e := entryOf o.latch.fmt i
    if o.kind.engine = .load then convertDetail m d.fidx e i else convertDetail e i m d.fidx
  match o.kind with
  | .sload => if Ent.width m ≠ 32 then some (fmtDetail d.fidx false) else none
  | .rsig => none
  | .mcred => if Ent.kind fs = (if b.rop ≤ 2 then 0 else 1) then r78 else some (fmtDetail is false)
  | .tred =>
    if Ent.width fd = 32 ∧ (if b.rop ≤ 2 then Ent.kind fd = 0 else Ent.kind fd = 1 ∧ Ent.sign fd) then r78
    else some (fmtDetail id false)
  | _ => if o.drainForm then (if fs = fd then none else some (fmtDetail id false)) else r78

/-- The element that `rsig` names, and its start faults (13 R331, R337). -/
def rsigStart (t : Nat) (o : Op) (b : Transfer) (d : Layout) (s : State) : Res Unit :=
  let f := entryOf o.latch.fmt d.fidx
  let e := (s.tile t).es
  match (if Ent.kind f = 2 then Addr.outside else addressOf d f (b.coord.take d.rank)) with
  | .at_ p _ =>
    if p % 64 ≠ 0 then Res.stop (opRec Code.alignment (p / 8) 1) s
    else match SMap.get {} e.failed d.modnum with
      | ⟨0, _⟩ => (.ok (), s)
      | x =>
        let f := opRec x.code x.detail 1
        let f := if x.code = Code.fabricPeerAbsent ∨ x.code = Code.fabricTimeout then f
          else { f with remote := true, page := d.modnum, vaddr := p / 8 }
        Res.stop f (s.setEngAt t .store { e with failed := SMap.erase e.failed d.modnum })
  | _ => Res.stop (opRec Code.descriptorInvalid b.didx 1) s

/-- The start faults of a remote scratchpad operand (13 R325). -/
def remoteStart (t : Nat) (b : Transfer) (acc : Nat) (s : State) : Res Unit :=
  if b.arg % 64 ≠ 0 then Res.stop (opRec Code.alignment b.arg acc) s
  else if field b.arg 29 35 ≠ 0 then Res.stop (opRec Code.scratchBounds b.arg acc) s
  else if field b.arg 27 2 ≠ tileDie t ∨ !sameNode (s.tile t) (s.tile (field b.arg 21 8)) then
    Res.stop (opRec Code.permission 16 acc) s
  else (.ok (), s)

/-- The start of a record with a layout record: items 3 to 7. -/
def startPlaced (t : Nat) (o : Op) (b : Transfer) (s : State) : Res Op :=
  (startLayout t o b s).bind fun d s =>
    let w := { o.started with layout := some d, transfer := some b }
    if !spaceOk o.kind d.space then Res.stop (opRec Code.descriptorInvalid b.didx 0) s
    else match startFieldWord t o b d s with
      | some w => Res.stop (opRec Code.recordField w 0) s
      | none => match startFormat (s.tile t) o b d with
        | some det => Res.stop (opRec Code.illegalFormatEntry det 0) s
        | none =>
          match o.kind with
          | .rsig => (rsigStart t o b d s).bind fun _ s => (.ok { o with started := w }, s)
          | .mcred => (.ok { o with started := { w with members := (s.group b.agrp).members } }, s)
          | _ => (.ok { o with started := { w with pin := if o.drainForm then some o.drainSeq else none } }, s)

/-- The start of a copy operation (13 R318). -/
def startCopy (t : Nat) (o : Op) (s : State) : Res Op :=
  let x := o.kind.transferOpd.getD .a
  (readBlock t (64 * o.rcd.h x) s).bind fun l s =>
    let b := transferOf (leNat l)
    match o.kind with
    | .fill => (.ok { o with started := { o.started with pattern := l } }, s)
    | _ =>
      if !transferOk o (leNat l) then Res.stop (opRec Code.recordField (Opd.word x) 0) s
      else match o.kind with
        | .xpull => (remoteStart t b 0 s).bind fun _ s => (.ok { o with started := { o.started with transfer := some b } }, s)
        | .xpush => (remoteStart t b 1 s).bind fun _ s => (.ok { o with started := { o.started with transfer := some b } }, s)
        | _ => startPlaced t o b s

/-! ## The places of a row (13 R319, R320, R323) -/

/-- The start coordinate of the iteration's row, with an index added in dimension RANK - 2. -/
def Op.coord (o : Op) (x : Opd) (b : Transfer) (rank : Nat) (ix : Int) : List Int :=
  let ss := (o.rcd.strides x).map (·.toNat)
  (List.range rank).map fun k =>
    b.coord.getD k 0 + dotNat o.ivec (ss.map fun v => if field v 21 3 = k then sInt 21 v else 0) +
    (if k + 2 = rank then ix else 0)

/-- The index word of the iteration (13 R323): zero for a record without one. -/
def Op.index (t : Nat) (o : Op) (s : State) : Res Int :=
  if o.kind = .tgather ∨ o.kind = .tscatter then
    match ringRow o.latch (o.rcd.h .b) ((o.t / 16 : Nat) : Int) 1 fun _ k => k with
    | some (u :: _) =>
      let a := u.off + 4 * (o.t % 16)
      let s := s.noteRead t a 4
      match (s.tile t).readFails a 4 with
      | some w => Res.stop (opRec Code.uncorrectable (uncDetail 0 w) 0) s
      | none => (.ok (sInt 32 ((s.tile t).mem.scratch.readLE a 4)), s)
    | _ => (.ok 0, s)
  else (.ok 0, s)

/-- The places of the elements of a row: none for OUTSIDE, else a bit address and the byte address of the scale. -/
abbrev Places := List (Option (Nat × Nat))

/-- The places of `n` elements from a start coordinate; none where an address is out of range. -/
def rowPlaces (d : Layout) (f : Nat) (c : List Int) (n : Nat) : Option Places :=
  (List.range n).foldr (fun (j : Nat) acc =>
    match acc, addressOf d f (c.dropLast ++ [c.getLastD 0 + (j : Int)]) with
    | some l, .outside => some (none :: l)
    | some l, .at_ b sc => some (some (b, sc) :: l)
    | _, _ => none) (some [])

/-- Item 3 of 13 R321. -/
def Op.places (o : Op) (x : Opd) (d : Layout) (b : Transfer) (ix : Int) (s : State) : Res Places :=
  let f := entryOf o.latch.fmt d.fidx
  let c := o.coord x b d.rank ix
  let stop := Res.stop (opRec Code.descriptorInvalid b.didx (if x = .d then 1 else 0)) s
  if Ent.kind f = 2 ∧ c.getLastD 0 % (Ent.block f : Int) ≠ 0 then stop
  else match rowPlaces d f c b.len with
    | some l => (.ok l, s)
    | none => stop

/-- The bytes of an element of width `w` at bit address `b`. -/
def elemBytes (w b : Nat) : List Nat := (List.range (ceilDiv (b % 8 + w) 8)).map (b / 8 + ·)

/-- The places of the first elements of the blocks of a KIND 2 row. -/
def blockPlaces (f : Nat) (l : Places) : Places :=
  if Ent.kind f = 2 then (List.range (l.length / Ent.block f)).map fun k => l.getD (k * Ent.block f) none else []

/-- Every byte address that a row touches: its elements', then its scales'. -/
def placeBytes (f : Nat) (l : Places) : List Nat :=
  (l.flatMap fun p => match p with
    | some (b, _) => elemBytes (Ent.width f) b
    | none => []) ++ (blockPlaces f l).filterMap fun p => p.map (·.2)

/-- The codes of the elements, from the bytes of their places: an OUTSIDE element is the all-zero code. -/
def takeCodes (w : Nat) : Places → List Byte → List Nat
  | [], _ => []
  | none :: l, bs => 0 :: takeCodes w l bs
  | some (b, _) :: l, bs =>
    let n := ceilDiv (b % 8 + w) 8
    field (leNat (bs.take n)) (b % 8) w :: takeCodes w l (bs.drop n)

/-- The scales of the blocks, from the bytes after those of the elements; that of an OUTSIDE block is zero. -/
def takeScales : Places → List Byte → List Nat
  | [], _ => []
  | none :: l, bs => 0 :: takeScales l bs
  | some _ :: l, bs => (bs.headD 0).toNat :: takeScales l (bs.drop 1)

/-- How many bytes the elements of a row take. -/
def elemCount (f : Nat) (l : Places) : Nat :=
  (l.map fun p => match p with
    | some (b, _) => ceilDiv (b % 8 + Ent.width f) 8
    | none => 0).sum

/-! ## The spaces of a row (13 R321; 07 R173; 19 R445) -/

/-- The pages that some byte addresses lie in, each translated once, in the order in which they are first touched. DESIGN CHOICE (log 98):
where several pages of one row fail, the fault is that of the page first touched, whatever its kind; 13 R321 and 09 Table 9.5 order
only the kinds of one access. -/
def pageMap (d part : Nat) (acc : Access) : List Nat → List (Nat × Option Nat) → State → Res (List (Nat × Option Nat))
  | [], m, s => (.ok m, s)
  | a :: l, m, s =>
    if m.any (·.1 == a / 4096) then pageMap d part acc l m s
    else (nodeTranslate s d part a acc).bind fun p s => pageMap d part acc l ((a / 4096, p.map (· - a % 4096)) :: m) s

/-- The physical address of a byte under a page map: none on a discarded page. -/
def physOf (m : List (Nat × Option Nat)) (a : Nat) : Option Nat :=
  match m.find? (·.1 == a / 4096) with
  | some (_, some p) => some (p + a % 4096)
  | _ => none

/-- UNCORRECTABLE where a byte of a row lies in a poisoned granule of module memory. -/
def memPoison (m : List (Nat × Option Nat)) (acc : Access) (as : List Nat) (s : State) : Res Unit :=
  if s.memBad.isEmpty then (.ok (), s)
  else match as.findSome? fun a => ((physOf m a).bind fun p => badGranule s.memBad p 1).map fun g => (a, g) with
    | some (a, g) => Res.stop (accFault Code.uncorrectable (uncDetail 1 g) acc a) s
    | none => (.ok (), s)

/-- The host addresses of window offsets for a read or a write, or the fault of the first that has none. -/
def windowPlaces (part : Nat) (write : Bool) : List Nat → State → Res (List Nat)
  | [], s => (.ok [], s)
  | a :: l, s =>
    match (s.part part).lookup a write with
    | .fault code det => Res.stop { code := code, detail := det, access := b2n write, vaddr := a } s
    | .host h => (windowPlaces part write l s).bind fun hs s => (.ok (h :: hs), s)

/-- A wait for host memory: the iteration runs when HOST_WINDOW_READ_COMPLETION comes. -/
def hostStop {α : Type} (off host n : Nat) (s : State) : Res α :=
  (.error { f := opRec 0 0 0
            host := some { offset := off, host := host, len := n, since := s.seiche, what := .iteration, unitLen := 0 } }, s)

/-- A wait for another module: the iteration runs when FABRIC_RESPONSE comes. -/
def fabricStop {α : Type} (t m off : Nat) (s : State) : Res α :=
  let w : FabWait := { module := m, offset := off, since := s.seiche, limit := (s.tile t).prv.fabto, what := .iteration, unitLen := 0 }
  (.error { f := opRec 0 0 0, fab := some w }, s)

/-- PERMISSION where the card refuses a read of host memory that the publication buffer does not hold (19 R445). -/
def cardCheck (part : Nat) : List (Nat × Nat) → State → Res Unit
  | [], s => (.ok (), s)
  | (a, h) :: l, s =>
    if ((s.part part).heldByte h).isSome || s.granted part h 1 false then cardCheck part l s
    else Res.stop { code := Code.permission, detail := 1, vaddr := a } s.refuse

/-- Bytes of host memory behind window offsets, held ones from the publication buffer; `granted` where the link answered. -/
def readWindow (part : Nat) (granted : Bool) (as : List Nat) (s : State) : Res (List Byte) :=
  (windowPlaces part false as s).bind fun hs s =>
    if !granted && hs.any (fun h => ((s.part part).heldByte h).isNone) then hostStop (as.headD 0) (hs.headD 0) hs.length s
    else (cardCheck part (as.zip hs) s).bind fun _ s =>
      (.ok (hs.map fun h => ((s.part part).heldByte h).getD (s.host.byte h)), s)

/-- A fault that a module returned (13 R334), with DETAIL as 18 Table 18.5 has it; an absent one returned none (13 R335, log 29). -/
def remoteFault (f : FarFault) (m off : Nat) (acc : Nat) : FaultRec :=
  if f.code = Code.fabricPeerAbsent then { code := f.code, detail := f.detail, access := acc }
  else { code := f.code, detail := f.detail, remote := true, vaddr := off, page := m, access := acc }

/-- Bytes of another module. -/
def readFar (d part m : Nat) : List Nat → State → Res (List Byte)
  | [], s => (.ok [], s)
  | a :: l, s =>
    match farRead s d part m a 1 with
    | (.error f, s) => Res.stop (remoteFault f m a 0) s
    | (.ok v, s) => (readFar d part m l s).bind fun r s => (.ok (v ++ r), s)

/-- FABRIC_PEER_ABSENT for the first module of some that the ports of die `d` cannot reach (13 R335). -/
def absent (d : Nat) (ms : List Nat) (s : State) : Option FaultRec :=
  (ms.find? fun m => !s.reachable d m).map fun m => opRec Code.fabricPeerAbsent m 0

/-- The bytes of a row's places, read where its layout record says: items 4 and 5 of 13 R321. -/
def readPlaces (t : Nat) (d : Layout) (granted : Bool) (as : List Nat) (s : State) : Res (List Byte) :=
  let part := (s.tile t).partNo
  if as.isEmpty then (.ok [], s)
  else match d.space with
    | 0 =>
      (pageMap (tileDie t) part .read as [] s).bind fun m s =>
      (memPoison m .read as s).bind fun _ s =>
        (.ok (as.map fun a => match physOf m a with
          | some p => s.mem.byte p
          | none => 0), s)
    | 1 => readWindow part granted as s
    | _ =>
      match absent (tileDie t) [d.modnum] s with
      | some f => Res.stop f s
      | none => if granted then readFar (tileDie t) part d.modnum as s else fabricStop t d.modnum (as.headD 0) s

/-! ## Loads (13 R322, R324 to R326, R339) -/

/-- The units of the destination row, or SCRATCH_BOUNDS. -/
def Op.loadRow (o : Op) (s : State) : Res (List UnitAt) :=
  match o.loadUnits with
  | some l => (.ok l, s)
  | none => Res.stop (opRec Code.scratchBounds (uMod 64 (o.stride .d)) 1) s

/-- The row image of codes and scales in a pond: packed, and filled with zeros to whole units (13 R320). -/
def imageOf (f : Nat) (codes scales : List Nat) : List Byte :=
  padUnits (packBytes (Ent.width f) codes) ++ padUnits (scales.map (BitVec.ofNat 8))

/-- The value of a code of entry `f`, under the scale of its block for KIND 2. -/
def valueOf (fmt : SMap Word) (f c sc : Nat) : Val :=
  if Ent.kind f = 2 then decodeScaled f (scaleEntry fmt f) c sc else decodeElem f c

/-- The block of an element. -/
def blockOf (f j : Nat) : Nat := if Ent.kind f = 2 then j / Ent.block f else 0

/-- A load's row converted from entry `fs` into the entries of its destination. -/
def Op.loadImage (o : Op) (fs : Nat) (ud : List UnitAt) (codes scales : List Nat) : List Byte :=
  let fd := o.pondFmt
  imageOf fd ((List.range codes.length).map fun j =>
    let c := codes.getD j 0
    o.convert fs (o.elemEntry .d fd ud j) j c (valueOf o.latch.fmt fs c (scales.getD (blockOf fs j) 0)))
    (if Ent.kind fd = 2 then scales else [])

/-- One iteration of `tload`, `tgather` or `rload`. -/
def iterLoad (t : Nat) (o : Op) (d : Layout) (b : Transfer) (granted : Bool) (s : State) : Res Unit :=
  let fs := entryOf o.latch.fmt d.fidx
  (o.loadRow s).bind fun ud s =>
  (o.index t s).bind fun ix s =>
  (o.places .a d b ix s).bind fun ps s =>
  (readPlaces t d granted (placeBytes fs ps) s).bind fun bs s =>
  (rowWritable t ud s).bind fun _ s =>
    (.ok (), s.writeRow t ud (o.loadImage fs ud (takeCodes (Ent.width fs) ps bs)
      (takeScales (blockPlaces fs ps) (bs.drop (elemCount fs ps)))))

/-- One iteration of `sload`: terms into scale memory. -/
def iterSload (t : Nat) (o : Op) (d : Layout) (b : Transfer) (granted : Bool) (s : State) : Res Unit :=
  let fs := entryOf o.latch.fmt d.fidx
  let g := (o.rcd.h .d : Int) + o.stride .d
  if g < 0 ∨ 63 < g then Res.stop (opRec Code.scratchBounds (uMod 64 g) 1) s
  else
    (o.places .a d b 0 s).bind fun ps s =>
    (readPlaces t d granted (placeBytes fs ps) s).bind fun bs s =>
      let m := (s.tile t).mem
      let a := 512 * g.toNat
      (.ok (), s.setMemOf t { m with
        scale := m.scale.setBytes a (packBytes 32 (takeCodes 32 ps bs))
        scaleBad := m.scaleBad.filter fun w => !(decide (a ≤ w) && decide (w < a + 4 * b.len))
        scaleCe := m.scaleCe.filter fun w => !(decide (a ≤ w) && decide (w < a + 4 * b.len)) })

/-- The fold of one element over the members' codes, exact for integers, and its rounding into the destination (13 R339). -/
def Op.foldMembers (o : Op) (rop fs gd j : Nat) (codes : List Nat) : Nat :=
  if rop ≤ 2 then
    match codes.map fun c => roundFp32 (decodeElem fs c) with
    | [] => 0
    | v :: vs => o.round 0x02 gd o.ivec j (fp32 (vs.foldl (combine rop 0 false) v))
  else
    match codes.map (decodeInt fs) with
    | [] => 0
    | v :: vs =>
      let z := match rop with
        | 3 => sInt 32 (wrapOrClamp o.rm.2 (vs.foldl (· + ·) v))
        | 4 => vs.foldl max v
        | _ => vs.foldl min v
      o.round 0x02 gd o.ivec j (Val.ofInt z)

/-- The codes of a row at each member, in group order. -/
def readMembers (d : Nat) (part f : Nat) (ps : Places) : List Nat → State → Res (List (List Nat))
  | [], s => (.ok [], s)
  | m :: ms, s =>
    (readFar d part m (placeBytes f ps) s).bind fun bs s =>
    (readMembers d part f ps ms s).bind fun r s => (.ok (takeCodes (Ent.width f) ps bs :: r), s)

/-- One iteration of `mcred`. -/
def iterMcred (t : Nat) (o : Op) (d : Layout) (b : Transfer) (granted : Bool) (s : State) : Res Unit :=
  let fs := entryOf o.latch.fmt d.fidx
  let part := (s.tile t).partNo
  (o.loadRow s).bind fun ud s =>
  (o.places .a d b 0 s).bind fun ps s =>
    let any := ps.any (·.isSome)
    match (if any then absent (tileDie t) o.started.members s else none) with
    | some f => Res.stop f s
    | none =>
      if any && !granted then fabricStop t (o.started.members.headD 0) ((placeBytes fs ps).headD 0) s
      else
        (readMembers (tileDie t) part fs ps (if any then o.started.members else []) s).bind fun rows s =>
        (rowWritable t ud s).bind fun _ s =>
          let codes := (List.range b.len).map fun j =>
            match ps.getD j none with
            | none => 0
            | some _ => o.foldMembers b.rop fs (o.elemEntry .d o.pondFmt ud j) j (rows.map fun r => r.getD j 0)
          (.ok (), s.writeRow t ud (imageOf o.pondFmt codes []))

/-- The units of a raw row of `n` units of a pond operand. -/
def Op.rawRow (o : Op) (x : Opd) (n : Nat) (s : State) : Res (List UnitAt) :=
  match ringRow o.latch (o.rcd.h x) (o.stride x) n fun _ k => k with
  | some l => (.ok l, s)
  | none => Res.stop (opRec Code.scratchBounds (uMod 64 (o.stride x)) (if x = .d then 1 else 0)) s

/-- One iteration of `fill`. -/
def iterFill (t : Nat) (o : Op) (s : State) : Res Unit :=
  let n := o.rcd.h .b
  (o.rawRow .d n s).bind fun ud s =>
  (rowWritable t ud s).bind fun _ s =>
    (.ok (), s.writeRow t ud ((List.replicate n o.started.pattern).flatten))

/-- The offset at the remote tile that the iteration names, or SCRATCH_BOUNDS (13 R325). -/
def Op.remoteOff (o : Op) (x : Opd) (b : Transfer) (s : State) : Res Nat :=
  let a := (field b.arg 0 21 : Int) + 64 * o.stride x
  if a < 0 ∨ (scratchSize : Int) < a + 64 * b.len then Res.stop (opRec Code.scratchBounds (uMod 64 a) (if x = .d then 1 else 0)) s
  else (.ok a.toNat, s)

/-- The units of a raw span of a scratchpad. -/
def spanUnits (off n : Nat) : List UnitAt := (List.range n).map fun i => { off := off + 64 * i, pond := 0 }

/-- One iteration of `xpull`. -/
def iterXpull (t : Nat) (o : Op) (b : Transfer) (s : State) : Res Unit :=
  (o.rawRow .d b.len s).bind fun ud s =>
  (o.remoteOff .a b s).bind fun off s =>
  (readRow (field b.arg 21 8) (spanUnits off b.len) (64 * b.len) s).bind fun l s =>
  (rowWritable t ud s).bind fun _ s => (.ok (), s.writeRow t ud l)

/-- One iteration of `xpush`. -/
def iterXpush (t : Nat) (o : Op) (b : Transfer) (s : State) : Res Unit :=
  let u := field b.arg 21 8
  (o.rawRow .a b.len s).bind fun ua s =>
  (o.remoteOff .d b s).bind fun off s =>
  (rowWritable u (spanUnits off b.len) s).bind fun _ s =>
  (readRow t ua (64 * b.len) s).bind fun l s => (.ok (), s.writeRow u (spanUnits off b.len) l)

/-! ## Stores (13 R327 to R331) -/

/-- The bytes that an element of width `w` at bit address `b` writes. -/
def elemWrite (w b c : Nat) : List ByteWrite :=
  (List.range (ceilDiv (b % 8 + w) 8)).map fun i =>
    (b / 8 + i, BitVec.ofNat 8 (c % 2 ^ w * 2 ^ (b % 8) / 2 ^ (8 * i)), BitVec.ofNat 8 ((2 ^ w - 1) * 2 ^ (b % 8) / 2 ^ (8 * i)))

/-- Neighbouring writes of one byte made one. -/
def mergeWrites (l : List ByteWrite) : List ByteWrite :=
  (l.foldl (fun acc x => match acc with
    | y :: ys => if x.1 = y.1 then (y.1, overByte y.2.1 x.2.1 x.2.2, y.2.2 ||| x.2.2) :: ys else x :: acc
    | [] => [x]) []).reverse

/-- The byte writes of a row: its elements that are not OUTSIDE, then the scales of its blocks. -/
def rowWrites (f : Nat) (ps : Places) (codes scales : List Nat) : List ByteWrite :=
  mergeWrites ((ps.zip codes).flatMap fun x => match x.1 with
    | some (b, _) => elemWrite (Ent.width f) b x.2
    | none => []) ++
  ((blockPlaces f ps).zip scales).filterMap fun x => x.1.map fun p => (p.2, BitVec.ofNat 8 x.2, 0xFF)

/-- Whether the publication buffer takes a byte at a host address: it holds its granule, or has one free (07 R173). -/
def Part.pubTakes (p : Part) (h : Nat) : Bool := p.pub.any (fun g => decide (g.host = h / 64 * 64)) || decide (p.pub.length < pubCapacity)

/-- Writes of a row, each with its number in the row and its host address, as they enter the publication buffer: those whose numbers
`done` holds are in it already, one that finds no room waits and holds back no other (07 R173). The buffer, and the numbers of those that
are in it. -/
def Part.pubRow (p : Part) (host : Memory) (done : List Nat) : List ((Nat × ByteWrite) × Nat) → Part × List Nat
  | [] => (p, done)
  | ((h, _, v, m), i) :: l =>
    if !done.contains i && p.pubTakes h then
      Part.pubRow (p.pubByte h (overByte ((p.heldByte h).getD (host.byte h)) v m)) host (i :: done) l
    else Part.pubRow p host done l

/-- Maximal runs of bytes at rising addresses. -/
def runsOf (l : List ByteWrite) : List (Nat × List (Byte × Byte)) :=
  l.foldr (fun x acc => match acc with
    | (a, r) :: rs => if x.1 + 1 = a then (x.1, x.2 :: r) :: rs else (x.1, [x.2]) :: acc
    | [] => [(x.1, [x.2])]) []

/-- Posted writes of a row put on their way; dropped where a posted failure of the module stands (13 R337). -/
def State.postRow (s : State) (t m : Nat) (l : List ByteWrite) : State :=
  if (SMap.get {} (s.tile t).es.failed m).code ≠ 0 then s
  else { s with posted := s.posted ++ (runsOf l).map fun r =>
    { tile := t, module := m, offset := r.1, bytes := r.2, signal := none, since := s.seiche, limit := (s.tile t).prv.fabto,
      part := (s.tile t).partNo, seat := (s.tile t).life.seat } }

/-- Where a store's row goes, once its faults are past: the physical or host address of each byte it touches. -/
inductive Dest where
  | mem (m : List (Nat × Option Nat))
  | window (hosts : List (Nat × Nat))
  | far (m : Nat)
  deriving DecidableEq, Repr

/-- Item 4 of 13 R321 for a store: the faults of its space, and the wait of a sub-byte write for the bits it keeps. DESIGN CHOICE (log 99):
13 R327 does not say whether the read half of a sub-byte write needs Rd: in SPACE 0 the access asks for W alone, in SPACE 1 the read of the
window asks for Rd as well. -/
def storeDest (t : Nat) (d : Layout) (granted : Bool) (as part_ : List Nat) (s : State) : Res Dest :=
  let part := (s.tile t).partNo
  match d.space with
  | 0 => (pageMap (tileDie t) part .write as [] s).bind fun m s => (.ok (.mem m), s)
  | 1 =>
    (windowPlaces part true as s).bind fun hs s =>
    (windowPlaces part false part_ s).bind fun ks s =>
      if !granted && ks.any (fun h => ((s.part part).heldByte h).isNone) then hostStop (part_.headD 0) (ks.headD 0) ks.length s
      else (cardCheck part (part_.zip ks) s).bind fun _ s =>
        (.ok (.window (as.zip hs)), s)
  | _ =>
    match (if as.isEmpty then none else absent (tileDie t) [d.modnum] s) with
    | some f => Res.stop { f with access := 1 } s
    | none => (.ok (.far d.modnum), s)

/-- The writes of a store's iteration. Those to the host window enter the publication buffer as far as it has room, and the iteration
waits for the rest, which enter once a `publish` has made room (07 R173). The order in which they enter is the model's choice (log 80). -/
def State.storeRow (s : State) (t : Nat) (o : Op) (dst : Dest) (l : List ByteWrite) : Res Unit :=
  match dst with
  | .mem m => (.ok (), s.mergeRow (l.filterMap fun x => (physOf m x.1).map fun p => (p, x.2)))
  | .window hs =>
    let part := (s.tile t).partNo
    let ws := (l.filterMap fun x => (hs.find? (·.1 == x.1)).map fun h => (h.2, x)).zipIdx
    let r := (s.part part).pubRow s.host o.entered ws
    let s := s.setPart part r.1
    if ws.all fun w => r.2.contains w.2 then (.ok (), s) else (.error { f := opRec 0 0 0, stall := true, entered := r.2 }, s)
  | .far m => (.ok (), s.postRow t m l)

/-- The bytes that a row's sub-byte elements write in part. -/
def partialBytes (f : Nat) (ps : Places) : List Nat :=
  if 8 ≤ Ent.width f then []
  else (rowWrites f ps (ps.map fun _ => 0) []).filterMap fun x => if x.2.2 = 0xFF then none else some x.1

/-- The units of a store's source row: none for a drain. -/
def Op.storeUnits (o : Op) (d : Layout) (b : Transfer) (s : State) : Res (List UnitAt) :=
  if o.drainForm then (.ok [], s)
  else match ringRow o.latch (o.rcd.h .a) (o.stride .a) (unitsOf (rowBytes b.len o.pondFmt)) (permUnit d.perm) with
    | some l => (.ok l, s)
    | none => Res.stop (opRec Code.scratchBounds (uMod 64 (o.stride .a)) 0) s

/-- The codes and the scales that a store writes in entry `fd`: a row of the pond converted, or the pin's row (13 R328). -/
def Op.storeCodes (t : Nat) (o : Op) (b : Transfer) (fd : Nat) (ua : List UnitAt) (s : State) : Res (List Nat × List Nat) :=
  if o.drainForm then
    match (s.tile t).pinOf (o.started.pin.getD 0) with
    | some p => (accWordsOf t (drainRowNo p.op o.t) s).bind fun ws s => (.ok (drainCodes p.op o.t (fun _ => fd) ws, []), s)
    | none => (.ok ([], []), s)
  else
    let fs := o.pondFmt
    (readRow t ua (rowBytes b.len fs) s).bind fun l s =>
      let row := leNat l
      let scales := if Ent.kind fs = 2 then
          (List.range (b.len / Ent.block fs)).map fun k => field row (8 * (codeBytes b.len (Ent.width fs) + k)) 8
        else []
      (.ok ((List.range b.len).map fun j =>
        let e := o.elemEntry .a fs ua j
        o.convert e fd j (codeAt row (Ent.width fs) j) (rowVal o.latch.fmt row b.len fs e j), scales), s)

/-- One iteration of `tstore`, `tscatter` or `rstore`. -/
def iterStore (t : Nat) (o : Op) (d : Layout) (b : Transfer) (granted : Bool) (s : State) : Res Unit :=
  let fd := entryOf o.latch.fmt d.fidx
  (o.storeUnits d b s).bind fun ua s =>
  (o.index t s).bind fun ix s =>
  (o.places .d d b ix s).bind fun ps s =>
  (storeDest t d granted (placeBytes fd ps) (if d.space = 1 then partialBytes fd ps else []) s).bind fun dst s =>
  (o.storeCodes t b fd ua s).bind fun cs s =>
    s.storeRow t o dst (rowWrites fd ps cs.1 cs.2)

/-- Combine of 13 R329: fadd with RNE and SAT 0; iadd wraps, or clamps under SAT. -/
def reduceInto (rop : Nat) (sat : Bool) (old v : Nat) : Nat :=
  if rop = 3 then wrapOrClamp sat (sInt 32 old + sInt 32 v) else combine rop 0 false old v

/-- The read-modify-writes of a row, one element after another, at physical addresses. -/
def State.reduceRow (s : State) (m : List (Nat × Option Nat)) (rop : Nat) (sat : Bool) : Places → List Nat → State
  | some (b, _) :: ps, c :: cs =>
    let as := (elemBytes 32 b).filterMap (physOf m)
    let new := reduceInto rop sat (leNat (as.map s.mem.byte)) c
    State.reduceRow (s.mergeRow (as.zip ((leBytes new 4).map fun v => (v, 0xFF)))) m rop sat ps cs
  | none :: ps, _ :: cs => State.reduceRow s m rop sat ps cs
  | _, _ => s

/-- One iteration of `tred`. -/
def iterTred (t : Nat) (o : Op) (d : Layout) (b : Transfer) (s : State) : Res Unit :=
  let fd := entryOf o.latch.fmt d.fidx
  (o.storeUnits d b s).bind fun ua s =>
  (o.places .d d b 0 s).bind fun ps s =>
    let as := placeBytes fd ps
    (pageMap (tileDie t) (s.tile t).partNo .atomic as [] s).bind fun m s =>
    (memPoison m .atomic as s).bind fun _ s =>
    (o.storeCodes t b fd ua s).bind fun cs s => (.ok (), s.reduceRow m b.rop o.rm.2 ps cs.1)

/-- The iteration of `rsig`: the signal is posted behind the engine's earlier writes to that module (07 R172). -/
def iterRsig (t : Nat) (o : Op) (d : Layout) (b : Transfer) (s : State) : Res Unit :=
  match absent (tileDie t) [d.modnum] s with
  | some f => Res.stop { f with access := 1 } s
  | none =>
    match addressOf d (entryOf o.latch.fmt d.fidx) (b.coord.take d.rank) with
    | .at_ p _ =>
      if (SMap.get {} (s.tile t).es.failed d.modnum).code ≠ 0 then (.ok (), s)
      else
        let w : Posted :=
          { tile := t, module := d.modnum, offset := p / 8, bytes := [], signal := some (b.set, BitVec.ofNat 64 b.arg)
            since := s.seiche, limit := (s.tile t).prv.fabto, part := (s.tile t).partNo
            seat := (s.tile t).life.seat }
        (.ok (), { s with posted := s.posted ++ [w] })
    | _ => Res.stop (opRec Code.descriptorInvalid b.didx 1) s

/-- One iteration of a copy record. `granted` where the answer that the iteration waited for has come. -/
def iterCopy (t : Nat) (o : Op) (granted : Bool) (s : State) : Res Unit :=
  match o.kind, o.started.layout, o.started.transfer with
  | .fill, _, _ => iterFill t o s
  | .xpull, _, some b => iterXpull t o b s
  | .xpush, _, some b => iterXpush t o b s
  | .sload, some d, some b => iterSload t o d b granted s
  | .mcred, some d, some b => iterMcred t o d b granted s
  | .tred, some d, some b => iterTred t o d b s
  | .rsig, some d, some b => iterRsig t o d b s
  | .tstore, some d, some b => iterStore t o d b granted s
  | .tscatter, some d, some b => iterStore t o d b granted s
  | .rstore, some d, some b => iterStore t o d b granted s
  | _, some d, some b => iterLoad t o d b granted s
  | _, _, _ => (.ok (), s)

end Sys2Proof.Machine
end

