-- ==== Sys2Proof/Machine/EngineEvents.lean ====
section
/-! DEFINITION. The events of engines and of blocked cores: starts, iterations, pending tokens, cancels, stamps, chains, and
the two deadlock rules (02 R40, R45, R46; 06 R137, R140, R143 to R145; 10 R243; 12 R290, R293, R295, R311, R312). -/
namespace Sys2Proof.Machine

/-! ## Blocked instructions (06 R137) -/

/-- Whether a blocked instruction executes again by itself; the others complete by an event of their own. -/
def Wait.retries : Wait → Bool
  | .pop _ => true
  | .push _ => true
  | .opwait => true
  | .exitOps => true
  | .launch => true
  | .publish => true
  | .bufferSpace => true
  | _ => false

/-- BLOCKED_INSTRUCTION_RETRY: a `sigwait` and an acquire take one more turn of their loop, on the word they resolved (07 R167,
10 R238); any other core is no longer blocked, and its instruction executes next, in full; a `launch` keeps its
place in the order of arrival until it goes on (10 R245). -/
def execBlockedInstructionRetry (t : TileId) (c : CoreId) (s : State) : Out :=
  .next <|
    let k := s.coreAt t.val c
    if (s.tile t.val).life.phase = .running then
      match k.wait with
      | .sigwait t0 va gd len want => State.sigwaitTurn { s with curTile := t, curCore := c } t0 va gd len want
      | .cell excl va => State.cellTurn { s with curTile := t, curCore := c } excl va
      | w =>
        if w.retries then
          { s.setCoreAt t.val c { k with wait := if w = .launch then w else .none } with agenda := .core t c :: s.agenda }
        else s
    else s

/-! ## Starts (02 R40, 12 R293, R295, 13 R318) -/

/-- Whether an operation of a tile counts as terminal: it left its engine, or it faulted (06 R148). -/
def Tile.opEnded (x : Tile) (e : Engine) (seq : Nat) : Bool :=
  match (x.eng e).opOf seq with
  | some o => decide (o.state = .faulted)
  | none => true

/-- Whether a queued operation at the head of its engine has its operands ready (12 R293, 13 R318). -/
def Tile.opReady (x : Tile) (o : Op) : Bool :=
  o.preds.all (fun p => x.opEnded (Engine.ofNum p.1) p.2) &&
  (!o.drainForm || x.opEnded .matrix o.drainSeq) && x.matrixReady o

/-- A start as its engine makes it. -/
def startOp (t : Nat) (o : Op) (s : State) : Res Op :=
  match o.kind.engine with
  | .matrix => startMatrix t o s
  | _ => startCopy t o s

/-- An engine has run an iteration or sent a request in the cycle under way, which counts as ITER (20 R475). -/
def State.workedEng (s : State) (t : Nat) (e : Engine) : State := s.setEngAt t e { s.engAt t e with ended := true }

/-- What a stop of an operation does: it waits for firmware, for the host or for the fabric, or it faults. A fault is one
that keeps its state; an iteration that only lacks room stays where it is, and is suspended in a drain. -/
def State.stopOp (s : State) (t : Nat) (e : Engine) (o : Op) (x : Stop) : State :=
  let o := { o with inIter := !(decide (e = .matrix)) && !o.atStart }
  match x.host, x.fab with
  | some h, _ => (s.setOp t e { o with wait := .hostRead h }).workedEng t e
  | _, some f => (s.setOp t e { o with wait := .fabric f }).workedEng t e
  | _, _ =>
    if x.wait then s.setOp t e { o with wait := .firmware x.f x.f.vaddr }
    else if x.stall then s.setOp t e { o with entered := x.entered }
    else s.opFault t e o x.f

/-- The `mchain` that heads tile `t`'s matrix engine and runs. -/
def State.chainOp (s : State) (t : Nat) : Option Op :=
  match (s.tile t).em.ops with
  | o :: _ => if o.kind = .mchain ∧ o.state = .running ∧ o.token = none ∧ (s.tile t).moves then some o else none
  | [] => none

/-- The `mchain` that has started on tile `t` and waits at its rendezvous: on a tile that moves, or on one that is frozen (12 R311). -/
def State.chainSeen (s : State) (t : Nat) : Option Op :=
  match (s.tile t).em.ops with
  | o :: _ =>
    if o.kind = .mchain ∧ o.state = .running ∧ o.token = none ∧ ((s.tile t).moves ∨ (s.tile t).life.phase = .frozen) then some o else none
  | [] => none

/-- Whether the `mchain` of tile `u` fits that of tile `t`: the same L, and the position that is its place in that chain (12 R311). -/
def chainFits (t : Nat) (o : Op) (u : Nat) (p : Op) : Bool :=
  decide (chainLenOf p.rcd = chainLenOf o.rcd) && decide (u + chainPosOf o.rcd = t + chainPosOf p.rcd)

/-- Whether every tile of the chain of tile `t`'s `mchain` has started one that fits. -/
def State.chainMet (s : State) (t : Nat) (o : Op) : Bool :=
  (chainTiles t o.rcd).all fun u => match s.chainSeen u with
    | some p => chainFits t o u p
    | none => false

/-- The other `mchain`s that run and have a tile of the chain of tile `t`'s in theirs, or theirs in it: those of its rendezvous. -/
def State.rendezvous (s : State) (t : Nat) (o : Op) : List (Nat × Op) :=
  (List.range 8).filterMap fun j =>
    let u := t / 8 * 8 + j
    match s.chainSeen u with
    | some p =>
      if u ≠ t ∧ ((chainTiles t o.rcd).contains u ∨ (chainTiles u p.rcd).contains t) ∧ !s.chainMet u p then some (u, p) else none
    | none => none

/-- The chain of a tile set (12 R311). -/
def State.setChain (s : State) (t : Nat) (r : Rec) : State :=
  s.setMemOf t { (s.tile t).mem with chainLen := chainLenOf r, chainPos := chainPosOf r, chainIn := [] }

/-- An `mchain` becomes FAULTED with RECORD_FIELD; a tile that holds a fault already keeps that as its own (12 R311, 06 R146; DESIGN CHOICE, log 90). -/
def State.chainFault (s : State) (x : Nat × Op) : State :=
  if (s.tile x.1).life.fault.isSome then s.setOp x.1 .matrix { x.2 with state := .faulted, wait := .none }
  else s.opFault x.1 .matrix x.2 (opRec Code.recordField 12 0)

/-- An `mchain` has started: where one of its rendezvous does not fit it, all of them are FAULTED; one of a single tile sets the chain and
retires at once (12 R311). -/
def State.startChain (s : State) (t : Nat) (o : Op) : State :=
  let ps := s.rendezvous t o
  if ps.all fun x => chainFits t o x.1 x.2 then
    if chainLenOf o.rcd = 1 then (s.setChain t o.rcd).finishOp t .matrix { o with t := o.rcd.total } .retired else s
  else ((t, o) :: ps).foldl State.chainFault s

/-- An operation starts: its engine reads its record, whose errors are counted, and faults on a poisoned word of it (18 R429, R430,
log 38); it reads what it reads at start and runs, or faults with no iteration run; a start that stopped is made
again once what stopped it is resolved (05 R128, R129). One with no iteration to run, a direct drain, retires at once. -/
def State.startNow (s : State) (t : Nat) (e : Engine) (o : Op) : State :=
  let s := s.countCes t o.recCe.length
  let o := { o with recCe := [] }
  match (match o.recBad with
    | w :: _ => Res.stop (opRec Code.uncorrectable (wordPlace w) 0) (s.countUe t)
    | [] => startOp t o s) with
  | (.ok o, s) =>
    let o := { o with state := .running, atStart := false }
    if o.rcd.total ≤ o.t then s.finishOp t e o .retired
    else if o.kind = .mchain then (s.setOp t e o).startChain t o else s.setOp t e o
  | (.error x, s) => s.stopOp t e { o with atStart := true } x

/-- Whether the engine's head is a queued operation that may start when it is ready. -/
def Op.mayStart (o : Op) : Bool := decide (o.state = .queued) && !o.cancel && o.token.isNone && decide (o.wait = .none)

/-- OPERATION_START: the head of the engine's queue starts; not before its trace has room (20 R482), nor while the power clamp
holds the engines (19 R457). -/
def execOperationStart (t : TileId) (e : Engine) (s : State) : Out :=
  .next <|
    let x := s.tile t.val
    match (x.eng e).ops with
    | o :: _ =>
      if x.life.phase = .running ∧ o.mayStart ∧ (o.stamp = none ∨ o.atStart) ∧ x.opReady o ∧ !x.traceStall (3 + e.num) ∧ !s.hub.power.hold then
        s.startNow t.val e o
      else s
    | [] => s

/-- Whether an operation waits for a tick that has come: `late` where it must have come before this tick. -/
def Op.stampDue (o : Op) (now : Nat) (late : Bool) : Bool :=
  o.mayStart && !o.atStart && (match o.stamp with
    | some n => decide (n + b2n late ≤ now)
    | none => false)

/-- Whether an operation of a node with DET can no longer start at its stamp: the first cycle at or after its tick is over, since a cycle
takes at most two ticks (20 R488, log 63). -/
def Op.stampOver (o : Op) (det : Bool) (now : Nat) : Bool :=
  det && (match o.stamp with
    | some n => decide (n + 2 ≤ now)
    | none => false)

/-- The first operation of an engine of a tile whose tick has come starts if it heads its engine and is ready; else it faults with
SCHEDULE_MISS (12 R295). Trace that stalls and a power clamp that holds the engines are no conditions of 12 R293: the operation then waits.
So it does while its tile drains, is frozen, held or saved. DESIGN CHOICE: once that ends it starts late without a miss if it is ready, and
misses then if it is not, but for a node with DET, whose stamped records start at their stamps or miss them (20 R488; log 63). -/
def State.expireStamp (s : State) (t : Nat) (e : Engine) (late : Bool) : State :=
  let x := s.tile t
  match (x.eng e).ops.find? fun o => o.stampDue s.seiche late with
  | some o =>
    if x.life.phase ≠ .running then s
    else if o.stampOver (bit x.ctl.node.toNat 58) s.seiche then s.missOp t e o (o.stamp.getD 0)
    else if x.traceStall (3 + e.num) ∨ s.hub.power.hold then s
    else if ((x.eng e).ops.head?.map (·.seq)) = some o.seq ∧ x.opReady o then s.startNow t e o
    else s.missOp t e o (o.stamp.getD 0)
  | none => s

/-- STAMP_EXPIRY: the first cycle that begins at or after the tick of a stamped operation (12 R295). -/
def execStampExpiry (t : TileId) (e : Engine) (s : State) : Out := .next (s.expireStamp t.val e false)

/-- The tiles on which some operation's tick came before this one. -/
def State.lateTiles (s : State) : List Nat :=
  (s.tiles.filter fun x => decide (x.2.life.phase = .running) &&
    [x.2.el, x.2.em, x.2.es].any fun e => e.ops.any fun o => o.stampDue s.seiche true).map (·.1)

/-- No cycle takes more than two ticks, so an operation whose tick came before this one starts, or misses, before the next. -/
def State.expireLate (s : State) : State :=
  s.lateTiles.foldl (fun s t => ((s.expireStamp t .load true).expireStamp t .matrix true).expireStamp t .store true) s

/-! ## Iterations (12 R290, 02 R47) -/

/-- Multiply-accumulates of a pass (17 R397). -/
def passMacs (sp : Nat) : Nat := if sp = 0 then 128 * 128 else 128 * (spGroups sp * spN sp)

/-- The passes of a node counted for the classifier. -/
def State.countMac (s : State) (t n : Nat) : State :=
  match (s.tile t).life.seat with
  | some k => match s.findNode k.part k.node with
    | some m => s.putNode k.part { m with mac := m.mac + n }
    | none => s
  | none => s

/-- One iteration of an operation. -/
def iterOp (t : Nat) (o : Op) (granted : Bool) (s : State) : Res Unit :=
  match o.kind with
  | .wload => iterWload t o s
  | .wswap => iterWswap t s
  | .mma => (iterPass t o s).bind fun _ r => (.ok (), r.countMac t (passMacs (s.tile t).mem.act.sp))
  | .mmas => (iterPass t o s).bind fun _ r => (.ok (), r.countMac t (passMacs (s.tile t).mem.act.sp))
  | .mdrain => iterDrain t o s
  | .mdrainDirect => (.ok (), s)
  | .mzero => iterZero t o s
  | .mchain => (.ok (), s.setChain t o.rcd)
  | .mcopy => iterMcopy t o s
  | _ => iterCopy t o granted s

/-- Whether no row is on its way to a tile with `n` tiles to its west: none waits there, nor at a tile that would pass it on. -/
def State.rowsArrived (s : State) (t : Nat) : Nat → Bool
  | 0 => (s.tile t).mem.chainIn.isEmpty
  | n + 1 => (s.tile t).mem.chainIn.isEmpty && (!(s.tile (t - 1)).passesRows || State.rowsArrived s (t - 1) n)

/-- Whether a chained operation of a tile has consumed every row already sent to it (12 R312). Rows that wait at a tile whose own
operation does not run stay there; they are sent to that operation. -/
def State.linksEmpty (s : State) (t : Nat) : Bool := s.rowsArrived t (s.tile t).mem.chainPos

/-- Whether an operation at an iteration boundary is suspended there: its tile drains, and a chained one has consumed
every row already sent to it. -/
def State.restsHere (s : State) (t : Nat) (o : Op) : Bool :=
  decide ((s.tile t).life.phase = .draining) && (!o.rcd.chain || decide (o.kind = .mdrainDirect) || s.linksEmpty t)

/-- Whether a tile that goes on without cores after a RETRY teardown has lost the others of some tiles that it needs: all of them go on so,
and in one other `runs` does not hold (log 72). -/
def State.mateLost (s : State) (t : Nat) (ts : List Nat) (runs : Tile → Bool) : Bool :=
  ts.all (fun u => (s.tile u).torn) && ts.any fun u => u != t && !runs (s.tile u)

/-- An iteration done: the operation goes on from the next, retires after the last, or is suspended at the boundary. -/
def State.afterIteration (s : State) (t : Nat) (e : Engine) (o : Op) : State :=
  let o := { o with t := o.t + 1, wait := .none, inIter := false, entered := [] }
  let s := s.workedEng t e
  if o.rcd.total ≤ o.t then s.finishOp t e o .retired
  else s.setOp t e { o with suspended := s.restsHere t o }

/-- The iteration of a running operation, or its cancel at the boundary (02 R46, R47): an iteration in progress, which waited for
firmware, for an answer or for room, completes first (10 R243). An operation that faulted at its start is started again. -/
def State.iterate (s : State) (t : Nat) (e : Engine) (o : Op) (granted : Bool) : State :=
  if o.cancel && !granted && !o.inIter then s.finishOp t e o .cancelled
  else if o.atStart then s.startNow t e o
  else match iterOp t o granted s with
    | (.ok _, s) => s.afterIteration t e o
    | (.error x, s) =>
      if x.stall && s.restsHere t o then s.setOp t e { o with suspended := true, inIter := false }
      else if x.stall && o.rcd.chain && s.mateLost t (s.chainOf t) Tile.passesRows then s.finishOp t e o .cancelled
      else s.stopOp t e o x

/-- Whether an operation waits at a rendezvous of more than one tile (12 R311). -/
def Op.atRendezvous (o : Op) : Bool := decide (o.kind = .mchain) && decide (1 < chainLenOf o.rcd) && !o.cancel

/-- ENGINE_ITERATION. -/
def execEngineIteration (t : TileId) (e : Engine) (s : State) : Out :=
  .next <|
    let x := s.tile t.val
    match (x.eng e).ops with
    | o :: _ =>
      if x.moves ∧ o.state = .running ∧ o.token = none ∧ o.wait = .none ∧ !o.suspended ∧ !o.atRendezvous then
        s.iterate t.val e o false
      else s
    | [] => s

/-! ## Tokens that wait, cancels that wait (06 R140, R148; 10 R243) -/

/-- TOKEN_PENDING_APPEND: the token is appended, and the operation reaches its terminal state; a FAULTED one only loses
its pending token. -/
def execTokenPendingAppend (t : TileId) (e : Engine) (s : State) : Out :=
  .next <|
    let x := s.tile t.val
    match (x.eng e).ops.find? fun o => o.token.isSome with
    | some o =>
      let q := x.queueAt o.rcd.cq.toNat
      let w := o.token.getD 0
      if !x.moves || q.full then s
      else
        let s := s.setQueue t.val o.rcd.cq.toNat (q.push w)
        if o.state = .faulted then s.setOp t.val e { o with token := none }
        else s.endOp t.val e o (if tokType w = 7 then .cancelled else .retired)
    | none => s

/-- QUEUED_CANCEL_COMPLETE: every earlier operation is terminal, so a queued one with its cancel pending is CANCELLED. -/
def execQueuedCancelComplete (t : TileId) (e : Engine) (s : State) : Out :=
  .next <|
    let x := s.tile t.val
    match (x.eng e).ops with
    | o :: _ =>
      if x.moves ∧ o.state = .queued ∧ o.cancel ∧ o.token = none then s.finishOp t.val e { o with wait := .none } .cancelled
      else s
    | [] => s

/-! ## Chains (12 R311) -/

/-- What tile `t`'s `mchain` finds started on the tiles of its chain, its own included: one that does not fit it and has met its own
partners is of another rendezvous, which retires (12 R311). -/
def State.chainPartners (s : State) (t : Nat) (o : Op) : List (Nat × Op) :=
  (chainTiles t o.rcd).filterMap fun u =>
    match s.chainSeen u with
    | some p => if chainFits t o u p || !s.chainMet u p then some (u, p) else none
    | none => none

/-- MCHAIN_RENDEZVOUS: if every tile of the chain has started an `mchain` of this length at its own position, all of them
retire, once none of the tiles is frozen; if one that came to run otherwise than by its start (a resume) is another, every one faults with RECORD_FIELD. One that goes
on after a RETRY teardown and whose partner does not is cancelled (log 72). -/
def execMchainRendezvous (t : TileId) (s : State) : Out :=
  .next <|
    match s.chainOp t.val with
    | none => s
    | some o =>
      let ts := chainTiles t.val o.rcd
      let seen := s.chainPartners t.val o
      if seen.any fun x => !chainFits t.val o x.1 x.2 then seen.foldl State.chainFault s
      else if seen.length = ts.length then
        if ts.any fun u => (s.chainOp u).isNone then s else
        seen.foldl (fun s x => (s.setChain x.1 x.2.rcd).finishOp x.1 .matrix { x.2 with t := x.2.rcd.total } .retired) s
      else if s.mateLost t.val ts (fun x => x.em.ops.any fun p => decide (p.kind = .mchain)) then s.finishOp t.val .matrix o .cancelled
      else s

/-! ## Deadlock (06 R143 to R145) -/

/-- The byte of a core in the wait-for word: STATE, BAR, QUEUE (06 R144, R145). -/
def coreByte (state : Nat) (bar : Bool) (q : Nat) : Nat := state * 64 + b2n bar * 32 + q

/-- Whether the queue that a core waits for keeps it waiting: a pop on an empty queue, a push on a full one. -/
def Tile.queueHolds (x : Tile) : Wait → Bool
  | .pop q => (x.queueAt q).toks.isEmpty
  | .push q => (x.queueAt q).full
  | _ => true

/-- How a core of a tile is blocked, as its byte; none where it is neither exited nor blocked. `gang` for the gang rule's waits. -/
def Tile.blockedByte (x : Tile) (k : Core) (gang : Bool) : Option Nat :=
  if k.run = .exited then some 0
  else if !x.queueHolds k.wait then none
  else match k.wait with
    | .pop q => if q < 12 then some (coreByte 1 false q) else if gang then some (coreByte 3 false q) else none
    | .push q => if q < 12 then some (coreByte 2 false q) else none
    | .gangPush q _ _ => if gang then some (coreByte 3 false q) else none
    | .barw b _ => if gang then some (coreByte 3 true b) else none
    | .barws b _ _ => if gang then some (coreByte 3 true b) else none
    | _ => none

/-- Whether a token of an operation is pending and its completion queue still full. -/
def Tile.tokenHeld (x : Tile) (o : Op) : Bool := o.token.isSome && (x.queueAt o.rcd.cq.toNat).full

/-- The completion queue on which core `c`'s engine holds a token. -/
def Tile.pendingQueue (x : Tile) (c : CoreId) : Option Nat :=
  ((x.eng c.engine).ops.find? x.tokenHeld).map fun o => o.rcd.cq.toNat

/-- The byte of a core, with a pending token of its engine once it has exited. -/
def Tile.waitByte (x : Tile) (c : CoreId) (gang : Bool) : Option Nat :=
  match x.blockedByte (x.core c) gang with
  | some 0 => match x.pendingQueue c with
    | some q => some (coreByte 2 false q)
    | none => some 0
  | r => r

/-- Whether the tile counts as blocked: a core waits, or an exited core's engine holds a token. -/
def Tile.blockedCores (x : Tile) (gang : Bool) : List CoreId :=
  [CoreId.l, .x, .w].filter fun c => match x.waitByte c gang with
    | some (_ + 1) => true
    | _ => false

/-- Whether a record that would write pinned rows waits at the matrix engine and no store that names a pin of those rows is QUEUED or
RUNNING (12 R309): it, and what is queued behind it, does not count as QUEUED. -/
def Tile.pinWait (x : Tile) : Bool :=
  match x.em.ops with
  | o :: _ =>
    decide (o.state = .queued) && (decide (o.kind = .mma) || decide (o.kind = .mmas) || decide (o.kind = .mzero)) && x.pinned o &&
    !(x.mem.pins.filter o.coveredBy).any fun p =>
      x.es.ops.any fun q => decide (q.state ≠ .faulted) && decide (q.namedPin x.es = some p.seq)
  | [] => false

/-- Whether some operation of the tile is QUEUED or RUNNING in the sense of item 3 of 06 R143: neither a token that a full queue
keeps pending nor a wait for a pin counts. -/
def Tile.opsActive (x : Tile) : Bool :=
  [Engine.load, .matrix, .store].any fun e => (x.eng e).ops.any fun o =>
    decide (o.state ≠ .faulted) && !x.tokenHeld o && !(decide (e = .matrix) && x.pinWait && decide (o.state = .queued))

/-- Whether some operation of the tile is QUEUED or RUNNING (06 R145): item 2 of the gang rule excepts none. -/
def Tile.opsLeft (x : Tile) : Bool := [Engine.load, .matrix, .store].any fun e => (x.eng e).ops.any fun o => decide (o.state ≠ .faulted)

/-- Whether anything is on its way to the tile: gang tokens, barrier requests, remote scratchpad stores. A request that has reached an
instance and waits there counts as addressed to the tile of the lowest rank in the instance's group: 10 R230 places the instances
outside the tiles (log 64). -/
def State.inTransit (s : State) (t : Nat) : Bool :=
  ([12, 13, 14, 15].any fun q => !(s.gangWaiters t q).isEmpty) ||
  ((List.range 24).any fun b => !(s.inst t b).reqs.isEmpty && decide ((s.barTiles t b).headD t = t)) ||
  (s.tiles.any fun x => [x.2.cl, x.2.cx, x.2.cw].any fun k => k.remote.any fun r => decide (r.tile = t))

/-- The local deadlock condition (06 R143). -/
def State.localDeadlock (s : State) (t : Nat) : Bool :=
  let x := s.tile t
  decide (x.life.phase = .running) && ([CoreId.l, .x, .w].all fun c => (x.waitByte c false).isSome) &&
  !(x.blockedCores false).isEmpty && !x.opsActive && !s.inTransit t

/-- The wait-for word (06 Table 6.5). -/
def Tile.waitWord (x : Tile) (gang : Bool) : Nat :=
  (x.waitByte .l gang).getD 0 + (x.waitByte .x gang).getD 0 * 2 ^ 8 + (x.waitByte .w gang).getD 0 * 2 ^ 16 + b2n gang * 2 ^ 24

/-- DEADLOCK on a tile. 18 Table 18.5 names the first blocked core; DESIGN CHOICE (log 82): under the gang rule a tile none of whose cores
is blocked names the L-core and its program counter. -/
def State.deadlock (s : State) (t : Nat) (gang : Bool) : State :=
  let x := s.tile t
  let c := (x.blockedCores gang).headD .l
  s.takeFault t { code := Code.deadlock, unit := c.num, source := if gang then 3 else 0, vaddr := (x.core c).pc.toNat
                  detail := x.waitWord gang }

/-- Whether a tile has reached the DEADLOCK count: it then takes the fault, and no save takes place (06 R143). -/
def State.deadlockDue (s : State) (t : Nat) : Bool := decide (4096 ≤ (s.tile t).life.deadCount) && s.localDeadlock t

/-- LOCAL_DEADLOCK: the condition has held for 4,096 cycles. -/
def execLocalDeadlock (t : TileId) (s : State) : Out :=
  .next (if s.deadlockDue t.val then s.deadlock t.val false else s)

/-- Whether the barrier that a core of tile `t` waits at keeps it waiting: the phase of its `barw` has not completed, the phase count
of its `barws` has not moved. -/
def State.barHolds (s : State) (t : Nat) (k : Core) : Bool :=
  match k.wait with
  | .barw _ _ => !k.barpend.told
  | .barws bar seen _ => decide ((s.inst t bar).ph = seen)
  | _ => true

/-- Whether a tile has taken its own DEADLOCK in this tick: in the cycle under way it counts as blocked (06 R143, R145). -/
def State.justDead (s : State) (t : Nat) : Bool :=
  match (s.tile t).life.fault with
  | some f => decide (f.code = Code.deadlock) && decide (f.tick = s.seiche)
  | none => false

/-- The gang rule's condition (06 R145): every tile of the gang runs, all its cores have exited or are blocked, it has no operation
QUEUED or RUNNING, and nothing is on its way to it. -/
def State.gangBlocked (s : State) (n : Node) : Bool :=
  n.tiles.all (fun t => s.justDead t || decide ((s.tile t).life.phase = .running) &&
    ([CoreId.l, .x, .w].all fun c => ((s.tile t).waitByte c true).isSome && s.barHolds t ((s.tile t).core c)) && !(s.tile t).opsLeft &&
    !((List.range 24).any fun b => !(s.inst t b).reqs.isEmpty) &&
    !(s.tiles.any fun x => [x.2.cl, x.2.cx, x.2.cw].any fun k => k.remote.any fun r => decide (r.tile = t)) &&
    !([12, 13, 14, 15].any fun q => !((s.tile t).queueAt q).full && !(s.gangWaiters t q).isEmpty)) &&
  n.tiles.any fun t => s.justDead t || !((s.tile t).blockedCores true).isEmpty

/-- GANG_DEADLOCK: the gang rule has held for 4,096 cycles; every tile of the gang takes DEADLOCK with GANG, but for a tile that meets
the local condition: that one takes, or has taken in this tick, its own (the example of 06 R144, log 26). -/
def execGangDeadlock (p : PartId) (node : VAddr) (s : State) : Out :=
  .next <|
    match s.findNode p.val node.toNat with
    | some n =>
      if 4096 ≤ n.gangCount ∧ s.gangBlocked n then
        n.tiles.foldl (fun u t => if s.justDead t then u else u.deadlock t (!s.localDeadlock t)) s
      else s
    | none => s

end Sys2Proof.Machine
end

