-- ==== Sys2Proof/Machine/NodeRec.lean ====
section
/-! DEFINITION. Node records and graph records: their fields, how the scheduler reads and writes them, node states, the ready
pool's ranking, and the end of a node and of a graph (17 R375 to R388, R397, R403, R404). -/
namespace Sys2Proof.Machine

/-! ## The node record as one number (17 Table 17.1) -/

namespace Rcd
def entL (r : Nat) : Nat := field r 0 56
def entX (r : Nat) : Nat := field r 64 56
def entW (r : Nat) : Nat := field r 128 56
def dbase (r : Nat) : Nat := field r 192 56
def fmtimg (r : Nat) : Nat := field r 256 56
def nstage (r : Nat) : Nat := field r 320 9
def tps (r : Nat) : Nat := field r 329 9
def prio (r : Nat) : Nat := field r 338 5
def det (r : Nat) : Bool := bit r 343
def preempt (r : Nat) : Bool := bit r 344
def policy (r : Nat) : Nat := field r 345 2
def retryn (r : Nat) : Nat := field r 347 4
def banks (r : Nat) : Nat := field r 352 32
def qd (r q : Nat) : Nat := if q < 12 then field r (384 + 5 * q) 5 else field r (448 + 5 * (q - 12)) 5
def gqcons (r q : Nat) : Nat := field r (468 + 2 * q) 2
def qrep (r : Nat) : Bool := bit r 476
def succ (r : Nat) : Nat := field r 512 56
def nsucc (r : Nat) : Nat := field r 576 16
def predinit (r : Nat) : Nat := field r 592 16
def frec (r : Nat) : Nat := field r 832 56
def save (r : Nat) : Nat := field r 896 56
/-- Tiles of the gang: S × T. -/
def size (r : Nat) : Nat := nstage r * tps r
/-- Depth of a queue as the record repartitions it (06 R132). -/
def depth (r q : Nat) : Nat := if qrep r then 8 * (qd r q + 1) else 64
/-- The reserved fields: low bit and width. -/
def reserved : List (Nat × Nat) :=
  [(56, 8), (120, 8), (184, 8), (248, 8), (312, 8), (351, 1), (444, 4), (477, 35), (568, 8), (624, 16), (654, 2), (664, 8),
   (688, 16), (888, 8), (952, 8)]
end Rcd

/-- The tiles that a partition owns (17 R376). -/
def Part.tileCount (p : Part) : Nat := 8 * popCount p.clusters.toNat 32

/-- Items 1 to 6 of 17 R376. -/
def malformedRecord (r tiles : Nat) (inGraph : Bool) : Bool :=
  Rcd.reserved.any (fun f => decide (field r f.1 f.2 ≠ 0)) ||
  decide (Rcd.nstage r = 0) || decide (Rcd.tps r = 0) || decide (256 < Rcd.size r) || decide (tiles < Rcd.size r) ||
  decide (Rcd.entL r % 4 ≠ 0) || decide (Rcd.entX r % 4 ≠ 0) || decide (Rcd.entW r % 4 ≠ 0) ||
  decide (Rcd.dbase r % 64 ≠ 0) || decide (Rcd.fmtimg r % 128 ≠ 0) ||
  (decide (Rcd.nsucc r ≠ 0) && decide (Rcd.succ r % 8 ≠ 0)) ||
  decide (Rcd.policy r = 3) || (Rcd.preempt r && decide (Rcd.save r = 0)) ||
  (Rcd.qrep r && decide (1024 < ((List.range 16).map (Rcd.depth r)).sum)) ||
  (List.range 4).any (fun q => decide (Rcd.gqcons r q = 3)) ||
  (!inGraph && (decide (Rcd.nsucc r ≠ 0) || decide (Rcd.predinit r ≠ 0)))

/-- Item 7 of 17 R376. -/
def malformedList (l : List Nat) (count self : Nat) : Bool := l.any fun i => decide (count ≤ i) || decide (i = self)

/-- 16-bit numbers of a list of bytes. -/
def halves : List Byte → List Nat
  | a :: b :: l => (a.toNat + 256 * b.toNat) :: halves l
  | _ => []

/-- 64-bit numbers of a list of bytes, `n` of them. -/
def dwords (l : List Byte) (n : Nat) : List Nat := (List.range n).map fun i => leNat ((l.drop (8 * i)).take 8)

/-! ## Table 3.4, and the image that a node loads (03 R59, R66) -/

/-- An image entry as it loads: V is cleared where the entry is not legal (03 R59; f9 of 17 R406 is one). -/
def loadedEntry (e : Nat) : Word := BitVec.ofNat 64 (if Ent.v e && !Ent.legal e then setField e 63 1 0 else e)

/-- A format table from its sixteen image entries. -/
def loadedImage (l : List Nat) : SMap Word :=
  (List.range 16).foldl (fun m (i : Nat) => SMap.set 0 m i (loadedEntry (l.getD i 0))) []

/-! ## Reads and writes by the scheduler (17 R376, R377) -/

/-- Bytes read by the scheduler of partition `p`, on die 0 (18 R416). -/
def State.schedRead (s : State) (p va n : Nat) : Except Nat (List Byte) × State :=
  match hubRead s 0 p (spanFuel n) va n with
  | (.ok l, s) => (.ok l, s)
  | (.error f, s) => (.error f.code, s)

/-- One doubleword written by the scheduler into record `rec`: NODE_FAULT where it cannot be (17 R377). -/
def State.schedWrite (s : State) (p rcd va v : Nat) : State :=
  match hubWrite s 0 p 2 va (leBytes v 8) with
  | (none, s) => s
  | (some f, s) => s.post (some p) { status := Status.nodeFault, addr := rcd, data := f.code + 0xFF * 256 }

/-- A doubleword of a record as the scheduler finds it; `d` where it cannot be read. -/
def State.schedDw (s : State) (p va d : Nat) : Nat × State :=
  match s.schedRead p va 8 with
  | (.ok l, s) => (leNat l, s)
  | (.error _, s) => (d, s)

/-- The code of a node state (17 Table 17.3). -/
def NState.code : NState → Nat
  | .waiting => 0
  | .ready => 1
  | .placing => 2
  | .running => 3
  | .ending => 4
  | .saved => 5
  | .retired => 6
  | .faulted => 7
  | .cancelled => 8
  | .rejected => 9

/-- Terminal states (17 R384). -/
def NState.terminal : NState → Bool
  | .retired => true
  | .faulted => true
  | .cancelled => true
  | .rejected => true
  | _ => false

/-- Doubleword 10 of the node record as the scheduler keeps it: STATE, ATTEMPT, EPRIO, PFAIL, FCODE, CAUSE. -/
def Node.dw10 (n : Node) : Nat :=
  n.state.code + n.attempt % 16 * 2 ^ 4 + n.placedPrio * 2 ^ 8 + b2n n.pfail * 2 ^ 13 + n.fcode % 256 * 2 ^ 16 + n.cause * 2 ^ 32

/-- A node replaced, and its doubleword 10 written. -/
def State.writeNode (s : State) (p : Nat) (n : Node) : State := (s.putNode p n).schedWrite p n.addr (n.addr + 80) n.dw10

/-- READYTICK written (17 Table 17.1). -/
def State.writeReady (s : State) (p : Nat) (n : Node) : State := s.schedWrite p n.addr (n.addr + 88) n.readyAt

/-- PREDCNT written by an RMW of its doubleword (17 R377). -/
def State.writePred (s : State) (p : Nat) (n : Node) : State :=
  let (v, s) := s.schedDw p (n.addr + 72) (Rcd.nsucc n.rcd + Rcd.predinit n.rcd * 2 ^ 16)
  (s.putNode p n).schedWrite p n.addr (n.addr + 72) (setField v 32 16 n.predcnt)

/-- What the scheduler finds as it reads a node (17 R376). -/
inductive Loaded where
  | ok (n : Node)
  | malformed (n : Node)
  | failed (n : Node) (code : Nat)
  deriving DecidableEq, Repr

/-- The graph of a node, if it belongs to one. -/
def Sched.graphOf (x : Sched) (n : Node) : Option Graph :=
  match n.graph with
  | some a => x.graphs.find? (·.addr == a)
  | none => none

/-- The node with its successor list read (17 R376). -/
def loadSucc (s : State) (p : Nat) (n : Node) : Except Nat Node × State :=
  if Rcd.nsucc n.rcd = 0 then (.ok { n with succ := [] }, s)
  else match s.schedRead p (Rcd.succ n.rcd) (2 * Rcd.nsucc n.rcd) with
    | (.ok l, s) => (.ok { n with succ := halves l }, s)
    | (.error c, s) => (.error c, s)

/-- The node with its format image read (17 Table 17.1). -/
def loadFmt (s : State) (p : Nat) (n : Node) : Except Nat Node × State :=
  if Rcd.fmtimg n.rcd = 0 then (.ok { n with fmt := loadedImage resetFormats }, s)
  else match s.schedRead p (Rcd.fmtimg n.rcd) 128 with
    | (.ok l, s) => (.ok { n with fmt := loadedImage (dwords l 16) }, s)
    | (.error c, s) => (.error c, s)

/-- The scheduler reads a node's record, its successor list and its image, and checks them (17 R376). -/
def loadNode (s : State) (p : Nat) (n : Node) : Loaded × State :=
  match s.schedRead p n.addr 128 with
  | (.error c, s) => (.failed n c, s)
  | (.ok l, s) =>
    let n := { n with rcd := leNat l }
    if malformedRecord n.rcd (s.part p).tileCount n.graph.isSome then (.malformed n, s)
    else match loadSucc s p n with
      | (.error c, s) => (.failed n c, s)
      | (.ok n, s) =>
        let count := match (s.part p).sched.graphOf n with
          | some g => g.count
          | none => 0
        if malformedList n.succ count n.index then (.malformed n, s)
        else match loadFmt s p n with
          | (.error c, s) => (.failed n c, s)
          | (.ok n, s) => (.ok n, s)

/-! ## The pool (17 R385 to R388) -/

/-- The pool's capacity. -/
def poolCap : Nat := 1024

/-- OCC: the nodes in the pool. -/
def Sched.occ (x : Sched) : Nat := (x.nodes.filter (·.pooled)).length

/-- Whether the pool has room. -/
def Sched.room (x : Sched) : Bool := decide (x.occ < poolCap)

/-- Whether `n` ranks above `m`: EPRIO, then READYTICK, then address (17 R386). -/
def Node.above (n m : Node) : Bool :=
  decide (m.eprio < n.eprio) ||
  (decide (m.eprio = n.eprio) && (decide (n.readyAt < m.readyAt) || (decide (n.readyAt = m.readyAt) && decide (n.addr < m.addr))))

/-- The highest-ranked of some nodes. -/
def topNode : List Node → Option Node
  | [] => none
  | n :: l => match topNode l with
    | none => some n
    | some m => if n.above m then some n else some m

/-- The nodes that placement may look at: in the pool, READY or SAVED, not held by a breakpoint (20 R466). -/
def Sched.ranked (x : Sched) : List Node :=
  x.nodes.filter fun n => n.pooled && !n.held && (decide (n.state = .ready) || decide (n.state = .saved))

/-- The head (17 R386). -/
def Sched.head (x : Sched) : Option Node := topNode x.ranked

/-- The scheduler as the departure of node `a` from the pool leaves it: the head's count ends, its held tiles are free
(17 R388, R389). -/
def Sched.leave (x : Sched) (a : Nat) : Sched :=
  { x with
    waiting := x.waiting.filter (· != a)
    headSince := match x.headSince with
      | some (h, t) => if h = a then none else some (h, t)
      | none => none
    backfill := match x.headSince with
      | some (h, _) => if h = a then true else x.backfill
      | none => x.backfill
    heldFor := x.heldFor.filter (·.2 != a) }

/-! ## Hits of the debug block (20 R467) -/

/-- The debug block of a partition replaced. -/
def State.setDebug (s : State) (p : Nat) (d : Debug) : State := s.setPart p { s.part p with dbg := d }

/-- MSI-X vector 2, raised as a hit becomes shown (20 R467). -/
def State.msix (s : State) (v : Nat) : State :=
  { s with hub := { s.hub with card := { s.hub.card with msix := insertNat s.hub.card.msix v } } }

/-- A hit joins the queue; it is shown where it is the oldest. -/
def State.addHit (s : State) (p : Nat) (h : Hit) : State :=
  let d := (s.part p).dbg
  let s := s.setDebug p { d with hits := d.hits ++ [h] }
  if d.hits.isEmpty then s.msix 2 else s

/-- Hits that a test names leave the queue; the next is shown. -/
def State.dropHits (s : State) (p : Nat) (f : Hit → Bool) : State :=
  let d := (s.part p).dbg
  let l := d.hits.filter fun h => !f h
  let s := s.setDebug p { d with hits := l }
  if decide (l.head? ≠ d.hits.head?) && !l.isEmpty then s.msix 2 else s

/-- The hits of a node's breakpoints and stops go as it leaves (20 R467, Table 20.2). -/
def State.dropNodeHits (s : State) (p a : Nat) : State := s.dropHits p fun h => decide (2 ≤ h.kind) && decide (h.addr = a)

/-! ## Graph records (17 R379, R382) -/

/-- The header of a graph record: GSTATE, WALK and REMAIN written, NNODES as it is found (17 R379). -/
def State.writeHeader (s : State) (p : Nat) (g : Graph) (gstate : Nat) (walk : Bool) (remain : Nat) : State :=
  let (v, s) := s.schedDw p (g.addr + 8) g.count
  s.schedWrite p g.addr (g.addr + 8) (field v 0 16 + gstate * 2 ^ 16 + b2n walk * 2 ^ 20 + remain * 2 ^ 32)

/-- The nodes of a graph. -/
def Sched.graphNodes (x : Sched) (g : Graph) : List Node := x.nodes.filter fun n => n.graph == some g.addr

/-- How many of some nodes are in a state, as a 16-bit count. -/
def countState (l : List Node) (st : NState) : Nat := (l.filter fun n => decide (n.state = st)).length % 2 ^ 16

/-- A trigger of the hash tree: an update starts, or, during one, one further update is to follow it (20 R487). -/
def Debug.trigger (d : Debug) : Debug := { d with hreq := min 2 (d.hreq + 1) }

/-- The completion of a graph counted for the hash tree (20 R487). -/
def State.countGraph (s : State) (p : Nat) : State :=
  let d := (s.part p).dbg
  if d.hen then
    let n := d.graphs + 1
    s.setDebug p (if d.km1 + 1 ≤ n then { d.trigger with graphs := 0 } else { d with graphs := n })
  else s

/-- A graph whose nodes are all terminal, with no walk left to run, completes: the counts, GSTATE, DONETICK, and the event
(17 R382). -/
def State.checkGraph (s : State) (p ga : Nat) : State :=
  let x := (s.part p).sched
  match x.graphs.find? (·.addr == ga) with
  | none => s
  | some g =>
    let l := x.graphNodes g
    if (l.all fun n => n.state.terminal) && x.walks.all (fun w => w.graph != ga) then
      let all := l.all fun n => decide (n.state = .retired)
      let gs := if g.aborted then 4 else if all then 2 else 3
      let s := s.schedWrite p ga (ga + 16) (countState l .retired + countState l .faulted * 2 ^ 16 +
        countState l .cancelled * 2 ^ 32 + countState l .rejected * 2 ^ 48)
      let s := s.writeHeader p g gs false 0
      let s := s.schedWrite p ga (ga + 24) s.seiche
      let x := (s.part p).sched
      let s := s.setSched p { x with nodes := x.nodes.filter (fun n => n.graph != some ga)
                                     graphs := x.graphs.filter (fun h => h.addr != ga) }
      (s.post (some p) { status := if all && !g.aborted then Status.graphDone else Status.graphIncomplete, addr := ga }).countGraph p
    else s

/-- A node reaches a terminal state: it leaves the pool, its cone is to be walked unless it retired or a walk marked it, and
its graph may complete (17 R384, R404). -/
def State.endNode (s : State) (p : Nat) (n : Node) (st : NState) (walk : Bool) : State :=
  let n := { n with state := st, pooled := false, held := false, ending := none, stopping := none, preempt := false, saves := [] }
  let s := (s.writeNode p n).dropNodeHits p n.addr
  let s := s.setSched p ((s.part p).sched.leave n.addr)
  match n.graph with
  | none => s.setSched p { (s.part p).sched with nodes := (s.part p).sched.nodes.filter (·.addr != n.addr) }
  | some ga =>
    let s := if walk then
        s.setSched p { (s.part p).sched with
          walks := (s.part p).sched.walks ++ [{ graph := ga, root := n.index, queue := [], begun := false }] }
      else s
    s.checkGraph p ga

/-- A host cancel of a node on no tile: CANCELLED with CAUSE 0xFFFF, and a walk (17 Table 17.3). -/
def State.cancelNode (s : State) (p : Nat) (n : Node) : State := s.endNode p { n with cause := 0xFFFF } .cancelled true

/-- A node enters the pool: EPRIO := PRIO and READYTICK (17 R386); a saved gang keeps the priority it was placed at and the
READYTICK of its save. -/
def State.enterPool (s : State) (p : Nat) (n : Node) : State :=
  let x := (s.part p).sched
  let s := s.setSched p { x with waiting := x.waiting.filter (· != n.addr) }
  if n.state = .saved then s.putNode p { n with pooled := true, eprio := n.placedPrio, aged := s.seiche }
  else
    let n := { n with pooled := true, state := .ready, eprio := Rcd.prio n.rcd, readyAt := s.seiche, aged := s.seiche
                      held := false, checked := false }
    (s.writeReady p n).writeNode p n

/-- A READY node enters the pool once the scheduler has read it: REJECTED where it is malformed, FAULTED where it cannot be
read (17 R376). -/
def State.takeIn (s : State) (p : Nat) (n : Node) : State :=
  if n.state = .saved then s.enterPool p n
  else match loadNode s p n with
    | (.ok n, s) => s.enterPool p n
    | (.malformed n, s) =>
      (s.endNode p { n with fcode := Code.descriptorInvalid } .rejected true).post (some p)
        { status := Status.nodeRejected, addr := n.addr }
    | (.failed n c, s) => s.endNode p { n with fcode := c } .faulted true

/-- A node becomes READY and waits its turn for the pool (17 R385). -/
def State.makeReady (s : State) (p : Nat) (n : Node) : State :=
  let s := s.writeNode p { n with state := .ready }
  s.setSched p { (s.part p).sched with waiting := (s.part p).sched.waiting ++ [n.addr] }

/-- NODE_FIRING: the first node that waits for the pool enters it where there is room (17 R385). -/
def execNodeFiring (p : PartId) (node : VAddr) (s : State) : Out :=
  .next <|
    let x := (s.part p.val).sched
    match x.waiting, s.findNode p.val node.toNat with
    | a :: _, some n => if a = node.toNat ∧ x.room then s.takeIn p.val n else s
    | _, _ => s

end Sys2Proof.Machine
end

