-- ==== Sys2Proof/Machine/TileLife.lean ====
section
/-! DEFINITION. The life of a tile: freezing at a consistent cut, fault records, the end of an attempt, resolution and resume,
waking and gating (06 R146 to R148; 17 R399 to R402; 18 R417 to R423; 20 R468, R479; 02 R49). -/
namespace Sys2Proof.Machine

/-! ## At rest (06 R146) -/

/-- The other tiles of a tile's chain: it drains as one unit (12 R312). -/
def State.mates (s : State) (t : Nat) : List Nat :=
  if (s.tile t).mem.chainLen ≤ 1 then [] else (s.chainOf t).filter (· != t)

/-- Whether a core has stopped: it waits for nothing and no store of its is on its way. -/
def Core.atRest (k : Core) : Bool := decide (k.wait = .none) && k.remote.isEmpty

/-- Whether an operation of a draining tile has come to rest. -/
def State.opAtRest (s : State) (t : Nat) (o : Op) : Bool :=
  match o.state with
  | .running => o.suspended || o.token.isSome || (o.atRendezvous && s.restsHere t o)
  | _ => true

/-- Whether an engine's pending token, if it has one, waits for room: an engine is not at rest while a token is still to be appended (06
R140, R146). -/
def Tile.tokensHeld (x : Tile) (g : Eng) : Bool :=
  match g.ops.find? fun o => o.token.isSome with
  | some o => (x.queueAt o.rcd.cq.toNat).full
  | none => true

/-- Whether every core of a tile has stopped and every engine has come to rest. -/
def State.atRest (s : State) (t : Nat) : Bool :=
  let x := s.tile t
  x.cl.atRest && x.cx.atRest && x.cw.atRest &&
  [x.el, x.em, x.es].all fun g => g.ops.all (s.opAtRest t) && x.tokensHeld g

/-- The operations of a tile that freezes: one that runs and has no token pending is suspended at its boundary. -/
def Eng.suspend (e : Eng) : Eng :=
  { e with ops := e.ops.map fun o => if o.state = .running ∧ o.token = none then { o with suspended := true, wait := .none } else o }

/-! ## The cut (06 R147, 18 Table 18.4) -/

/-- A core's program counter as the cut holds it. -/
def Core.cutPc (k : Core) : Nat :=
  k.pc.toNat + (if k.run = .exited then 2 ^ 63 else 0) + (if k.run = .yielded then 2 ^ 62 else 0)

/-- The state of an operation as OPS holds it. -/
def Op.cutCode (o : Op) : Nat :=
  if o.token.isSome then 6
  else match o.state with
    | .queued => 0
    | .faulted => 3
    | .running => if o.suspended then 5 else 1

/-- The state in which an operation of a node that is cancelled ends, by its code (02 R49, R50; 10 Table 10.5). -/
def Op.finalCode (o : Op) : Nat :=
  match o.state, o.token with
  | .faulted, _ => OpEnd.code .faulted
  | _, some w => OpEnd.code (if tokType w = 7 then .cancelled else .retired)
  | _, none => OpEnd.code .cancelled

/-- OPS of an engine: sixteen states, 15 where there is none. -/
def Eng.cutOps (e : Eng) (code : Op → Nat) : Nat :=
  ((List.range 16).map fun i => (match e.ops[i]? with | some o => code o | none => 15) * 16 ^ i).sum

/-- ENG of an engine. -/
def Eng.cutSeq (e : Eng) : Nat := e.last + e.lastTerm * 2 ^ 32

/-- QUEUES: HEAD and TAIL of the queues, two to a doubleword. -/
def Tile.cutQueues (x : Tile) : List Nat :=
  (List.range 8).map fun i =>
    let a := x.queueAt (2 * i)
    let b := x.queueAt (2 * i + 1)
    a.head + a.tail * 2 ^ 16 + b.head * 2 ^ 32 + b.tail * 2 ^ 48

/-- Doubleword 0 of a record: SEQ, RANK, KIND and the fault's own fields. -/
def recordDw0 (f : FaultRec) (kind rank seq : Nat) (resolved : Bool) : Nat :=
  f.code + b2n resolved * 2 ^ 8 + b2n f.remote * 2 ^ 9 + b2n f.straddle * 2 ^ 10 + f.source * 2 ^ 14 + f.unit * 2 ^ 16 +
  f.access * 2 ^ 18 + kind * 2 ^ 20 + rank * 2 ^ 32 + seq % 2 ^ 16 * 2 ^ 48

/-- The cut of a tile as it stands. -/
def Tile.cutNow (x : Tile) : Cut :=
  let e := [x.el, x.em, x.es]
  { pcs := [x.cl.cutPc, x.cx.cutPc, x.cw.cutPc], engs := e.map Eng.cutSeq, listed := e.map fun e => (e.ops.take 16).map (·.seq)
    queues := x.cutQueues }

/-- OPS of an engine whose listed operations have ended: the states in which they ended (10 R240). -/
def Eng.endedOps (e : Eng) (l : List Nat) : Nat :=
  ((List.range 16).map fun i => (match l[i]? with | some q => SMap.get 2 e.fin q | none => 15) * 16 ^ i).sum

/-- Doublewords 8 to 24: the cut, with the states of the operations as it holds them, or, in a cancellation record, as they end: by now
where the cut lies back at the teardown of an abandoned attempt (18 R419, 02 R50; log 68). -/
def Tile.cutWords (x : Tile) (kind : Nat) : List Nat :=
  match kind, x.life.cut with
  | 1, some c => c.pcs ++ c.engs ++ (List.zipWith Eng.endedOps [x.el, x.em, x.es] c.listed) ++ c.queues
  | _, _ =>
    let code := if kind = 1 then Op.finalCode else Op.cutCode
    let c := x.cutNow
    c.pcs ++ c.engs ++ [x.el.cutOps code, x.em.cutOps code, x.es.cutOps code] ++ c.queues

/-- Doublewords 1 to 31 of a record of a tile (18 R419). -/
def Tile.recordRest (x : Tile) (kind : Nat) (f : FaultRec) (node part attempt : Nat) : List Nat :=
  [f.tick, f.vaddr, f.page, f.detail, x.ctl.tile.toNat, f.handle, f.ivec] ++ x.cutWords kind ++
  [node, part + attempt % 16 * 16, 0, 0, 0, 0, 0]

/-- The 256 bytes of a record. -/
def recordBytes (dws : List Nat) : List Byte := dws.flatMap fun v => leBytes v 8

/-- A record written at FREC + 256 × rank: doublewords 1 to 31, then doubleword 0. Nothing is written where FREC is 0 or
firmware cannot complete the translation (18 R419). -/
def State.writeRecord (s : State) (t kind : Nat) (f : FaultRec) (resolved : Bool) : State :=
  match (s.tile t).life.seat with
  | none => s
  | some k =>
    let n := s.nodeOf t
    let base := Rcd.frec n.rcd
    if base = 0 then s
    else
      let a := base + 256 * k.rank
      let seq := SMap.get 0 n.seqs k.rank + 1
      match hubWrite s (tileDie t) k.part 3 (a + 8) (recordBytes ((s.tile t).recordRest kind f n.addr k.part n.attempt)) with
      | (some _, s) => s
      | (none, s) =>
        (hubWrite (s.putNode k.part { s.nodeOf t with seqs := SMap.put n.seqs k.rank seq }) (tileDie t) k.part 2 a
          (leBytes (recordDw0 f kind k.rank seq resolved) 8)).2

/-- Doubleword 0 of the tile's record written again with RESOLVED set (18 R422). -/
def State.markResolved (s : State) (t : Nat) (f : FaultRec) : State :=
  match (s.tile t).life.seat with
  | none => s
  | some k =>
    let n := s.nodeOf t
    if Rcd.frec n.rcd = 0 then s
    else (hubWrite s (tileDie t) k.part 2 (Rcd.frec n.rcd + 256 * k.rank)
      (leBytes (recordDw0 f 0 k.rank (SMap.get 0 n.seqs k.rank) true) 8)).2

/-- The fields of a record that no fault raised: a cancellation, a save cut, a debug stop. -/
def quietRec (s : State) (source : Nat) : FaultRec := { code := 0, source := source, tick := s.seiche }

/-- The fields of a cancellation record: no rule says what its SOURCE is (log 29). -/
def cancelRec (s : State) : FaultRec := quietRec s (Config.cancelSource s.choices).toNat

/-! ## Teardown (02 R49, R50) -/

/-- An operation whose token is pending ends: its token is appended if its queue has room, and discarded else (02 R49). -/
def State.endPending (s : State) (t : Nat) (e : Engine) (o : Op) (how : OpEnd) (w : W32) : State :=
  let q := (s.tile t).queueAt o.rcd.cq.toNat
  if q.full then s.endOp t e o how else (s.setQueue t o.rcd.cq.toNat (q.push w)).endOp t e o how

/-- An operation of a node that is cancelled reaches its terminal state. -/
def State.tearOp (s : State) (t : Nat) (e : Engine) (o : Op) : State :=
  match o.state, o.token with
  | .faulted, some w => s.endPending t e o .faulted w
  | .faulted, none => s.endOp t e o .faulted
  | _, some w => s.endPending t e o (if tokType w = 7 then .cancelled else .retired) w
  | _, none => s.finishOp t e { o with suspended := false, wait := .none } .cancelled

/-- Every operation of an engine, in order. -/
def State.tearEng (s : State) (t : Nat) (e : Engine) : State := (s.engAt t e).ops.foldl (fun s o => s.tearOp t e o) s

/-- An operation of an attempt abandoned under RETRY: a queued one is to be cancelled, a running one runs on. -/
def Op.adopt (o : Op) : Op :=
  if o.state = .queued then { o with attached := false, cancel := true, wait := .none }
  else { o with attached := false, suspended := false, wait := .none }

/-- An engine of such an attempt: a FAULTED operation is terminal at once, and so is one whose token is pending (02 R49). -/
def State.adoptEng (s : State) (t : Nat) (e : Engine) : State :=
  let s := (s.engAt t e).ops.foldl (fun s o => if o.state = .faulted ∨ o.token.isSome then s.tearOp t e o else s) s
  s.setEngAt t e { s.engAt t e with ops := (s.engAt t e).ops.map Op.adopt }

/-- The cores of a tile torn down. -/
def Tile.haltCores (x : Tile) : Tile :=
  { x with cl := { x.cl with run := .halted, wait := .none }, cx := { x.cx with run := .halted, wait := .none }
           cw := { x.cw with run := .halted, wait := .none } }

/-- A tile that has come to rest in an ending attempt is torn down. Under a cancel it writes its cancellation record: the cut, with
the states in which its operations end (18 R419). Under RETRY its engines go on without cores, and the tile keeps its cut for the
record of a cancel that comes meanwhile (02 R50): a second teardown, after a fault of an operation that the tile adopted, keeps the
first cut, and the record is then written as the attempt ends (recordCut). DESIGN CHOICE (log 81): an attempt that a fault ends under RESUME has its operations
cancelled as under CANCEL. -/
def State.tearDown (s : State) (t : Nat) (why : EndWhy) : State :=
  let s := s.setTile t { s.tile t with life := { (s.tile t).life with rest := some .ending, latched := none, pending := false } }
  match why with
  | .fault _ _ true =>
    let cut := (s.tile t).life.cut.getD (s.tile t).cutNow
    let s := ((s.adoptEng t .load).adoptEng t .matrix).adoptEng t .store
    (s.setTile t { (s.tile t).haltCores with life := { (s.tile t).life with
      phase := .running, fault := none, gatedClock := false, cut := some cut } }).traceRestart t
  | _ =>
    let s := match why with
      | .cancel => if (s.tile t).life.cut.isSome then s else s.draw.writeRecord t 1 (cancelRec s) false
      | _ => s
    let s := ((s.tearEng t .load).tearEng t .matrix).tearEng t .store
    s.setTile t { (s.tile t).haltCores with life := { (s.tile t).life with phase := .frozen, fault := none } }

/-- A tile of an attempt that ends: one that moves drains; one that is at rest, or has not started, is torn down at once. -/
def State.endTile (s : State) (t : Nat) (why : EndWhy) : State :=
  let x := s.tile t
  if x.moves then
    s.setTile t { x.drainCores with life := { x.life with
      phase := .draining, rest := some .ending, latched := none, pending := false } }
  else s.tearDown t why

/-- The tiles of a saved gang that are placed and not yet restored hold what its save area holds, so that their cancellation records show
the final states of its operations (02 R50). -/
def State.recallSaved (s : State) (n : Node) : State :=
  n.tiles.foldl (fun s t =>
    let x := s.tile t
    if x.life.phase = .restored then s
    else match x.life.seat with
      | some k => s.setTile t { SMap.get {} n.saves k.rank with
          life := x.life, ctl := x.ctl, mem := x.mem, prv := x.prv, perf := x.perf, trace := x.trace }
      | none => s) s

/-- Whether a posted write was issued on a tile of a node. -/
def Posted.seatOf (w : Posted) (p a : Nat) : Bool := match w.seat with
  | some k => decide (k.part = p) && decide (k.node = a)
  | none => false

/-- The posted writes of a saved gang that will not resume have no engine any more. -/
def State.orphanAway (s : State) (p a : Nat) : State :=
  { s with posted := s.posted.map fun w => if w.away ∧ w.seatOf p a then { w with away := false, orphan := true } else w }

/-- The attempt of a node ends: the node is ENDING and every tile drains (17 R402, Table 17.3). A pre-emption or a debug stop
under way is void (17 R384, 20 Table 20.2). DESIGN CHOICE (log 94): where a restore that fails ends the attempt under RETRY or CANCEL, the
images of the tiles that are not restored yet are dropped, the operations in them with them; 02 R49 and R50 do not say what becomes of
these. -/
def State.endAttempt (s : State) (p : Nat) (n : Node) (why : EndWhy) : State :=
  let s := (if why = .cancel ∧ n.wasSaved then s.recallSaved n else s).orphanAway p n.addr
  let n := { n with state := .ending, ending := some why, preempt := false, stopping := none, stopped := false, saves := [] }
  let s := (s.writeNode p n).dropNodeHits p n.addr
  n.tiles.foldl (fun s t => s.endTile t why) s

/-! ## Freezing (06 R146, 20 R468) -/

/-- The MARK token of a STOP, appended where its queue has room (20 R468). -/
def State.pushMark (s : State) (t : Nat) : State :=
  let n := s.nodeOf t
  let q := (s.tile t).queueAt n.markq
  if n.markq < 12 ∧ !q.full then s.setQueue t n.markq (q.push (BitVec.ofNat 32 (0x80000000 + n.cutid))) else s

/-- The MARK of a tile that freezes during a STOP; the stop that a `brk` begins names no queue (20 R468, R469). -/
def State.stopMark (s : State) (t : Nat) : State := if (s.nodeOf t).stopping = some 4 then s.pushMark t else s

/-- What a tile writes as it freezes: its fault's record, or that of a debug stop. -/
def State.freezeRecord (s : State) (t : Nat) : State :=
  let x := s.tile t
  match x.life.fault, x.life.rest with
  | some f, some .ending =>
    match (s.nodeOf t).ending with
    | some .cancel => s
    | _ => s.writeRecord t 0 f false
  | some f, some .debug => (s.stopMark t).writeRecord t 0 f false
  | some f, _ => s.writeRecord t 0 f false
  | none, some .debug => (s.stopMark t).writeRecord t 3 (quietRec s 3) false
  | none, _ => s

/-- The tile frozen: its cut stands. -/
def State.freeze (s : State) (t : Nat) : State :=
  let s := s.traceFlush t
  let x := s.tile t
  s.setTile t { x with
    el := x.el.suspend, em := x.em.suspend, es := x.es.suspend
    life := { x.life with phase := .frozen, since := s.seiche, deadCount := 0 } }

/-- TILE_FREEZE: a draining tile whose cores and engines are at rest freezes, with its record; a tile of an attempt that has
ended is then torn down. A running tile of a chain whose other tile drains or is frozen begins to drain with it (12 R312,
18 R423), unless it has reached the DEADLOCK count (06 R143). -/
def execTileFreeze (t : TileId) (s : State) : Out :=
  .next <|
    let x := s.tile t.val
    if x.life.phase = .draining then
      if s.atRest t.val then
        let again := x.torn
        let s := (s.freeze t.val)
        let s := if again then s else s.freezeRecord t.val
        match x.life.rest, (s.nodeOf t.val).ending with
        | some .ending, some why => s.tearDown t.val why
        | _, _ => s
      else s
    else if x.life.phase = .running ∧ !x.torn ∧ (s.mates t.val).any fun u =>
        decide ((s.tile u).life.phase = .draining) || decide ((s.tile u).life.phase = .frozen) then
      if s.deadlockDue t.val then s.deadlock t.val false else s.setTile t.val (x.bringToRest .chain)
    else s

/-! ## Reports and the end of an attempt (17 R402, R384) -/

/-- Whether a fault of a tile is one that RESUME resolves (17 R400, R401). -/
def Node.resumes (n : Node) (f : FaultRec) : Bool := decide (Rcd.policy n.rcd = 1) && f.resolvable

/-- Whether a fault is the BREAKPOINT that rests its tile for the debugger: that of a `brk` which executed with ATTACH = 1, whatever stop of the
gang came since (20 R469). -/
def FaultRec.breakRest (f : FaultRec) : Bool := decide (f.code = Code.breakpoint) && f.attached

/-- The fault of a tile that ends its attempt. -/
def State.endingFault (s : State) (n : Node) (t : Nat) : Option FaultRec :=
  match (s.tile t).life.fault with
  | some f => if n.resumes f ∨ f.breakRest then none else some f
  | none => none

/-- Of the tiles whose fault was raised at a tick, the lowest rank and its fault's code (17 R402). -/
def State.lowestFault (s : State) (n : Node) (tick : Nat) : Option (Nat × Nat) :=
  (List.range n.tiles.length).findSome? fun r =>
    match s.endingFault n (n.tiles.getD r 0) with
    | some f => if f.tick = tick then some (r, f.code) else none
    | none => none

/-- A fault ends the attempt of a node: the event, and the end of every tile. Only RETRY lets operations run on (02 R49; log 81). -/
def State.reportFault (s : State) (p : Nat) (n : Node) (rank code : Nat) : State :=
  let retry := decide (Rcd.policy n.rcd = 2) && decide (code ≠ Code.windowSpill)
  (s.endAttempt p n (.fault code rank retry)).post (some p)
    { status := Status.nodeFault, addr := n.addr, data := code + rank * 256 }

/-- FAULT_REPORT: a frozen tile's fault reaches the context and ends the attempt. -/
def execFaultReport (t : TileId) (s : State) : Out :=
  .next <|
    let x := s.tile t.val
    match x.life.seat with
    | none => s
    | some k =>
      match s.findNode k.part k.node with
      | none => s
      | some n =>
        match s.endingFault n t.val with
        | none => s
        | some f =>
          if x.life.phase = .frozen ∧ n.state = .running then
            match s.lowestFault n f.tick with
            | some (r, c) => s.reportFault k.part n r c
            | none => s
          else s

/-- A tile that leaves its node: nothing of the node stays on it, and of the errors in its scratchpad only those that nothing has found
yet (02 R36, 18 R432, R433; log 51); and the posted writes still under way are no longer its
engine's, unless they wait for a saved gang. -/
def State.freeTile (s : State) (t : Nat) : State :=
  let x := s.tile t
  let s := { s with posted := s.posted.map fun (w : Posted) => if w.tile = t ∧ !w.away then { w with orphan := true } else w }
  s.setTile t { life := { gatedClock := x.life.gatedClock, since := s.seiche }, prv := x.prv, trace := x.trace
                mem := { scratchBad := x.mem.scratchBad.filter x.mem.scratchLatent.contains, scratchLatent := x.mem.scratchLatent } }

/-- Every tile of a node freed. -/
def State.freeTiles (s : State) (n : Node) : State := n.tiles.foldl State.freeTile s

/-- Whether a tile of an ending node has nothing left that is not terminal. -/
def Tile.ended (x : Tile) : Bool := x.torn && x.el.ops.isEmpty && x.em.ops.isEmpty && x.es.ops.isEmpty

/-- The cancellation record of a tile that was torn down before the cancel came: its cut, with the states in which its operations have
ended (02 R50, 18 R419; log 68). -/
def State.recordCut (s : State) (t : Nat) : State :=
  if (s.tile t).life.cut.isSome then s.draw.writeRecord t 1 (cancelRec s) false else s

/-- ATTEMPT_END: every operation of an ENDING node is terminal: its tiles are free, and it becomes READY, FAULTED or
CANCELLED (17 Table 17.3). -/
def execAttemptEnd (p : PartId) (node : VAddr) (s : State) : Out :=
  .next <|
    match s.findNode p.val node.toNat with
    | none => s
    | some n =>
      match n.state, n.ending with
      | .ending, some why =>
        if n.tiles.all fun t => (s.tile t).ended then
          let s := if why = .cancel then n.tiles.foldl State.recordCut s else s
          let s := n.tiles.foldl (fun s t => s.traceClose t) s
          let s := s.freeTiles n
          let n := { (s.findNode p.val node.toNat).getD n with tiles := [], picks := [], groups := [], bars := [], wasSaved := false
                                                               ending := none }
          match why with
          | .cancel => s.cancelNode p.val n
          | .fault code _ retry =>
            let n := { n with fcode := code }
            if retry && decide (n.attempt ≤ Rcd.retryn n.rcd) then s.makeReady p.val n else s.endNode p.val n .faulted true
        else s
      | _, _ => s

/-! ## Firmware and resume (18 R417, R422, R423) -/

/-- The code that firmware's failure leaves: a DISCARDED_WRITE is delivered as NOT_PRESENT (18 Table 18.3). Its DETAIL stays zero, as a
DISCARDED_WRITE has: no rule says whether it then holds the level of the discarded leaf (log 67). -/
def FaultRec.delivered (f : FaultRec) : FaultRec :=
  { f with code := if f.code = Code.discardedWrite then Code.notPresent else f.code, resolvable := false }

/-- Firmware completes the translation a core waits for; the instruction then executes again in full, or goes on with the wait
it was in. Else the fault is delivered. -/
def State.resolveCore (s : State) (t : Nat) (c : CoreId) (f : FaultRec) (va : Nat) : State :=
  match complete s (s.tile t).partNo va with
  | some s =>
    let k := s.coreAt t c
    s.setCoreAt t c { k with wait := k.after, after := .none, did := if k.after = .none then none else k.did }
  | none => (s.setCoreAt t c { s.coreAt t c with wait := .none, did := none }).takeFault t f.delivered

/-- The same for an operation: its start or its iteration is made again. -/
def State.resolveOp (s : State) (t : Nat) (e : Engine) (o : Op) (f : FaultRec) (va : Nat) : State :=
  match complete s (s.tile t).partNo va with
  | some s => s.setOp t e { o with wait := .none }
  | none => s.opFault t e o f.delivered

/-- The core of a tile that waits for firmware. -/
def Tile.firmwareCore (x : Tile) : Option (CoreId × FaultRec × Nat) :=
  [CoreId.l, .x, .w].findSome? fun c => match (x.core c).wait with
    | .firmware f va => some (c, f, va)
    | _ => none

/-- The operation of a tile that waits for firmware. -/
def Tile.firmwareOp (x : Tile) : Option (Engine × Op × FaultRec × Nat) :=
  [Engine.load, .matrix, .store].findSome? fun e => (x.eng e).ops.findSome? fun o => match o.wait with
    | .firmware f va => some (e, o, f, va)
    | _ => none

/-- The tile resumes from its cut, with the tiles of its chain that drained with it; a gated clock starts again. -/
def State.resumeTile (s : State) (t : Nat) : State :=
  let x := (s.tile t).resume s.seiche
  (s.setTile t { x with life := { x.life with gatedClock := false } }).traceRestart t

/-- Firmware resolves the fault of a frozen tile under RESUME, or cannot and ends the attempt. -/
def State.resolveFrozen (s : State) (p t : Nat) (n : Node) (f : FaultRec) : State :=
  match complete s p f.vaddr with
  | some s =>
    let x := s.tile t
    (s.setTile t { x with life := { x.life with resolved := true } }).markResolved t f
  | none => s.reportFault p n (s.tile t).rank f.code

/-- FIRMWARE_RESOLVE: firmware meets the next translation fault of a tile: one that a core or an operation waits for unseen,
or the one that the tile is frozen for. -/
def execFirmwareResolve (t : TileId) (s : State) : Out :=
  .next <|
    let x := s.tile t.val
    match x.firmwareCore, x.firmwareOp with
    | some (c, f, va), _ => s.resolveCore t.val c f va
    | none, some (e, o, f, va) => s.resolveOp t.val e o f va
    | none, none =>
      match x.life.fault, x.life.seat with
      | some f, some k =>
        match s.findNode k.part k.node with
        | some n =>
          if x.life.phase = .frozen ∧ n.state = .running ∧ n.resumes f ∧ !x.life.resolved then s.resolveFrozen k.part t.val n f
          else s
        | none => s
      | _, _ => s

/-- TILE_RESUME: a tile whose fault firmware resolved resumes, unless the debugger holds it; its chain resumes with it
(18 R422, R423, 20 Table 20.2). -/
def execTileResume (t : TileId) (s : State) : Out :=
  .next <|
    let x := s.tile t.val
    if x.life.phase = .frozen ∧ x.life.fault.isSome ∧ x.life.resolved ∧ x.life.rest ≠ some .debug ∧ x.life.rest ≠ some .ending ∧
        (s.mates t.val).all (fun u => decide ((s.tile u).life.phase = .frozen)) then
      ((s.mates t.val).filter fun u => decide ((s.tile u).life.rest = some .chain) && (s.tile u).life.fault.isNone).foldl
        State.resumeTile (s.resumeTile t.val)
    else s

/-! ## Waking, release, gating (17 R399, 02 R35, R36) -/

/-- TILE_WAKE_BEGIN: a gated tile of a committed gang begins to wake: one per 32 ticks on a die, in pick order. -/
def execTileWakeBegin (t : TileId) (s : State) : Out :=
  .next <|
    let x := s.tile t.val
    let n := s.nodeOf t.val
    let d := s.die (tileDie t.val)
    let earlier := (n.picks.takeWhile (· != t.val)).filter fun u => decide (tileDie u = tileDie t.val)
    let free := match d.lastWake with
      | some k => decide (k + 32 ≤ s.seiche)
      | none => true
    if x.life.phase = .reserved ∧ free = true ∧ earlier.all (fun u => !decide ((s.tile u).life.phase = .reserved)) = true then
      (s.setTile t.val { x with life := { x.life with phase := .waking s.seiche } }).setDie (tileDie t.val)
        { d with lastWake := some s.seiche }
    else s

/-- TILE_WAKE_COMPLETE: 32 ticks later the tile is awake, and held. Where a STOP stands in its region the header is read, as at the node's
start, before the MK (20 R476, R479; log 36). -/
def execTileWakeComplete (t : TileId) (s : State) : Out :=
  .next <|
    let x := s.tile t.val
    match x.life.phase with
    | .waking k =>
      if k + 32 ≤ s.seiche then
        let s := s.setTile t.val { x with life := { x.life with phase := .held, gatedClock := false, saveStart := s.seiche } }
        if x.trace.stopped && s.traceOn t.val then (s.traceLoad t.val).traceRestart t.val else s
      else s
    | _ => s

/-- `ctl.tile` (02 Table 2.1). -/
def ctlTile (modnum t : Nat) : Nat := modnum * 2 ^ 22 + t * 2 ^ 14 + t

/-- `ctl.rankr` of every rank of a gang (05 Table 5.2). -/
def rankRegs (modnum : Nat) (tiles : List Nat) : SMap Word :=
  (List.range tiles.length).map fun r => (r, BitVec.ofNat 64 (2 ^ 63 + ctlTile modnum (tiles.getD r 0)))

/-- The registers that placement sets (02 Tables 2.1 to 2.4, 05 Table 5.2). -/
def TileCtl.placed (c : TileCtl) (modnum part : Nat) (n : Node) (rank t : Nat) : TileCtl :=
  { c with
    tile := BitVec.ofNat 64 (ctlTile modnum t)
    gang := BitVec.ofNat 64 (Rcd.size n.rcd * 2 ^ 16 + rank)
    stage := BitVec.ofNat 64 (Rcd.tps n.rcd * 2 ^ 32 + Rcd.nstage n.rcd * 2 ^ 16 + rank % Rcd.tps n.rcd * 2 ^ 8 + rank / Rcd.tps n.rcd)
    node := BitVec.ofNat 64 (n.placedPrio * 2 ^ 59 + b2n (Rcd.det n.rcd) * 2 ^ 58 + b2n (Rcd.preempt n.rcd) * 2 ^ 57 + n.addr + part)
    dbase := BitVec.ofNat 64 (Rcd.dbase n.rcd)
    rank := rankRegs modnum n.tiles }

/-- A core at node start. -/
def startCore (pc : Nat) : Core := { run := .running, pc := BitVec.ofNat 56 pc }

/-- The queues of a node: depths and consumers (06 R132). -/
def startQueues (r : Nat) : SMap Queue :=
  (List.range 16).map fun q => (q, { depth := Rcd.depth r q, cons := if q < 12 then 1 else Rcd.gqcons r (q - 12) })

/-- The state of Table 2.5 on a tile of a gang that is released (02 R36). Every byte of the scratchpad is 0; a word that was
poisoned while the tile was free stays poisoned until it is written whole (18 R433's example). -/
def startTile (modnum part : Nat) (n : Node) (rank t : Nat) (x : Tile) (now : Nat) : Tile :=
  { life := { phase := .running, seat := x.life.seat, since := now }
    mem := { scratchBad := x.mem.scratchBad, scratchLatent := x.mem.scratchLatent }
    cl := startCore (Rcd.entL n.rcd), cx := startCore (Rcd.entX n.rcd), cw := startCore (Rcd.entW n.rcd)
    ctl := TileCtl.placed { fmt := n.fmt } modnum part n rank t
    queue := startQueues n.rcd
    prv := x.prv, trace := x.trace }

/-- A core of a restored tile: one that stopped at a `yield` resumes after it (02 R55). -/
def Core.restart (k : Core) : Core := { k with run := if k.run = .yielded then .running else k.run, wait := .none, did := none }

/-- The registers that name a tile's place: those of a saved tile beside those of its new place (02 R33). -/
def TileCtl.moved (c place : TileCtl) : TileCtl :=
  { c with tile := place.tile, gang := place.gang, stage := place.stage, node := place.node, rank := place.rank }

/-- A restored tile released on its new place: `ctl.node` holds what it held (02 R33, R56). -/
def restartTile (modnum part : Nat) (n : Node) (rank t : Nat) (x : Tile) (now : Nat) : Tile :=
  { x with
    life := { phase := .running, seat := x.life.seat, since := now }
    cl := x.cl.restart, cx := x.cx.restart, cw := x.cw.restart
    el := x.el.resume, em := x.em.resume, es := x.es.resume
    ctl := { x.ctl.placed modnum part n rank t with node := x.ctl.node } }

/-- GANG_RELEASE: every tile of the gang is held and loaded: the context releases them all (17 R399, 18 R427). A debug stop
that came before brings them to rest (20 R468). -/
def execGangRelease (p : PartId) (node : VAddr) (s : State) : Out :=
  .next <|
    match s.findNode p.val node.toNat with
    | none => s
    | some n =>
      let want : Phase := if n.wasSaved then .restored else .held
      if n.state = .running ∧ n.tiles ≠ [] ∧ n.tiles.all (fun t => decide ((s.tile t).life.phase = want)) then
        let mark := if n.wasSaved then n.codeMark else s.olds.length
        let s := s.putNode p.val { n with startTick := s.seiche, gangCount := 0, wasSaved := false, codeMark := mark }
        let s := (List.range n.tiles.length).foldl (fun s r =>
          let t := n.tiles.getD r 0
          if n.wasSaved then (s.setTile t (restartTile s.hub.modnum p.val n r t (s.tile t) s.seiche)).traceResume t
          else (s.setTile t (startTile s.hub.modnum p.val n r t (s.tile t) s.seiche)).traceStart t) s
        if n.stopping.isSome then n.tiles.foldl (fun s t => s.setTile t ((s.tile t).bringToRest .debug)) s else s
      else s

/-- The partition that owns a tile's cluster. -/
def State.ownerOf (s : State) (t : Nat) : Option Nat :=
  (List.range 16).find? fun p => (s.part p).clusters.getLsbD (t / 8)

/-- STOP, as the clock of a tile stops (20 R479), after the MK that is owed: none is written while the debugger holds the node stopped, and
DT must fit (20 R478). -/
def State.traceStop (s : State) (t : Nat) : State :=
  if s.traceOn t then
    let s := if s.markDue t && !(s.tile t).trace.markWaits then s.traceMark t else s
    let s := s.traceAppend t 7 [traceWord 8 7 0]
    s.setTrace t { (s.tile t).trace with stopped := true }
  else s

/-- TILE_CLOCK_GATE: a tile without a node, or frozen, for GATEDLY ticks is clock-gated; a STOP record says so where the tile
holds a node (17 R399, 20 R479). -/
def execTileClockGate (t : TileId) (s : State) : Out :=
  .next <|
    let x := s.tile t.val
    match s.ownerOf t.val with
    | none => s
    | some p =>
      let d := (s.part p).sched.gatedly
      if (x.life.phase = .free ∨ x.life.phase = .frozen) ∧ !x.life.gatedClock ∧ d ≠ 0xFFFFFFFF ∧ x.life.since + d ≤ s.seiche then
        let s := if x.life.phase = .frozen then s.traceStop t.val else s
        s.setTile t.val { s.tile t.val with life := { (s.tile t.val).life with gatedClock := true } }
      else s

end Sys2Proof.Machine
end

