-- ==== Sys2Proof/Machine/Save.lean ====
section
/-! DEFINITION. Pre-emption of a tile: requests, deadlines, the save engine and the restore engine (02 R53 to R56; 18 R423 to
R428). -/
namespace Sys2Proof.Machine

/-! ## Liveness maps (10 Table 10.7) -/

def Live.g (m n : Nat) : Bool := bit m n
def Live.panel (m n : Nat) : Bool := bit m (32 + n)
def Live.bank (m b : Nat) : Bool := bit m (64 + b)
def Live.acc (m u : Nat) : Bool := bit m (96 + u)
/-- A bit that names k0 is ignored (10 R248). -/
def Live.mask (m k : Nat) : Bool := decide (k ≠ 0) && bit m (112 + k)
def Live.planes (m : Nat) : Bool := bit m 120

/-- The map that names everything. -/
def Live.all : Nat := 2 ^ 121 - 1

/-- The map a core contributes: that of the `yield` it stopped at; an exited core's is empty (02 R54). -/
def Core.map (k : Core) : Nat := if k.run = .yielded then k.livemap else 0

/-- The maps of a save: those of the three cores, or, in a forced save, everything. -/
structure SaveMaps where
  l : Nat
  x : Nat
  w : Nat
  deriving DecidableEq, Repr

/-- The maps of a tile saved in a mode: 0 cooperative, 1 forced, 2 finished. -/
def Tile.saveMaps (x : Tile) (mode : Nat) : SaveMaps :=
  if mode = 1 then { l := Live.all, x := Live.all, w := Live.all } else { l := x.cl.map, x := x.cx.map, w := x.cw.map }

/-- The union of the maps: accumulator rows, banks, planes (02 R54). -/
def SaveMaps.union (m : SaveMaps) : Nat := ((m.l ||| m.x ||| m.w) / 2 ^ 64 % 2 ^ 48) * 2 ^ 64 + b2n (bit (m.l ||| m.x ||| m.w) 120) * 2 ^ 120

/-! ## The area (18 Table 18.7) -/

/-- Where the area of a rank starts. -/
def saveBase (n : Node) (rank : Nat) : Nat := Rcd.save n.rcd + 0x2C0000 * rank

/-- The bytes of a panel: its 256 elements in row-major order. -/
def TileMem.panelBytes (m : TileMem) (p : Nat) : List Byte :=
  (List.range 256).flatMap fun i => leBytes (m.elemAt (256 * p + i)) 4

/-- The bytes of a mask. -/
def TileMem.maskBytes (m : TileMem) (k : Nat) : List Byte :=
  if k = 0 then List.replicate 32 0xFF else leBytes (SMap.get 0 m.mask k).toNat 32

/-- The bytes of an accumulator unit: 32 rows of 128 words. -/
def TileMem.accBytes (m : TileMem) (u : Nat) : List Byte :=
  (List.range 4096).flatMap fun i => leBytes (SMap.get 0 m.acc (4096 * u + i)).toNat 4

/-- Bytes of the parts whose arrangement is implementation-chosen. -/
def freeBytes (k off n : Nat) : List Byte := (List.range n).map fun i => Config.saveByte k (off + i)

/-- The parts of the area that a save writes before the cut and the save word: each an offset and its bytes. A forced save has every bit
of the map set, k0's among them (18 R425). -/
def Tile.saveParts (x : Tile) (mode : Nat) (m : SaveMaps) (k : Nat) : List (Nat × List Byte) :=
  [(0x1000, freeBytes k 0x1000 0x3000), (0xD000, freeBytes k 0xD000 0x8000)] ++
  ((List.range 32).filter (Live.panel m.x)).map (fun p => (0x4000 + 0x400 * p, x.mem.panelBytes p)) ++
  ((List.range 8).filter fun k => Live.mask m.x k || decide (mode = 1)).map (fun i => (0xC000 + 32 * i, x.mem.maskBytes i)) ++
  (if Live.planes m.union then [(0x20000, freeBytes k 0x20000 0x20000), (0x40000, x.mem.scale.bytes 0 0x8000)] else []) ++
  ((List.range 16).filter (Live.acc m.union)).map (fun u => (0x80000 + 0x4000 * u, x.mem.accBytes u)) ++
  ((List.range 32).filter (Live.bank m.union)).map (fun b => (0xC0000 + 0x10000 * b, x.mem.scratch.bytes (0x10000 * b) 0x10000))

/-- Whether a core's registers that a save copies hold an uncorrectable error: those its map names, and hidden frames. -/
def Core.savePoison (k : Core) (m : Nat) : Bool :=
  k.gBad.any (fun w => Live.g m (w / 2)) || k.frames.any (fun f => !f.bad.isEmpty)

/-- The spill area [BASE, LIMIT) of a core stopped at a `yield`, which is saved whole whatever its map says (02 R54, 08 R178, 10 R248):
where it lies in the scratchpad and its bytes. An exited core keeps none. -/
def Core.spillSpan (k : Core) : Option (Nat × Nat) :=
  if k.run = .yielded ∧ k.spillBase < k.spillLimit then some (k.spillBase, k.spillLimit - k.spillBase) else none

/-- The spilled frames of a tile's cores. -/
def Tile.spillSpans (x : Tile) : List (Nat × Nat) := [x.cl, x.cx, x.cw].filterMap Core.spillSpan

/-- A memory with bytes loaded at an offset of its scratchpad; the words loaded whole are clean. -/
def TileMem.loadScratch (m : TileMem) (off : Nat) (l : List Byte) : TileMem :=
  { m with scratch := Memory.setBytes m.scratch off l
           scratchBad := clearWords m.scratchBad off l.length, scratchLatent := clearWords m.scratchLatent off l.length }

/-- A memory with another's bytes over some spans of its scratchpad. -/
def TileMem.takeSpans (m keep : TileMem) (l : List (Nat × Nat)) : TileMem :=
  l.foldl (fun m p => m.loadScratch p.1 (keep.scratch.bytes p.1 p.2)) m

/-- Whether a save reads a poisoned word of the scratchpad (18 R426). -/
def Tile.saveScratchPoison (x : Tile) (m : SaveMaps) : Bool :=
  x.mem.scratchBad.any fun w => Live.bank m.union (w / 0x10000) || x.spillSpans.any fun p => decide (p.1 ≤ w ∧ w < p.1 + p.2)

/-- Whether a save reads a poisoned word of another array of the tile (18 R426), a poisoned token being one for which `tok` holds. -/
def Tile.saveArrayPoison (x : Tile) (m : SaveMaps) (tok : Tok → Bool) : Bool :=
  x.cl.savePoison m.l || x.cx.savePoison m.x || x.cw.savePoison m.w ||
  x.mem.panelBad.any (fun i => Live.panel m.x (i / 256)) || x.mem.maskBad.any (fun i => Live.mask m.x (i / 8)) ||
  x.mem.accBad.any (fun i => Live.acc m.union (i / 4096)) ||
  (Live.planes m.union && (!x.mem.planeBad.isEmpty || !x.mem.scaleBad.isEmpty)) ||
  x.queue.any (fun q => q.2.toks.any tok) || [x.el, x.em, x.es].any fun e => e.ops.any fun o => !o.recBad.isEmpty

/-- How many correctable errors a save finds in a core's registers: those its map names, and hidden frames. -/
def Core.saveCes (k : Core) (m : Nat) : Nat :=
  (k.gCe.filter fun w => Live.g m (w / 2)).length + (k.frames.map fun f => f.ce.length).sum

/-- How many it finds in the records of an engine's operations. -/
def Eng.saveCes (e : Eng) : Nat := (e.ops.map fun o => o.recCe.length).sum

/-- How many it finds in the arrays of a tile other than the scratchpad (18 R429). -/
def Tile.saveCes (x : Tile) (m : SaveMaps) : Nat :=
  x.cl.saveCes m.l + x.cx.saveCes m.x + x.cw.saveCes m.w +
  (x.mem.panelCe.filter fun i => Live.panel m.x (i / 256)).length + (x.mem.maskCe.filter fun i => Live.mask m.x (i / 8)).length +
  (x.mem.accCe.filter fun i => Live.acc m.union (i / 4096)).length +
  (if Live.planes m.union then x.mem.planeCe.length + x.mem.scaleCe.length else 0) +
  (x.queue.map fun q => (q.2.toks.filter (·.ce)).length).sum + ([x.el, x.em, x.es].map Eng.saveCes).sum

/-- A core, an engine and a tile in whose arrays no correctable error is left. -/
def Core.noCes (k : Core) : Core := { k with gCe := [], frames := k.frames.map fun f => { f with ce := [] } }
def Eng.noCes (e : Eng) : Eng := { e with ops := e.ops.map fun o => { o with recCe := [] } }
def Tile.noCes (x : Tile) : Tile :=
  { x with cl := x.cl.noCes, cx := x.cx.noCes, cw := x.cw.noCes, el := x.el.noCes, em := x.em.noCes, es := x.es.noCes
           mem := { x.mem with accCe := [], scaleCe := [], panelCe := [], maskCe := [], planeCe := [] }
           queue := x.queue.map fun q => (q.1, { q.2 with toks := q.2.toks.map fun k => { k with ce := false } }) }

/-- What a save finds in the other arrays: the words that it does not read are not saved, and no more are theirs. -/
def State.noteArrays (s : State) (t : Nat) (m : SaveMaps) : State :=
  if (s.tile t).noCes = s.tile t then s else (s.countCes t ((s.tile t).saveCes m)).setTile t ((s.countCes t ((s.tile t).saveCes m)).tile t).noCes

/-- What a save finds in the words of the scratchpad that it reads (18 R429). -/
def State.noteSave (s : State) (t : Nat) (m : SaveMaps) : State :=
  (((List.range 32).filter (Live.bank m.union)).map (fun b => (0x10000 * b, 0x10000)) ++ (s.tile t).spillSpans).foldl
    (fun (s : State) (p : Nat × Nat) => s.noteRead t p.1 p.2) s

/-- Parts written at a base, one after another; the first failure that firmware cannot mend. -/
def writeParts (s : State) (d part base : Nat) : List (Nat × List Byte) → Option HubFault × State
  | [] => (none, s)
  | (off, l) :: ps =>
    match hubWrite s d part (spanFuel l.length) (base + off) l with
    | (some c, s) => (some c, s)
    | (none, s) => writeParts s d part base ps

/-! ## Requests and deadlines (02 R53, R55; 18 R423) -/

/-- PREEMPT_REQUEST: the request reaches a tile and latches; at a frozen or stopped tile it latches after the resume. -/
def execPreemptRequest (t : TileId) (s : State) : Out :=
  .next <|
    let x := s.tile t.val
    if (s.nodeOf t.val).preempt ∧ x.life.seat.isSome ∧ x.life.latched = none ∧ !x.life.pending then
      if x.life.phase = .running then
        s.setTile t.val { x with life := { x.life with latched := some s.seiche, deadline := x.prv.pdead } }
      else s.setTile t.val { x with life := { x.life with pending := true } }
    else s

/-- Whether every core of a tile has stopped for a pre-emption (02 R53). -/
def Tile.allStopped (x : Tile) : Bool :=
  [x.cl, x.cx, x.cw].all fun k => decide (k.run = .yielded) || decide (k.run = .exited)

/-- PREEMPT_DEADLINE: the deadline passes before every core has stopped: the tile drains and is saved whole. A tile whose count of
the local deadlock condition is full takes DEADLOCK instead, and no save takes place (06 R143). -/
def execPreemptDeadline (t : TileId) (s : State) : Out :=
  .next <|
    let x := s.tile t.val
    match x.life.latched with
    | some k =>
      if s.deadlockDue t.val then s.deadlock t.val false
      else if x.life.phase = .running ∧ k + x.life.deadline ≤ s.seiche ∧ !x.allStopped then
        (s.traceDropWaiting t.val).setTile t.val (((s.traceDropWaiting t.val).tile t.val).bringToRest .forced)
      else s
    | none => s

/-! ## Saving (18 R425, R426) -/

/-- Whether a tile is finished (02 R39). -/
def Tile.finished (x : Tile) : Bool :=
  decide (x.cl.run = .exited) && decide (x.cx.run = .exited) && decide (x.cw.run = .exited) &&
  x.el.ops.isEmpty && x.em.ops.isEmpty && x.es.ops.isEmpty

/-- MODE of a tile's save: a tile that came to rest with its chain before its cores had stopped is saved whole (log 66). -/
def Tile.saveModeOf (x : Tile) : Nat :=
  if x.finished then 2
  else if x.life.rest = some .forced ∨ (x.life.rest = some .chain ∧ !x.allStopped) then 1 else 0

/-- A save or a restore fails: PREEMPT_TIMEOUT, with the code and the address of the failing access and the ticks elapsed (18 Tables
18.4, 18.5). The tile is frozen with its record, which ends the attempt. -/
def State.saveFail (s : State) (t code : Nat) (access : Nat := 0) (va : Nat := 0) : State :=
  let x := s.tile t
  let f : FaultRec := { code := Code.preemptTimeout, source := 2, tick := s.seiche, access := access, vaddr := va
                        detail := code + (s.seiche - x.life.saveStart) % 2 ^ 32 * 2 ^ 32 }
  (s.setTile t { x with life := { x.life with phase := .frozen, since := s.seiche, fault := some f, resolved := false } }).writeRecord
    t 0 f false

/-- Whether a tile has come to rest for a save: for its own, or with its chain, which drains and saves as one unit (12 R312). -/
def Tile.saveRest (x : Tile) : Bool :=
  (decide (x.life.phase = .frozen) && x.life.fault.isNone &&
    (decide (x.life.rest = some .cooperative) || decide (x.life.rest = some .forced) ||
     (decide (x.life.rest = some .chain) && (x.life.latched.isSome || x.life.pending)))) ||
  decide (x.life.phase = .saving) || decide (x.life.phase = .saved)

/-- The save engine writes every part but the cut and the save word. -/
def State.saveTile (s : State) (t : Nat) (k : Seat) : State :=
  let x := s.tile t
  let mode := x.saveModeOf
  let m := x.saveMaps mode
  let s := s.setTile t { x with life := { x.life with saveStart := s.seiche, saveMode := mode } }
  let s := (s.noteArrays t m).noteSave t m
  if x.saveArrayPoison m Tok.bad then (if x.saveArrayPoison m Tok.latent then s.countUe t else s).saveFail t Code.uncorrectable
  else if x.saveScratchPoison m then s.saveFail t Code.uncorrectable
  else match writeParts s.draw (tileDie t) k.part (saveBase (s.nodeOf t) k.rank) (x.saveParts mode m s.choices) with
    | (some f, s) => s.saveFail t f.code 1 f.vaddr
    | (none, s) => s.setTile t { s.tile t with life := { (s.tile t).life with phase := .saving } }

/-- TILE_SAVE: once every core has stopped, the engines start nothing more and come to rest; once every tile of the gang is at
rest, the save engine writes the tile's context (02 R54, 18 R426). A tile that has reached the DEADLOCK count takes that fault instead
(06 R143). -/
def execTileSave (t : TileId) (s : State) : Out :=
  .next <|
    let x := s.tile t.val
    match x.life.seat with
    | none => s
    | some k =>
      if x.life.phase = .running ∧ x.life.latched.isSome ∧ x.allStopped then
        if s.deadlockDue t.val then s.deadlock t.val false else s.setTile t.val (x.bringToRest .cooperative)
      else if x.life.phase = .frozen ∧ x.saveRest ∧ (s.nodeOf t.val).tiles.all (fun u => (s.tile u).saveRest) then
        s.saveTile t.val k
      else s

/-- The maps of the three cores as the area holds them, the save word, and the cut. -/
def Tile.saveHead (x : Tile) (n : Node) (part now : Nat) : List (Nat × List Byte) :=
  let m := x.saveMaps x.life.saveMode
  let f : FaultRec := { code := 0, source := 2, tick := now }
  [(0x140, leBytes m.l 16 ++ leBytes m.x 16 ++ leBytes m.w 16),
   (0, recordBytes (recordDw0 f 2 x.rank 0 false :: x.recordRest 2 f n.addr part n.attempt)),
   (0x100, leBytes x.life.saveMode 8 ++ leBytes m.union 16 ++ List.replicate 40 0)]

/-- The posted writes of a gang's engines wait with the gang, and come back to the tile on which a rank is restored (02 R56). -/
def State.sendAway (s : State) (p a : Nat) : State :=
  { s with posted := s.posted.map fun w => if w.seatOf p a ∧ !w.orphan then { w with away := true } else w }
def State.bringBack (s : State) (k : Seat) (t : Nat) : State :=
  { s with posted := s.posted.map fun w => if w.away ∧ w.seat = some k then { w with tile := t, away := false } else w }

/-- The gang is SAVED: its tiles are free, held for the head that pre-empted it if that still waits, and the node re-enters
the pool (17 Table 17.3, R386, R389). -/
def State.gangSaved (s : State) (p : Nat) (n : Node) : State :=
  let saves := (List.range n.tiles.length).map fun r => (r, s.tile (n.tiles.getD r 0))
  let s := n.tiles.foldl (fun s t => s.traceClose t) s
  let s := (s.sendAway p n.addr).freeTiles n
  let n := { n with state := .saved, readyAt := s.seiche, preempt := false, wasSaved := true, saves := saves, tiles := [], picks := [] }
  let s := (s.writeReady p n).writeNode p n
  let x := (s.part p).sched
  let waits := match s.findNode p n.forHead with
    | some h => h.pooled
    | none => false
  let s := if waits then s.setSched p { x with heldFor := x.heldFor ++ saves.map fun y => (field y.2.ctl.tile.toNat 0 8, n.forHead) } else s
  if (s.part p).sched.room then s.enterPool p n
  else s.setSched p { (s.part p).sched with waiting := (s.part p).sched.waiting ++ [n.addr] }

/-- SAVE_COMPLETE: the cut and the save word are written last; the gang is SAVED when every tile's save has completed, unless
every tile of it had finished (18 R426, 17 R384). -/
def execSaveComplete (t : TileId) (s : State) : Out :=
  .next <|
    let x := s.tile t.val
    match x.life.seat with
    | none => s
    | some k =>
      match s.findNode k.part k.node with
      | none => s
      | some n =>
        if x.life.phase = .saving ∧ s.seiche ≤ x.life.saveStart + x.prv.savelim then
          let s := s.countCes t.val x.life.saveCe
          if x.life.saveBad then (s.countUe t.val).saveFail t.val Code.uncorrectable
          else match writeParts s (tileDie t.val) k.part (saveBase n k.rank) (x.saveHead n k.part s.seiche) with
          | (some f, s) => s.saveFail t.val f.code 1 f.vaddr
          | (none, s) =>
            let s := s.setTile t.val { s.tile t.val with life := { (s.tile t.val).life with phase := .saved } }
            if n.tiles.all (fun u => decide ((s.tile u).life.phase = .saved)) ∧ n.tiles.any (fun u => !(s.tile u).finished) then
              s.gangSaved k.part n
            else s
        else s

/-! ## Restoring (18 R427, R428) -/

/-- Words of 32 bits from bytes, listed from a key on. -/
def wordsFrom (m : SMap W32) (key : Nat) : List Byte → SMap W32
  | a :: b :: c :: d :: l => wordsFrom (SMap.set 0 m key (BitVec.ofNat 32 (leNat [a, b, c, d]))) (key + 1) l
  | _ => m

/-- What a restore has read so far, part by part. -/
def readParts (s : State) (d part base : Nat) (x : TileMem) : List (Nat × Nat × (TileMem → List Byte → TileMem)) → Except HubFault TileMem × State
  | [] => (.ok x, s)
  | (off, n, f) :: ps =>
    match hubRead s d part (spanFuel n) (base + off) n with
    | (.error c, s) => (.error c, s)
    | (.ok l, s) => readParts s d part base (f x l) ps

/-- The parts that a restore reads: where each lies, its size, and what it loads. -/
def restoreParts (m : SaveMaps) (u : Nat) (keep : TileMem) (spans : List (Nat × Nat)) :
    List (Nat × Nat × (TileMem → List Byte → TileMem)) :=
  [(0x1000, 0x3000, fun x _ => x.takeSpans keep spans), (0xD000, 0x8000, fun x _ => x)] ++
  ((List.range 32).filter (Live.panel m.x)).map (fun p =>
    (0x4000 + 0x400 * p, 0x400, fun x l => { x with panel := wordsFrom x.panel (256 * p) l })) ++
  ((List.range 8).filter (Live.mask m.x)).map (fun k =>
    (0xC000 + 32 * k, 32, fun x l => { x with mask := SMap.set 0 x.mask k (BitVec.ofNat 256 (leNat l)) })) ++
  (if Live.planes u then
    [(0x20000, 0x20000, fun x _ => { x with act := keep.act, shd := keep.shd }),
     (0x40000, 0x8000, fun x l => { x with scale := Memory.setBytes [] 0 l })]
   else []) ++
  ((List.range 16).filter (Live.acc u)).map (fun i =>
    (0x80000 + 0x4000 * i, 0x4000, fun x l => { x with acc := wordsFrom x.acc (4096 * i) l })) ++
  ((List.range 32).filter (Live.bank u)).map (fun b =>
    (0xC0000 + 0x10000 * b, 0x10000, fun x l => x.loadScratch (0x10000 * b) l))

/-- A core as a restore loads it: the registers its map names; an exited core keeps only its program counter and its state, as 02 R54
says, so that its registers read 0. DESIGN CHOICE (log 100): 15 R361 shows an exited core's registers, panels and masks unchanged "with or
without any pre-emption"; the model follows R54. -/
def Core.restored (k : Core) (m : Nat) (forced : Bool) : Core :=
  if forced then { k with gBad := [], gCe := [] }
  else { k with g := k.g.filter (fun r => k.run = .yielded && Live.g m r.1), gBad := [], gCe := [] }

/-- The tile as a restore loads it: what the area holds, and beside it what the tile's own saved image held. -/
def restoredTile (x keep : Tile) (m : SaveMaps) (mode : Nat) (mem : TileMem) : Tile :=
  { keep with
    life := { x.life with phase := .restored }
    cl := keep.cl.restored m.l (decide (mode = 1)), cx := keep.cx.restored m.x (decide (mode = 1))
    cw := keep.cw.restored m.w (decide (mode = 1))
    ctl := { keep.ctl.moved x.ctl with node := keep.ctl.node }, mem := mem, prv := x.prv, trace := x.trace }

/-- The memory of a tile before a restore: zero but for what is always saved, pins and chain state, with the rows that were sent to an
operation which had not started (12 R312: none is lost); the new tile's poisoned words stay so until they are written whole. -/
def TileMem.cleared (m new : TileMem) : TileMem :=
  { pins := m.pins, chainLen := m.chainLen, chainPos := m.chainPos, chainIn := m.chainIn, scratchBad := new.scratchBad, scratchLatent := new.scratchLatent }

/-- The restore engine reads the save word, the cut and the maps, then the parts they name. -/
def State.restoreTile (s : State) (t : Nat) (k : Seat) (n : Node) : State :=
  let base := saveBase n k.rank
  match hubRead s (tileDie t) k.part 3 base 0x170 with
  | (.error f, s) => s.saveFail t f.code 0 f.vaddr
  | (.ok l, s) =>
    let mode := leNat (l.drop 0x100 |>.take 8) % 4
    let m : SaveMaps := { l := leNat (l.drop 0x140 |>.take 16), x := leNat (l.drop 0x150 |>.take 16), w := leNat (l.drop 0x160 |>.take 16) }
    let u := leNat (l.drop 0x108 |>.take 16)
    let keep := SMap.get {} n.saves k.rank
    match readParts s (tileDie t) k.part base (keep.mem.cleared (s.tile t).mem) (restoreParts m u keep.mem keep.spillSpans) with
    | (.error f, s) => s.saveFail t f.code 0 f.vaddr
    | (.ok mem, s) => (s.setTile t (restoredTile (s.tile t) keep m mode mem)).bringBack k t

/-- GANG_RESTORE: a held tile of a saved gang loads its area (18 R427). -/
def execGangRestore (t : TileId) (s : State) : Out :=
  .next <|
    let x := s.tile t.val
    match x.life.seat with
    | none => s
    | some k =>
      match s.findNode k.part k.node with
      | none => s
      | some n =>
        if x.life.phase = .held ∧ n.state = .running ∧ n.wasSaved ∧ s.seiche ≤ x.life.saveStart + x.prv.savelim then
          let s := s.countCes t.val x.life.saveCe
          if x.life.saveBad then (s.countUe t.val).saveFail t.val Code.uncorrectable else s.restoreTile t.val k n
        else s

/-- SAVE_LIMIT_EXPIRY: a save or a restore has not completed within LIMIT ticks: PREEMPT_TIMEOUT with code 0 (18 R426). -/
def execSaveLimitExpiry (t : TileId) (s : State) : Out :=
  .next <|
    let x := s.tile t.val
    if (x.life.phase = .saving ∨ (x.life.phase = .held ∧ (s.nodeOf t.val).wasSaved)) ∧ x.life.saveStart + x.prv.savelim < s.seiche then
      s.saveFail t.val 0
    else s

end Sys2Proof.Machine
end

