-- ==== Sys2Proof/Machine/Sched.lean ====
section
/-! DEFINITION. The graph scheduler: submission, `launch`, retirement and the profile word, placement and reservation,
pre-emption of gangs, ageing and backfill, cone cancellation (17 R380 to R398, R403 to R405; 10 R245). -/
namespace Sys2Proof.Machine

/-! ## Submission (17 R34, R380; 10 R245) -/

/-- A single node is created and read; it enters the pool, or ends REJECTED or FAULTED (17 R376, R386). -/
def State.submit (s : State) (p a : Nat) : State :=
  let n : Node := { addr := a, state := .ready, placedPrio := 0 }
  let x := (s.part p).sched
  let s := s.setSched p { x with nodes := x.nodes.filter (·.addr != a) ++ [n] }
  s.takeIn p n

/-- Visiting node `i` of a graph at its submission: PREDCNT, then STATE with ATTEMPT, FCODE, PFAIL and CAUSE zero; a node
that cannot be read is FAULTED (17 R380, R376). -/
def State.visit (s : State) (p : Nat) (g : Graph) (i : Nat) : State :=
  let a := g.base + 128 * i
  let (r, s) := s.schedRead p a 128
  let v := match r with
    | .ok l => leNat l
    | .error _ => 0
  let n : Node := { addr := a, graph := some g.addr, index := i, rcd := v, predcnt := Rcd.predinit v, placedPrio := field v 648 5 }
  let x := (s.part p).sched
  let s := s.setSched p { x with nodes := x.nodes.filter (·.addr != a) ++ [n] }
  match r with
  | .error c => s.endNode p { n with fcode := c } .faulted true
  | .ok _ =>
    let s := s.writePred p n
    let n := (s.findNode p a).getD n
    if Rcd.predinit v = 0 then s.makeReady p n else s.writeNode p n

/-- A graph of `count` nodes is submitted: GSTATE 1, every count 0, and its nodes visited in index order (17 R380). -/
def State.submitGraph (s : State) (p : Nat) (g : Graph) : State :=
  let s := s.schedWrite p g.addr (g.addr + 16) 0
  let s := s.writeHeader p g 1 false 0
  let x := (s.part p).sched
  let s := s.setSched p { x with graphs := x.graphs.filter (·.addr != g.addr) ++ [g] }
  ((List.range g.count).foldl (fun s i => s.visit p g i) s).checkGraph p g.addr

/-- The cores that wait in a `launch` of a partition, in the order of arrival (10 R245). -/
def State.launchQueue (s : State) (p : Nat) : List (Nat × CoreId) :=
  (s.part p).sched.launchers.filter fun x =>
    decide ((s.coreAt x.1 x.2).wait = .launch) && decide ((s.tile x.1).life.phase = .running)

/-- The running core's place among them: behind those that came before it, where it has one already. -/
def State.launchFirst (s : State) : Bool := match s.launchQueue s.myPart with
  | x :: _ => x == (s.curTile.val, s.curCore)
  | [] => true

/-- The running core queues for its `launch`, and leaves the queue. -/
def State.queueLaunch (s : State) : State :=
  let x := (s.part s.myPart).sched
  let l := s.launchQueue s.myPart
  let me := (s.curTile.val, s.curCore)
  s.setSched s.myPart { x with launchers := if l.contains me then l else l ++ [me] }
def State.leaveLaunch (s : State) : State :=
  let x := (s.part s.myPart).sched
  if x.launchers.isEmpty then s
  else s.setSched s.myPart { x with launchers := (s.launchQueue s.myPart).filter (· != (s.curTile.val, s.curCore)) }

/-- launch (10 R245): while the pool has no room, or another core's launch came before, the core waits in the order of arrival;
then the record is read for the core first, and after that by the scheduler. A node record that the scheduler still
holds is not launched again: NODE_REJECTED says so (log 40). -/
def execLaunch (ga : Reg) (s : State) : Out :=
  withSources [ga] s fun s =>
    let a := (s.g ga).toNat
    if a % 128 ≠ 0 ∨ 2 ^ 56 ≤ a then s.fault Code.alignment a
    else
      let s := s.flushMine
      if !(s.part s.myPart).sched.room || !s.launchFirst then s.queueLaunch.block .launch
      else match nodeRead s s.myDie s.myPart a 128 .read with
        | (.error e, s) => s.stopCore e
        | (.ok _, s) =>
          let p := s.myPart
          let s := s.leaveLaunch.unblock.skip 4
          if (s.findNode p a).isSome then s.post (some p) { status := Status.nodeRejected, addr := a }
          else s.submit p a

/-! ## Retirement (02 R39; 17 R381, R397, R403) -/

/-- ⌊x × log2(n / d)⌋ counted in half-steps of 1/512: the greatest k with 2^k ≤ (n / d)^512, from lower bound and fuel. -/
def log2Scan (n d : Nat) : Nat → Int → Int
  | 0, k => k
  | fuel + 1, k =>
    let ok := if 0 ≤ k + 1 then decide (2 ^ (k + 1).toNat * d ^ 512 ≤ n ^ 512) else decide (d ^ 512 ≤ n ^ 512 * 2 ^ (-(k + 1)).toNat)
    if ok then log2Scan n d fuel (k + 1) else k

/-- RATIO: the nearest integer to 256 × log2(MAC / B), clamped (17 Table 17.6). -/
def ratioOf (mac b : Nat) : Int :=
  if mac = 0 ∧ b = 0 then 0
  else if b = 0 then 32767
  else if mac = 0 then -32767
  else
    let k := log2Scan mac b 131072 (-65536)
    max (-32767) (min 32767 ((k + 1) / 2))

/-- The profile word that a retirement writes (17 Table 17.6). -/
def profileWord (old mac b thresh : Nat) : Nat :=
  let r := ratioOf mac b
  let valid := decide (mac ≠ 0) || decide (b ≠ 0)
  (field old 32 32 + 1) % 2 ^ 32 * 2 ^ 32 + b2n valid * 2 ^ 17 + b2n (decide (sInt 16 thresh ≤ r)) * 2 ^ 16 + uMod 16 r

/-- One successor of a node that retired: PREDCNT falls by one where it is WAITING or CANCELLED; a WAITING one whose count
becomes 0 is READY; a decrement below 0 reports a malformed graph (17 R381). -/
def State.retireSucc (s : State) (p : Nat) (g : Nat) (base i : Nat) : State :=
  match s.findNode p (base + 128 * i) with
  | none => s
  | some n =>
    if n.state ≠ .waiting ∧ n.state ≠ .cancelled then s
    else if n.predcnt = 0 then s.post (some p) { status := Status.malformedGraph, addr := g }
    else
      let s := s.writePred p { n with predcnt := n.predcnt - 1 }
      let n := (s.findNode p n.addr).getD n
      if n.state = .waiting ∧ n.predcnt = 0 then s.makeReady p n else s

/-- The posted failure of a gang's store engines that no `rsig` met, of the lowest rank (17 R403). -/
def State.postedFail (s : State) (n : Node) : Option Nat := n.tiles.findSome? fun t => (s.tile t).es.failed.head?.map (·.2.code)

/-- Whether a tile's node counts it as finished: it runs, or its save has not taken it away (17 R384). -/
def Tile.retires (x : Tile) : Bool :=
  x.finished && (x.moves || x.saveRest) && x.life.fault.isNone

/-- NODE_RETIREMENT: every tile of the gang is finished: the profile word, RETIRED with PFAIL and FCODE, the successors, the
tiles free (02 R39, 17 R381, R397, R403). -/
def execNodeRetirement (p : PartId) (node : VAddr) (s : State) : Out :=
  .next <|
    match s.findNode p.val node.toNat with
    | none => s
    | some n =>
      if n.state = .running ∧ n.tiles ≠ [] ∧ n.tiles.all (fun t => (s.tile t).retires) then
        let pf := s.postedFail n
        let b := Config.hbmBytes s.choices
        let (old, s) := s.draw.schedDw p.val (n.addr + 96) 0
        let s := s.schedWrite p.val n.addr (n.addr + 96) (profileWord old n.mac b (s.part p.val).sched.thresh)
        let s := n.tiles.foldl (fun s t => s.traceClose t) s
        let s := s.freeTiles n
        let n := { n with pfail := pf.isSome, fcode := pf.getD 0, tiles := [], picks := [] }
        let s := match pf with
          | some c => s.post p.val { status := Status.postedFailure, addr := n.addr, data := c }
          | none => s
        match (s.part p.val).sched.graphOf n with
        | none => s.endNode p.val n .retired false
        | some g =>
          let s := s.writeNode p.val { n with state := .retired }
          let s := n.succ.foldl (fun s i => s.retireSucc p.val g.addr g.base i) s
          s.endNode p.val ((s.findNode p.val n.addr).getD n) .retired false
      else s

/-! ## Host cancel (17 Table 17.3) -/

/-- The cancellation record of a rank of a saved gang (18 R419). -/
def State.savedRecord (s : State) (p a r : Nat) : State :=
  match s.findNode p a with
  | none => s
  | some n =>
    let x := SMap.get {} n.saves r
    let base := Rcd.frec n.rcd + 256 * r
    if Rcd.frec n.rcd = 0 then s
    else
      let seq := SMap.get 0 n.seqs r + 1
      let f := cancelRec s
      match hubWrite s.draw 0 p 3 (base + 8) (recordBytes (x.recordRest 1 f n.addr p n.attempt)) with
      | (some _, s) => s
      | (none, s) =>
        (hubWrite (s.putNode p { n with seqs := SMap.put n.seqs r seq }) 0 p 2 base
          (leBytes (recordDw0 f 1 r seq false) 8)).2

/-- A host cancel of a SAVED node: its record images count as cancelled (17 Table 17.3). -/
def State.cancelSaved (s : State) (p : Nat) (n : Node) : State :=
  let s := (List.range (Rcd.size n.rcd)).foldl (fun s r => s.savedRecord p n.addr r) (s.orphanAway p n.addr)
  s.cancelNode p ((s.findNode p n.addr).getD n)

/-- Every operation of an engine to be cancelled: a queued one before it starts, a running one at its next boundary (10 R243). -/
def Eng.cancelAll (e : Eng) : Eng := { e with ops := e.ops.map fun o => { o with cancel := true } }

/-- A host cancel of a node that ends for a retry: the operations that its tiles adopted are cancelled as detached ones, a tile not yet
torn down cancels its orphans then, and the node ends CANCELLED (02 R49, R50; log 68). -/
def State.cancelAdopted (s : State) (p : Nat) (n : Node) : State :=
  n.tiles.foldl (fun s t =>
    let x := s.tile t
    if x.torn then s.setTile t { x with el := x.el.cancelAll, em := x.em.cancelAll, es := x.es.cancelAll } else s)
    (s.putNode p { n with ending := some .cancel })

/-- A host cancel meets a node: a node on no tile is CANCELLED, a PLACING one when its replies are in, a RUNNING one ends its
attempt, one that ends for a retry has what goes on cancelled; a terminal one, or one that ends otherwise, is left alone. -/
def State.hostCancel (s : State) (p : Nat) (n : Node) : State :=
  match n.state with
  | .waiting => s.cancelNode p n
  | .ready => s.cancelNode p n
  | .saved => s.cancelSaved p n
  | .placing => s.putNode p { n with cancelled := true }
  | .running => s.endAttempt p n .cancel
  | .ending => match n.ending with
    | some (.fault _ _ true) => s.cancelAdopted p n
    | _ => s
  | _ => s

/-! ## Placement (17 R388 to R396) -/

/-- Whether a die's controller may reserve a tile for a node (17 R391, R398). -/
def State.reservable (s : State) (p : Nat) (n : Node) (t : Nat) : Bool :=
  (s.part p).clusters.getLsbD (t / 8) && decide ((s.tile t).life.phase = .free) && (s.tile t).life.seat.isNone &&
  decide ((s.tile t).prv.retired &&& BitVec.ofNat 32 (Rcd.banks n.rcd) = 0)

/-- Whether a tile is eligible for a node (17 R391). A tile of a saved gang is held for the head for which the gang was chosen (17 R389);
where another node has become head since, it is open to that one too (log 73). -/
def State.eligible (s : State) (p : Nat) (n : Node) (t : Nat) : Bool :=
  let x := (s.part p).sched
  s.reservable p n t && (x.head.map (·.addr) == some n.addr || x.heldFor.all fun h => h.1 != t || h.2 == n.addr)

/-- Numbers below `n` taken cyclically from the first that is not below `from_`. -/
def cyclic (n from_ : Nat) : List Nat := (List.range n).filter (from_ ≤ ·) ++ (List.range n).filter (· < from_)

/-- The eligible list: units of one tile, or of one whole cluster where T is a multiple of 8 (17 R391); `ok` says which tiles
are eligible. -/
def unitList (ok : Nat → Bool) (tps cursor : Nat) : List (List Nat) :=
  if tps % 8 = 0 then
    let first := (cyclic 256 cursor).filter fun t => decide (t % 8 = 0)
    (first.map fun t => (List.range 8).map (t + ·)).filter fun l => l.all ok
  else ((cyclic 256 cursor).filter ok).map fun t => [t]

/-- How many units a node needs. -/
def unitsNeeded (r : Nat) : Nat := if Rcd.tps r % 8 = 0 then Rcd.size r / 8 else Rcd.size r

/-- Insertion of a number in a rising list. -/
def insertRising (l : List Nat) (k : Nat) : List Nat := l.takeWhile (· < k) ++ k :: l.dropWhile (· < k)

/-- The tiles of each rank from the tiles of the picks in pick order: within a stage, ranks follow module tile index
(17 R392, 02 R32). -/
def rankTiles (tps : Nat) : Nat → List Nat → List Nat
  | 0, _ => []
  | stages + 1, l => (l.take tps).foldl insertRising [] ++ rankTiles tps stages (l.drop tps)

/-- Whether a saved gang's context holds a chain of more than one tile and its stages are no whole clusters: then every rank
keeps its place in its cluster, and ranks keep sharing clusters (17 R393). -/
def Node.keepsChain (n : Node) : Bool :=
  decide (n.state = .saved) && decide (Rcd.tps n.rcd % 8 ≠ 0) && n.saves.any fun x => decide (1 < x.2.mem.chainLen)

/-- The tile on which a rank was saved. -/
def Node.savedTile (n : Node) (r : Nat) : Nat := field (SMap.get {} n.saves r).ctl.tile.toNat 0 8

/-- The tile of each rank where the clusters that the saved gang occupied move as `homes` says: every rank keeps its tile-in-cluster
number, and ranks that shared a cluster share one again (17 R393). -/
def Node.movedTiles (n : Node) (homes : List (Nat × Nat)) : List Nat :=
  (List.range (Rcd.size n.rcd)).map fun r =>
    8 * ((homes.find? (·.1 == n.savedTile r / 8)).map (·.2)).getD 0 + n.savedTile r % 8

/-- Whether the tiles of every stage rise with their ranks (02 R32). -/
def stagesRise (tps : Nat) : Nat → List Nat → Bool
  | 0, _ => true
  | stages + 1, l => decide ((l.take tps).Pairwise (· < ·)) && stagesRise tps stages (l.drop tps)

/-- The placement of 17 R393: the first, with the clusters of the saved gang and the clusters `ds` that may take them in their order,
whose tiles are eligible and rise with the ranks of each stage. Two saved clusters may not claim one tile. -/
def Node.findHome (n : Node) (ok : Nat → Bool) (ds : List Nat) : List Nat → List (Nat × Nat) → Option (List Nat)
  | [], homes =>
    let l := n.movedTiles homes
    if l.Nodup ∧ stagesRise (Rcd.tps n.rcd) (Rcd.nstage n.rcd) l = true then some l else none
  | c :: cs, homes =>
    ds.findSome? fun d =>
      let need := ((List.range (Rcd.size n.rcd)).filter fun r => decide (n.savedTile r / 8 = c)).map fun r => 8 * d + n.savedTile r % 8
      if need.all ok then Node.findHome n ok ds cs ((c, d) :: homes) else none

/-- The clusters that a saved gang occupied. -/
def Node.savedClusters (n : Node) : List Nat :=
  (List.range 32).filter fun c => (List.range (Rcd.size n.rcd)).any fun r => decide (n.savedTile r / 8 = c)

/-- The one placement of a saved gang that keeps its chains: the clusters are tried in rising order from the one of CURSOR, and no
deviation is allowed (17 R391, R393; log 69). -/
def Node.home (n : Node) (ok : Nat → Bool) (cursor : Nat) : Option (List Nat) :=
  n.findHome ok (cyclic 32 (cursor / 8)) n.savedClusters []

/-- Whether a node can be placed on eligible tiles (17 Table 17.5). -/
def State.placeableOn (s : State) (p : Nat) (n : Node) (ok : Nat → Bool) : Bool :=
  if n.keepsChain then (n.home ok (s.part p).sched.cursor).isSome
  else decide (unitsNeeded n.rcd ≤ (unitList ok (Rcd.tps n.rcd) (s.part p).sched.cursor).length)

/-- Whether a node can be placed now. -/
def State.placeable (s : State) (p : Nat) (n : Node) : Bool := s.placeableOn p n (s.eligible p n)

/-- Whether picks are distinct entries of a list of so many, `need` of them (17 R392). -/
def picksFit (need len : Nat) (picks : List Nat) : Bool :=
  decide (picks.length = need) && decide picks.Nodup && picks.all (fun j => decide (j < len))

/-- Whether no pick departs further than `dev` from the order of the list (17 R392). -/
def picksNear (need dev : Nat) (picks : List Nat) : Bool :=
  (List.range need).all fun k => decide (picks.getD k 0 ≤ k + dev) && decide (k ≤ picks.getD k 0 + dev)

/-- Whether picks that give the ranks `tiles` are ones that the rules permit: the one home of a saved gang that keeps its chains
(17 R393), else any within D of the list's order (17 R392). -/
def State.picksOk (s : State) (p : Nat) (n : Node) (len : Nat) (picks tiles : List Nat) : Bool :=
  let x := (s.part p).sched
  picksFit (unitsNeeded n.rcd) len picks &&
  (if n.keepsChain then decide (n.home (s.eligible p n) x.cursor = some tiles) else picksNear (unitsNeeded n.rcd) x.dev picks)

/-- The greatest of some positions. -/
def maxOf (l : List Nat) : Nat := l.foldl max 0

/-- The node that the context may place now: the head where it can be placed; else, while backfill goes on, the
highest-ranked other that can be (17 R388). -/
def State.nextToPlace (s : State) (p : Nat) : Option Node :=
  let x := (s.part p).sched
  match x.head with
  | none => none
  | some h =>
    if s.placeable p h then some h
    else if x.backfill then topNode (x.ranked.filter fun n => n.addr != h.addr && s.placeable p n)
    else none

/-- The head's failed attempt begins its count (17 R388). -/
def State.noteHead (s : State) (p : Nat) : State :=
  let x := (s.part p).sched
  match x.head with
  | some h =>
    if s.placeable p h then s
    else match x.headSince with
      | some (a, _) => if a = h.addr then s else s.setSched p { x with headSince := some (h.addr, s.seiche), backfill := true }
      | none => s.setSched p { x with headSince := some (h.addr, s.seiche), backfill := true }
  | none => s

/-- Whether an enabled breakpoint matches a READY node (20 R466). -/
def Debug.matchesNode (d : Debug) (n : Node) : Bool :=
  d.bps.any fun b => b.2.en &&
    ((decide (b.2.kind = 1) && (decide (b.2.addr = Rcd.entL n.rcd) || decide (b.2.addr = Rcd.entX n.rcd) || decide (b.2.addr = Rcd.entW n.rcd))) ||
     (decide (b.2.kind = 2) && decide (b.2.addr = n.addr)))

/-- PLACEMENT: the context looks at the node it may place. A READY node that a breakpoint matches is held (20 R466); else it
makes its picks, and the node is PLACING (17 R392, R398). -/
def execPlacement (p : PartId) (node : VAddr) (picks : List Nat) (s : State) : Out :=
  .next <|
    let s := s.noteHead p.val
    let x := (s.part p.val).sched
    if (s.part p.val).state ≠ .active ∨ x.nodes.any (fun n => decide (n.state = .placing)) then s
    else match s.nextToPlace p.val with
      | none => s
      | some n =>
        if n.addr ≠ node.toNat then s
        else if n.state = .ready ∧ !n.checked ∧ (s.part p.val).dbg.matchesNode n then
          (s.putNode p.val { n with held := true, aged := s.seiche - n.aged }).addHit p.val { kind := 2, ring := 0, addr := n.addr }
        else
          let l := unitList (s.eligible p.val n) (Rcd.tps n.rcd) x.cursor
          let units := picks.map fun j => l.getD j []
          let tiles := rankTiles (Rcd.tps n.rcd) (Rcd.nstage n.rcd) (units.flatMap id)
          if s.picksOk p.val n l.length picks tiles then
            let s := s.writeNode p.val { n with state := .placing, picks := units.flatMap id, tiles := tiles, wasSaved := decide (n.state = .saved) }
            s.setSched p.val { (s.part p.val).sched with cursor := ((l.getD (maxOf picks) []).getLastD 0 + 1) % 256 }
          else s

/-- The tiles of a committed gang reserved: a gated one is to be woken, an awake one is held at once (17 R399); the registers of Tables
2.1 to 2.4 are set, `ctl.node` of a saved gang as before (02 R33). -/
def State.seatTiles (s : State) (p : Nat) (n : Node) : State :=
  (List.range n.tiles.length).foldl (fun s r =>
    let t := n.tiles.getD r 0
    let x := s.tile t
    let c := TileCtl.placed x.ctl s.hub.modnum p n r t
    s.setTile t { x with ctl := if n.wasSaved then { c with node := (SMap.get {} n.saves r).ctl.node } else c, life := { x.life with
      phase := if x.life.gatedClock then .reserved else .held, saveStart := s.seiche
      seat := some { part := p, node := n.addr, rank := r, attempt := n.attempt } } }) s

/-- Every die commits: the node is RUNNING (17 Table 17.3). A fresh attempt counts, and fixes its barrier groups (10 R230). -/
def State.commit (s : State) (p : Nat) (n : Node) : State :=
  let n := { n with state := .running, pooled := false, placedPrio := n.eprio, preempt := false, mac := if n.wasSaved then n.mac else 0
                    attempt := if n.wasSaved then n.attempt else n.attempt + 1
                    groups := if n.wasSaved then n.groups else n.tiles.map (· / 8)
                    bars := if n.wasSaved then n.bars else [] }
  let s := s.writeNode p n
  let x := (s.part p).sched.leave n.addr
  let s := s.setSched p { x with heldFor := x.heldFor.filter fun h => !n.tiles.contains h.1 }
  s.seatTiles p n

/-- The dies that refuse a reservation: those one of whose picked tiles has become ineligible (17 R398). A tile that is held for a head
was so, and was allowed to the node, as it was picked: no tile comes to be held while it is free. -/
def State.refusing (s : State) (p : Nat) (n : Node) : BitVec 4 :=
  BitVec.ofNat 4 (((List.range 4).map fun d => b2n (n.picks.any fun t => decide (tileDie t = d) && !s.reservable p n t) * 2 ^ d).sum)

/-- RESERVATION_REPLY: the replies of every die are in: a host cancel that came meanwhile rolls back to CANCELLED; a refusal
rolls back to READY or SAVED; else the context commits (17 R398). -/
def execReservationReply (p : PartId) (node : VAddr) (refused : BitVec 4) (s : State) : Out :=
  .next <|
    match s.findNode p.val node.toNat with
    | none => s
    | some n =>
      if n.state ≠ .placing ∨ s.refusing p.val n ≠ refused then s
      else
        let back := { n with tiles := [], picks := [], cancelled := false, state := if n.wasSaved then NState.saved else .ready }
        if n.cancelled then
          (if n.wasSaved then s.cancelSaved p.val back else s.cancelNode p.val back)
        else if refused ≠ 0 then s.writeNode p.val back
        else s.commit p.val n

/-! ## Pre-emption, ageing, backfill (17 R387 to R389) -/

/-- Candidates in the order in which they are taken: lowest PRIO, then latest start (17 R389). -/
def before (n m : Node) : Bool :=
  decide (Rcd.prio n.rcd < Rcd.prio m.rcd) ||
  (decide (Rcd.prio n.rcd = Rcd.prio m.rcd) && decide (m.startTick < n.startTick))

/-- A candidate put in its place. -/
def insertCand (n : Node) : List Node → List Node
  | [] => [n]
  | m :: l => if before n m then n :: m :: l else m :: insertCand n l

/-- The tiles that are eligible for a head, with those of some gangs once they are freed. -/
def State.freedFor (s : State) (p : Nat) (h : Node) (extra : List Nat) (t : Nat) : Bool :=
  s.eligible p h t || (extra.contains t && decide ((s.tile t).prv.retired &&& BitVec.ofNat 32 (Rcd.banks h.rcd) = 0))

/-- How many candidates must be taken until the head could be placed; none where all together are not enough. -/
def State.victims (s : State) (p : Nat) (h : Node) (extra : List Nat) : List Node → Option (List Node)
  | [] => none
  | n :: l =>
    let extra := extra ++ n.tiles
    if s.placeableOn p h (s.freedFor p h extra) then some [n] else (State.victims s p h extra l).map (n :: ·)

/-- PREEMPTION_DECISION: for a head that cannot be placed, the context picks the gangs that receive a request; their tiles, once
saved, are held for it (17 R389). The context looks again as long as the head cannot be placed: tiles of gangs whose requests are
pending count as tiles to come, and further gangs are asked where those do not suffice. -/
def execPreemptionDecision (p : PartId) (s : State) : Out :=
  .next <|
    let s := s.noteHead p.val
    let x := (s.part p.val).sched
    match x.head with
    | none => s
    | some h =>
      if s.placeable p.val h then s
      else
        let asked := (x.nodes.filter fun n => decide (n.state = .running) && n.preempt).flatMap (·.tiles)
        let cand := (x.nodes.filter fun n => decide (n.state = .running) && Rcd.preempt n.rcd && !n.preempt &&
          decide (Rcd.prio n.rcd < Rcd.prio h.rcd)).foldr insertCand []
        match (if s.placeableOn p.val h (s.freedFor p.val h asked) then some [] else s.victims p.val h asked cand) with
        | none => s
        | some l => l.foldl (fun s n => s.putNode p.val { n with preempt := true, forHead := h.addr }) s

/-- The intervals of AGEINT that a node of the pool has waited, counted: EPRIO rises by 1 for each while it is below AGECAP
(17 R387). -/
def Node.age (n : Node) (agecap ageint k : Nat) : Node :=
  { n with eprio := if n.eprio < agecap then min agecap (n.eprio + k) else n.eprio, aged := n.aged + k * ageint }

/-- The nodes of the pool before a write of `sch.age`: the intervals that have passed count under the old registers; where ageing was
disabled, the count begins now. A node that a breakpoint holds keeps the ticks it has counted. -/
def Sched.settleAge (x : Sched) (now : Nat) : Sched :=
  { x with nodes := x.nodes.map fun n =>
      if !n.pooled then n
      else if x.ageint = 0 then { n with aged := if n.held then 0 else now }
      else if n.held then n
      else n.age x.agecap x.ageint ((now - n.aged) / x.ageint) }

/-- NODE_AGEING: a node that has waited a further AGEINT ticks in the pool gains priority, up to AGECAP (17 R387). -/
def execNodeAgeing (p : PartId) (node : VAddr) (s : State) : Out :=
  .next <|
    let x := (s.part p.val).sched
    match s.findNode p.val node.toNat with
    | none => s
    | some n =>
      if n.pooled ∧ !n.held ∧ (n.state = .ready ∨ n.state = .saved) ∧ x.ageint ≠ 0 ∧ n.aged + x.ageint ≤ s.seiche then
        s.putNode p.val (n.age x.agecap x.ageint 1)
      else s

/-- BACKFILL_LIMIT: the head has been unplaceable for BFLIM ticks: the context places nothing else (17 R388). -/
def execBackfillLimit (p : PartId) (s : State) : Out :=
  .next <|
    let x := (s.part p.val).sched
    match x.headSince, x.head with
    | some (a, k), some h =>
      if a = h.addr ∧ k + x.bflim ≤ s.seiche then s.setSched p.val { x with backfill := false } else s
    | _, _ => s

/-! ## Cone cancellation (17 R404, R405) -/

/-- The successors of a node: as read when it entered the pool, or read now. -/
def State.succOf (s : State) (p : Nat) (n : Node) : List Nat × State :=
  match loadSucc s p n with
  | (.ok n, s) => (n.succ, s)
  | (.error _, s) => ([], s)

/-- Successors that are WAITING nodes of the graph and not queued yet, appended in list order. A list that nobody has checked may name
an index past the graph's nodes: it names no successor. -/
def State.enqueue (s : State) (p : Nat) (g : Graph) (queue : List Nat) : List Nat → List Nat
  | [] => queue
  | i :: l =>
    let ok := match s.findNode p (g.base + 128 * i) with
      | some n => decide (i < g.count) && decide (n.graph = some g.addr) && decide (n.state = .waiting)
      | none => false
    State.enqueue s p g (if ok && !queue.contains i then queue ++ [i] else queue) l

/-- The walks of a context replaced. -/
def State.setWalks (s : State) (p : Nat) (l : List Walk) : State := s.setSched p { (s.part p).sched with walks := l }

/-- The header of a walk's step: WALK falls with the last one; the walk is then over, and the graph may complete. -/
def State.walkHeader (s : State) (p : Nat) (g : Graph) (w : Walk) (rest : List Walk) (queue : List Nat) : State :=
  let s := s.writeHeader p g 1 (!queue.isEmpty) queue.length
  if queue.isEmpty then (s.setWalks p rest).checkGraph p g.addr else s.setWalks p ({ w with queue := queue, begun := true } :: rest)

/-- CONE_WALK_STEP: the walk begins with its header write, or marks the head of its queue and then writes the header. -/
def execConeWalkStep (p : PartId) (s : State) : Out :=
  .next <|
    let x := (s.part p.val).sched
    match x.walks with
    | [] => s
    | w :: rest =>
      match x.graphs.find? (·.addr == w.graph) with
      | none => s.setWalks p.val rest
      | some g =>
        if w.begun then
          match w.queue with
          | [] => s.walkHeader p.val g w rest []
          | v :: q =>
            match s.findNode p.val (g.base + 128 * v) with
            | none => s.walkHeader p.val g w rest q
            | some n =>
              if n.state = .waiting then
                let (l, s) := s.succOf p.val n
                let s := s.endNode p.val { n with cause := w.root } .cancelled false
                s.walkHeader p.val g w rest (s.enqueue p.val g q l)
              else s.walkHeader p.val g w rest q
        else
          match s.findNode p.val (g.base + 128 * w.root) with
          | none => s.setWalks p.val rest
          | some n =>
            let (l, s) := s.succOf p.val n
            let q := s.enqueue p.val g [] l
            let s := s.writeHeader p.val g 1 true q.length
            if q.isEmpty then s.walkHeader p.val g w rest [] else s.setWalks p.val ({ w with queue := q, begun := true } :: rest)

end Sys2Proof.Machine
end

