-- ==== Sys2Proof/Machine/Fabric.lean ====
section
/-! DEFINITION. The fabric and the link seen from a tile: responses, timeouts, posted writes and signals, requests that arrive,
remote scratchpad stores, host-window reads; kept translations and shoot-downs (07 R171, R172; 09 R215; 13 R333 to R337; 18
R409, R414 to R416; 19 R439, R445). -/
namespace Sys2Proof.Machine

/-! ## Answers to a waiting unit (13 R333 to R335) -/

/-- ACCESS of what an access does (18 Table 18.4). -/
def Remote.access : Remote → Nat
  | .store _ => 1
  | .rmw _ _ _ _ _ => 3
  | _ => 0

/-- The running core's access ends with the bytes it read, if any. -/
def State.answerCore (s : State) (what : Remote) (len v : Nat) : State :=
  match what with
  | .load gd sx n => (s.unblock.setG gd (extendLoad sx n v)).skip len
  | .rmw _ n gd _ _ => (s.unblock.setG gd (extendLoad false n v)).skip len
  | _ => s.unblock.skip len

/-- The running core's access returns a fault of the target (13 R334). -/
def State.remoteFaultCore (s : State) (f : FabWait) (x : FarFault) : State :=
  if x.code = Code.fabricPeerAbsent then s.unblock.faultA f.what.access x.code x.detail
  else s.unblock.faultRec (remoteFault x f.module f.offset f.what.access)

/-- The access of the running core performed at the target, and its end. An atomic that writes as a release follows the core's remote
stores; an `acas` that does not write is no release (09 R225). -/
def State.performFar (s : State) (f : FabWait) : State :=
  match f.what with
  | .load _ _ n =>
    (match farRead s s.myDie s.myPart f.module f.offset n with
     | (.ok l, s) => s.answerCore f.what f.unitLen (leNat l)
     | (.error c, s) => s.remoteFaultCore f c)
  | .store l =>
    (match farWrite s s.myDie s.myPart f.module f.offset (wholeBytes l) with
     | (none, s) => s.answerCore f.what f.unitLen 0
     | (some c, s) => s.remoteFaultCore f c)
  | .rmw op n _ x e =>
    (match farRmw s s.myDie s.myPart f.module f.offset n (fun old => atomNew op (8 * n) old x e) with
     | (.ok v, s) =>
       (if f.release && (atomNew op (8 * n) v x e).isSome then s.flushMine else s).answerCore f.what f.unitLen v
     | (.error c, s) => s.remoteFaultCore f c)
  | .iteration => s.unblock

/-- FABRIC_PEER_ABSENT or FABRIC_TIMEOUT of the running core: DETAIL is the module number (18 Table 18.5). -/
def State.fabricFaultCore (s : State) (f : FabWait) (code : Nat) : State := s.unblock.faultA f.what.access code f.module

/-- A fault as a target returns it: of DETAIL the bits that 18 Table 18.5 lists for its code. -/
def farFault (f : FabFault) : FarFault :=
  let d := f.detail.toNat
  { code := f.code.toNat
    detail := if f.code.toNat = Code.notPresent then d % 16
      else if f.code.toNat = Code.permission then d % 8
      else if f.code.toNat = Code.uncorrectable then uncDetail 1 (d / 256)
      else 0 }

/-- Whether a target may return a code (13 R334). -/
def returned (code : Nat) : Bool :=
  decide (code = Code.notPresent) || decide (code = Code.permission) || decide (code = Code.uncorrectable)

/-! ## Posted writes (07 R171, R172; 13 R337) -/

/-- The store engine with a posted failure of a module recorded, unless one stands. -/
def Eng.postFailure (e : Eng) (m : Nat) (x : FarFault) : Eng :=
  if (SMap.get {} e.failed m).code ≠ 0 then e else { e with failed := SMap.put e.failed m x }

/-- A posted failure recorded in the context of a saved gang. -/
def State.recordAway (s : State) (k : Seat) (m : Nat) (f : FarFault) : State :=
  match s.findNode k.part k.node with
  | none => s
  | some n =>
    let x := SMap.get {} n.saves k.rank
    s.putNode k.part { n with saves := SMap.put n.saves k.rank { x with es := x.es.postFailure m f } }

/-- A posted failure for a module recorded with its store engine, which may lie in a save area (02 R56); nothing where its
node has left. -/
def State.recordFailure (s : State) (w : Posted) (f : FarFault) : State :=
  if w.orphan then s
  else match w.away, w.seat with
    | true, some k => s.recordAway k w.module f
    | _, _ => s.setEngAt w.tile .store ((s.engAt w.tile .store).postFailure w.module f)

/-- Whether a posted write is of a tile and, where one is named, to a module. -/
def Posted.of (w : Posted) (t m : Nat) : Bool := decide (w.tile = t) && decide (w.module = m)

/-- Whether two posted writes are of one store engine to one module: of the same tile while the same node ran there. -/
def Posted.same (w v : Posted) : Bool :=
  v.of w.tile w.module && decide (v.seat = w.seat) && decide (v.orphan = w.orphan) && decide (v.away = w.away)

/-- A posted failure of the oldest write of an engine to a module: it, and every later write and signal of the engine to that module, is
discarded (13 R337). -/
def State.failPosted (s : State) (w : Posted) (f : FarFault) : State :=
  State.recordFailure { s with posted := s.posted.filter fun v => !w.same v } w f

/-- A signal: its word is set, or added to (13 Table 13.2, 07 R172). -/
def signalNew (set : Bool) (arg : Word) (old : Nat) : Nat := if set then arg.toNat else (old + arg.toNat) % 2 ^ 64

/-- The write or the signal of an entry made at its target: the fault where it fails. -/
def State.deliver (s : State) (w : Posted) : Option FarFault × State :=
  match w.signal with
  | none => farWrite s (tileDie w.tile) w.part w.module w.offset w.bytes
  | some (set, arg) =>
    match farRmw s (tileDie w.tile) w.part w.module w.offset 8 (fun old => some (signalNew set arg old)) with
    | (.ok _, s) => (none, s)
    | (.error c, s) => (some c, s)

/-- A posted write performed at its target, its acknowledgement still to come; a failure there is a posted failure. -/
def State.performPosted (s : State) (w : Posted) : State :=
  match s.deliver w with
  | (none, s) => { s with posted := s.posted.replace w { w with done := true } }
  | (some c, s) => s.failPosted w c

/-- The oldest posted write or signal of a tile to a module, and the oldest of one engine that is not yet performed there. -/
def State.oldestPosted (s : State) (t m : Nat) : Option Posted := s.posted.find? fun w => w.of t m
def State.nextPosted (s : State) (w : Posted) : Option Posted := s.posted.find? fun v => w.same v && !v.done

/-- What a target performed before its acknowledgements were lost: as many of the writes and signals, in order, as the free value
says (13 R337). -/
def State.lostAcks (s : State) (w : Posted) : Nat → State
  | 0 => s
  | fuel + 1 =>
    match s.nextPosted w with
    | none => s
    | some v => if Config.ackLost s.choices then (s.draw.performPosted v).lostAcks w fuel else s.draw

/-- A posted failure by a timeout or an absent module: the target may have performed some of what it did not acknowledge. -/
def State.losePosted (s : State) (w : Posted) (code : Nat) : State :=
  (s.lostAcks w s.posted.length).failPosted w { code := code, detail := w.module }

/-- The answer of a module to the oldest posted write of a tile to it: the write is performed and acknowledged, or it fails. A
signal is performed by SIGNAL_PERFORM. -/
def State.answerPosted (s : State) (t m : Nat) (ans : FabAnswer) : State :=
  match s.oldestPosted t m with
  | none => s
  | some w =>
    if w.since + w.limit < s.seiche then s
    else match ans with
      | .ok _ =>
        if w.done then { s with posted := s.posted.erase w }
        else if w.signal.isSome then s
        else match s.deliver w with
          | (none, s) => { s with posted := s.posted.erase w }
          | (some c, s) => s.failPosted w c
      | .fault f =>
        if w.module = s.hub.modnum then s
        else if returned f.code.toNat ∧ !w.done then s.failPosted w (farFault f)
        else if f.code.toNat = Code.fabricPeerAbsent then s.losePosted w Code.fabricPeerAbsent else s

/-- The operation of an engine that waits for the fabric. -/
def Eng.fabricOp (e : Eng) : Option (Op × FabWait) :=
  e.ops.findSome? fun o => match o.wait with
    | .fabric f => some (o, f)
    | _ => none

/-- FABRIC_RESPONSE for a core: the access is performed at the target, on what its answer shows, or returns its fault. A response after the timeout is
discarded (13 R335). -/
def State.responseCore (s : State) (f : FabWait) (ans : FabAnswer) : State :=
  if f.since + f.limit < s.seiche then s
  else match ans with
    | .ok held => (s.learn s.myPart f.module held).performFar f
    | .fault x =>
      if f.module = s.hub.modnum then s
      else if returned x.code.toNat then s.remoteFaultCore f (farFault x)
      else if x.code.toNat = Code.fabricPeerAbsent then s.fabricFaultCore f Code.fabricPeerAbsent else s

/-- Whether an operation that waits for the fabric waits for a module: `mcred` waits for every member of its group that has not
answered. -/
def Op.asks (o : Op) (f : FabWait) (m : Nat) : Bool :=
  if o.kind = .mcred then o.started.members.contains m && !f.heard.contains m else decide (f.module = m)

/-- FABRIC_RESPONSE of module `m` for an operation: its iteration runs on what every module that it asks has answered, or faults. -/
def State.responseOp (s : State) (t : Nat) (e : Engine) (o : Op) (f : FabWait) (m : Nat) (ans : FabAnswer) : State :=
  if f.since + f.limit < s.seiche then s
  else match ans with
    | .ok held =>
      let s := s.learn (s.tile t).partNo m held
      let f := { f with heard := m :: f.heard }
      if o.kind = .mcred ∧ !(o.started.members.all f.heard.contains) then s.setOp t e { o with wait := .fabric f }
      else s.iterate t e { o with wait := .none } true
    | .fault x =>
      if m = s.hub.modnum then s
      else if returned x.code.toNat then s.opFault t e o (remoteFault (farFault x) m f.offset 0)
      else if x.code.toNat = Code.fabricPeerAbsent then s.opFault t e o (opRec Code.fabricPeerAbsent m 0) else s

/-- FABRIC_RESPONSE: the answer of a module for a unit of a tile; on the store engine, to the oldest posted write to that
module. -/
def execFabricResponse (t : TileId) (u : FabUnit) (ans : FabAnswer) (s : State) : Out :=
  .next <|
    match u.unit with
    | .core c =>
      (match (s.coreAt t.val c).wait with
       | .fabric f => if f.module = u.module.toNat then State.responseCore { s with curTile := t, curCore := c } f ans else s
       | _ => s)
    | .engine e =>
      match (s.engAt t.val e).fabricOp with
      | some (o, f) => if o.asks f u.module.toNat then s.responseOp t.val e o f u.module.toNat ans else s
      | none => if e = .store then s.answerPosted t.val u.module.toNat ans else s

/-- FABRIC_TIMEOUT: a request to a module has had no response within the fabric timeout (13 R335, R337). -/
def execFabricTimeout (t : TileId) (u : FabUnit) (s : State) : Out :=
  .next <|
    match u.unit with
    | .core c =>
      (match (s.coreAt t.val c).wait with
       | .fabric f =>
         if f.module = u.module.toNat ∧ f.since + f.limit < s.seiche then State.fabricFaultCore { s with curTile := t, curCore := c } f Code.fabricTimeout else s
       | _ => s)
    | .engine e =>
      match (s.engAt t.val e).fabricOp with
      | some (o, f) =>
        if o.asks f u.module.toNat ∧ f.since + f.limit < s.seiche then s.opFault t.val e o (opRec Code.fabricTimeout u.module.toNat 0) else s
      | none =>
        if e = .store then
          match s.oldestPosted t.val u.module.toNat with
          | some w => if w.since + w.limit < s.seiche then s.losePosted w Code.fabricTimeout else s
          | none => s
        else s

/-- POSTED_FAILURE: the oldest posted write of a tile to a module fails (13 R337): one that its target returns where
it cannot perform it, or one of a target that does not answer. -/
def execPostedFailure (t : TileId) (module : BitVec 10) (f : FabFault) (s : State) : Out :=
  .next <|
    match s.oldestPosted t.val module.toNat with
    | some w =>
      if returned f.code.toNat ∧ !w.done then s.failPosted w (farFault f)
      else if f.code.toNat = Code.fabricPeerAbsent ∨ (f.code.toNat = Code.fabricTimeout ∧ w.since + w.limit < s.seiche) then
        s.losePosted w f.code.toNat
      else s
    | none => s

/-- The posted writes of an engine to a module that stand before its first signal there, performed in order. -/
def State.performEarlier (s : State) (w : Posted) : Nat → State
  | 0 => s
  | fuel + 1 =>
    match s.nextPosted w with
    | some v => if v.signal.isNone then (s.performPosted v).performEarlier w fuel else s
    | none => s

/-- SIGNAL_PERFORM: the target performs a signal, after every earlier posted write of the same engine to that module
(07 R172). -/
def execSignalPerform (t : TileId) (module : BitVec 10) (s : State) : Out :=
  .next <|
    match s.posted.find? fun w => w.of t.val module.toNat && w.signal.isSome && !w.done with
    | none => s
    | some w =>
      let s := s.performEarlier w s.posted.length
      match s.nextPosted w with
      | none => s
      | some v =>
        match s.deliver v with
        | (none, s) => { s with posted := s.posted.erase v }
        | (some c, s) => s.failPosted v c

/-! ## Requests that arrive (18 R409, R413, R416) -/

/-- Bytes of a request written at consecutive offsets, each under the mask of its bits; a byte of which no bit is written is not
touched (13 R327), and each run of the others is one write, so that a granule it covers whole comes clean (18 R431). -/
def arrivingWrites (s : State) (d part off : Nat) (l : List (Byte × Byte)) : State :=
  (runsOf ((l.zipIdx.filter fun b => b.1.2 != 0).map fun b => (off + b.2, b.1))).foldl (fun s r => (exportWrite s d part r.1 r.2).2) s

/-- What a request does in the export space of partition `p`. -/
def State.serveFabric (s : State) (d p off : Nat) (req : FabReq) : State :=
  match req with
  | .read len => (exportRead s d p off len).2
  | .write l => if l.any (fun b => b.2 == 0) then arrivingWrites s d p off l else (exportWrite s d p off l).2
  | .signal set arg => (exportRmw s d p off 8 fun old => some (signalNew set arg old)).2
  | .rmw op wide x expected =>
    (exportRmw s d p off (atomBytes wide) fun old =>
      atomNew op (8 * atomBytes wide) old (x.toNat % 2 ^ (8 * atomBytes wide)) expected.toNat).2
  | .group _ _ _ => s

/-- FABRIC_REQUEST_ARRIVAL: a request from another module at a die's fabric port. One of a node carries a domain tag and meets the
export space that the tag names; one of firmware meets no export space and reaches the group table (19 R455). The answer goes
back over the fabric; here only what the request does to this module shows. -/
def execFabricRequestArrival (die : DieId) (tag : BitVec 16) (offset : BitVec 46) (req : FabReq) (s : State) : Out :=
  .next <|
    if !s.hub.fabricUp then s
    else match req with
      | .group n dw v => s.groupReg (128 * n.toNat + 8 * dw) v.toNat
      | _ => match s.exportOf die.val tag.toNat with
        | none => s
        | some p => s.serveFabric die.val p offset.toNat req

/-! ## Remote scratchpad stores (09 R215) -/

/-- REMOTE_SCRATCH_ACCESS: the oldest remote store that a core has on its way is performed at its target tile. -/
def execRemoteScratchAccess (t : TileId) (c : CoreId) (s : State) : Out :=
  .next <|
    match (s.coreAt t.val c).remote with
    | [] => s
    | r :: l => (s.setCoreAt t.val c { s.coreAt t.val c with remote := l }).performRemote r

/-! ## Host-window reads (19 R437, R439, R445) -/

/-- The operation of an engine that waits for host memory. -/
def Eng.hostOp (e : Eng) : Option (Op × HostRead) :=
  e.ops.findSome? fun o => match o.wait with
    | .hostRead h => some (o, h)
    | _ => none

/-- The fault of a host-window read: VADDR is the window offset (19 R439, R445). -/
def hostFault (code detail : Nat) (h : HostRead) : FaultRec :=
  { code := code, detail := detail, access := h.what.access, vaddr := h.offset }

/-- HOST_WINDOW_READ_COMPLETION: the completion of a SPACE 1 read, over a link that is up. A byte that the publication buffer holds comes from it, the
others from host memory; where the card refuses the read the unit takes PERMISSION (07 R173, 19 R437). -/
def execHostWindowReadCompletion (t : TileId) (u : Unit6) (s : State) : Out :=
  .next <|
    match u with
    | .core c =>
      (match (s.coreAt t.val c).wait with
       | .hostRead h =>
         let s := { s with curTile := t, curCore := c }
         if h.since + 10000000 < s.seiche ∨ !s.linkUp then s
         else if s.granted s.myPart h.host h.len false then
           s.answerCore h.what h.unitLen (leNat (s.windowBytes s.myPart h.host h.len))
         else s.refuse.unblock.faultRec (hostFault Code.permission 1 h)
       | _ => s)
    | .engine e =>
      match (s.engAt t.val e).hostOp with
      | some (o, h) => if h.since + 10000000 < s.seiche ∨ !s.linkUp then s else s.iterate t.val e { o with wait := .none } true
      | none => s

/-- HOST_READ_TIMEOUT: no completion within 10,000,000 ticks: NOT_PRESENT with DETAIL 0 (19 R439). -/
def execHostReadTimeout (t : TileId) (u : Unit6) (s : State) : Out :=
  .next <|
    match u with
    | .core c =>
      (match (s.coreAt t.val c).wait with
       | .hostRead h =>
         let s := { s with curTile := t, curCore := c }
         if h.since + 10000000 < s.seiche then s.unblock.faultRec (hostFault Code.notPresent 0 h) else s
       | _ => s)
    | .engine e =>
      match (s.engAt t.val e).hostOp with
      | some (o, h) => if h.since + 10000000 < s.seiche then s.opFault t.val e o (hostFault Code.notPresent 0 h) else s
      | none => s

/-! ## Kept translations (18 R413 to R416) -/

/-- PAGE_WALK: a die walks an address of a partition's space, and keeps the translation; its accessed bit stands from then on
(18 R413, R414, log 11). -/
def execPageWalk (die : DieId) (p : PartId) (root : Root) (va : VAddr) (acc : Access) (s : State) : Out :=
  .next <|
    let d := die.val
    match (walk s d p.val root va.toNat acc).2.1 with
    | some k =>
      let s := s.markLeaf d .read k.companion
      s.setDie d ((s.die d).keep k)
    | none => s

/-- Whether a kept translation is of a range of a partition's space. -/
def Kept.inRange (k : Kept) (p : Nat) (r : Root) (va len : Nat) : Bool :=
  decide (k.part = p) && decide (k.root = r) && spansMeet (k.vbase * 2 ^ k.bits) (2 ^ k.bits) va len

/-- The shoot-down of a range on the dies of a mask (18 R415). -/
def State.shootDown (s : State) (p : Nat) (r : Root) (va len : Nat) (dies : BitVec 4) : State :=
  (List.range 4).foldl (fun s d =>
    if dies.getLsbD d then s.setDie d { s.die d with kept := (s.die d).kept.filter fun k => !k.inRange p r va len } else s) s

/-- SHOOT_DOWN: no kept translation of the range remains in the dies named. -/
def execShootDown (p : PartId) (root : Root) (va : VAddr) (len : Nat) (dies : BitVec 4) (s : State) : Out :=
  .next (s.shootDown p.val root va.toNat len dies)

/-! ## Route loss (13 R335, R337) -/

/-- Whether a loss touches the tiles of a die: the ports of one die lost their route, or the module serves nobody. -/
def lossTouches (why : PeerLoss) (d : Nat) : Bool :=
  match why with
  | .route die => decide (die.val = d)
  | _ => true

/-- FABRIC_ROUTE_LOSS: the ports of a die lose their route to a module, or the module answers that it is in reset or not ready:
requests under way raise FABRIC_PEER_ABSENT, and posted writes fail with it. -/
def execFabricRouteLoss (module : BitVec 10) (why : PeerLoss) (s : State) : Out :=
  .next <|
    let m := module.toNat
    if m = s.hub.modnum then s
    else
      let x := s.peer m
      let s := s.setPeer m (match why with
        | .route die => { x with noRoute := x.noRoute ||| BitVec.ofNat 4 (2 ^ die.val) }
        | _ => { x with ready := false })
      let s := s.posted.foldl (fun s w => if w.module = m ∧ lossTouches why (tileDie w.tile) ∧ (s.oldestPosted w.tile m).isSome then
          s.losePosted w Code.fabricPeerAbsent else s) s
      ((List.range 256).filter fun t => lossTouches why (tileDie t)).foldl (fun s t =>
        let s := [CoreId.l, .x, .w].foldl (fun s c => match (s.coreAt t c).wait with
          | .fabric f => if f.module = m then State.fabricFaultCore { s with curTile := Fin.ofNat 256 t, curCore := c } f Code.fabricPeerAbsent else s
          | _ => s) s
        [Engine.load, .matrix, .store].foldl (fun s e => match (s.engAt t e).fabricOp with
          | some (o, f) =>
            if o.asks f m then s.opFault t e o (opRec Code.fabricPeerAbsent m 0) else s
          | none => s) s) s

end Sys2Proof.Machine
end

