-- ==== Sys2Proof/Machine/Pages.lean ====
section
/-! DEFINITION. What firmware does to page tables for MAP, UNMAP, DISCARD, EXPORT and UNEXPORT (19 R446, R491; 05 R130; 18
R415). Each answers the status its packet completes with. -/
namespace Sys2Proof.Machine

/-- What a packet's effect answers: its completion status and the DATA of its event. -/
abbrev Done := Nat × Nat × State

/-- Done. -/
def Done.ok (s : State) : Done := (Status.done, 0, s)

/-- A refusal that changes nothing. -/
def Done.no (status : Nat) (s : State) : Done := (status, 0, s)

/-! ## MAP (19 R446) -/

/-- Whether a walk for `va` meets an entry at level `want` or a leaf above it that is present: writing there would change a
present entry. -/
def presentAt (s : State) (va want : Nat) : Nat → Nat → Bool
  | lvl, table =>
    let e := s.read8 (table + 8 * levelIndex va lvl)
    if !Pte.v e then false
    else if lvl ≤ want ∨ Pte.leaf e then true
    else match lvl with
      | 0 => true
      | l + 1 => presentAt s va want l (Pte.frame e)

/-- The first addresses of the 4 KiB entries of a page of a size: sixteen for 64 KiB, else its own. -/
def entryVas (va size : Nat) : List Nat := if size = 1 then (List.range 16).map fun i => va + 0x1000 * i else [va]

/-- One page mapped: onto a frame, or left not present as a demand-zero entry. None where a table cannot be had. -/
def mapPage (s : State) (part root va size : Nat) (frame : Option Nat) (quiet rd w x : Bool) : Option State :=
  match reachEntry s part va (sizeLevel size) 3 root with
  | none => none
  | some (pa, s) =>
    match frame with
    | some f => some (writeLeaves s pa f size rd w x)
    | none => some ((List.range (entryVas va size).length).foldl (fun s i => s.writeEntry (pa + 8 * i) (demandEntry quiet rd w x size)) s)

/-- What a MAP puts in its pages. -/
inductive MapFrame where
  | given (base : Nat)
  | fresh
  | demand (quiet : Bool)
  deriving DecidableEq, Repr

/-- Pages mapped from `va` on, `n` of them; none where frames or tables run out. -/
def mapPages (s : State) (part root size : Nat) (fr : MapFrame) (rd w x : Bool) : Nat → Nat → Option State
  | 0, _ => some s
  | n + 1, va =>
    let next := va + pageBytes size
    match fr with
    | .given b => (mapPage s part root va size (some b) false rd w x).bind fun s =>
        mapPages s part root size (.given (b + pageBytes size)) rd w x n next
    | .demand q => (mapPage s part root va size none q rd w x).bind fun s => mapPages s part root size fr rd w x n next
    | .fresh =>
      match takeFrame s part (pageBytes size) with
      | none => none
      | some (b, s) => (mapPage s part root va size (some b) false rd w x).bind fun s =>
          mapPages s part root size fr rd w x n next

/-- Whether some page of a range has a present entry in the way. -/
def anyPresent (s : State) (root size : Nat) : Nat → Nat → Bool
  | 0, _ => false
  | n + 1, va => (entryVas va size).any (fun a => presentAt s a (sizeLevel size) 3 root) || anyPresent s root size n (va + pageBytes size)

/-- Whether a frame given by the host is one that firmware may map: in the partition's range, past its first 4 MiB, and no
page table. -/
def Part.usable (p : Part) (a n : Nat) : Bool :=
  decide (p.frameBase + 0x400000 ≤ a) && decide (a + n ≤ p.frameBase + p.frameLen) && !p.tableFrames.any (fun f => spansMeet a n f.1 f.2)

/-- All ones. -/
def allOnes : Nat := 2 ^ 64 - 1

/-- The flags of a MAP: bits 0, 1, 2 are Rd, W, X; 5:4 the page size; 8 DEMAND; 9 QUIET; the others are reserved. -/
def mapFlagsOk (f : Nat) : Bool := decide (f / 2 ^ 10 = 0) && decide (field f 3 1 = 0) && decide (field f 6 2 = 0) && (!bit f 9 || bit f 8)

/-- MAP. A frame that it names counts as a data frame before the first table is taken, so that no table takes it. -/
def State.mapRange (s : State) (p addr len frame flags : Nat) : Done :=
  let size := field flags 4 2
  let n := pageBytes size
  let demand := bit flags 8
  if !mapFlagsOk flags ∨ addr % n ≠ 0 ∨ len % n ≠ 0 ∨ 2 ^ 56 < addr + len then Done.no Status.badField s
  else if frame ≠ allOnes ∧ (demand ∨ frame % n ≠ 0 ∨ !(s.part p).usable frame len) then Done.no Status.badField s
  else match ownRoot s p with
    | none => Done.no Status.busy s
    | some root =>
      if anyPresent s root size (len / n) addr then Done.no Status.busy s
      else
        let fr : MapFrame := if demand then .demand (bit flags 9) else if frame = allOnes then .fresh else .given frame
        let s0 := if frame = allOnes ∨ len = 0 then s
          else s.setPart p { s.part p with dataFrames := (frame, len) :: (s.part p).dataFrames }
        match mapPages s0 p root size fr (bit flags 0) (bit flags 1) (bit flags 2) (len / n) addr with
        | none => Done.no Status.noResource s
        | some s => Done.ok s

/-! ## UNMAP and DISCARD (19 Table 19.6, R491) -/

/-- The entries of the leaf, or of the demand-zero entry, that a walk for `va` ends at, changed by `f`: all sixteen of a
64 KiB group. -/
def changeEntry (s : State) (pa lvl : Nat) (f : Nat → Nat) : State :=
  let e := s.read8 pa
  if lvl = 0 ∧ ((Pte.v e ∧ Pte.g64 e) ∨ (isDemand e ∧ field e 6 2 = 1)) then
    (List.range 16).foldl (fun s i => s.writeEntry (pa / 128 * 128 + 8 * i) (f (s.read8 (pa / 128 * 128 + 8 * i)))) s
  else s.writeEntry pa (f e)

/-- The frame and the size of a present leaf. -/
def leafSpan (e lvl : Nat) : Nat × Nat :=
  if Pte.g64 e then (Pte.frame e / 0x10000 * 0x10000, 0x10000) else (Pte.frame e, 2 ^ levelShift lvl)

/-- Every present leaf and demand-zero entry whose page meets [va, end), changed by `f`, and `g` done for each present one's
frame. -/
def eachLeaf (s : State) (root stop : Nat) (f : Nat → Nat) (g : State → Nat → Nat → State) : Nat → Nat → State
  | 0, _ => s
  | fuel + 1, va =>
    if stop ≤ va then s
    else
      let (lvl, pa) := findEntry s va 3 root
      let e := s.read8 pa
      let next := (va / 2 ^ levelShift lvl + 1) * 2 ^ levelShift lvl
      let s' :=
        if Pte.v e && Pte.leaf e then g (changeEntry s pa lvl f) (leafSpan e lvl).1 (leafSpan e lvl).2
        else if isDemand e then changeEntry s pa lvl f
        else s
      eachLeaf s' root stop f g fuel next

/-- Export translations of a partition kept by any die dropped: a leaf that names a frame changes. -/
def State.dropExports (s : State) (p : Nat) : State := s.shootDown p .exported 0 (2 ^ 56) 0xF

/-- UNMAP: every entry of the range is cleared, and every export leaf that names a frame of it; the shoot-down covers both. -/
def State.unmapRange (s : State) (p addr len : Nat) : Done :=
  match ownRoot s p with
  | none => Done.no Status.busy s
  | some root =>
    let s := eachLeaf s root (addr + len) (fun _ => 0) (fun s a n => mapExports s p a n fun _ => 0) (len / 4096 + 2) addr
    Done.ok ((s.shootDown p .own addr len 0xF).dropExports p)

/-- DISC set in a present leaf. -/
def setDisc (e : Nat) : Nat := if Pte.v e then setField e 7 1 1 else e

/-- DISCARD: DISC set in every leaf of the range, and in every export leaf that names a frame of it. -/
def State.discardRange (s : State) (p addr len : Nat) : Done :=
  match ownRoot s p with
  | none => Done.no Status.busy s
  | some root =>
    let s := eachLeaf s root (addr + len) setDisc (fun s a n => mapExports s p a n setDisc) (len / 4096 + 2) addr
    Done.ok ((s.shootDown p .own addr len 0xF).dropExports p)

/-! ## EXPORT and UNEXPORT (19 R491) -/

/-- How an EXPORT of a page ends. -/
inductive ExportRes where
  | ok (s : State)
  | busy
  | noResource
  deriving DecidableEq, Repr

/-- One 4 KiB page exported: its present leaf's frame, a demand-zero entry resolved first. -/
def exportPage (s : State) (p root xroot off va : Nat) (rd w : Bool) : ExportRes :=
  let e0 := s.read8 (findEntry s va 3 root).2
  match (if isDemand e0 then complete s p va else some s) with
  | none => .noResource
  | some s =>
    let (lvl, pa) := findEntry s va 3 root
    let e := s.read8 pa
    if !Pte.v e || !Pte.leaf e || Pte.malformed e lvl va || (rd && !Pte.rd e) || (w && !Pte.w e) then .busy
    else if presentAt s off 0 3 xroot then .busy
    else match reachEntry s p off 0 3 xroot with
      | none => .noResource
      | some (xa, s) =>
        let frame := Pte.frame e + va % 2 ^ levelShift lvl / 4096 * 4096
        .ok (s.writeEntry xa (leafEntry frame rd w false (Pte.disc e) false))

/-- Pages exported in order. -/
def exportPagesFrom (s : State) (p root xroot : Nat) (rd w : Bool) : Nat → Nat → Nat → ExportRes
  | 0, _, _ => .ok s
  | n + 1, off, va =>
    match exportPage s p root xroot off va rd w with
    | .ok s => exportPagesFrom s p root xroot rd w n (off + 4096) (va + 4096)
    | r => r

/-- EXPORT: DW4 bits 0 and 1 are Rd and W. A refusal leaves everything as it was. -/
def State.exportRange (s : State) (p off len va flags : Nat) : Done :=
  if off % 4096 ≠ 0 ∨ len % 4096 ≠ 0 ∨ va % 4096 ≠ 0 ∨ 2 ^ 46 < off + len ∨ 4 ≤ flags then Done.no Status.badField s
  else match ownRoot s p, exportRoot s p with
    | some root, some xroot =>
      (match exportPagesFrom s p root xroot (bit flags 0) (bit flags 1) (len / 4096) off va with
       | .ok s => Done.ok s
       | .busy => Done.no Status.busy s
       | .noResource => Done.no Status.noResource s)
    | _, _ => Done.no Status.busy s

/-- UNEXPORT: the export leaves of the range are cleared, and the range is shot down on every die. -/
def State.unexportRange (s : State) (p off len : Nat) : Done :=
  match exportRoot s p with
  | none => Done.no Status.busy s
  | some root =>
    Done.ok ((eachLeaf s root (off + len) (fun _ => 0) (fun s _ _ => s) (len / 4096 + 2) off).shootDown p .exported off len 0xF)

end Sys2Proof.Machine
end

