-- ==== Sys2Proof/Machine/Rings.lean ====
section
/-! DEFINITION. Submission rings, packets, and the packets of a partition's own rings (19 R440 to R444, R446, R449, R491; 20
R465). -/
namespace Sys2Proof

/-- The partition of a ring; none for the admin ring. -/
def RingId.owner : RingId → Option Nat
  | .part p _ => some p.val
  | .admin => none

/-- The number of a ring as events name it. -/
def RingId.num : RingId → Nat
  | .part _ k => k.val
  | .admin => 0

end Sys2Proof

namespace Sys2Proof.Machine

/-! ## Rings (19 R440, R441) -/

/-- A ring. -/
def State.ring (s : State) : RingId → Ring
  | .part p k => SMap.get {} (s.part p.val).rings k.val
  | .admin => s.hub.admin

/-- A ring replaced. -/
def State.setRing (s : State) (r : RingId) (x : Ring) : State :=
  match r with
  | .part p k => s.setPart p.val { s.part p.val with rings := SMap.put (s.part p.val).rings k.val x }
  | .admin => { s with hub := { s.hub with admin := x } }

/-- Whether a ring's engine takes commands: not while its partition is being reset (19 R441). -/
def State.takesCmd (s : State) (r : RingId) : Bool :=
  match r with
  | .part p _ => decide ((s.part p.val).state ≠ .resetting)
  | .admin => true

/-- A doorbell: a WPTR below the previous one, or too far past RPTR, overruns an ACTIVE ring (19 R441). It counts whether or not a link
port is up (log 93). -/
def State.doorbell (s : State) (r : RingId) (w : Nat) : State :=
  let x := s.ring r
  if x.state = .active ∧ (w < x.wptr ∨ 2 ^ x.log2 < w - x.rptr) then
    (s.setRing r { x with wptr := w, state := .overrun, readAt := none, rereads := 0 }).post r.owner
      { status := Status.ringOverrun, ring := r.num }
  else s.setRing r { x with wptr := w }

/-- RING_DOORBELL. -/
def execRingDoorbell (r : RingId) (w : Word) (s : State) : Out := .next (s.doorbell r w.toNat)

/-- CMD 1. -/
def State.ringStart (s : State) (r : RingId) : State :=
  let x := s.ring r
  if !s.takesCmd r then s
  else if x.state = .active then s.setRing r { x with cmd := 1 }
  else s.setRing r { x with cmd := 1, rptr := x.wptr, state := .active, torn := 0, rereads := 0, readAt := none }

/-- CMD 2. -/
def State.ringResume (s : State) (r : RingId) : State :=
  let x := s.ring r
  if !s.takesCmd r then s
  else if x.state = .torn then s.setRing r { x with cmd := 2, state := .active, rereads := 0, readAt := none }
  else s.setRing r { x with cmd := 2 }

/-- CMD 3: a packet that waits between re-reads is abandoned. -/
def State.ringStop (s : State) (r : RingId) : State :=
  let x := s.ring r
  if !s.takesCmd r then s
  else if x.state = .idle then s.setRing r { x with cmd := 3 }
  else s.setRing r { x with cmd := 3, state := .idle, rereads := 0, readAt := none }

/-- RING_START. -/
def execRingStart (r : RingId) (s : State) : Out := .next (s.ringStart r)
/-- RING_RESUME. -/
def execRingResume (r : RingId) (s : State) : Out := .next (s.ringResume r)
/-- RING_STOP. -/
def execRingStop (r : RingId) (s : State) : Out := .next (s.ringStop r)

/-! ## Acceptance (19 R442) -/

/-- Whether the 128 bytes read as packet `i` are intact. -/
def intact (l : List Byte) (i : Nat) : Bool :=
  decide (leNat ((l.drop 124).take 2) = i % 2 ^ 16) && decide (leNat ((l.drop 120).take 4) = crc32c (l.take 120))

/-- The packet at RPTR read in one read: its bytes, with NO_GRANT where the card refuses (19 R437). -/
def State.readPacket (s : State) (r : RingId) : List Byte × State :=
  let x := s.ring r
  let a := x.base + 128 * (x.rptr % 2 ^ x.log2)
  match s.hostRead (evSource r.owner) a 128 with
  | (l, true, s) => (l, s)
  | (l, false, s) => (l, s.postNoGrant r.owner a)

/-- An intact packet accepted: RPTR moves past it. -/
def State.acceptPacket (s : State) (r : RingId) (l : List Byte) : State :=
  let x := s.ring r
  s.setRing r { x with rptr := x.rptr + 1, rereads := 0, readAt := none
                       accepted := x.accepted ++ [{ index := x.rptr, dws := (dwords l 16).map (BitVec.ofNat 64) }] }

/-- Whether a ring's engine reads packets: while the ring is ACTIVE (19 R441); the admin ring's from stage 7 on (19 R458). -/
def State.ringAccepts (s : State) (r : RingId) : Bool :=
  decide ((s.ring r).state = .active) && (match r with
    | .admin => decide (7 ≤ s.hub.stage)
    | .part _ _ => true)

/-- PACKET_ACCEPT: the packet at RPTR is read over the link; one that is not intact is to be read again after 1,000 ticks. -/
def execPacketAccept (r : RingId) (s : State) : Out :=
  .next <|
    let x := s.ring r
    if s.ringAccepts r ∧ s.linkUp ∧ x.rptr < x.wptr ∧ x.readAt = none then
      let (l, s) := s.readPacket r
      if intact l x.rptr then s.acceptPacket r l
      else s.setRing r { s.ring r with rereads := 0, readAt := some (s.seiche + 1000) }
    else s

/-- PACKET_REREAD: a re-read falls due. After the eighth that fails the ring is TORN (19 R442). -/
def execPacketReread (r : RingId) (s : State) : Out :=
  .next <|
    let x := s.ring r
    match x.readAt with
    | none => s
    | some due =>
      if s.ringAccepts r ∧ s.linkUp ∧ due ≤ s.seiche then
        let (l, s) := s.readPacket r
        let x := s.ring r
        let s := s.setRing r { x with torn := min (x.torn + 1) 0xFFFF, rereads := x.rereads + 1 }
        if intact l x.rptr then s.acceptPacket r l
        else if 8 ≤ x.rereads + 1 then
          (s.setRing r { s.ring r with state := .torn, readAt := none, rereads := 0 }).post r.owner
            { status := Status.packetTorn, ring := r.num, addr := x.rptr }
        else s.setRing r { s.ring r with readAt := some (s.seiche + 1000 * 2 ^ (x.rereads + 1)) }
      else s

/-! ## Starting packets (19 R443, Table 19.5) -/

/-- A doubleword of a packet. -/
def Packet.dw (k : Packet) (i : Nat) : Nat := (k.dws.getD i 0).toNat
def Packet.opcode (k : Packet) : Nat := field (k.dw 0) 0 8
def Packet.notify (k : Packet) : Bool := bit (k.dw 0) 8
def Packet.fence (k : Packet) : Bool := bit (k.dw 0) 9
def Packet.tag (k : Packet) : Nat := field (k.dw 0) 32 32

/-- How many operands an opcode takes on a partition ring, or on the admin ring; none where it is not valid there. -/
def operandCount (admin : Bool) (op : Nat) : Option Nat :=
  if admin then [(0x40, 5), (0x41, 1), (0x42, 1), (0x43, 2)].lookup op
  else [(0x01, 0), (0x02, 1), (0x03, 1), (0x04, 1), (0x05, 1), (0x06, 4), (0x07, 2), (0x08, 2), (0x09, 3), (0x0A, 1), (0x0B, 1),
        (0x0C, 4), (0x0D, 2)].lookup op

/-- Whether a reserved bit of a packet is set. -/
def Packet.reservedSet (k : Packet) : Bool := decide (field (k.dw 0) 10 22 ≠ 0) || decide (field (k.dw 15) 48 16 ≠ 0)

/-- Whether an operand that the opcode does not use is not zero. -/
def Packet.extraSet (k : Packet) (n : Nat) : Bool := (List.range 14).any fun i => decide (n ≤ i) && decide (k.dw (i + 1) ≠ 0)

/-- The completion event of a packet that asks for one (19 R447). -/
def State.notifyDone (s : State) (r : RingId) (k : Packet) (status data : Nat) : State :=
  if k.notify then s.post r.owner { status := status, ring := r.num, tag := k.tag, addr := k.dw 1, data := data } else s

/-- Whether a started packet of a ring waits: a SUBMIT_NODE while the pool is full (19 R443). -/
def State.packetWaits (s : State) (r : RingId) : Bool :=
  match r with
  | .part p _ => (s.ring r).open_.any (fun k => decide (k.opcode = 0x02)) && !(s.part p.val).sched.room
  | .admin => false

/-- Whether an enabled breakpoint matches a packet of a ring (20 R465). -/
def Debug.matchesPacket (d : Debug) (ring : Nat) (k : Packet) : Bool :=
  d.bps.any fun b => b.2.en && decide (b.2.kind = 0) && decide (b.2.ring = ring) && (b.2.anyop || decide (b.2.opcode = k.opcode))

/-- Whether a packet that would start is held by a breakpoint. -/
def State.breaksAt (s : State) (r : RingId) (k : Packet) : Bool :=
  match r with
  | .part p n => !(s.ring r).passed && (s.part p.val).dbg.matchesPacket n.val k
  | .admin => false

/-- PACKET_START: the oldest accepted packet starts once the one before it has started and does not wait, and, with FENCE,
once every earlier one has completed. A breakpoint holds it (20 R465); a reserved bit, an opcode or an operand that is not
valid completes it at once. -/
def execPacketStart (r : RingId) (s : State) : Out :=
  .next <|
    let x := s.ring r
    match x.accepted with
    | [] => s
    | k :: rest =>
      if x.held || s.packetWaits r || (k.fence && !x.open_.isEmpty) then s
      else if s.breaksAt r k then
        match r with
        | .part p n => (s.setRing r { x with held := true }).addHit p.val { kind := 1, ring := n.val, addr := k.index }
        | .admin => s
      else
        let s := s.setRing r { x with accepted := rest, passed := false }
        if k.reservedSet then s.notifyDone r k Status.badField 0
        else match operandCount (decide (r = .admin)) k.opcode with
          | none => s.notifyDone r k Status.badOpcode 0
          | some n =>
            if k.extraSet n then s.notifyDone r k Status.badField 0
            else s.setRing r { s.ring r with open_ := x.open_ ++ [k] }

/-- The started packet that an effect is of: its opcode, its context and its operands agree. -/
def State.openPacket (s : State) (c : PktCtx) (op : Nat) (ops : List Word) : Option Packet :=
  (s.ring c.ring).open_.find? fun k =>
    decide (k.opcode = op) && decide (k.notify = c.notify) && decide (k.tag = c.tag.toNat) &&
    decide ((k.dws.drop 1).take ops.length = ops)

/-- A packet completes. -/
def State.completePacket (s : State) (c : PktCtx) (k : Packet) (d : Done) : State :=
  let t := d.2.2.setRing c.ring { d.2.2.ring c.ring with open_ := (s.ring c.ring).open_.erase k }
  t.notifyDone c.ring k d.1 d.2.1

/-- The effect of a started packet of a partition's ring; `none` where it has to wait. -/
def runPacket (p : PartId) (c : PktCtx) (op : Nat) (ops : List Word) (f : State → Option Done) (s : State) : Out :=
  .next <|
    if c.ring.owner = some p.val then
      match s.openPacket c op ops with
      | none => s
      | some k => match f s with
        | none => s
        | some d => s.completePacket c k d
    else s

/-! ## The packets (19 Table 19.6) -/

/-- NOP. -/
def execNop (p : PartId) (k : PktCtx) (s : State) : Out := runPacket p k 0x01 [] (fun s => some (Done.ok s)) s

/-- SUBMIT_NODE: it completes when the node enters the pool, or ends without entering it; it waits while the pool is full. -/
def submitNodePacket (p a : Nat) (s : State) : Option Done :=
  if a % 128 ≠ 0 ∨ 2 ^ 56 ≤ a then some (Done.no Status.badField s)
  else if (s.findNode p a).isSome then some (Done.no Status.busy s)
  else if !(s.part p).sched.room then none
  else some (Done.ok (s.submit p a))

/-- SUBMIT_NODE. -/
def execSubmitNode (p : PartId) (k : PktCtx) (node : Word) (s : State) : Out :=
  runPacket p k 0x02 [node] (submitNodePacket p.val node.toNat) s

/-- SUBMIT_GRAPH: BAD_FIELD where the record cannot be read or holds no node, BUSY where it runs (17 R380). -/
def submitGraphPacket (p a : Nat) (s : State) : Option Done :=
  if a % 64 ≠ 0 ∨ 2 ^ 56 ≤ a then some (Done.no Status.badField s)
  else match s.schedRead p a 64 with
    | (.error c, s) => some (Status.badField, c, s)
    | (.ok l, s) =>
      let dw0 := leNat (l.take 8)
      let dw1 := leNat ((l.drop 8).take 8)
      let g : Graph := { addr := a, base := field dw0 7 49 * 128, count := field dw1 0 16 }
      if g.count = 0 then some (Done.no Status.badField s)
      else if field dw1 16 4 = 1 ∨ (s.part p).sched.graphs.any (fun h => h.addr == a) ∨
          (List.range g.count).any (fun i => (s.findNode p (g.base + 128 * i)).isSome) then some (Done.no Status.busy s)
      else some (Done.ok (s.submitGraph p g))

/-- SUBMIT_GRAPH. -/
def execSubmitGraph (p : PartId) (k : PktCtx) (graph : Word) (s : State) : Out :=
  runPacket p k 0x03 [graph] (submitGraphPacket p.val graph.toNat) s

/-- CANCEL_NODE: a host cancel; one that names no live node has no effect. -/
def execCancelNode (p : PartId) (k : PktCtx) (node : Word) (s : State) : Out :=
  runPacket p k 0x04 [node] (fun s => some (Done.ok (match s.findNode p.val node.toNat with
    | some n => s.hostCancel p.val n
    | none => s))) s

/-- ABORT_GRAPH: a host cancel of every node of the graph that is not terminal, in index order; GSTATE 4 on completion. -/
def State.abortGraph (s : State) (p a : Nat) : State :=
  let x := (s.part p).sched
  match x.graphs.find? (·.addr == a) with
  | none => s
  | some g =>
    let s := s.setSched p { x with graphs := x.graphs.map fun h => if h.addr = a then { h with aborted := true } else h }
    (List.range g.count).foldl (fun s i => match s.findNode p (g.base + 128 * i) with
      | some n => s.hostCancel p n
      | none => s) s

/-- ABORT_GRAPH. -/
def execAbortGraph (p : PartId) (k : PktCtx) (graph : Word) (s : State) : Out :=
  runPacket p k 0x05 [graph] (fun s => some (Done.ok (s.abortGraph p.val graph.toNat))) s

/-- MAP. -/
def execMap (p : PartId) (k : PktCtx) (addr len frame flags : Word) (s : State) : Out :=
  runPacket p k 0x06 [addr, len, frame, flags]
    (fun s => some (s.mapRange p.val addr.toNat len.toNat frame.toNat flags.toNat)) s

/-- UNMAP. -/
def execUnmap (p : PartId) (k : PktCtx) (addr len : Word) (s : State) : Out :=
  runPacket p k 0x07 [addr, len] (fun s => some (s.unmapRange p.val addr.toNat len.toNat)) s

/-- DISCARD. -/
def execDiscard (p : PartId) (k : PktCtx) (addr len : Word) (s : State) : Out :=
  runPacket p k 0x08 [addr, len] (fun s => some (s.discardRange p.val addr.toNat len.toNat)) s

/-- EXPORT. -/
def execExportPages (p : PartId) (k : PktCtx) (offset len addr flags : Word) (s : State) : Out :=
  runPacket p k 0x0C [offset, len, addr, flags]
    (fun s => some (s.exportRange p.val offset.toNat len.toNat addr.toNat flags.toNat)) s

/-- UNEXPORT. -/
def execUnexportPages (p : PartId) (k : PktCtx) (offset len : Word) (s : State) : Out :=
  runPacket p k 0x0D [offset, len] (fun s => some (s.unexportRange p.val offset.toNat len.toNat)) s

/-! ### Address groups (19 R449) -/

/-- GROUP_SET: its checks come before BUSY. Its list is read over the link, for which it waits. -/
def groupSetPacket (p group g list : Nat) (s : State) : Option Done :=
  if 4095 < group ∨ g < 2 ∨ 64 < g then some (Done.no Status.badField s)
  else if !s.linkUp then none
  else some <|
    let (l, ok, s) := s.hostRead p list (2 * g)
    let s := if ok then s else s.postNoGrant (some p) list
    let ms := halves l
    if ms.any (1023 < ·) then Done.no Status.badField s
    else
      let x := s.group group
      if x.gm1 ≠ 0 ∧ x.bound &&& (2 ^ 16 - 1 - 2 ^ p) ≠ 0 then Done.no Status.busy s
      else Done.ok (s.setGroup group { gm1 := g - 1, bound := if x.gm1 = 0 then 0 else x.bound, bits := memberBits ms })

/-- GROUP_SET. -/
def execGroupSet (p : PartId) (k : PktCtx) (group g list : Word) (s : State) : Out :=
  runPacket p k 0x09 [group, g, list] (groupSetPacket p.val group.toNat g.toNat list.toNat) s

/-- GROUP_BIND: an unset group, or a number above 4,095, is BAD_FIELD. -/
def execGroupBind (p : PartId) (k : PktCtx) (group : Word) (s : State) : Out :=
  runPacket p k 0x0A [group] (fun s =>
    let g := group.toNat
    some (if 4095 < g ∨ (s.group g).gm1 = 0 then Done.no Status.badField s
          else Done.ok (s.setGroup g { s.group g with bound := (s.group g).bound ||| 2 ^ p.val }))) s

/-- GROUP_UNBIND. -/
def execGroupUnbind (p : PartId) (k : PktCtx) (group : Word) (s : State) : Out :=
  runPacket p k 0x0B [group] (fun s =>
    let g := group.toNat
    some (if 4095 < g then Done.no Status.badField s
          else if (s.group g).gm1 = 0 then Done.ok s
          else Done.ok (s.setGroup g { s.group g with bound := (s.group g).bound &&& (2 ^ 16 - 1 - 2 ^ p.val) }))) s

end Sys2Proof.Machine
end

