-- ==== Sys2Proof/Machine/Admin.lean ====
section
/-! DEFINITION. The packets of the admin ring: creation, reset and removal of partitions, and signed images (19 R450 to R454,
R460 to R462). -/
namespace Sys2Proof.Machine

/-- The effect of a started packet of the admin ring, from stage 7 on (19 R458). The effect says whether the packet
completes; one that does not stays started and is to be looked at again. -/
def runAdmin (c : PktCtx) (op : Nat) (ops : List Word) (f : Packet → State → Option Done × State) (s : State) : Out :=
  .next <|
    if c.ring = .admin ∧ 7 ≤ s.hub.stage then
      match s.openPacket c op ops with
      | none => s
      | some k => match f k s with
        | (none, s) => s
        | (some d, s) => s.completePacket c k d
    else s

/-- An effect that completes. -/
def finished (d : Done) : Option Done × State := (some d, d.2.2)

/-! ## Measurements (19 R462) -/

/-- A measurement register. -/
def State.measure (s : State) (i : Nat) : BitVec 384 := SMap.get 0 s.hub.meas i

/-- MEAS := SHA-384(MEAS ‖ D). -/
def State.extend (s : State) (i : Nat) (digest : List Byte) : State :=
  let v := BitVec.ofNat 384 (leNat (sha sha384 (leBytes (s.measure i).toNat 48 ++ digest)))
  { s with hub := { s.hub with meas := SMap.put s.hub.meas i v } }

/-! ## PART_CREATE (19 R451) -/

/-- The four dies with a function of a partition's translation registers applied. -/
def State.mapXlt (s : State) (p : Nat) (f : Xlt → Xlt) : State :=
  (List.range 4).foldl (fun s d => s.setDie d { s.die d with xlt := SMap.put (s.die d).xlt p (f (SMap.get {} (s.die d).xlt p)) }) s

/-- Whether the operands of PART_CREATE are outside their fields, or the range is not 2 MiB aligned, not in HBM, or too small
for its two level-3 tables. -/
def createBadField (p clusters base len tag : Nat) : Bool :=
  decide (15 < p) || decide (2 ^ 32 ≤ clusters) || decide (2 ^ 16 ≤ tag) || decide (base % 0x200000 ≠ 0) || decide (len % 0x200000 ≠ 0) ||
  decide (hbmEnd < base + len) || decide (len < 0x400000)

/-- Whether the partition exists, a cluster is owned, or the range meets another's. -/
def State.createBusy (s : State) (p clusters base len : Nat) : Bool :=
  decide ((s.part p).state ≠ .absent) ||
  (List.range 16).any fun q =>
    decide ((s.part q).clusters.toNat &&& clusters ≠ 0) || spansMeet base len (s.part q).frameBase (s.part q).frameLen

/-- The six actions of PART_CREATE. -/
def State.createPart (s : State) (p clusters base len tag : Nat) (dws : List Word) : State :=
  let s := s.setPart p { state := .creating, clusters := BitVec.ofNat 32 clusters, frameBase := base, frameLen := len, tag := tag }
  let s := { s with mem := s.mem.zero base 0x400000, memBad := clearGranules s.memBad base 0x400000 }
  let s := s.mapXlt p fun _ =>
    { en := true, root := base / 2 ^ 21, xen := true, xroot := (base + 0x200000) / 2 ^ 21, tag := tag }
  let s := s.extend 3 (sha sha384 (dws.flatMap fun v => leBytes v.toNat 8))
  s.setPart p { s.part p with state := .active }

/-- PART_CREATE: the digest is of packet bytes 8 to 47, which are DW1 to DW5. -/
def execPartCreate (k : PktCtx) (p clusters base len tag : Word) (s : State) : Out :=
  runAdmin k 0x40 [p, clusters, base, len, tag] (fun _ s => finished <|
    if createBadField p.toNat clusters.toNat base.toNat len.toNat tag.toNat then Done.no Status.badField s
    else if s.createBusy p.toNat clusters.toNat base.toNat len.toNat then Done.no Status.busy s
    else Done.ok (s.createPart p.toNat clusters.toNat base.toNat len.toNat tag.toNat [p, clusters, base, len, tag])) s

/-! ## PART_RESET (19 R453, Table 19.10) -/

/-- Every ring of a partition as a function of it. -/
def Part.mapRings (x : Part) (f : Ring → Ring) : Part :=
  { x with rings := (List.range 16).map fun k => (k, f (SMap.get {} x.rings k)) }

/-- A ring stopped; the packets accepted and not started are dropped (step 1), and with them a SUBMIT_NODE that waits for room in the pool
(19 R443). A packet that has started goes on to its end (log 43). -/
def Ring.stopped (r : Ring) (room : Bool) : Ring :=
  { r with state := .stopped, accepted := [], open_ := r.open_.filter fun k => room || decide (k.opcode ≠ 0x02), held := false, passed := false, readAt := none, rereads := 0 }

/-- Step 3: every node of a partition that is not terminal is cancelled as by a host cancel. -/
def State.cancelNodes (s : State) (p : Nat) : State :=
  ((s.part p).sched.nodes.map (·.addr)).foldl (fun s a => match s.findNode p a with
    | some n => s.hostCancel p n
    | none => s) s

/-- Steps 1 to 3: the rings stop, exports are off, every node that is not terminal is cancelled. -/
def State.resetBegin (s : State) (p index : Nat) : State :=
  let x := (s.part p).mapRings fun r => r.stopped (s.part p).sched.room
  let s := s.setPart p { x with state := .resetting, resetter := some index, dbg := { x.dbg with hits := [] } }
  (s.mapXlt p fun x => { x with xen := false }).cancelNodes p

/-- Whether step 4 is over: every node is terminal with its walk done, no tile is held, nothing is on its way, and no packet of the rings
is under way (log 43). -/
def State.resetDone (s : State) (p : Nat) : Bool :=
  let x := (s.part p).sched
  x.nodes.all (fun n => n.state.terminal) && x.walks.isEmpty &&
  s.tiles.all (fun t => !(match t.2.life.seat with
    | some k => decide (k.part = p)
    | none => false)) &&
  (s.posted.all fun w => decide (w.part ≠ p)) && (s.part p).rings.all fun r => r.2.open_.isEmpty

/-- Steps 5 to 8. -/
def State.resetEnd (s : State) (p : Nat) : State :=
  let x := (s.part p).mapRings fun r => { r with state := .idle }
  let s := s.setPart p { x with
    state := .active, resetter := none, pub := [], regions := [], pubver := 0
    sched := { x.sched with nodes := [], waiting := [], walks := [], graphs := [], headSince := none, backfill := true
                            heldFor := [] } }
  let groups : SMap Group := s.hub.groups.map fun (g, x) => (g, { x with bound := x.bound &&& (2 ^ 16 - 1 - 2 ^ p) })
  let dies : SMap Die := s.dies.map fun (d, x) => (d, { x with kept := x.kept.filter fun k => decide (k.part ≠ p) })
  let s := { s with hub := { s.hub with groups := groups }, dies := dies }
  s.mapXlt p fun x => { x with xen := true }

/-- PART_RESET as far as it can go: it begins, waits through step 4, in which a node that a started packet still submits is cancelled
too, ends. -/
def State.resetPart (s : State) (p index : Nat) : Option Done × State :=
  if 15 < p then finished (Done.no Status.badField s)
  else match (s.part p).state with
    | .active => (none, s.resetBegin p index)
    | .resetting =>
      if (s.part p).resetter ≠ some index then finished (Done.no Status.busy s)
      else if s.resetDone p then finished (Done.ok (s.resetEnd p)) else (none, s.cancelNodes p)
    | _ => finished (Done.no Status.busy s)

/-- PART_RESET. -/
def execPartReset (k : PktCtx) (p : Word) (s : State) : Out :=
  runAdmin k 0x41 [p] (fun q s => s.resetPart p.toNat q.index) s

/-- What PART_DESTROY does after the reset: both roots are cleared, the clusters and the frames go back. -/
def State.destroyPart (s : State) (p : Nat) : State :=
  let s := s.mapXlt p fun x => { tag := x.tag }
  s.setPart p { s.part p with
    state := .absent, clusters := 0, frameBase := 0, frameLen := 0, dataFrames := [], tableFrames := [] }

/-- PART_DESTROY (19 R454). -/
def execPartDestroy (k : PktCtx) (p : Word) (s : State) : Out :=
  runAdmin k 0x42 [p] (fun q s => match s.resetPart p.toNat q.index with
    | (some (st, d, s'), s) => finished (if st = Status.done then Done.ok (s'.destroyPart p.toNat) else (st, d, s))
    | r => r) s

/-! ## LOAD_IMAGE (19 R460 to R462) -/

/-- An image accepted: MEAS2 is extended with its digest; one of fabric-port parameters lets stage 8 begin (19 Table 19.11). -/
def State.acceptImage (s : State) (l : List Byte) : State :=
  let s := s.extend 2 (sha sha384 l)
  { s with hub := { s.hub with imageLoaded := s.hub.imageLoaded || Config.fabricImage l } }

/-- LOAD_IMAGE: firmware reads the image through a grant of its own; it is used only where it verifies. -/
def execLoadImage (k : PktCtx) (addr len : Word) (s : State) : Out :=
  runAdmin k 0x43 [addr, len] (fun _ s => if !s.linkUp then (none, s) else finished <|
    let (l, ok, s) := s.hostRead firmwareSource addr.toNat len.toNat
    let s := if ok then s else s.postNoGrant none addr.toNat
    if ok && Config.imageVerifies l then Done.ok (s.acceptImage l)
    else Done.no Status.authFailed { s with hub := { s.hub with fails := min (s.hub.fails + 1) 0xFFFF } }) s

end Sys2Proof.Machine
end

