-- ==== Sys2Proof/Machine/Alu.lean ====
section
/-! DEFINITION. Integer arithmetic, logic, immediates and bit fields (09 R203 to R208): each reads its sources, writes gd
and goes on at the next word. -/
namespace Sys2Proof.Machine

/-- A register-to-register instruction of two sources (09 R203). -/
def alu2 (f : Word → Word → Word) (gd ga gb : Reg) (s : State) : Out :=
  writeResult [ga, gb] gd 4 (fun s => f (s.g ga) (s.g gb)) s

/-- An instruction of one source register (09 R203, R206, R208). -/
def alu1 (f : Word → Word) (gd ga : Reg) (s : State) : Out :=
  writeResult [ga] gd 4 (fun s => f (s.g ga)) s

/-! ## Register to register (09 Table 9.1) -/

/-- add: a + b. -/
def execAdd (gd ga gb : Reg) (s : State) : Out := alu2 (fun a b => a + b) gd ga gb s
/-- sub: a - b. -/
def execSub (gd ga gb : Reg) (s : State) : Out := alu2 (fun a b => a - b) gd ga gb s
/-- mul: the low 64 bits of a × b. -/
def execMul (gd ga gb : Reg) (s : State) : Out := alu2 (fun a b => a * b) gd ga gb s
/-- mulh: the high 64 bits of S(a) × S(b). -/
def execMulh (gd ga gb : Reg) (s : State) : Out := alu2 mulHighS gd ga gb s
/-- mulhn: the high 64 bits of U(a) × U(b). -/
def execMulhn (gd ga gb : Reg) (s : State) : Out := alu2 mulHighU gd ga gb s
/-- div (09 R204). -/
def execDiv (gd ga gb : Reg) (s : State) : Out := alu2 divS gd ga gb s
/-- divn (09 R204). -/
def execDivn (gd ga gb : Reg) (s : State) : Out := alu2 divU gd ga gb s
/-- rem (09 R204). -/
def execRem (gd ga gb : Reg) (s : State) : Out := alu2 remS gd ga gb s
/-- remn (09 R204). -/
def execRemn (gd ga gb : Reg) (s : State) : Out := alu2 remU gd ga gb s
/-- and. -/
def execAnd (gd ga gb : Reg) (s : State) : Out := alu2 (fun a b => a &&& b) gd ga gb s
/-- or. -/
def execOr (gd ga gb : Reg) (s : State) : Out := alu2 (fun a b => a ||| b) gd ga gb s
/-- xor. -/
def execXor (gd ga gb : Reg) (s : State) : Out := alu2 (fun a b => a ^^^ b) gd ga gb s
/-- andn: a AND NOT b. -/
def execAndn (gd ga gb : Reg) (s : State) : Out := alu2 (fun a b => a &&& ~~~b) gd ga gb s
/-- shl. -/
def execShl (gd ga gb : Reg) (s : State) : Out := alu2 (fun a b => shiftL a (shiftCount b)) gd ga gb s
/-- shr. -/
def execShr (gd ga gb : Reg) (s : State) : Out := alu2 (fun a b => shiftR a (shiftCount b)) gd ga gb s
/-- sra. -/
def execSra (gd ga gb : Reg) (s : State) : Out := alu2 (fun a b => shiftRA a (shiftCount b)) gd ga gb s
/-- rotl. -/
def execRotl (gd ga gb : Reg) (s : State) : Out := alu2 (fun a b => rotL a (shiftCount b)) gd ga gb s
/-- min: the smaller of S(a) and S(b). -/
def execMin (gd ga gb : Reg) (s : State) : Out := alu2 (fun a b => if ltS b a then b else a) gd ga gb s
/-- max: the larger of S(a) and S(b). -/
def execMax (gd ga gb : Reg) (s : State) : Out := alu2 (fun a b => if ltS a b then b else a) gd ga gb s
/-- minn: the smaller of U(a) and U(b). -/
def execMinn (gd ga gb : Reg) (s : State) : Out := alu2 (fun a b => if ltU b a then b else a) gd ga gb s
/-- maxn: the larger of U(a) and U(b). -/
def execMaxn (gd ga gb : Reg) (s : State) : Out := alu2 (fun a b => if ltU a b then b else a) gd ga gb s
/-- slt. -/
def execSlt (gd ga gb : Reg) (s : State) : Out := alu2 (fun a b => boolWord (ltS a b)) gd ga gb s
/-- sltn. -/
def execSltn (gd ga gb : Reg) (s : State) : Out := alu2 (fun a b => boolWord (ltU a b)) gd ga gb s
/-- seq. -/
def execSeq (gd ga gb : Reg) (s : State) : Out := alu2 (fun a b => boolWord (a == b)) gd ga gb s
/-- clz: 64 when a is 0. -/
def execClz (gd ga : Reg) (s : State) : Out := alu1 (fun a => BitVec.ofNat 64 (highZeros a.toNat 64)) gd ga s
/-- ctz: 64 when a is 0. -/
def execCtz (gd ga : Reg) (s : State) : Out := alu1 (fun a => BitVec.ofNat 64 (lowZeros a.toNat 64 0)) gd ga s
/-- popc. -/
def execPopc (gd ga : Reg) (s : State) : Out := alu1 (fun a => BitVec.ofNat 64 (popCount a.toNat 64)) gd ga s

/-! ## Immediates (09 Table 9.2, R207), and madd (09 R205) -/

/-- addi: the immediate is sign-extended. -/
def execAddi (gd ga : Reg) (imm : BitVec 16) (s : State) : Out := alu1 (fun a => a + imm.signExtend 64) gd ga s
/-- andi: the immediate is zero-extended. -/
def execAndi (gd ga : Reg) (imm : BitVec 16) (s : State) : Out := alu1 (fun a => a &&& imm.zeroExtend 64) gd ga s
/-- ori. -/
def execOri (gd ga : Reg) (imm : BitVec 16) (s : State) : Out := alu1 (fun a => a ||| imm.zeroExtend 64) gd ga s
/-- xori. -/
def execXori (gd ga : Reg) (imm : BitVec 16) (s : State) : Out := alu1 (fun a => a ^^^ imm.zeroExtend 64) gd ga s
/-- shli. -/
def execShli (gd ga : Reg) (imm : BitVec 6) (s : State) : Out := alu1 (fun a => shiftL a imm.toNat) gd ga s
/-- shri. -/
def execShri (gd ga : Reg) (imm : BitVec 6) (s : State) : Out := alu1 (fun a => shiftR a imm.toNat) gd ga s
/-- srai. -/
def execSrai (gd ga : Reg) (imm : BitVec 6) (s : State) : Out := alu1 (fun a => shiftRA a imm.toNat) gd ga s
/-- slti. -/
def execSlti (gd ga : Reg) (imm : BitVec 16) (s : State) : Out :=
  alu1 (fun a => boolWord (ltS a (imm.signExtend 64))) gd ga s
/-- li: SExt(IMM, 21). -/
def execLi (gd : Reg) (imm : BitVec 21) (s : State) : Out := writeResult [] gd 4 (fun _ => imm.signExtend 64) s
/-- lih: d × 2^21 + IMM modulo 2^64. -/
def execLih (gd : Reg) (imm : BitVec 21) (s : State) : Out :=
  writeResult [gd] gd 4 (fun s => s.g gd * BitVec.ofNat 64 (2 ^ 21) + imm.zeroExtend 64) s
/-- madd: a × b + c. -/
def execMadd (gd ga gb gc : Reg) (s : State) : Out :=
  writeResult [ga, gb, gc] gd 4 (fun s => s.g ga * s.g gb + s.g gc) s

/-! ## Bit fields (09 Table 9.3): LEN is one more than its field -/

/-- bext. -/
def execBext (gd ga : Reg) (pos lenM1 : BitVec 6) (s : State) : Out :=
  alu1 (fun a => zeroField a pos.toNat (lenM1.toNat + 1)) gd ga s
/-- bins: reads gd as a source. -/
def execBins (gd ga : Reg) (pos lenM1 : BitVec 6) (s : State) : Out :=
  writeResult [gd, ga] gd 4 (fun s => insertField (s.g gd) (s.g ga) pos.toNat (lenM1.toNat + 1)) s
/-- sext. -/
def execSext (gd ga : Reg) (lenM1 : BitVec 6) (s : State) : Out := alu1 (fun a => signField a (lenM1.toNat + 1)) gd ga s
/-- zext. -/
def execZext (gd ga : Reg) (lenM1 : BitVec 6) (s : State) : Out := alu1 (fun a => zeroField a 0 (lenM1.toNat + 1)) gd ga s

end Sys2Proof.Machine
end

