-- ==== Sys2Proof/Machine/Clock.lean ====
section
/-! DEFINITION. The seiche counter, the counters of a tile, soft errors and their scrubber, bank retirement, the power clamp, the
link ports, the module number, and bring-up (01 R23, R24; 18 R429 to R433; 19 R439, R457 to R459; 20 R474, R475). -/
namespace Sys2Proof.Machine

/-! ## Ticks and counted cycles (01 R24, 20 R474, R475) -/

/-- The scrubber's read of the word at `w` of a tile: an error that lay latent there is found and counted (18 R429, R432). -/
def Tile.scrubWord (x : Tile) (w : Nat) : Tile := if x.mem.scratchLatent.contains w then x.foundWord w else x

/-- The end of a scrub period: every word that the scrubber has not read in it is read (18 R432). -/
def Tile.scrubRest (x : Tile) : Tile :=
  let x := (x.mem.scratchLatent.filter fun w => !x.prv.scrubbed.contains w).foldl Tile.scrubWord x
  { x with prv := { x.prv with scrubbed := [] } }

/-- The scrubber's period in ticks (18 R432). -/
def scrubPeriod : Nat := 2 ^ 24

/-- Whether the trace of a tile runs: it holds a node that the debugger has not stopped, and its clock is not gated. -/
def State.traceRuns (s : State) (t : Nat) : Bool :=
  s.traceOn t && !(s.tile t).life.gatedClock && !(s.nodeOf t).stopped &&
  ((s.tile t).moves || decide ((s.tile t).life.phase = .frozen))

/-- Whether an MK of the interval is owed in a tile's region: MKINT ticks have passed since its last MK, and none waits to be appended (20
R478). One that is owed while records wait for room waits with them, and makes every unit of the tile wait (20 R482). -/
def State.markOwed (s : State) (t : Nat) : Bool :=
  s.traceRuns t && !(s.tile t).trace.markWaits && s.markDue t

/-- The end of a tick in a tile's region: the MK that is owed joins the tick's records, an MK among them flushes the outcomes that the cores
hold, and they are appended. -/
def State.traceTick (s : State) (t : Nat) : State :=
  let s := if s.markOwed t then s.traceMark t else s
  let x := (s.tile t).trace
  (if x.fresh.any TraceRec.isMark || x.leads s.seiche x.fresh then s.flushBrs t else s).traceSettle t

/-- The end of a tick in the trace of every tile. -/
def State.writeMarks (s : State) : State :=
  if s.parts.any (·.2.dbg.tren) then
    ((s.tiles.map (·.1)).filter fun t => s.markOwed t || !(s.tile t).trace.fresh.isEmpty).foldl State.traceTick s
  else s

/-- What must be done before the next tick: stamped operations whose tick has passed start or miss, the records of the tick and the MKs
that are owed are appended, and a scrub period that is over ends (12 R295, 20 R478, 18 R432). -/
def State.tickWork (s : State) : State :=
  let s := s.expireLate.writeMarks
  if (s.seiche + 1) % scrubPeriod = 0 then { s with tiles := s.tiles.map fun x => (x.1, x.2.scrubRest) } else s

/-- SEICHE_TICK. -/
def execSeicheTick (s : State) : Out := .next { s.tickWork with seiche := s.seiche + 1 }

/-- Whether the cycle of a core may go to a leaf (20 Table 20.4): RET_SCALAR in the cycle in which its `exit` or `yield` completes; 9
where its stream has ended or stopped; the wait leaf of what it is blocked in, EXEC where Table 20.4 names none (`barv`, `barset`, a store
that waits for the fabric); for firmware, that of the unit under way (`unitWaits`), or FETCH; the leaf
of the unit that it completed in the cycle under way; else its next unit is fetched, waits for the value of a load or takes its time, and
a core that its trace stalls does the last: the wait counts as EXEC (20 R482). -/
def Core.mayLeaf (k : Core) (stall : Bool) (leaf : Nat) : Bool :=
  if k.ended then leaf == 0
  else
   match k.run with
   | .running =>
     match k.wait with
     | .none => match k.did with
       | some n => leaf == n
       | none => ((leaf == 3 || leaf == 7) && !stall) || leaf == 8
     | .pop _ => leaf == 4
     | .push _ => leaf == 4
     | .gangPush _ _ _ => leaf == 4
     | .barrierReq _ waits => leaf == (if waits then 5 else 8)
     | .barw _ _ => leaf == 5
     | .barws _ _ _ => leaf == 5
     | .sigwait _ _ _ _ _ => leaf == 5
     | .cell _ _ => leaf == 5
     | .launch => leaf == 5
     | .publish => leaf == 5
     | .opwait => leaf == 6
     | .exitOps => leaf == 6
     | .engineRoom _ _ => leaf == 6
     | .bufferSpace => leaf == 7
     | .fabric f => leaf == (match f.what with
       | .store _ => 8
       | _ => 7)
     | .hostRead _ => leaf == 7
     | .firmware f _ =>
       if f.access = 2 then leaf == 3 else leaf == (if k.after = .none then k.waits else 5)
   | _ => leaf == 9

/-- Whether the cycle of an engine may go to a leaf (20 Table 20.4): ITER in the cycle in which it runs an iteration, sends a request or its
operation ends; else as its first operation that is not terminal stands, `starved` where that is a chained one without its row or without
room east. -/
def Eng.mayLeaf (e : Eng) (starved : Op → Bool) (leaf : Nat) : Bool :=
  if e.ended then leaf == 0
  else match e.ops.find? fun o => decide (o.state ≠ .faulted) with
   | none => leaf == 5
   | some o =>
     if o.token.isSome then leaf == 4
     else if o.state = .queued ∨ o.atStart then leaf == 1
     else if o.wait ≠ .none then leaf == 2
     else if starved o then leaf == 3
     else leaf == 0 || leaf == 2

/-- A leaf counted: units 0 to 2 are cores, 3 to 5 engines. -/
def Perf.count (x : Perf) (unit leaf : Nat) : Perf :=
  { x with leaf := SMap.set 0 x.leaf (16 * unit + leaf) (SMap.get 0 x.leaf (16 * unit + leaf) + 1) }

/-- CYCLES and one leaf of each of the six units advance (20 R474). -/
def Perf.cycle (x : Perf) (l : CycleLeaves) : Perf :=
  let x := { x with cycles := x.cycles + 1 }
  ((((((x.count 0 l.l.val).count 1 l.x.val).count 2 l.w.val).count 3 l.le.val).count 4 l.me.val).count 5 l.se.val)

/-- Whether a chained pass of a tile waits for its row, or for room east (12 R304). -/
def State.starved (s : State) (t : Nat) (o : Op) : Bool :=
  o.rcd.chain && (decide (o.kind = .mma) || decide (o.kind = .mmas)) && !s.chainReady t o

/-- Whether every leaf named is one its unit's cycle may go to. -/
def State.mayCycle (s : State) (t : Nat) (l : CycleLeaves) : Bool :=
  let x := s.tile t
  x.cl.mayLeaf (x.traceStall 0) l.l.val && x.cx.mayLeaf (x.traceStall 1) l.x.val && x.cw.mayLeaf (x.traceStall 2) l.w.val &&
  x.el.mayLeaf (s.starved t) l.le.val && x.em.mayLeaf (s.starved t) l.me.val && x.es.mayLeaf (s.starved t) l.se.val

/-- The cycles for which the local deadlock condition has held, and, at the tile of rank 0, the gang rule's (06 R143, R145). -/
def State.countDead (s : State) (t : Nat) : State :=
  let n := if s.localDeadlock t then (s.tile t).life.deadCount + 1 else 0
  let s := s.setTile t { s.tile t with life := { (s.tile t).life with deadCount := n } }
  match (s.tile t).life.seat with
  | none => s
  | some k =>
    match s.findNode k.part k.node with
    | none => s
    | some n =>
      if k.rank = 0 ∧ n.tiles.all (fun u => decide ((s.tile u).life.phase ≠ .frozen)) then
        s.putNode k.part { n with gangCount := if s.gangBlocked n then n.gangCount + 1 else 0 }
      else s

/-- The cycle under way is over, for a core: the unit that it is blocked in is still to complete. -/
def Core.cycleOver (k : Core) : Core := { k with ended := false, did := if k.wait = .none then none else k.did }

/-- The cycle under way is over: a write of `ctl.perf.ctl` made in it takes effect (20 R474). -/
def Tile.cycleOver (x : Tile) : Tile :=
  { x with cl := x.cl.cycleOver, cx := x.cx.cycleOver, cw := x.cw.cycleOver
           perf := x.perf.settle
           el := { x.el with ended := false }, em := { x.em with ended := false }, es := { x.es with ended := false } }

/-- COUNTED_CYCLE: the end of a cycle of the tile clock in which the tile runs its node. -/
def execCountedCycle (t : TileId) (leaves : CycleLeaves) (s : State) : Out :=
  .next <|
    let x := s.tile t.val
    if x.moves ∧ s.mayCycle t.val leaves then
      let s := s.setTile t.val (Tile.cycleOver { x with perf := if x.perf.freeze then x.perf else x.perf.cycle leaves })
      s.countDead t.val
    else s

/-! ## Soft errors (18 R429 to R433) -/

/-- The tile with a token of a queue changed. -/
def Tile.onToken (x : Tile) (q i : Nat) (g : Tok → Tok) : Tile :=
  let k := x.queueAt q
  { x with queue := SMap.put x.queue q { k with toks := k.toks.zipIdx.map fun y => if y.2 = i then g y.1 else y.1 } }

/-- A core with a frame that it holds changed. -/
def Core.onFrame (k : Core) (i : Nat) (g : Frame → Frame) : Core :=
  { k with frames := k.frames.zipIdx.map fun y => if y.2 = i then g y.1 else y.1 }

/-- An engine with an operation that it holds changed. -/
def Eng.onOp (e : Eng) (i : Nat) (g : Op → Op) : Eng := { e with ops := e.ops.zipIdx.map fun y => if y.2 = i then g y.1 else y.1 }

/-- A set of words with an uncorrectable error, and one with a correctable error, after an error of a kind in word `n`: an uncorrectable
one stays so, and takes the place of a correctable one. -/
def errSets (correctable : Bool) (n : Nat) (bad ce : List Nat) : List Nat × List Nat :=
  if correctable then (bad, if bad.contains n then ce else insertNat ce n) else (insertNat bad n, eraseNat ce n)

/-- The tile with an error in a word of one of its arrays. In the scratchpad it lies latent (`scratchLatent`); an error in a buffer of
the save engine is found by the save or the restore under way, one in the buffer of a record as the engine starts that record (log 38). -/
def Tile.struck (x : Tile) (correctable : Bool) : EccArray → Tile
  | .scratchpad off => { x with mem := { x.mem with
      scratchBad := if correctable then x.mem.scratchBad else insertNat x.mem.scratchBad (off / 4 * 4)
      scratchLatent := insertNat x.mem.scratchLatent (off / 4 * 4) } }
  | .gReg c n high =>
    let l := errSets correctable (2 * n + b2n high) (x.core c).gBad (x.core c).gCe
    x.setCore c { x.core c with gBad := l.1, gCe := l.2 }
  | .hidden c i n high => x.setCore c ((x.core c).onFrame i fun f =>
      let l := errSets correctable (2 * n + b2n high) f.bad f.ce
      { f with bad := l.1, ce := l.2 })
  | .panel p e =>
    let l := errSets correctable (p * 256 + e) x.mem.panelBad x.mem.panelCe
    { x with mem := { x.mem with panelBad := l.1, panelCe := l.2 } }
  | .mask k w =>
    let l := errSets correctable (8 * k + w) x.mem.maskBad x.mem.maskCe
    { x with mem := { x.mem with maskBad := l.1, maskCe := l.2 } }
  | .acc i =>
    let l := errSets correctable i x.mem.accBad x.mem.accCe
    { x with mem := { x.mem with accBad := l.1, accCe := l.2 } }
  | .scale off =>
    let l := errSets correctable (off / 4 * 4) x.mem.scaleBad x.mem.scaleCe
    { x with mem := { x.mem with scaleBad := l.1, scaleCe := l.2 } }
  | .plane i =>
    let l := errSets correctable i x.mem.planeBad x.mem.planeCe
    { x with mem := { x.mem with planeBad := l.1, planeCe := l.2 } }
  | .token q i => x.onToken q.val i fun k =>
      { k with bad := k.bad || !correctable, ce := correctable && !k.bad, latent := k.latent || (!correctable && !k.bad) }
  | .record e i w => x.setEng e ((x.eng e).onOp i fun o =>
      let l := errSets correctable w o.recBad o.recCe
      { o with recBad := l.1, recCe := l.2 })
  | .saveBuffer =>
    if correctable then { x with life := { x.life with saveCe := x.life.saveCe + 1 } }
    else { x with life := { x.life with saveBad := true } }
  | .hbm _ => x

/-- Whether a place exists; the capacities are those of 01 R27 (Table 1.6: 384 GiB of HBM, 2 MiB of scratchpad and 256 KiB of
accumulators in each tile): g1 to g31, 32 panels of 256, k1 to k7, 65,536 accumulators, 32 KiB of scales, two planes of 128 by
128 codes with up to 1 KiB of scales and 21 KiB of metadata (12 R299, R300), a token that is held, a word of the scratchpad or of HBM, one
of the 16 words of a record that is QUEUED (12 R284). -/
def Tile.hasPlace (x : Tile) : EccArray → Bool
  | .scratchpad off => decide (off < scratchSize)
  | .gReg _ n _ => decide (1 ≤ n) && decide (n < 32)
  | .hidden c i n _ => match ((x.core c).frames.drop i).head? with
    | some f => decide (n < f.size)
    | none => false
  | .panel p e => decide (p < 32) && decide (e < 256)
  | .mask k w => decide (1 ≤ k) && decide (k < 8) && decide (w < 8)
  | .acc i => decide (i < 65536)
  | .scale off => decide (off < 0x8000)
  | .plane i => decide (i < 32768) || decide (i < 65536 ∧ i % 16384 < 256) || decide (i < 65536 ∧ 8192 ≤ i % 16384 ∧ i % 16384 < 8192 + 5376)
  | .token q i => decide (i < (x.queueAt q.val).toks.length)
  | .hbm pa => decide (pa < hbmEnd)
  | .record e i w => match (x.eng e).ops[i]? with
    | some o => decide (o.state = .queued) && decide (w < 16)
    | none => false
  | .saveBuffer => decide (x.life.phase = .saving) || decide (x.life.phase = .held)

/-- SOFT_ERROR: a stored word is corrupted. The error lies there until a read, or in the scratchpad the scrubber, finds it and counts it,
or a write of the whole word removes it (18 R429, R430, log 38). -/
def execSoftError (t : TileId) (where_ : EccArray) (correctable : Bool) (s : State) : Out :=
  .next <|
    let x := s.tile t.val
    if !x.hasPlace where_ then s
    else match where_ with
      | .hbm pa => if correctable then s else { s with memBad := insertNat s.memBad (pa / 32 * 32) }
      | _ => s.setTile t.val (x.struck correctable where_)

/-- SCRUB: the scrubber reads a word of the scratchpad, once in each period (18 R429, R432). -/
def execScrub (t : TileId) (off : Nat) (s : State) : Out :=
  .next <|
    let x := s.tile t.val
    let w := off / 4 * 4
    if scratchSize ≤ w ∨ x.prv.scrubbed.contains w then s
    else
      let y := x.scrubWord w
      s.setTile t.val { y with prv := { y.prv with scrubbed := insertNat y.prv.scrubbed w } }

/-- The address of a tile's register block (19 Table 19.1). -/
def tileBlock (t : Nat) : Nat := 0x6001000000 + 0x4000 * t

/-- BANK_RETIREMENT: the third uncorrectable error of a bank of a free tile: firmware retires it and reports it (18 R433). -/
def execBankRetirement (t : TileId) (bank : Fin 32) (s : State) : Out :=
  .next <|
    let x := s.tile t.val
    if x.life.phase = .free ∧ x.life.seat = none ∧ 3 ≤ SMap.get 0 x.prv.bankErrs bank.val ∧ !x.prv.retired.getLsbD bank.val then
      let s := s.setTile t.val { x with prv := { x.prv with retired := x.prv.retired ||| BitVec.ofNat 32 (2 ^ bank.val) } }
      match s.ownerOf t.val with
      | some p => s.post (some p) { status := Status.bankRetired, addr := tileBlock t.val, data := bank.val }
      | none => s
    else s

/-! ## Power (19 R456, R457; 01 R23) -/

/-- L, the limit that the clamp acts on (19 R455, R457). -/
def Power.limit (x : Power) : Nat := min (min x.hostlim x.fwlim) 3200

/-- The clock lowered, counted in CLAMPS. -/
def Power.lower (x : Power) (mhz : Nat) : Power := { x with fclk := mhz, clamps := min (x.clamps + 1) 0xFFFF }

/-- A comparison of WATTS with L (19 R457). -/
def Power.compare (x : Power) (w : Nat) : Power :=
  let l := x.limit
  let x := { x with watts := w
                    low := if 20 * w ≤ 19 * l then x.low + 1 else 0
                    high := if l < w then x.high + 1 else 0 }
  let x := if l < w then (if 500 < x.fclk then x.lower (x.fclk - 100) else x)
           else if 10 ≤ x.low ∧ x.fclk < 2500 then { x with fclk := min 2500 (x.fclk + 100) } else x
  if w ≤ l then { x with hold := false }
  else if x.fclk = 500 ∧ 10 ≤ x.high then { x with hold := true } else x

/-- POWER_CLAMP: every 1,000 ticks. -/
def execPowerClamp (s : State) : Out :=
  .next <|
    let x := s.hub.power
    if x.due ≤ s.seiche then
      let w := (Config.watts s.choices).toNat
      { s.draw with hub := { s.hub with power := { x.compare w with due := (s.seiche / 1000 + 1) * 1000 } } }
    else s

/-- THERMAL_LIMIT: the device lowers the tile clock (01 R23). -/
def execThermalLimit (mhz : BitVec 12) (s : State) : Out :=
  .next (if mhz.toNat < s.hub.power.fclk then { s with hub := { s.hub with power := s.hub.power.lower mhz.toNat } } else s)

/-! ## Link ports (19 R439) -/

/-- An event posted to every partition that exists. -/
def State.postAll (s : State) (e : Event) : State :=
  (List.range 16).foldl (fun s p => if (s.part p).state = .absent then s else s.post (some p) e) s

/-- A link port fails or recovers: every partition hears of a change. -/
def State.setPort (s : State) (port : Nat) (up : Bool) : State :=
  if SMap.get true s.hub.ports port = up then s
  else ({ s with hub := { s.hub with ports := SMap.put s.hub.ports port up } }).postAll { status := Status.linkDegraded, data := port }
    |>.drainEvents none s.hub.adminEv.turns

/-- LINK_PORT_FAILURE. -/
def execLinkPortFailure (port : Fin 2) (s : State) : Out := .next (s.setPort port.val false)
/-- LINK_PORT_RECOVERY. -/
def execLinkPortRecovery (port : Fin 2) (s : State) : Out := .next (s.setPort port.val true)

/-! ## The module number, power-on reset and bring-up (19 R458, R459) -/

/-- A control register that holds MODULE in bits 31:22, with the number stored. -/
def withModule (m : Nat) (v : Word) : Word := BitVec.ofNat 64 (setField v.toNat 22 10 m)

/-- The registers of a tile that name the module. -/
def TileCtl.inModule (c : TileCtl) (m : Nat) : TileCtl :=
  { c with tile := withModule m c.tile, rank := c.rank.map fun r => (r.1, withModule m r.2) }

/-- A write of `mcb.fabid` while LOCK is 0; tiles that hold a node read the number stored. -/
def State.writeFabid (s : State) (v : Nat) : State :=
  if s.hub.lock then s
  else
    let m := field v 0 10
    let tiles : SMap Tile := s.tiles.map fun (t, x) => (t, if x.life.seat.isSome then { x with ctl := x.ctl.inModule m } else x)
    { s with hub := { s.hub with modnum := m, lock := bit v 63 }, tiles := tiles }

/-- FABID_WRITE. -/
def execFabidWrite (v : Word) (s : State) : Out := .next (s.writeFabid v.toNat)

/-- The 16 MiB of the firmware ROM. -/
def romBytes : List Byte := (List.range 0x1000000).map Config.rom

/-- A step of bring-up that failed: STAGE stays, ERR says why. -/
def State.stageFails (s : State) (err : Nat) : State := { s with hub := { s.hub with err := err } }
/-- A step of bring-up done. -/
def State.stageDone (s : State) (n : Nat) : State := { s with hub := { s.hub with stage := n } }

/-- Stages 5 to 7: no grant, no window, every tile reset, every partition absent: the reset state has all of it. -/
def State.bringUpRest (s : State) : State := ((s.stageDone 5).stageDone 6).stageDone 7

/-- Stage 4: the link ports are trained; one at least must come up. -/
def State.bringUpLink (s : State) : State :=
  let a := Config.bringUp s.choices
  let b := Config.bringUp (s.choices + 1)
  let s := s.draw.draw
  let s := { s with hub := { s.hub with ports := [(0, a), (1, b)] } }
  if a || b then (s.stageDone 4).bringUpRest else s.stageFails Status.linkDegraded

/-- Stage 3: memory is trained and tested. -/
def State.bringUpMemory (s : State) : State :=
  if Config.bringUp s.choices then (s.draw.stageDone 3).bringUpLink else s.draw.stageFails Status.noResource

/-- Stages 1 and 2: MEAS0 is extended with the ROM's digest, MEAS1 with that of the fuse configuration. -/
def State.bringUp (s : State) : State :=
  let s := (s.extend 0 (sha sha384 romBytes)).stageDone 1
  if Config.bringUp s.choices then ((s.draw.extend 1 (sha sha384 Config.fuses)).stageDone 2).bringUpMemory
  else s.draw.stageFails Status.authFailed

/-- POWER_ON_RESET: the machine is as reset leaves it, and bring-up runs as far as it can; the world outside is as it was. -/
def execPowerOnReset (s : State) : Out :=
  .next (State.bringUp { State.reset with agenda := s.agenda, choices := s.choices, host := s.host, peers := s.peers })

/-- FABRIC_TRAINING: stage 8, once LOCK is 1 and an image has loaded: the ports are trained, and none finds its number taken. -/
def execFabricTraining (s : State) : Out :=
  .next <|
    if s.hub.stage = 7 ∧ s.hub.err = 0 ∧ s.hub.lock ∧ s.hub.imageLoaded then
      let a := Config.bringUp s.choices
      let b := Config.bringUp (s.choices + 1)
      let s := s.draw.draw
      if !a then s.stageFails Status.authFailed
      else if !b then s.stageFails Status.busy
      else { s.stageDone 8 with hub := { (s.stageDone 8).hub with fabricUp := true } }
    else s

/-! ## The host's reads and writes (19 R443, R447) -/

/-- EVENT_HEAD_WRITE: HEAD moves, and what waits is written where there is room. -/
def State.eventHead (s : State) (o : Option Nat) (head : Nat) : State := (s.setEvRing o { s.evRing o with head := head }).drainEvents o (s.evRing o).turns

/-- EVENT_HEAD_WRITE, whatever the state of the link (log 93). -/
def execEventHeadWrite (p : Option PartId) (head : Word) (s : State) : Out := .next (s.eventHead (p.map (·.val)) head.toNat)

/-- APERTURE_READ: all ones, and NO_GRANT, where firmware cannot complete the translation. DESIGN CHOICE (log 93): 01 R29 gives the host no
other way than the link, and no rule says what becomes of its own accesses while both ports are down: they take effect. -/
def execApertureRead (p : PartId) (addr : VAddr) (len : Nat) (s : State) : Out :=
  .next <|
    if addr.toNat + len ≤ 2 ^ 36 then
      match hubRead s 0 p.val (spanFuel len) addr.toNat len with
      | (.ok l, s) => { s with hub := { s.hub with aperture := l } }
      | (.error _, s) => ({ s with hub := { s.hub with aperture := List.replicate len 0xFF } }).postNoGrant (some p.val) addr.toNat
    else s

/-- APERTURE_WRITE: dropped, with NO_GRANT, where firmware cannot complete the translation; the link as for a read (log 93). -/
def execApertureWrite (p : PartId) (addr : VAddr) (bytes : List Byte) (s : State) : Out :=
  .next <|
    if addr.toNat + bytes.length ≤ 2 ^ 36 then
      match hubWrite s 0 p.val (spanFuel bytes.length) addr.toNat bytes with
      | (none, s) => s
      | (some _, s) => s.postNoGrant (some p.val) addr.toNat
    else s

end Sys2Proof.Machine
end

