-- ==== Sys2Proof/Machine/Debugger.lean ====
section
/-! DEFINITION. The debugger: stops and resumes of a gang, releases of what a breakpoint holds, the marks and polls of the
trace, and the hash tree (20 R465 to R472, R478, R480, R486, R487). -/
namespace Sys2Proof.Machine

/-! ## Stops (20 R468 to R472) -/

/-- Whether a save of a tile is under way or asked for at its rest (20 Table 20.2). -/
def Tile.saving (x : Tile) : Bool :=
  decide (x.life.phase = .saving) || decide (x.life.phase = .saved) ||
  decide (x.life.rest = some .cooperative) || decide (x.life.rest = some .forced)

/-- The node that a STOP of a partition would stop: RUNNING, not stopping already, no save of it in progress. -/
def State.stopTarget (s : State) (p : Nat) : Option Node :=
  match s.findNode p (s.part p).dbg.target with
  | some n => if n.state = .running ∧ n.stopping = none ∧ n.tiles.all (fun t => !(s.tile t).saving) then some n else none
  | none => none

/-- A STOP with its MARKQ, of which only 0 to 11 name a queue, and its CUTID. -/
def State.debugStop (s : State) (p markq cutid : Nat) : State :=
  match s.stopTarget p with
  | some n => (s.putNode p { n with markq := markq, cutid := cutid }).stopGang p n.addr 4
  | none => s

/-- DEBUG_STOP: `dbg.cmd` with OP 1. -/
def execDebugStop (p : PartId) (markq : Fin 32) (cutid : BitVec 28) (s : State) : Out :=
  .next (s.debugStop p.val markq.val cutid.toNat)

/-- DEBUG_STOP_COMPLETE: every tile of a gang that is stopping has frozen: the hit is shown (20 R468, R469). -/
def execDebugStopComplete (p : PartId) (node : VAddr) (s : State) : Out :=
  .next <|
    match s.findNode p.val node.toNat with
    | none => s
    | some n =>
      match n.stopping with
      | none => s
      | some k =>
        if n.state = .running ∧ !n.stopped ∧ n.tiles ≠ [] ∧
            n.tiles.all (fun t => decide ((s.tile t).life.phase = .frozen) && decide ((s.tile t).life.rest = some .debug)) then
          (s.putNode p.val { n with stopped := true }).addHit p.val { kind := k, ring := 0, addr := n.addr }
        else s

/-- The hit shown is retired; the next one is shown. -/
def State.retireHit (s : State) (p : Nat) : State :=
  let d := (s.part p).dbg
  let s := s.setDebug p { d with hits := d.hits.drop 1 }
  if (d.hits.drop 1).isEmpty then s else s.msix 2

/-- The core that stopped on a `brk` goes on at the word after it (20 R471). -/
def Tile.passBreak (x : Tile) (f : FaultRec) : Tile :=
  let c := CoreId.ofNum f.unit
  x.setCore c ((x.core c).skip 4)

/-- A tile of a stopped gang released from its cut. One whose fault firmware has not resolved stays frozen until it has. -/
def State.releaseTile (s : State) (t : Nat) : State :=
  let x := s.tile t
  if x.life.phase ≠ .frozen ∨ x.life.rest ≠ some .debug then s
  else match x.life.fault with
    | none => s.resumeTile t
    | some f =>
      if f.breakRest then (s.setTile t (x.passBreak f)).resumeTile t
      else if x.life.resolved then s.resumeTile t
      else s.setTile t { x with life := { x.life with rest := none } }

/-- RESUME while a hit of KIND 3 or 4 is shown. -/
def State.debugResume (s : State) (p : Nat) : State :=
  match (s.part p).dbg.hits with
  | h :: _ =>
    if h.kind = 3 ∨ h.kind = 4 then
      let s := s.retireHit p
      match s.findNode p h.addr with
      | some n => n.tiles.foldl State.releaseTile (s.putNode p { n with stopping := none, stopped := false })
      | none => s
    else s
  | [] => s

/-- DEBUG_RESUME. -/
def execDebugResume (p : PartId) (s : State) : Out := .next (s.debugResume p.val)

/-- RELEASE while a hit of KIND 1 or 2 is shown: the packet starts, or the node is placeable, unchecked on this entry. -/
def State.debugRelease (s : State) (p : Nat) : State :=
  match (s.part p).dbg.hits with
  | h :: _ =>
    if h.kind = 1 then
      let s := s.retireHit p
      let x := s.part p
      let r := SMap.get {} x.rings h.ring
      s.setPart p { x with rings := SMap.put x.rings h.ring { r with held := false, passed := true } }
    else if h.kind = 2 then
      let s := s.retireHit p
      match s.findNode p h.addr with
      | some n => s.putNode p { n with held := false, checked := true, aged := s.seiche - n.aged }
      | none => s
    else s
  | [] => s

/-- DEBUG_RELEASE. -/
def execDebugRelease (p : PartId) (s : State) : Out := .next (s.debugRelease p.val)

/-! ## Trace (20 R478, R480) -/

/-- TRACE_MARKER: MKINT ticks have passed since the region's last MK. -/
def execTraceMarker (t : TileId) (s : State) : Out :=
  .next <|
    if s.markOwed t.val then s.traceMark t.val
    else s

/-- TRACE_HEAD_POLL: a record waits, and 1,000 ticks have passed since HEAD was read: it is read again, and the records that fit now join those
of the tick. -/
def execTraceHeadPoll (t : TileId) (s : State) : Out :=
  .next <|
    let x := (s.tile t.val).trace
    if s.traceRuns t.val ∧ x.waiting ≠ [] ∧ x.lastPoll + 1000 ≤ s.seiche then
      s.traceReadHead t.val
    else s

/-! ## The hash tree (20 R486, R487) -/

/-- HASH_REQUEST: HNOW. -/
def execHashRequest (p : PartId) (s : State) : Out := .next (s.setDebug p.val (s.part p.val).dbg.trigger)

/-- The bytes of a page of 64 KiB as the hub agent reads them, 4 KiB at a time; none where any part is not present or is
poisoned. A discarded page reads as zeros. -/
def hashRead (s : State) (p va : Nat) : Nat → Option (List Byte) × State
  | 0 => (some [], s)
  | n + 1 =>
    let (r, s) := translate s 0 p .own va .read
    let l := match r with
      | .pa a => if hbmEnd ≤ a ∨ (badGranule s.memBad a 4096).isSome then none else some (s.mem.bytes a 4096)
      | .zero => some (List.replicate 4096 0)
      | .fault _ _ _ => none
    match l, hashRead s p (va + 4096) n with
    | some l, (some l', s) => (some (l ++ l'), s)
    | _, (_, s) => (none, s)

/-- The leaf of page `i`. -/
def hashLeaf (s : State) (p base i : Nat) : List Byte × State :=
  match hashRead s p ((base + 0x10000 * i) % 2 ^ 56) 16 with
  | (some l, s) => (sha sha256 l, s)
  | (none, s) => (List.replicate 32 0xFF, s)

/-- The leaves of `n` pages from page `i`. -/
def hashLeaves (s : State) (p base : Nat) : Nat → Nat → List (List Byte) × State
  | 0, _ => ([], s)
  | n + 1, i =>
    let (l, s) := hashLeaf s p base i
    let (ls, s) := hashLeaves s p base n (i + 1)
    (l :: ls, s)

/-- The entries above a level: each the hash of two below it. -/
def hashUp : List (List Byte) → List (List Byte)
  | a :: b :: l => sha sha256 (a ++ b) :: hashUp l
  | _ => []

/-- One entry of the array written. -/
def hashWrite (s : State) (p array j : Nat) (l : List Byte) : State := (hubWrite s 0 p 2 (array + 32 * j) l).2

/-- The entries of a level, whose first number is their count, from the last down to the first. -/
def hashLevel (s : State) (p array : Nat) (l : List (List Byte)) : State :=
  (List.range l.length).foldl (fun s k =>
    hashWrite s p array (2 * l.length - 1 - k) (l.getD (l.length - 1 - k) [])) s

/-- The levels above the leaves, up to entry 1. -/
def hashLevels (s : State) (p array : Nat) : Nat → List (List Byte) → State
  | 0, _ => s
  | fuel + 1, l => if l.length ≤ 1 then s else hashLevels (hashLevel s p array (hashUp l)) p array fuel (hashUp l)

/-- The least k with p ≤ 2^k, from `k` up. -/
def pow2Up (p : Nat) : Nat → Nat → Nat
  | 0, k => k
  | fuel + 1, k => if p ≤ 2 ^ k then k else pow2Up p fuel (k + 1)

/-- HASH_UPDATE: an update that is under way does its work: the pages in index order, the leaves, the entries above them, entry 0, and HDONE. -/
def execHashUpdate (p : PartId) (s : State) : Out :=
  .next <|
    let d := (s.part p.val).dbg
    if d.hreq ≠ 0 then
      let s := s.setDebug p.val { d with hreq := d.hreq - 1 }
      let n := d.npm1 + 1
      let n2 := 2 ^ pow2Up n 17 0
      let (ls, s) := hashLeaves s p.val d.hbase n 0
      let leaves := ls ++ List.replicate (n2 - n) (List.replicate 32 0)
      let s := hashLevels (hashLevel s p.val d.hadr leaves) p.val d.hadr 17 leaves
      let done := (d.hdone + 1) % 2 ^ 64
      let s := hashWrite s p.val d.hadr 0 (leBytes done 8 ++ leBytes s.seiche 8 ++ leBytes n 8 ++ leBytes 0 8)
      s.setDebug p.val { (s.part p.val).dbg with hdone := done }
    else s

end Sys2Proof.Machine
end

