-- ==== Sys2Proof/Machine/HubRegs.lean ====
section
/-! DEFINITION. Writes of the hub's, the card's and the tiles' registers (00 R8; 17 Table 17.4; 18 Tables 18.1, 18.6; 19 Tables
19.1 to 19.8; 20 Table 20.1). Reserved places ignore a write; a read-only field keeps its value. -/
namespace Sys2Proof.Machine

/-- A value stored as the nearer bound of a range. -/
def clampTo (lo hi v : Nat) : Nat := max lo (min hi v)

/-! ## Rings and event rings (19 Tables 19.4, 19.8) -/

/-- The command written to CMD (19 R441). -/
def State.ringCmd (s : State) (r : RingId) (cmd : Nat) : State :=
  match cmd with
  | 1 => s.ringStart r
  | 2 => s.ringResume r
  | 3 => s.ringStop r
  | _ => s

/-- A write of a ring's register. -/
def State.ringReg (s : State) (r : RingId) (off v : Nat) : State :=
  match off with
  | 0x00 =>
    if (s.ring r).state = .idle then
      s.setRing r { s.ring r with base := field v 12 52 * 4096, log2 := clampTo 4 16 (field v 0 5) }
    else s
  | 0x08 => s.doorbell r v
  | 0x18 => s.ringCmd r (field v 0 2)
  | _ => s

/-- A write of an event ring's register. -/
def State.evReg (s : State) (o : Option Nat) (off v : Nat) : State :=
  match off with
  | 0x00 => s.setEvRing o { s.evRing o with base := field v 12 52 * 4096, log2 := clampTo 4 16 (field v 0 5) }
  | 0x08 => s.eventHead o v
  | _ => s

/-! ## The module control block (19 Table 19.2) -/

/-- A write of the module control block: the host's limit and the module number are the host's alone, FWLIM firmware's. -/
def State.mcbReg (s : State) (who : RegWriter) (off v : Nat) : State :=
  let x := s.hub.power
  match off, who with
  | 0x010, .host => s.writeFabid v
  | 0x100, .host => { s with hub := { s.hub with power := { x with hostlim := clampTo 100 3200 (field v 0 16) } } }
  | 0x100, .firmware => { s with hub := { s.hub with power := { x with fwlim := clampTo 100 3200 (field v 16 16) } } }
  | _, _ =>
    if 0x400 ≤ off ∧ off < 0x440 then s.ringReg .admin (off - 0x400) v
    else if 0x800 ≤ off ∧ off < 0x900 then s.evReg none (off - 0x800) v
    else s

/-! ## Partition control blocks (19 Table 19.3) -/

/-- A write of the scheduler's registers (17 Table 17.4); the ageing intervals that have passed count under the old ones. -/
def Sched.reg (x : Sched) (now off v : Nat) : Sched :=
  match off with
  | 0x08 => { x.settleAge now with agecap := field v 32 5, ageint := field v 0 32 }
  | 0x10 => { x with bflim := field v 0 32 }
  | 0x18 => { x with thresh := field v 16 16, classen := bit v 8, dev := field v 0 4 }
  | 0x20 => { x with gatedly := field v 0 32 }
  | _ => x

/-- A write of the translation registers of one die (18 Table 18.1). -/
def Xlt.reg (x : Xlt) (off v : Nat) : Xlt :=
  match off with
  | 0x00 => { x with en := bit v 63, root := field v 21 19 }
  | 0x08 => { x with xen := bit v 63, xroot := field v 21 19 }
  | 0x10 => { x with tag := field v 0 16 }
  | _ => x

/-- A write of a window entry (19 Table 19.7). -/
def Window.reg (x : Window) (off v : Nat) : Window :=
  match off with
  | 0x00 => { x with offset := field v 12 36 * 4096 }
  | 0x08 => { x with length := field v 12 52 * 4096 }
  | 0x10 => { x with host := field v 12 52 * 4096 }
  | 0x18 => { x with w := bit v 2, rd := bit v 1, v := bit v 0 }
  | _ => x

/-- A write of `dbg.ctl`: TREN from 0 to 1 clears TRERR (20 R483). -/
def Debug.ctl (d : Debug) (v : Nat) : Debug :=
  { d with mkint := clampTo 1000 131071 (field v 16 32)
           ensm := bit v 11, enbw := bit v 10, entw := bit v 9, enbr := bit v 8
           trmode := bit v 2, tren := bit v 1, attach := bit v 0
           trerr := d.trerr && !(bit v 1 && !d.tren) }

/-- A write of a breakpoint's first doubleword, or of its address. -/
def Bp.reg (b : Bp) (second : Bool) (v : Nat) : Bp :=
  if second then { b with addr := field v 0 56 }
  else { b with en := bit v 63, kind := field v 61 2, ring := field v 16 4, anyop := bit v 8, opcode := field v 0 8 }

/-- A write of the debug block's registers that hold fields only (20 Table 20.1). -/
def Debug.reg (d : Debug) (off v : Nat) : Debug :=
  match off with
  | 0xC00 => d.ctl v
  | 0xC08 => if d.tren then d else { d with trbase := field v 16 40, log2sz := clampTo 16 26 (field v 0 5) }
  | 0xC18 => { d with target := field v 7 49 * 128 }
  | 0xC80 => { d with hbase := field v 16 40 * 0x10000 }
  | 0xC88 => { d with npm1 := field v 0 16 }
  | 0xC90 => { d with hadr := field v 5 51 * 32 }
  | 0xC98 =>
    let d := { d with hen := bit v 63, km1 := field v 0 16 }
    if bit v 62 then d.trigger else d
  | _ =>
    if 0xC40 ≤ off ∧ off < 0xC80 then
      let i := (off - 0xC40) / 16
      { d with bps := SMap.put d.bps i (Bp.reg (SMap.get {} d.bps i) (decide (off % 16 = 8)) v) }
    else d

/-- A write of `dbg.cmd` (20 Table 20.1). -/
def State.dbgCmd (s : State) (p v : Nat) : State :=
  match field v 0 3 with
  | 1 => s.debugStop p (field v 3 5) (field v 8 28)
  | 2 => s.debugResume p
  | 3 => s.debugRelease p
  | _ => s

/-- The trace writers of the tiles of a partition's clusters anew, as TREN is 0 and as it rises: nothing is left of an earlier trace (20
R476, R483). The ticks for which a core has been blocked so far stand. -/
def State.dropTrace (s : State) (p : Nat) : State :=
  { s with tiles := s.tiles.map fun (t, x) =>
      (t, if (s.part p).clusters.getLsbD (t / 8) then { x with trace := { blockedSince := x.trace.blockedSince } } else x) }

/-- TREN rises: a tile that holds a node already reads its header at once (log 36). -/
def State.raiseTrace (s : State) (p : Nat) : State :=
  let s := s.dropTrace p
  ((s.tiles.map (·.1)).filter fun t => s.traceOn t && decide ((s.tile t).partNo = p)).foldl State.traceLoad s

/-- A write of the debug block (20 Table 20.1). -/
def State.dbgReg (s : State) (p off v : Nat) : State :=
  if off = 0xC10 then s.dbgCmd p v
  else
    let on := (s.part p).dbg.tren
    let s := s.setDebug p ((s.part p).dbg.reg off v)
    if !(s.part p).dbg.tren then s.dropTrace p else if on then s else s.raiseTrace p

/-- A write of a partition control block (19 Table 19.3). -/
def State.prtReg (s : State) (who : RegWriter) (p : Fin 16) (off v : Nat) : State :=
  let x := s.part p.val
  if off < 0x100 then s.setSched p.val (x.sched.reg s.seiche off v)
  else if off < 0x180 then
    let d := (off - 0x100) / 0x20
    if who = .firmware then
      s.setDie d { s.die d with xlt := SMap.put (s.die d).xlt p.val (Xlt.reg (SMap.get {} (s.die d).xlt p.val) (off % 0x20) v) }
    else s
  else if off = 0x208 then s.setPart p.val { x with pubctr := field v 0 61 }
  else if 0x400 ≤ off ∧ off < 0x800 then s.ringReg (.part p (Fin.ofNat 16 ((off - 0x400) / 0x40))) (off % 0x40) v
  else if 0x800 ≤ off ∧ off < 0x900 then s.evReg (some p.val) (off - 0x800) v
  else if 0xC00 ≤ off ∧ off < 0xD00 then s.dbgReg p.val off v
  else if 0x1000 ≤ off ∧ off < 0x1800 then
    let w := (off - 0x1000) / 32
    s.setPart p.val { x with windows := SMap.put x.windows w (Window.reg (SMap.get {} x.windows w) (off % 32) v) }
  else s

/-! ## Tile registers, address groups, management memory, the card -/

/-- A write of a privileged tile register (18 Table 18.6): RETIRED keeps while the tile is reserved to a node. -/
def State.tileReg (s : State) (t i v : Nat) : State :=
  let x := s.tile t
  let p := x.prv
  let set (q : Prv) := s.setTile t { x with prv := q }
  match i with
  | 0 => set { p with pdead := field v 0 32 }
  | 1 => set { p with savelim := field v 0 32 }
  | 2 => set { p with fabto := field v 0 32 }
  | 3 => set { p with ue := field v 32 16, ce := field v 0 32 }
  | 4 => if x.life.seat.isSome then s else set { p with retired := BitVec.ofNat 32 v }
  | _ => s

/-- A write of a grant entry's doubleword (19 Table 19.5). -/
def Grant.reg (g : Grant) (i v : Nat) : Grant :=
  match i with
  | 0 => { g with base := field v 12 52 * 4096 }
  | 1 => { g with length := field v 12 52 * 4096 }
  | 2 => { g with v := bit v 0, r := bit v 1, w := bit v 2 }
  | _ => { g with src := field v 0 17 }

/-- A write of the card's registers in BAR4: the grants first, then the rates (log 31). -/
def State.cardReg (s : State) (off v : Nat) : State :=
  let c := s.hub.card
  if off < 0x2000 then
    let i := off / 32
    let c' := { c with grants := SMap.put c.grants i (Grant.reg (SMap.get {} c.grants i) (off % 32 / 8) v) }
    { s with hub := { s.hub with card := c' } }
  else if off < 0x2088 then
    { s with hub := { s.hub with card := { c with rate := SMap.put c.rate ((off - 0x2000) / 8) v } } }
  else s

/-- A write of 8 bytes at a physical address of the hub, by firmware; the host reaches the regions that Table 19.1 marks. -/
def State.hubReg (s : State) (who : RegWriter) (pa v : Nat) : State :=
  if pa < 0x6000010000 then s.mcbReg who (pa - 0x6000000000) v
  else if pa < 0x6000110000 then
    s.prtReg who (Fin.ofNat 16 ((pa - 0x6000010000) / 0x10000)) ((pa - 0x6000010000) % 0x10000) v
  else if who = .host then s
  else if 0x6001000000 ≤ pa ∧ pa < 0x6001400000 then
    s.tileReg ((pa - 0x6001000000) / 0x4000) ((pa - 0x6001000000) % 0x4000 / 8) v
  else if 0x6002000000 ≤ pa ∧ pa < 0x6002080000 then s.groupReg (pa - 0x6002000000) v
  else if 0x6200000000 ≤ pa ∧ pa < 0x6204000000 then
    { s with hub := { s.hub with mgmt := s.hub.mgmt.setBytes (pa - 0x6200000000) (leBytes v 8) } }
  else s

/-- REGISTER_WRITE: 8 bytes at an aligned address of the hub's physical map; below it, the host writes BAR4 (log 31). DESIGN CHOICE (log
93): the host's write takes effect whether or not a link port is up. -/
def execRegisterWrite (who : RegWriter) (pa : BitVec 40) (v : Word) (s : State) : Out :=
  .next <|
    if pa.toNat % 8 ≠ 0 then s
    else if hbmEnd ≤ pa.toNat then s.hubReg who pa.toNat v.toNat
    else if who = .host then s.cardReg pa.toNat v.toNat
    else s

end Sys2Proof.Machine
end

