-- ==== Sys2Proof/Machine/Spdm.lean ====
section
/-! DEFINITION. The hub's security block: SPDM 1.3 requests over the card's mailbox (19 R463). The response codes and the bits
of the algorithm and capability words are those of the SPDM standard (log 32). -/
namespace Sys2Proof.Machine

namespace SpdmCode
def digests : Nat := 0x01
def certificate : Nat := 0x02
def challengeAuth : Nat := 0x03
def version : Nat := 0x04
def measurements : Nat := 0x60
def capabilities : Nat := 0x61
def algorithms : Nat := 0x63
def error : Nat := 0x7F
def invalidRequest : Nat := 0x01
def unsupportedRequest : Nat := 0x07
/-- ECDSA P-384 in the word of base asymmetric algorithms, and SHA-384 in that of base hash algorithms. -/
def ecdsaP384 : Nat := 0x80
def sha384 : Nat := 0x02
/-- CERT_CAP, CHAL_CAP, and MEAS_CAP with signatures. -/
def flags : Nat := 0x16
end SpdmCode

/-- The security block's answer. -/
def State.answer (s : State) (code : Nat) (payload : List Byte) : State :=
  { s with hub := { s.hub with spdm := { code := code, payload := payload } } }

/-- An error response: its code, and the request it refuses. -/
def State.spdmError (s : State) (code : Nat) (request : Byte) : State := s.answer SpdmCode.error [BitVec.ofNat 8 code, request]

/-- A response with the block's nonce, and its signature over the requester's nonce and the response. -/
def State.signedAnswer (s : State) (code : Nat) (theirs payload : List Byte) : State :=
  let body := payload ++ leBytes (Config.nonce s.choices).toNat 32
  s.draw.answer code (body ++ Config.sign (theirs ++ body))

/-- GET_VERSION: SPDM 1.3. -/
def execGetVersion (s : State) : Out := .next (s.answer SpdmCode.version [0x00, 0x13])

/-- GET_CAPABILITIES: certificates, challenges, signed measurements; no session. -/
def execGetCapabilities (s : State) : Out := .next (s.answer SpdmCode.capabilities (leBytes SpdmCode.flags 4))

/-- NEGOTIATE_ALGORITHMS: of what is offered, ECDSA P-384 and SHA-384 only. -/
def execNegotiateAlgorithms (asym hash : W32) (s : State) : Out :=
  .next (s.answer SpdmCode.algorithms (leBytes (asym.toNat &&& SpdmCode.ecdsaP384) 4 ++ leBytes (hash.toNat &&& SpdmCode.sha384) 4))

/-- GET_DIGESTS: slot 0 holds the chain of the attestation key. -/
def execGetDigests (s : State) : Out := .next (s.answer SpdmCode.digests (1 :: sha sha384 Config.certChain))

/-- GET_CERTIFICATE: a portion of the chain, its length and what remains after it. -/
def execGetCertificate (slot : Byte) (offset len : BitVec 16) (s : State) : Out :=
  .next <|
    if slot = 0 then
      let portion := (Config.certChain.drop offset.toNat).take len.toNat
      let rest := Config.certChain.length - (offset.toNat + portion.length)
      s.answer SpdmCode.certificate (leBytes portion.length 2 ++ leBytes rest 2 ++ portion)
    else s.spdmError SpdmCode.invalidRequest 0x82

/-- CHALLENGE: the chain's digest, signed. -/
def execChallenge (slot : Byte) (nonce : List Byte) (s : State) : Out :=
  .next <|
    if slot = 0 then s.signedAnswer SpdmCode.challengeAuth nonce (sha sha384 Config.certChain)
    else s.spdmError SpdmCode.invalidRequest 0x83

/-- A measurement block: its index and the 48 bytes of the register. -/
def State.measureBlock (s : State) (i : Nat) : List Byte := BitVec.ofNat 8 i :: leBytes (s.measure (i - 1)).toNat 48

/-- GET_MEASUREMENTS: indices 1 to 8 report MEAS0 to MEAS7; 0 asks for their number, 255 for all; 0xFD asks
for the measurement manifest, which is not supported. -/
def execGetMeasurements (index : Byte) (nonce : List Byte) (s : State) : Out :=
  .next <|
    let i := index.toNat
    if i = 0 then s.signedAnswer SpdmCode.measurements nonce [8]
    else if i ≤ 8 then s.signedAnswer SpdmCode.measurements nonce (1 :: s.measureBlock i)
    else if i = 255 then s.signedAnswer SpdmCode.measurements nonce (8 :: (List.range 8).flatMap fun j => s.measureBlock (j + 1))
    else if i = 0xFD then s.spdmError SpdmCode.unsupportedRequest 0xE0
    else s.spdmError SpdmCode.invalidRequest 0xE0

/-- SPDM_UNSUPPORTED_REQUEST: sessions, KEY_EXCHANGE, manifests and every other request. -/
def execSpdmUnsupportedRequest (code : Byte) (s : State) : Out := .next (s.spdmError SpdmCode.unsupportedRequest code)

end Sys2Proof.Machine
end

