-- ==== Sys2Proof/Machine/Dispatch.lean ====
section
/-! DEFINITION. One arm per row of the opcode table. -/
namespace Sys2Proof.Machine

/-- The meaning of an instruction or event. -/
def exec (i : Instr) (s : State) : Host.Outcome State Fault Refusal :=
  match i with
  | .add gd ga gb => Sys2Proof.Machine.execAdd gd ga gb s
  | .sub gd ga gb => Sys2Proof.Machine.execSub gd ga gb s
  | .mul gd ga gb => Sys2Proof.Machine.execMul gd ga gb s
  | .mulh gd ga gb => Sys2Proof.Machine.execMulh gd ga gb s
  | .mulhn gd ga gb => Sys2Proof.Machine.execMulhn gd ga gb s
  | .div gd ga gb => Sys2Proof.Machine.execDiv gd ga gb s
  | .divn gd ga gb => Sys2Proof.Machine.execDivn gd ga gb s
  | .rem gd ga gb => Sys2Proof.Machine.execRem gd ga gb s
  | .remn gd ga gb => Sys2Proof.Machine.execRemn gd ga gb s
  | .and gd ga gb => Sys2Proof.Machine.execAnd gd ga gb s
  | .or gd ga gb => Sys2Proof.Machine.execOr gd ga gb s
  | .xor gd ga gb => Sys2Proof.Machine.execXor gd ga gb s
  | .andn gd ga gb => Sys2Proof.Machine.execAndn gd ga gb s
  | .shl gd ga gb => Sys2Proof.Machine.execShl gd ga gb s
  | .shr gd ga gb => Sys2Proof.Machine.execShr gd ga gb s
  | .sra gd ga gb => Sys2Proof.Machine.execSra gd ga gb s
  | .rotl gd ga gb => Sys2Proof.Machine.execRotl gd ga gb s
  | .min gd ga gb => Sys2Proof.Machine.execMin gd ga gb s
  | .max gd ga gb => Sys2Proof.Machine.execMax gd ga gb s
  | .minn gd ga gb => Sys2Proof.Machine.execMinn gd ga gb s
  | .maxn gd ga gb => Sys2Proof.Machine.execMaxn gd ga gb s
  | .slt gd ga gb => Sys2Proof.Machine.execSlt gd ga gb s
  | .sltn gd ga gb => Sys2Proof.Machine.execSltn gd ga gb s
  | .seq gd ga gb => Sys2Proof.Machine.execSeq gd ga gb s
  | .clz gd ga => Sys2Proof.Machine.execClz gd ga s
  | .ctz gd ga => Sys2Proof.Machine.execCtz gd ga s
  | .popc gd ga => Sys2Proof.Machine.execPopc gd ga s
  | .addi gd ga imm => Sys2Proof.Machine.execAddi gd ga imm s
  | .andi gd ga imm => Sys2Proof.Machine.execAndi gd ga imm s
  | .ori gd ga imm => Sys2Proof.Machine.execOri gd ga imm s
  | .xori gd ga imm => Sys2Proof.Machine.execXori gd ga imm s
  | .shli gd ga imm => Sys2Proof.Machine.execShli gd ga imm s
  | .shri gd ga imm => Sys2Proof.Machine.execShri gd ga imm s
  | .srai gd ga imm => Sys2Proof.Machine.execSrai gd ga imm s
  | .slti gd ga imm => Sys2Proof.Machine.execSlti gd ga imm s
  | .li gd imm => Sys2Proof.Machine.execLi gd imm s
  | .lih gd imm => Sys2Proof.Machine.execLih gd imm s
  | .madd gd ga gb gc => Sys2Proof.Machine.execMadd gd ga gb gc s
  | .bext gd ga pos lenM1 => Sys2Proof.Machine.execBext gd ga pos lenM1 s
  | .bins gd ga pos lenM1 => Sys2Proof.Machine.execBins gd ga pos lenM1 s
  | .sext gd ga lenM1 => Sys2Proof.Machine.execSext gd ga lenM1 s
  | .zext gd ga lenM1 => Sys2Proof.Machine.execZext gd ga lenM1 s
  | .beq ga gb disp => Sys2Proof.Machine.execBeq ga gb disp s
  | .bne ga gb disp => Sys2Proof.Machine.execBne ga gb disp s
  | .blt ga gb disp => Sys2Proof.Machine.execBlt ga gb disp s
  | .bge ga gb disp => Sys2Proof.Machine.execBge ga gb disp s
  | .bltn ga gb disp => Sys2Proof.Machine.execBltn ga gb disp s
  | .bgen ga gb disp => Sys2Proof.Machine.execBgen ga gb disp s
  | .loop ga disp => Sys2Proof.Machine.execLoop ga disp s
  | .jr ga => Sys2Proof.Machine.execJr ga s
  | .ret => Sys2Proof.Machine.execRet s
  | .call frame disp => Sys2Proof.Machine.execCall frame disp s
  | .b disp => Sys2Proof.Machine.execB disp s
  | .ld sz sx gd ga disp => Sys2Proof.Machine.execLd sz sx gd ga disp s
  | .st sz gd ga disp => Sys2Proof.Machine.execSt sz gd ga disp s
  | .ldx sz sx gd ga disp => Sys2Proof.Machine.execLdx sz sx gd ga disp s
  | .stx sz gd ga disp => Sys2Proof.Machine.execStx sz gd ga disp s
  | .ldt sz sx gd ga desc => Sys2Proof.Machine.execLdt sz sx gd ga desc s
  | .stt sz gd ga desc => Sys2Proof.Machine.execStt sz gd ga desc s
  | .dset ga desc => Sys2Proof.Machine.execDset ga desc s
  | .dget ga desc => Sys2Proof.Machine.execDget ga desc s
  | .probe write gd ga desc => Sys2Proof.Machine.execProbe write gd ga desc s
  | .aadd wide gd ga gb => Sys2Proof.Machine.execAadd wide gd ga gb s
  | .amin wide gd ga gb => Sys2Proof.Machine.execAmin wide gd ga gb s
  | .amax wide gd ga gb => Sys2Proof.Machine.execAmax wide gd ga gb s
  | .aminn wide gd ga gb => Sys2Proof.Machine.execAminn wide gd ga gb s
  | .amaxn wide gd ga gb => Sys2Proof.Machine.execAmaxn wide gd ga gb s
  | .aand wide gd ga gb => Sys2Proof.Machine.execAand wide gd ga gb s
  | .aor wide gd ga gb => Sys2Proof.Machine.execAor wide gd ga gb s
  | .axor wide gd ga gb => Sys2Proof.Machine.execAxor wide gd ga gb s
  | .axchg wide gd ga gb => Sys2Proof.Machine.execAxchg wide gd ga gb s
  | .acas wide gd ga gb => Sys2Proof.Machine.execAcas wide gd ga gb s
  | .aaddRemote wide gd ga gb => Sys2Proof.Machine.execAaddRemote wide gd ga gb s
  | .aminRemote wide gd ga gb => Sys2Proof.Machine.execAminRemote wide gd ga gb s
  | .amaxRemote wide gd ga gb => Sys2Proof.Machine.execAmaxRemote wide gd ga gb s
  | .aminnRemote wide gd ga gb => Sys2Proof.Machine.execAminnRemote wide gd ga gb s
  | .amaxnRemote wide gd ga gb => Sys2Proof.Machine.execAmaxnRemote wide gd ga gb s
  | .aandRemote wide gd ga gb => Sys2Proof.Machine.execAandRemote wide gd ga gb s
  | .aorRemote wide gd ga gb => Sys2Proof.Machine.execAorRemote wide gd ga gb s
  | .axorRemote wide gd ga gb => Sys2Proof.Machine.execAxorRemote wide gd ga gb s
  | .axchgRemote wide gd ga gb => Sys2Proof.Machine.execAxchgRemote wide gd ga gb s
  | .acasRemote wide gd ga gb => Sys2Proof.Machine.execAcasRemote wide gd ga gb s
  | .aaddTensor wide gd ga gb desc => Sys2Proof.Machine.execAaddTensor wide gd ga gb desc s
  | .aminTensor wide gd ga gb desc => Sys2Proof.Machine.execAminTensor wide gd ga gb desc s
  | .amaxTensor wide gd ga gb desc => Sys2Proof.Machine.execAmaxTensor wide gd ga gb desc s
  | .aminnTensor wide gd ga gb desc => Sys2Proof.Machine.execAminnTensor wide gd ga gb desc s
  | .amaxnTensor wide gd ga gb desc => Sys2Proof.Machine.execAmaxnTensor wide gd ga gb desc s
  | .aandTensor wide gd ga gb desc => Sys2Proof.Machine.execAandTensor wide gd ga gb desc s
  | .aorTensor wide gd ga gb desc => Sys2Proof.Machine.execAorTensor wide gd ga gb desc s
  | .axorTensor wide gd ga gb desc => Sys2Proof.Machine.execAxorTensor wide gd ga gb desc s
  | .axchgTensor wide gd ga gb desc => Sys2Proof.Machine.execAxchgTensor wide gd ga gb desc s
  | .acasTensor wide gd ga gb desc => Sys2Proof.Machine.execAcasTensor wide gd ga gb desc s
  | .pfx m second => Sys2Proof.Machine.execPfx m second s
  | .fence scope => Sys2Proof.Machine.execFence scope s
  | .acqx ga => Sys2Proof.Machine.execAcqx ga s
  | .acqs ga => Sys2Proof.Machine.execAcqs ga s
  | .rel ga => Sys2Proof.Machine.execRel ga s
  | .bind ga gb => Sys2Proof.Machine.execBind ga gb s
  | .unbind ga gb => Sys2Proof.Machine.execUnbind ga gb s
  | .sigwait gd ga gb => Sys2Proof.Machine.execSigwait gd ga gb s
  | .qpush q gs => Sys2Proof.Machine.execQpush q gs s
  | .qpop gd q => Sys2Proof.Machine.execQpop gd q s
  | .qtry gd q => Sys2Proof.Machine.execQtry gd q s
  | .qpeek gd q => Sys2Proof.Machine.execQpeek gd q s
  | .qcnt gd q => Sys2Proof.Machine.execQcnt gd q s
  | .qpushx gs q gr => Sys2Proof.Machine.execQpushx gs q gr s
  | .barset bar ga => Sys2Proof.Machine.execBarset bar ga s
  | .barv bar => Sys2Proof.Machine.execBarv bar s
  | .barw bar => Sys2Proof.Machine.execBarw bar s
  | .bart gd bar => Sys2Proof.Machine.execBart gd bar s
  | .barws gd bar ga => Sys2Proof.Machine.execBarws gd bar ga s
  | .opwait gd ga => Sys2Proof.Machine.execOpwait gd ga s
  | .opcancel ga => Sys2Proof.Machine.execOpcancel ga s
  | .optest gd ga => Sys2Proof.Machine.execOptest gd ga s
  | .opprio ga gb => Sys2Proof.Machine.execOpprio ga gb s
  | .opdetach ga => Sys2Proof.Machine.execOpdetach ga s
  | .launch ga => Sys2Proof.Machine.execLaunch ga s
  | .exit => Sys2Proof.Machine.execExit s
  | .brk => Sys2Proof.Machine.execBrk s
  | .publish => Sys2Proof.Machine.execPublish s
  | .fmtset f ga => Sys2Proof.Machine.execFmtset f ga s
  | .fmtget gd f => Sys2Proof.Machine.execFmtget gd f s
  | .rdsc gd => Sys2Proof.Machine.execRdsc gd s
  | .rndkLo gd ga gb => Sys2Proof.Machine.execRndkLo gd ga gb s
  | .rndkHi gd ga gb => Sys2Proof.Machine.execRndkHi gd ga gb s
  | .trap n => Sys2Proof.Machine.execTrap n s
  | .ctlrd gd index => Sys2Proof.Machine.execCtlrd gd index s
  | .ctlwr index ga => Sys2Proof.Machine.execCtlwr index ga s
  | .pondWrite p ga => Sys2Proof.Machine.execPondWrite p ga s
  | .spillWrite ga => Sys2Proof.Machine.execSpillWrite ga s
  | .perfClear ga => Sys2Proof.Machine.execPerfClear ga s
  | .perfFreeze ga => Sys2Proof.Machine.execPerfFreeze ga s
  | .yield disp => Sys2Proof.Machine.execYield disp s
  | .illegalInstructionWord w0 w1 => Sys2Proof.Machine.execIllegalInstructionWord w0 w1 s
  | .instructionFetchFault page straddle absent => Sys2Proof.Machine.execInstructionFetchFault page straddle absent s
  | .vadd f => Sys2Proof.Machine.execVadd f s
  | .vsub f => Sys2Proof.Machine.execVsub f s
  | .vmul f => Sys2Proof.Machine.execVmul f s
  | .vfma f => Sys2Proof.Machine.execVfma f s
  | .vfms f => Sys2Proof.Machine.execVfms f s
  | .vfnma f => Sys2Proof.Machine.execVfnma f s
  | .vmin f => Sys2Proof.Machine.execVmin f s
  | .vmax f => Sys2Proof.Machine.execVmax f s
  | .vabs f => Sys2Proof.Machine.execVabs f s
  | .vneg f => Sys2Proof.Machine.execVneg f s
  | .vrcp f => Sys2Proof.Machine.execVrcp f s
  | .vrsq f => Sys2Proof.Machine.execVrsq f s
  | .vsqrt f => Sys2Proof.Machine.execVsqrt f s
  | .vdiv f => Sys2Proof.Machine.execVdiv f s
  | .vexp2 f => Sys2Proof.Machine.execVexp2 f s
  | .vlog2 f => Sys2Proof.Machine.execVlog2 f s
  | .vcmp f => Sys2Proof.Machine.execVcmp f s
  | .vsel f => Sys2Proof.Machine.execVsel f s
  | .vand f => Sys2Proof.Machine.execVand f s
  | .vor f => Sys2Proof.Machine.execVor f s
  | .vxor f => Sys2Proof.Machine.execVxor f s
  | .vshl f => Sys2Proof.Machine.execVshl f s
  | .vshr f => Sys2Proof.Machine.execVshr f s
  | .vsra f => Sys2Proof.Machine.execVsra f s
  | .viadd f => Sys2Proof.Machine.execViadd f s
  | .visub f => Sys2Proof.Machine.execVisub f s
  | .vimul f => Sys2Proof.Machine.execVimul f s
  | .vcvt f => Sys2Proof.Machine.execVcvt f s
  | .vbcast f => Sys2Proof.Machine.execVbcast f s
  | .vbcastRows f => Sys2Proof.Machine.execVbcastRows f s
  | .vbcastCols f => Sys2Proof.Machine.execVbcastCols f s
  | .vmov f => Sys2Proof.Machine.execVmov f s
  | .vmovToG f => Sys2Proof.Machine.execVmovToG f s
  | .vmovFromG f => Sys2Proof.Machine.execVmovFromG f s
  | .vld f => Sys2Proof.Machine.execVld f s
  | .vst f => Sys2Proof.Machine.execVst f s
  | .vred f => Sys2Proof.Machine.execVred f s
  | .vscan f => Sys2Proof.Machine.execVscan f s
  | .vperm f => Sys2Proof.Machine.execVperm f s
  | .vtrans f => Sys2Proof.Machine.execVtrans f s
  | .vrng f => Sys2Proof.Machine.execVrng f s
  | .vidx f => Sys2Proof.Machine.execVidx f s
  | .kand f => Sys2Proof.Machine.execKand f s
  | .kor f => Sys2Proof.Machine.execKor f s
  | .knot f => Sys2Proof.Machine.execKnot f s
  | .kpop f => Sys2Proof.Machine.execKpop f s
  | .tload r => Sys2Proof.Machine.execTload r s
  | .tgather r => Sys2Proof.Machine.execTgather r s
  | .sload r => Sys2Proof.Machine.execSload r s
  | .xpull r => Sys2Proof.Machine.execXpull r s
  | .fill r => Sys2Proof.Machine.execFill r s
  | .mcred r => Sys2Proof.Machine.execMcred r s
  | .rload r => Sys2Proof.Machine.execRload r s
  | .wload r => Sys2Proof.Machine.execWload r s
  | .wswap r => Sys2Proof.Machine.execWswap r s
  | .mma r => Sys2Proof.Machine.execMma r s
  | .mmas r => Sys2Proof.Machine.execMmas r s
  | .mdrain r => Sys2Proof.Machine.execMdrain r s
  | .mdrainDirect r => Sys2Proof.Machine.execMdrainDirect r s
  | .mzero r => Sys2Proof.Machine.execMzero r s
  | .mchain r => Sys2Proof.Machine.execMchain r s
  | .mcopy r => Sys2Proof.Machine.execMcopy r s
  | .tstore r => Sys2Proof.Machine.execTstore r s
  | .tscatter r => Sys2Proof.Machine.execTscatter r s
  | .tred r => Sys2Proof.Machine.execTred r s
  | .rstore r => Sys2Proof.Machine.execRstore r s
  | .rsig r => Sys2Proof.Machine.execRsig r s
  | .xpush r => Sys2Proof.Machine.execXpush r s
  | .recordAccept t c => Sys2Proof.Machine.execRecordAccept t c s
  | .blockedInstructionRetry t c => Sys2Proof.Machine.execBlockedInstructionRetry t c s
  | .operationStart t e => Sys2Proof.Machine.execOperationStart t e s
  | .engineIteration t e => Sys2Proof.Machine.execEngineIteration t e s
  | .tokenPendingAppend t e => Sys2Proof.Machine.execTokenPendingAppend t e s
  | .queuedCancelComplete t e => Sys2Proof.Machine.execQueuedCancelComplete t e s
  | .stampExpiry t e => Sys2Proof.Machine.execStampExpiry t e s
  | .mchainRendezvous t => Sys2Proof.Machine.execMchainRendezvous t s
  | .gangTokenAccept t q => Sys2Proof.Machine.execGangTokenAccept t q s
  | .barrierArrival t bar => Sys2Proof.Machine.execBarrierArrival t bar s
  | .barwWake t c => Sys2Proof.Machine.execBarwWake t c s
  | .sigwaitTimeout t c => Sys2Proof.Machine.execSigwaitTimeout t c s
  | .localDeadlock t => Sys2Proof.Machine.execLocalDeadlock t s
  | .gangDeadlock p node => Sys2Proof.Machine.execGangDeadlock p node s
  | .preemptRequest t => Sys2Proof.Machine.execPreemptRequest t s
  | .preemptDeadline t => Sys2Proof.Machine.execPreemptDeadline t s
  | .tileSave t => Sys2Proof.Machine.execTileSave t s
  | .saveComplete t => Sys2Proof.Machine.execSaveComplete t s
  | .saveLimitExpiry t => Sys2Proof.Machine.execSaveLimitExpiry t s
  | .tileFreeze t => Sys2Proof.Machine.execTileFreeze t s
  | .firmwareResolve t => Sys2Proof.Machine.execFirmwareResolve t s
  | .tileResume t => Sys2Proof.Machine.execTileResume t s
  | .gangRestore t => Sys2Proof.Machine.execGangRestore t s
  | .tileWakeBegin t => Sys2Proof.Machine.execTileWakeBegin t s
  | .tileWakeComplete t => Sys2Proof.Machine.execTileWakeComplete t s
  | .gangRelease p node => Sys2Proof.Machine.execGangRelease p node s
  | .tileClockGate t => Sys2Proof.Machine.execTileClockGate t s
  | .fabricResponse t u ans => Sys2Proof.Machine.execFabricResponse t u ans s
  | .fabricTimeout t u => Sys2Proof.Machine.execFabricTimeout t u s
  | .postedFailure t module f => Sys2Proof.Machine.execPostedFailure t module f s
  | .fabricRequestArrival die tag offset req => Sys2Proof.Machine.execFabricRequestArrival die tag offset req s
  | .signalPerform t module => Sys2Proof.Machine.execSignalPerform t module s
  | .remoteScratchAccess t c => Sys2Proof.Machine.execRemoteScratchAccess t c s
  | .pageWalk die p root va acc => Sys2Proof.Machine.execPageWalk die p root va acc s
  | .shootDown p root va len dies => Sys2Proof.Machine.execShootDown p root va len dies s
  | .nodeRetirement p node => Sys2Proof.Machine.execNodeRetirement p node s
  | .nodeFiring p node => Sys2Proof.Machine.execNodeFiring p node s
  | .faultReport t => Sys2Proof.Machine.execFaultReport t s
  | .attemptEnd p node => Sys2Proof.Machine.execAttemptEnd p node s
  | .preemptionDecision p => Sys2Proof.Machine.execPreemptionDecision p s
  | .placement p node picks => Sys2Proof.Machine.execPlacement p node picks s
  | .reservationReply p node refused => Sys2Proof.Machine.execReservationReply p node refused s
  | .coneWalkStep p => Sys2Proof.Machine.execConeWalkStep p s
  | .nodeAgeing p node => Sys2Proof.Machine.execNodeAgeing p node s
  | .backfillLimit p => Sys2Proof.Machine.execBackfillLimit p s
  | .ringDoorbell r w => Sys2Proof.Machine.execRingDoorbell r w s
  | .ringStart r => Sys2Proof.Machine.execRingStart r s
  | .ringResume r => Sys2Proof.Machine.execRingResume r s
  | .ringStop r => Sys2Proof.Machine.execRingStop r s
  | .packetAccept r => Sys2Proof.Machine.execPacketAccept r s
  | .packetReread r => Sys2Proof.Machine.execPacketReread r s
  | .packetStart r => Sys2Proof.Machine.execPacketStart r s
  | .nop p k => Sys2Proof.Machine.execNop p k s
  | .submitNode p k node => Sys2Proof.Machine.execSubmitNode p k node s
  | .submitGraph p k graph => Sys2Proof.Machine.execSubmitGraph p k graph s
  | .cancelNode p k node => Sys2Proof.Machine.execCancelNode p k node s
  | .abortGraph p k graph => Sys2Proof.Machine.execAbortGraph p k graph s
  | .map p k addr len frame flags => Sys2Proof.Machine.execMap p k addr len frame flags s
  | .unmap p k addr len => Sys2Proof.Machine.execUnmap p k addr len s
  | .discard p k addr len => Sys2Proof.Machine.execDiscard p k addr len s
  | .groupSet p k group g list => Sys2Proof.Machine.execGroupSet p k group g list s
  | .groupBind p k group => Sys2Proof.Machine.execGroupBind p k group s
  | .groupUnbind p k group => Sys2Proof.Machine.execGroupUnbind p k group s
  | .exportPages p k offset len addr flags => Sys2Proof.Machine.execExportPages p k offset len addr flags s
  | .unexportPages p k offset len => Sys2Proof.Machine.execUnexportPages p k offset len s
  | .partCreate k p clusters base len tag => Sys2Proof.Machine.execPartCreate k p clusters base len tag s
  | .partReset k p => Sys2Proof.Machine.execPartReset k p s
  | .partDestroy k p => Sys2Proof.Machine.execPartDestroy k p s
  | .loadImage k addr len => Sys2Proof.Machine.execLoadImage k addr len s
  | .eventHeadWrite p head => Sys2Proof.Machine.execEventHeadWrite p head s
  | .apertureRead p addr len => Sys2Proof.Machine.execApertureRead p addr len s
  | .apertureWrite p addr bytes => Sys2Proof.Machine.execApertureWrite p addr bytes s
  | .hostReadTimeout t u => Sys2Proof.Machine.execHostReadTimeout t u s
  | .linkPortFailure port => Sys2Proof.Machine.execLinkPortFailure port s
  | .linkPortRecovery port => Sys2Proof.Machine.execLinkPortRecovery port s
  | .powerClamp => Sys2Proof.Machine.execPowerClamp s
  | .fabidWrite v => Sys2Proof.Machine.execFabidWrite v s
  | .powerOnReset => Sys2Proof.Machine.execPowerOnReset s
  | .fabricTraining => Sys2Proof.Machine.execFabricTraining s
  | .scrub t off => Sys2Proof.Machine.execScrub t off s
  | .bankRetirement t bank => Sys2Proof.Machine.execBankRetirement t bank s
  | .registerWrite who pa v => Sys2Proof.Machine.execRegisterWrite who pa v s
  | .getVersion => Sys2Proof.Machine.execGetVersion s
  | .getCapabilities => Sys2Proof.Machine.execGetCapabilities s
  | .negotiateAlgorithms asym hash => Sys2Proof.Machine.execNegotiateAlgorithms asym hash s
  | .getDigests => Sys2Proof.Machine.execGetDigests s
  | .getCertificate slot offset len => Sys2Proof.Machine.execGetCertificate slot offset len s
  | .challenge slot nonce => Sys2Proof.Machine.execChallenge slot nonce s
  | .getMeasurements index nonce => Sys2Proof.Machine.execGetMeasurements index nonce s
  | .spdmUnsupportedRequest code => Sys2Proof.Machine.execSpdmUnsupportedRequest code s
  | .debugStop p markq cutid => Sys2Proof.Machine.execDebugStop p markq cutid s
  | .debugResume p => Sys2Proof.Machine.execDebugResume p s
  | .debugRelease p => Sys2Proof.Machine.execDebugRelease p s
  | .debugStopComplete p node => Sys2Proof.Machine.execDebugStopComplete p node s
  | .hashRequest p => Sys2Proof.Machine.execHashRequest p s
  | .hashUpdate p => Sys2Proof.Machine.execHashUpdate p s
  | .traceMarker t => Sys2Proof.Machine.execTraceMarker t s
  | .traceHeadPoll t => Sys2Proof.Machine.execTraceHeadPoll t s
  | .seicheTick => Sys2Proof.Machine.execSeicheTick s
  | .countedCycle t leaves => Sys2Proof.Machine.execCountedCycle t leaves s
  | .thermalLimit mhz => Sys2Proof.Machine.execThermalLimit mhz s
  | .softError t where_ correctable => Sys2Proof.Machine.execSoftError t where_ correctable s
  | .fabricRouteLoss module why => Sys2Proof.Machine.execFabricRouteLoss module why s
  | .hostWindowReadCompletion t u => Sys2Proof.Machine.execHostWindowReadCompletion t u s

end Sys2Proof.Machine
end

