-- ==== Sys2Proof/Machine/Step.lean ====
section
/-! DEFINITION. One step of the machine, and an instruction placed where the next step fetches it. -/
namespace Sys2Proof.Machine

/-- A core's step: it fetches its unit whole and runs it; a core that may not fetch does nothing. -/
def coreStep (t : TileId) (c : CoreId) (s : State) : Out :=
  let s := { s with curTile := t, curCore := c }
  if canFetch s t.val c then
    match fetchUnit s t.val c with
    | (.unit l, s) => exec (instrOf l) (s.begins l)
    | (.fetchFault page straddle absent, s) => exec (.instructionFetchFault (BitVec.ofNat 56 page) straddle absent) s
    | (u, s) => .next (s.fetchStop u)
  else .next s

/-- What an agent does when it moves. -/
def act (a : Act) (s : State) : Out :=
  match a with
  | .core t c => coreStep t c s
  | .event i => exec i s

/-- One step: the head of the agenda moves; where the agenda is empty, the free value says who moves (log 1). -/
def step (s : State) : Host.Outcome State Fault Refusal :=
  match s.agenda with
  | a :: rest => act a { s with agenda := rest }
  | [] =>
    match Config.schedule s.choices with
    | some a => act a s.draw
    | none => .next s.draw

/-- The core that runs a unit whose first word is `w`: the X-core a vector, its engine's owner a record, else the L-core. -/
def coreFor (w : Nat) : CoreId :=
  if field w 26 6 = 0x3E then .x
  else if field w 26 6 = 0x3D then (if field w 20 6 < 0x10 then .l else if field w 20 6 < 0x20 then .x else .w)
  else .l

/-- Page tables of four levels at physical 0x200000 on that map virtual page 0 to the frame at 0x20A000, readable and
executable, with their bytes; the unit's 64 bytes at that frame. -/
def fetchImage (w : Nat) (m : Memory) : Memory :=
  ((((m.writeLE 0x200000 8 (0x400000 + 1)).writeLE 0x400000 8 (0x402000 + 1)).writeLE 0x402000 8 (0x404000 + 1)).writeLE
    0x404000 8 (0x20A000 + 0x17)).writeLE 0x20A000 64 w

/-- The state with the unit `w` placed where the very next step fetches it: partition 0's space is enabled on die 0 with
tables that map page 0, tile 0 runs, and the agenda's head is the core that may run the unit (log 3). -/
def State.withFetchWord (s : State) (nbits w : Nat) : State :=
  let w := w % 2 ^ nbits
  let c := coreFor w
  let x := s.tile 0
  let k := x.core c
  let d := s.die 0
  { s with
    agenda := [.core 0 c]
    mem := fetchImage w s.mem
    memBad := []
    olds := []
    dies := SMap.put s.dies 0 { d with xlt := SMap.put d.xlt 0 { en := true, root := 1 }, kept := [] }
    tiles := SMap.put s.tiles 0
      ({ x with life := { x.life with phase := .running, seat := some { part := 0, node := 0, rank := 0, attempt := 1 } }
                trace := { x.trace with waiting := [] } }.setCore c
        { k with run := .running, pc := 0, wait := .none }) }

end Sys2Proof.Machine
end

