-- ==== Sys2Proof/Safety.lean ====
section
/-! DEFINITION. What counts as a safe run: it never refuses, and it never leaves the canonical form of memory. -/
namespace Sys2Proof

/-- A step that goes on. -/
def goesOn (s : Machine.State) : Prop := ∃ s', Machine.step s = .next s'

/-- The byte stores of a tile in canonical form: its scratchpad, its scale memory, and the scales and metadata of its planes. -/
def canonicalTile (m : Machine.TileMem) : Bool :=
  Machine.Memory.wf m.scratch && Machine.Memory.wf m.scale &&
  Machine.Memory.wf m.act.scale && Machine.Memory.wf m.act.meta_ && Machine.Memory.wf m.shd.scale && Machine.Memory.wf m.shd.meta_

/-- The byte stores of a state are in canonical form: HBM, host memory, the management region, the memory of every peer, and those of
every tile and of every saved image of a tile. -/
def canonical (s : Machine.State) : Bool :=
  Machine.Memory.wf s.mem && Machine.Memory.wf s.host && Machine.Memory.wf s.hub.mgmt &&
  s.peers.all (fun x => x.2.mem.all fun m => Machine.Memory.wf m.2) &&
  s.tiles.all (fun x => canonicalTile x.2.mem) &&
  s.parts.all fun x => x.2.sched.nodes.all fun n => n.saves.all fun y => canonicalTile y.2.mem

end Sys2Proof
end

