-- ==== Sys2Proof/Certificates/Slice0/Obligations.lean ====
section
/-! DEFINITION. The statements for the provers. -/
open Sys2Proof Sys2Proof.Machine

namespace Sys2Proof.Claims

/-- A read of these registers finds no error: none is uncorrectable (18 R430), none correctable (18 R429). -/
def clean (s : State) (rs : List Reg) : Prop := s.core.badReg rs = none ∧ s.core.foundRegs rs = []

/-- No error lies latent in n bytes of tile t's scratchpad at off: a read of them finds none (18 R429). -/
def noLatent (s : State) (t off n : Nat) : Prop := (s.tile t).mem.latentIn off n = []

/-- gd takes v, unless it is g0, and the core stands n bytes on: nothing else of the machine differs. -/
def wrote (s : State) (gd : Reg) (v : Word) (n : Nat) : State := (s.setG gd v).skip n

/-- The running core after a conditional branch: at its target or at the next word; the trace writer has the outcome. -/
def branched (s : State) (disp : BitVec 16) (taken : Bool) : State :=
  (if taken then s.goto (s.core.pc + BitVec.ofInt 56 (4 * disp.toInt)) else s.skip 4).traceBranch taken

/-- The counters of a tile once its pending write of `ctl.perf.ctl` has taken effect (20 R474). -/
def perfSettled (p : Perf) : Perf :=
  match p.next with
  | none => p
  | some w => { cycles := if w.clear then 0 else p.cycles, leaf := if w.clear then [] else p.leaf, freeze := w.freeze, next := none }

/-- Whether core c has written `ctl.perf.ctl` in a cycle whose end its core has passed since: its next access finds the write
done. -/
def perfOwn (s : State) : Bool := s.me.perf.next.any fun w => w.cores.contains s.curCore

/-- The counters after the running core writes v to `ctl.perf.ctl`: an own write that waited takes effect first, and the new
one joins one that another core made in the same cycle (20 R474; log 89). -/
def perfWritten (s : State) (v : Nat) : Perf :=
  let p := if perfOwn s then perfSettled s.me.perf else s.me.perf
  { p with next := some { cores := s.curCore :: (p.next.map PerfWrite.cores).getD [], freeze := decide (v % 2 = 1)
                          clear := (p.next.map PerfWrite.clear).getD false || decide (v / 2 % 2 = 1) } }

/-- The words of an array with an uncorrectable error, and those with a correctable one, after an error in word n (18 R429,
R430). -/
def badAfter (correctable : Bool) (n : Nat) (bad : List Nat) : List Nat := if correctable then bad else insertNat bad n
def ceAfter (correctable : Bool) (n : Nat) (bad ce : List Nat) : List Nat :=
  if correctable then (if bad.contains n then ce else insertNat ce n) else eraseNat ce n

/-- n correctable errors counted in CE of tile t, which stops at its greatest value (18 Table 18.6). -/
def ceCounted (s : State) (t n : Nat) : State :=
  s.setTile t { s.tile t with prv := { (s.tile t).prv with ce := min ((s.tile t).prv.ce + n) 0xFFFFFFFF } }

/-- The state once the running core has read registers with correctable errors: they are corrected, written back and counted
(18 R429). -/
def gFound (s : State) (rs : List Reg) : State :=
  ceCounted (s.setCore { s.core with gCe := s.core.gCe.filter fun r => !(s.core.foundRegs rs).contains r }) s.curTile.val
    (s.core.foundRegs rs).length

/-- The frames may stay resident (08 R177). -/
def Resident (fs : List Frame) : Prop := (fs.map Frame.size).sum ≤ 108 ∧ fs.length ≤ 32

/-- The bytes that frames take when they spill: 8 × (F + 1) each (08 R177). -/
def spillSize (fs : List Frame) : Nat := (fs.map fun f => 8 * (f.size + 1)).sum

/-- A loaded value of n bytes as a register value (09 R214). -/
def loaded (sx : Bool) (n v : Nat) : Word :=
  if sx then BitVec.ofInt 64 ((BitVec.ofNat (8 * n) v).toInt) else BitVec.ofNat 64 (v % 2 ^ (8 * n))

/-- The layout record and the coordinate of a tensor access name n bytes of an element at byte address va (09 R217). -/
def TensorAt (s : State) (desc : Nat) (ga : Reg) (n : Nat) (d : Layout) (va : Nat) (s1 : State) : Prop :=
  ∃ rs b sc, readLayout s s.curTile.val s.me.ctl.fmt desc s.core.pc.toNat = (.ok d, s1) ∧
    coordRegs ga d.rank = some rs ∧ clean s1 rs ∧
    addressOf d (entryOf s1.me.ctl.fmt d.fidx) (rs.map fun r => (s1.g r).toInt) = .at_ b sc ∧
    b % 8 = 0 ∧ b / 8 = va ∧ va % n = 0

/-- The coordinate of a tensor access is OUTSIDE (05 R125). -/
def TensorOutside (s : State) (desc : Nat) (ga : Reg) (d : Layout) (s1 : State) : Prop :=
  ∃ rs, readLayout s s.curTile.val s.me.ctl.fmt desc s.core.pc.toNat = (.ok d, s1) ∧
    coordRegs ga d.rank = some rs ∧ clean s1 rs ∧
    addressOf d (entryOf s1.me.ctl.fmt d.fidx) (rs.map fun r => (s1.g r).toInt) = .outside

/-- The faults of a tensor access of n bytes before its address is used, in the order of 09 R217: the coordinate passes g31,
or its address is out of range (DESCRIPTOR_INVALID), or it is misaligned. -/
def TensorRefused (s : State) (desc : Nat) (ga : Reg) (n : Nat) (s1 : State) (code detail : Nat) : Prop :=
  ∃ d, readLayout s s.curTile.val s.me.ctl.fmt desc s.core.pc.toNat = (.ok d, s1) ∧
    ((32 < ga.val + d.rank ∧ code = Code.descriptorInvalid ∧ detail = desc) ∨
     ∃ rs, coordRegs ga d.rank = some rs ∧ clean s1 rs ∧
      ((addressOf d (entryOf s1.me.ctl.fmt d.fidx) (rs.map fun r => (s1.g r).toInt) = .bad ∧
        code = Code.descriptorInvalid ∧ detail = desc) ∨
       ∃ b sc, addressOf d (entryOf s1.me.ctl.fmt d.fidx) (rs.map fun r => (s1.g r).toInt) = .at_ b sc ∧
        (b % 8 ≠ 0 ∨ b / 8 % n ≠ 0) ∧ code = Code.alignment ∧ detail = b / 8))

/-- An atomic done on n bytes at an offset of a tile's scratchpad: the new value is written, if any, and gd takes the old one.
-/
def atomDone (s : State) (t off n : Nat) (gd : Reg) (old : Nat) (new : Option Nat) (len : Nat) : State :=
  wrote (match new with
    | some v => s.writeScratch t off (leBytes v n)
    | none => s) gd (BitVec.ofNat 64 old) len

/-- NEXT, SERVE, READERS and the low 16 bits of a cell's word (07 Table 7.4). -/
def cellFields (v : Nat) : Nat × Nat × Nat × Nat := (v / 2 ^ 48, v / 2 ^ 32 % 2 ^ 16, v / 2 ^ 16 % 2 ^ 16, v % 2 ^ 16)

/-- Lane l of a panel operand (11 Table 11.1). -/
def laneOf (s : State) (o : VOpnd) (l : Nat) : Nat := s.me.mem.elemAt (o.key l)

/-- The active lanes among the first n, in rising order (11 R259). -/
def activeLanes (s : State) (km n : Nat) : List Nat := (List.range n).filter fun l => (s.me.mem.maskOf km).getLsbD l

/-- A read of these masks and elements finds no error: none is uncorrectable (11 R260), none correctable (18 R429). -/
def readable (s : State) (masks keys : List Nat) : Prop :=
  s.me.mem.vecPoison masks keys = none ∧ (∀ i ∈ s.me.mem.maskCe, i / 8 ∉ masks) ∧ ∀ i ∈ s.me.mem.panelCe, i ∉ keys

/-- Some lanes of an operand written, and the core past the two words: nothing else differs. -/
def lanesWritten (s : State) (dst : VOpnd) (ls : List Nat) (v : Nat → Nat) : State :=
  (s.setMem (s.me.mem.writeElems (ls.map fun l => (dst.key l, v l)))).skip 8

/-- The rounding mode and the SAT bit that RM selects (08 R185). -/
def roundingOf (s : State) (rm : Nat) : Nat × Bool :=
  if rm = 15 then (s.me.ctl.round % 8, decide (s.me.ctl.round / 8 % 2 = 1)) else (rm % 8, decide (8 ≤ rm))

/-- The 16 lanes of group r of an operand, those that the mask leaves out absent (11 R276). -/
def presentLanes (s : State) (km : Nat) (o : VOpnd) (r : Nat) : List (Option Nat) :=
  (List.range 16).map fun l => if (s.me.mem.maskOf km).getLsbD (16 * r + l) then some (laneOf s o (16 * r + l)) else none

/-- Two values of a tree, an absent one passing the other through (11 R277). -/
def joined (f : Nat → Nat → Nat) : Option Nat → Option Nat → Option Nat
  | none, y => y
  | x, none => x
  | some x, some y => some (f x y)

/-- Value i at level L of the tree of 11 R277 over the values v. -/
def treeAt (f : Nat → Nat → Nat) (v : Nat → Option Nat) : Nat → Nat → Option Nat
  | 0, i => v i
  | lvl + 1, i => joined f (treeAt f v lvl (2 * i)) (treeAt f v lvl (2 * i + 1))

/-- The combination of values 0 to j, left to right (11 R278). -/
def prefixAt (f : Nat → Nat → Nat) (v : Nat → Option Nat) : Nat → Option Nat
  | 0 => v 0
  | j + 1 => joined f (prefixAt f v j) (v (j + 1))

/-- The record instruction of a kind. -/
def recordOf : RecKind → Rec → Instr
  | .tload, r => .tload r
  | .tgather, r => .tgather r
  | .sload, r => .sload r
  | .xpull, r => .xpull r
  | .fill, r => .fill r
  | .mcred, r => .mcred r
  | .rload, r => .rload r
  | .wload, r => .wload r
  | .wswap, r => .wswap r
  | .mma, r => .mma r
  | .mmas, r => .mmas r
  | .mdrain, r => .mdrain r
  | .mdrainDirect, r => .mdrainDirect r
  | .mzero, r => .mzero r
  | .mchain, r => .mchain r
  | .mcopy, r => .mcopy r
  | .tstore, r => .tstore r
  | .tscatter, r => .tscatter r
  | .tred, r => .tred r
  | .rstore, r => .rstore r
  | .rsig, r => .rsig r
  | .xpush, r => .xpush r

/-- What the checks of an issue look at: DRAIN of the transfer block is read for `tstore` and `rstore` alone (12 R289). -/
def IssueReads (s : State) (k : RecKind) (r : Rec) (c : IssueCtx) : Prop :=
  (k.mayDrain = false ∧ c = s.me.issueCtx false) ∨
  (k.mayDrain = true ∧ 64 * r.h .d + 64 ≤ 0x200000 ∧ noLatent s s.curTile.val (64 * r.h .d + 8) 8 ∧ s.me.readFails (64 * r.h .d + 8) 8 = none ∧
    c = s.me.issueCtx (bit (s.me.mem.scratch.readLE (64 * r.h .d + 8) 8) 53))

/-- A record that passes every check of its issue in the cycle it is made (12 R289 steps 2 to 6, R295, R311). -/
def Admitted (s : State) (k : RecKind) (r : Rec) (c : IssueCtx) : Prop :=
  IssueReads s k r c ∧ fieldWords k c (tileTic s.curTile.val) r = [] ∧ pondStepWords k c r = [] ∧ formatStep k c r = none ∧
  lateWords k c r = [] ∧ (k = .mchain → ∀ t ∈ chainTiles s.curTile.val r, sameNode s.me (s.tile t) = true) ∧
  (bit s.me.ctl.node.toNat 58 = true → overlapWith s.me (newOp s k c r) = none) ∧
  (r.stamp = true → (s.seiche : Int) ≤ stampTick s.seiche r.w14.toNat)

/-- A started packet of partition p's own ring, by its opcode and operands (19 R443). -/
def Started (s : State) (p : PartId) (c : PktCtx) (op : Nat) (ops : List Word) (k : Packet) : Prop :=
  c.ring.owner = some p.val ∧ s.openPacket c op ops = some k

/-- A started packet of the admin ring, by its opcode and operands, from stage 7 on (19 R458). -/
def AdminStarted (s : State) (c : PktCtx) (op : Nat) (ops : List Word) (k : Packet) : Prop :=
  c.ring = .admin ∧ 7 ≤ s.hub.stage ∧ s.openPacket c op ops = some k

/-- The instructions that read registers of their core, write one register and do nothing else: gd and what they read, in the
order in which they are checked (09 Tables 9.1 to 9.3, R206; 10 R252, R255, R256; 06 R137; 10 R231). -/
def registerForm : Instr → Option (Reg × List Reg)
  | .add gd ga gb => some (gd, [ga, gb])
  | .sub gd ga gb => some (gd, [ga, gb])
  | .mul gd ga gb => some (gd, [ga, gb])
  | .mulh gd ga gb => some (gd, [ga, gb])
  | .mulhn gd ga gb => some (gd, [ga, gb])
  | .div gd ga gb => some (gd, [ga, gb])
  | .divn gd ga gb => some (gd, [ga, gb])
  | .rem gd ga gb => some (gd, [ga, gb])
  | .remn gd ga gb => some (gd, [ga, gb])
  | .and gd ga gb => some (gd, [ga, gb])
  | .or gd ga gb => some (gd, [ga, gb])
  | .xor gd ga gb => some (gd, [ga, gb])
  | .andn gd ga gb => some (gd, [ga, gb])
  | .shl gd ga gb => some (gd, [ga, gb])
  | .shr gd ga gb => some (gd, [ga, gb])
  | .sra gd ga gb => some (gd, [ga, gb])
  | .rotl gd ga gb => some (gd, [ga, gb])
  | .min gd ga gb => some (gd, [ga, gb])
  | .max gd ga gb => some (gd, [ga, gb])
  | .minn gd ga gb => some (gd, [ga, gb])
  | .maxn gd ga gb => some (gd, [ga, gb])
  | .slt gd ga gb => some (gd, [ga, gb])
  | .sltn gd ga gb => some (gd, [ga, gb])
  | .seq gd ga gb => some (gd, [ga, gb])
  | .clz gd ga => some (gd, [ga])
  | .ctz gd ga => some (gd, [ga])
  | .popc gd ga => some (gd, [ga])
  | .addi gd ga _ => some (gd, [ga])
  | .andi gd ga _ => some (gd, [ga])
  | .ori gd ga _ => some (gd, [ga])
  | .xori gd ga _ => some (gd, [ga])
  | .shli gd ga _ => some (gd, [ga])
  | .shri gd ga _ => some (gd, [ga])
  | .srai gd ga _ => some (gd, [ga])
  | .slti gd ga _ => some (gd, [ga])
  | .li gd _ => some (gd, [])
  | .lih gd _ => some (gd, [gd])
  | .madd gd ga gb gc => some (gd, [ga, gb, gc])
  | .bext gd ga _ _ => some (gd, [ga])
  | .bins gd ga _ _ => some (gd, [gd, ga])
  | .sext gd ga _ => some (gd, [ga])
  | .zext gd ga _ => some (gd, [ga])
  | .fmtget gd _ => some (gd, [])
  | .rdsc gd => some (gd, [])
  | .rndkLo gd ga gb => if gb.val = 31 then none else some (gd, [ga, gb, nextReg gb])
  | .rndkHi gd ga gb => if gb.val = 31 then none else some (gd, [ga, gb, nextReg gb])
  | .qcnt gd _ => some (gd, [])
  | .bart gd _ => some (gd, [])
  | _ => none

/-- The instructions that change the flow of their core or a register of it or of its tile: the general registers that each
may write (09 R209 to R212, R227; 10 R250 to R255; 05 R112; 08 R178; 20 R473, R474). -/
def controlForm : Instr → Option (List Reg)
  | .beq _ _ _ => some []
  | .bne _ _ _ => some []
  | .blt _ _ _ => some []
  | .bge _ _ _ => some []
  | .bltn _ _ _ => some []
  | .bgen _ _ _ => some []
  | .loop ga _ => some [ga]
  | .b _ => some []
  | .jr _ => some []
  | .fence _ => some []
  | .fmtset _ _ => some []
  | .ctlrd gd _ => some [gd]
  | .ctlwr _ _ => some []
  | .pondWrite _ _ => some []
  | .spillWrite _ => some []
  | .perfClear _ => some []
  | .perfFreeze _ => some []
  | _ => none

/-- Whether an instruction may write a control register that the tile's cores share. -/
def writesCtl : Instr → Bool
  | .fmtset _ _ => true
  | .ctlwr _ _ => true
  | .pondWrite _ _ => true
  | _ => false

/-- The atomics on scratchpads: whether the location is a remote address, whether it is a doubleword, gd, and the register of
the address (09 Table 9.6, R226). -/
def scratchAtom : Instr → Option (Bool × Bool × Reg × Reg)
  | .aadd wide gd ga _ => some (false, wide, gd, ga)
  | .aaddRemote wide gd ga _ => some (true, wide, gd, ga)
  | .amin wide gd ga _ => some (false, wide, gd, ga)
  | .aminRemote wide gd ga _ => some (true, wide, gd, ga)
  | .amax wide gd ga _ => some (false, wide, gd, ga)
  | .amaxRemote wide gd ga _ => some (true, wide, gd, ga)
  | .aminn wide gd ga _ => some (false, wide, gd, ga)
  | .aminnRemote wide gd ga _ => some (true, wide, gd, ga)
  | .amaxn wide gd ga _ => some (false, wide, gd, ga)
  | .amaxnRemote wide gd ga _ => some (true, wide, gd, ga)
  | .aand wide gd ga _ => some (false, wide, gd, ga)
  | .aandRemote wide gd ga _ => some (true, wide, gd, ga)
  | .aor wide gd ga _ => some (false, wide, gd, ga)
  | .aorRemote wide gd ga _ => some (true, wide, gd, ga)
  | .axor wide gd ga _ => some (false, wide, gd, ga)
  | .axorRemote wide gd ga _ => some (true, wide, gd, ga)
  | .axchg wide gd ga _ => some (false, wide, gd, ga)
  | .axchgRemote wide gd ga _ => some (true, wide, gd, ga)
  | .acas wide gd ga _ => some (false, wide, gd, ga)
  | .acasRemote wide gd ga _ => some (true, wide, gd, ga)
  | _ => none

/-- What an access of a scratchpad leaves as it was: every register but those named, every byte of every scratchpad but the n
at `off` of tile `k`, every byte of HBM and of host memory, the shared registers, the queues, the engines and the other
cores. -/
def accessFrame (s t : State) (rs : List Reg) (k off n : Nat) : Prop :=
  (∀ r, r ∉ rs → t.g r = s.g r) ∧
  (∀ j a, j ≠ k ∨ a < off ∨ off + n ≤ a → (t.tile j).mem.scratch.byte a = (s.tile j).mem.scratch.byte a) ∧
  (∀ a, t.mem.byte a = s.mem.byte a) ∧ (∀ a, t.host.byte a = s.host.byte a) ∧ t.me.ctl = s.me.ctl ∧ t.me.queue = s.me.queue ∧
  (∀ e, t.me.eng e = s.me.eng e) ∧ ∀ c, c ≠ s.curCore → t.me.core c = s.me.core c

end Sys2Proof.Claims
open Sys2Proof.Claims

/-! ## Scalar instructions (09) -/

/-- 09 Table 9.1: what `add`, `sub`, `mul`, `mulh`, `mulhn`, `and`, `or`, `xor` and `andn` write to gd; each completes at the
next word whatever its operands, and a gd of 0 discards the result (`wrote`, 09 R202). -/
def Obligations.ArithmeticAndLogicResults : Prop :=
  ∀ (s : State) (gd ga gb : Reg), clean s [ga, gb] →
    exec (.add gd ga gb) s = .next (wrote s gd (BitVec.ofInt 64 ((s.g ga).toInt + (s.g gb).toInt)) 4) ∧
    exec (.sub gd ga gb) s = .next (wrote s gd (BitVec.ofInt 64 ((s.g ga).toInt - (s.g gb).toInt)) 4) ∧
    exec (.mul gd ga gb) s = .next (wrote s gd (BitVec.ofNat 64 ((s.g ga).toNat * (s.g gb).toNat)) 4) ∧
    exec (.mulh gd ga gb) s = .next (wrote s gd (BitVec.ofInt 64 ((s.g ga).toInt * (s.g gb).toInt / 2 ^ 64)) 4) ∧
    exec (.mulhn gd ga gb) s = .next (wrote s gd (BitVec.ofNat 64 ((s.g ga).toNat * (s.g gb).toNat / 2 ^ 64)) 4) ∧
    exec (.and gd ga gb) s = .next (wrote s gd (s.g ga &&& s.g gb) 4) ∧
    exec (.or gd ga gb) s = .next (wrote s gd (s.g ga ||| s.g gb) 4) ∧
    exec (.xor gd ga gb) s = .next (wrote s gd (s.g ga ^^^ s.g gb) 4) ∧
    exec (.andn gd ga gb) s = .next (wrote s gd (s.g ga &&& ~~~(s.g gb)) 4)

/-- 09 R204: the four divisions, their fixed results at the edges, and what holds of quotient and remainder for every divisor.
-/
def Obligations.DivisionResults : Prop :=
  ∀ (s : State) (gd ga gb : Reg), clean s [ga, gb] →
    ∃ q r qn rn : Word,
      exec (.div gd ga gb) s = .next (wrote s gd q 4) ∧ exec (.rem gd ga gb) s = .next (wrote s gd r 4) ∧
      exec (.divn gd ga gb) s = .next (wrote s gd qn 4) ∧ exec (.remn gd ga gb) s = .next (wrote s gd rn 4) ∧
      (if s.g gb = 0 then q = 0xFFFFFFFFFFFFFFFF ∧ r = s.g ga ∧ qn = 0xFFFFFFFFFFFFFFFF ∧ rn = s.g ga
       else
         (if (s.g ga).toInt = -2 ^ 63 ∧ (s.g gb).toInt = -1 then q = 0x8000000000000000 ∧ r = 0
          else q.toInt = (s.g ga).toInt.tdiv (s.g gb).toInt ∧
            r.toInt = (s.g ga).toInt - (s.g gb).toInt * (s.g ga).toInt.tdiv (s.g gb).toInt) ∧
         qn.toNat = (s.g ga).toNat / (s.g gb).toNat ∧
         rn.toNat = (s.g ga).toNat - (s.g gb).toNat * ((s.g ga).toNat / (s.g gb).toNat)) ∧
      (r ≠ 0 → (r.toInt < 0 ↔ (s.g ga).toInt < 0)) ∧
      s.g ga = s.g gb * q + r ∧ s.g ga = s.g gb * qn + rn

/-- 09 Table 9.1: shifts and rotates by the low six bits of b, minima, maxima and comparisons. 09 Table 9.2, R205, R207: the
immediate instructions, `li`, `lih` and `madd`. -/
def Obligations.ShiftCompareAndImmediateResults : Prop :=
    (∀ (s : State) (gd ga gb : Reg), clean s [ga, gb] →
      exec (.shl gd ga gb) s = .next (wrote s gd (BitVec.ofNat 64 ((s.g ga).toNat * 2 ^ ((s.g gb).toNat % 64))) 4) ∧
      exec (.shr gd ga gb) s = .next (wrote s gd (BitVec.ofNat 64 ((s.g ga).toNat / 2 ^ ((s.g gb).toNat % 64))) 4) ∧
      exec (.sra gd ga gb) s = .next (wrote s gd (BitVec.ofInt 64 ((s.g ga).toInt / 2 ^ ((s.g gb).toNat % 64))) 4) ∧
      exec (.rotl gd ga gb) s = .next (wrote s gd ((s.g ga).rotateLeft ((s.g gb).toNat % 64)) 4) ∧
      exec (.min gd ga gb) s = .next (wrote s gd (BitVec.ofInt 64 (min (s.g ga).toInt (s.g gb).toInt)) 4) ∧
      exec (.max gd ga gb) s = .next (wrote s gd (BitVec.ofInt 64 (max (s.g ga).toInt (s.g gb).toInt)) 4) ∧
      exec (.minn gd ga gb) s = .next (wrote s gd (BitVec.ofNat 64 (min (s.g ga).toNat (s.g gb).toNat)) 4) ∧
      exec (.maxn gd ga gb) s = .next (wrote s gd (BitVec.ofNat 64 (max (s.g ga).toNat (s.g gb).toNat)) 4) ∧
      exec (.slt gd ga gb) s = .next (wrote s gd (if (s.g ga).toInt < (s.g gb).toInt then 1 else 0) 4) ∧
      exec (.sltn gd ga gb) s = .next (wrote s gd (if (s.g ga).toNat < (s.g gb).toNat then 1 else 0) 4) ∧
      exec (.seq gd ga gb) s = .next (wrote s gd (if s.g ga = s.g gb then 1 else 0) 4)) ∧
    (∀ (s : State) (gd ga gb gc : Reg) (imm : BitVec 16) (n : BitVec 6) (wide : BitVec 21),
      (clean s [ga] →
        exec (.addi gd ga imm) s = .next (wrote s gd (BitVec.ofInt 64 ((s.g ga).toInt + imm.toInt)) 4) ∧
        exec (.andi gd ga imm) s = .next (wrote s gd (s.g ga &&& BitVec.ofNat 64 imm.toNat) 4) ∧
        exec (.ori gd ga imm) s = .next (wrote s gd (s.g ga ||| BitVec.ofNat 64 imm.toNat) 4) ∧
        exec (.xori gd ga imm) s = .next (wrote s gd (s.g ga ^^^ BitVec.ofNat 64 imm.toNat) 4) ∧
        exec (.shli gd ga n) s = .next (wrote s gd (BitVec.ofNat 64 ((s.g ga).toNat * 2 ^ n.toNat)) 4) ∧
        exec (.shri gd ga n) s = .next (wrote s gd (BitVec.ofNat 64 ((s.g ga).toNat / 2 ^ n.toNat)) 4) ∧
        exec (.srai gd ga n) s = .next (wrote s gd (BitVec.ofInt 64 ((s.g ga).toInt / 2 ^ n.toNat)) 4) ∧
        exec (.slti gd ga imm) s = .next (wrote s gd (if (s.g ga).toInt < imm.toInt then 1 else 0) 4)) ∧
      exec (.li gd wide) s = .next (wrote s gd (BitVec.ofInt 64 wide.toInt) 4) ∧
      (clean s [gd] → exec (.lih gd wide) s =
        .next (wrote s gd (BitVec.ofNat 64 ((s.g gd).toNat * 2 ^ 21 + wide.toNat)) 4)) ∧
      (clean s [ga, gb, gc] → exec (.madd gd ga gb gc) s =
        .next (wrote s gd (BitVec.ofNat 64 ((s.g ga).toNat * (s.g gb).toNat + (s.g gc).toNat)) 4)))

/-- 09 Table 9.1: the three counts of the bits of a, said without counting: `clz` c means a lies below 2^(64-c) and not below
2^(63-c); `ctz` c means 2^c divides a and 2^(c+1) does not; each is 64 where a is 0. 09 Table 9.3: `bext`, `bins`, `sext`
and `zext`, bit by bit, for every field that lies within 64 bits. -/
def Obligations.BitFieldAndCountResults : Prop :=
    (∀ (s : State) (gd ga : Reg), clean s [ga] →
      (∃ c, exec (.clz gd ga) s = .next (wrote s gd (BitVec.ofNat 64 c) 4) ∧ c ≤ 64 ∧
        (s.g ga).toNat < 2 ^ (64 - c) ∧ (c < 64 → 2 ^ (63 - c) ≤ (s.g ga).toNat)) ∧
      (∃ c, exec (.ctz gd ga) s = .next (wrote s gd (BitVec.ofNat 64 c) 4) ∧ c ≤ 64 ∧
        2 ^ c ∣ (s.g ga).toNat ∧ (c < 64 → ¬ 2 ^ (c + 1) ∣ (s.g ga).toNat)) ∧
      exec (.popc gd ga) s = .next (wrote s gd (BitVec.ofNat 64 ((List.range 64).countP fun i => (s.g ga).getLsbD i)) 4)) ∧
    (∀ (s : State) (gd ga : Reg) (pos len1 : BitVec 6), pos.toNat + len1.toNat + 1 ≤ 64 →
      (clean s [ga] → ∃ v, exec (.bext gd ga pos len1) s = .next (wrote s gd v 4) ∧
        ∀ i, v.getLsbD i = (decide (i ≤ len1.toNat) && (s.g ga).getLsbD (pos.toNat + i))) ∧
      (clean s [gd, ga] → ∃ v, exec (.bins gd ga pos len1) s = .next (wrote s gd v 4) ∧
        ∀ i, v.getLsbD i = if pos.toNat ≤ i ∧ i ≤ pos.toNat + len1.toNat then (s.g ga).getLsbD (i - pos.toNat)
          else (s.g gd).getLsbD i) ∧
      (clean s [ga] → ∃ v, exec (.sext gd ga len1) s = .next (wrote s gd v 4) ∧
        ∀ i, i < 64 → v.getLsbD i = (s.g ga).getLsbD (min i len1.toNat)) ∧
      (clean s [ga] → ∃ v, exec (.zext gd ga len1) s = .next (wrote s gd v 4) ∧
        ∀ i, v.getLsbD i = (decide (i ≤ len1.toNat) && (s.g ga).getLsbD i)))

/-- 09 R209 to R212: where each branch, `loop`, `b` and `jr` goes on; `loop` writes its count and a `jr` to an address that is
no word address below 2^56 raises ALIGNMENT. The trace writer notes each outcome (20 Table 20.5). -/
def Obligations.BranchTargets : Prop :=
  ∀ (s : State) (ga gb : Reg) (disp : BitVec 16) (far : BitVec 21),
    (clean s [ga, gb] →
      exec (.beq ga gb disp) s = .next (branched s disp (decide (s.g ga = s.g gb))) ∧
      exec (.bne ga gb disp) s = .next (branched s disp (decide (s.g ga ≠ s.g gb))) ∧
      exec (.blt ga gb disp) s = .next (branched s disp (decide ((s.g ga).toInt < (s.g gb).toInt))) ∧
      exec (.bge ga gb disp) s = .next (branched s disp (decide ((s.g gb).toInt ≤ (s.g ga).toInt))) ∧
      exec (.bltn ga gb disp) s = .next (branched s disp (decide ((s.g ga).toNat < (s.g gb).toNat))) ∧
      exec (.bgen ga gb disp) s = .next (branched s disp (decide ((s.g gb).toNat ≤ (s.g ga).toNat)))) ∧
    (ga ≠ 0 → clean s [ga] →
      exec (.loop ga disp) s = .next (branched (s.setG ga (s.g ga - 1)) disp (decide (s.g ga ≠ 1)))) ∧
    exec (.b far) s = .next (s.goto (s.core.pc + BitVec.ofInt 56 (4 * far.toInt))) ∧
    (clean s [ga] →
      exec (.jr ga) s = .next (if (s.g ga).toNat % 4 = 0 ∧ (s.g ga).toNat < 2 ^ 56
        then (s.goto ((s.g ga).truncate 56)).traceJump (s.g ga).toNat
        else s.fault Code.alignment (s.g ga).toNat))

/-! ## The register window (08 R176, R177) -/

/-- 08 R176, R177: a `call` slides the window, pushes its frame record, spills the fewest oldest frames that bring the
resident ones within 108 hidden registers and 32 records, writes their bytes at SPTR, and goes on at its target; a spill
after a `fence` follows every remote store of its core (07 R154, R160). 17 R378, 18 R430: a spill into a retired bank, or
of a register that holds an uncorrectable error, raises UNCORRECTABLE (the numbering in DETAIL is the model's, log 24, and
so is the register before the bank where both apply, log 83). 08 R180, 09 R210, R213: WINDOW_SPILL where a spill would
pass LIMIT or DEPTH would pass 65,535; ILLEGAL_INSTRUCTION for a `ret` at DEPTH 0 and for a `loop` on g0. -/
def Obligations.CallSlidesAndSpills : Prop :=
    (∀ (s : State) (f : Fin 21) (disp : BitVec 21) (fs : List Frame) (n : Nat),
      fs = s.core.frames ++ [{ size := f.val, ret := s.core.pc + 4, hidden := s.core.regRange 12 f.val
                               bad := s.core.badWindow.filter (· < 2 * f.val)
                               ce := (inWindow s.core.gCe).filter (· < 2 * f.val) }] →
      Resident (fs.drop n) → (∀ m, m < n → ¬ Resident (fs.drop m)) →
      s.core.depth < 65535 → (n ≠ 0 → s.core.sptr + spillSize (fs.take n) ≤ s.core.spillLimit ∧
        s.me.retiredHit s.core.sptr (spillSize (fs.take n)) = none) →
      (∀ g ∈ fs.take n, g.bad = [] ∧ g.hidden.length = g.size) →
      ∃ t, exec (.call f disp) s = .next t ∧
        t.core.frames = fs.drop n ∧ t.core.depth = s.core.depth + 1 ∧
        t.core.sptr = s.core.sptr + spillSize (fs.take n) ∧
        t.core.pc = s.core.pc + BitVec.ofInt 56 (4 * disp.toInt) ∧
        (∀ r : Reg, r.val < 12 → t.g r = s.g r) ∧
        (∀ (r q : Reg), 12 ≤ r.val → q.val = r.val + f.val → t.g r = s.g q) ∧
        (∀ r : Reg, 12 ≤ r.val → 32 - f.val ≤ r.val → t.g r = 0) ∧
        (n = 0 → t.me.mem = s.me.mem ∧ t.core.remote = s.core.remote) ∧
        (n ≠ 0 → s.core.fenced = false → t.core.remote = s.core.remote ∧
          t.me.mem = s.me.mem.writeScratch s.core.sptr (spillBytes (fs.take n))) ∧
        (n ≠ 0 → s.core.fenced = true → t.core.remote = [] ∧
          t.me.mem = s.flushMine.me.mem.writeScratch s.core.sptr (spillBytes (fs.take n)))) ∧
    (∀ (s : State) (f : Fin 21) (disp : BitVec 21) (fs : List Frame) (n w : Nat),
      fs = s.core.frames ++ [{ size := f.val, ret := s.core.pc + 4, hidden := s.core.regRange 12 f.val
                               bad := s.core.badWindow.filter (· < 2 * f.val)
                               ce := (inWindow s.core.gCe).filter (· < 2 * f.val) }] →
      Resident (fs.drop n) → (∀ m, m < n → ¬ Resident (fs.drop m)) → s.core.depth < 65535 →
      s.core.sptr + spillSize (fs.take n) ≤ s.core.spillLimit → n ≠ 0 →
      (∀ g ∈ fs.take n, g.hidden.length = g.size ∧ g.ce = []) →
      ((∀ g ∈ fs.take n, g.bad = []) → s.me.retiredHit s.core.sptr (spillSize (fs.take n)) = some w →
        exec (.call f disp) s = .next (s.faultA 1 Code.uncorrectable (uncDetail 0 w))) ∧
      (∀ g ∈ fs.take n, (∀ h ∈ fs.take n, h.bad = [] ∨ h = g) → g.bad = [w] →
        exec (.call f disp) s = .next ((s.countUe s.curTile.val).fault Code.uncorrectable (regDetail (24 + w))))) ∧
    (∀ (s : State) (f : Fin 21) (disp : BitVec 21) (d : BitVec 16),
      (s.core.depth = 65535 → exec (.call f disp) s = .next (s.fault Code.windowSpill (s.core.sptr + f.val * 2 ^ 32))) ∧
      (s.core.frames.length = 32 → s.core.spillLimit ≤ s.core.sptr →
        exec (.call f disp) s = .next (s.fault Code.windowSpill (s.core.sptr + f.val * 2 ^ 32))) ∧
      (s.core.depth = 0 → exec .ret s = .next (s.fault Code.illegalInstruction 0x58020000)) ∧
      exec (.loop 0 d) s = .next (s.fault Code.illegalInstruction (0x58000000 + d.toNat)))

/-- 08 R176: a `ret` right after a `call` that spilled nothing finds every register, the frame stack and SPTR as the `call`
found them, on the word after the `call`. -/
def Obligations.RetUndoesCall : Prop :=
  ∀ (s t : State) (f : Fin 21) (disp : BitVec 21), s.core.depth < 65535 → hiddenCount s.core.frames + f.val ≤ 108 →
    s.core.frames.length < 32 → exec (.call f disp) s = .next t →
    ∃ u, exec .ret t = .next u ∧ (∀ r, u.g r = s.g r) ∧ u.core.frames = s.core.frames ∧ u.core.sptr = s.core.sptr ∧
      u.core.depth = s.core.depth ∧ u.core.pc = s.core.pc + 4

/-- 08 R176, R177, 09 R213: a `ret` whose frame is spilled fills it from below SPTR: the hidden registers and the return
address come from the scratchpad, and SPTR falls by 8 × (F + 1). -/
def Obligations.RetFillsSpilledFrame : Prop :=
  ∀ (s : State) (f p : Nat) (ret : VAddr), s.core.frames = [] → 0 < s.core.spilled → f ≤ 20 → s.core.sptr = p + 8 * f + 8 →
    noLatent s s.curTile.val p (8 * f + 8) → s.me.readFails (p + 8 * f) 8 = none → s.me.readFails p (8 * f) = none → ret.toNat % 4 = 0 →
    s.me.mem.scratch.readLE (p + 8 * f) 8 = f * 2 ^ 59 + ret.toNat →
    ∃ t, exec .ret s = .next t ∧ t.core.pc = ret ∧ t.core.sptr = p ∧ t.core.depth + 1 = s.core.depth ∧
      (∀ r : Reg, r.val < 12 → t.g r = s.g r) ∧
      (∀ (r : Reg), 12 ≤ r.val → r.val < 12 + f → t.g r = BitVec.ofNat 64 (s.me.mem.scratch.readLE (p + 8 * (r.val - 12)) 8)) ∧
      (∀ (r q : Reg), 12 ≤ q.val → r.val = q.val + f → t.g r = s.g q)

/-! ## Scratchpads (09 R214, R215, R219) -/

/-- 09 R214: `ld` loads n little-endian bytes, sign- or zero-extended; `st` stores the low n bytes of its register, after
every remote store of its core where it is a release. Each completes where its offset is within the scratchpad, aligned,
and in no retired bank, for `ld` with no poisoned word. 09 R214: the faults of `ld` and `st`, bounds before alignment,
each with the offset in DETAIL and its ACCESS. 09 R219, 17 R378: a `ld` whose bytes include a poisoned word, and any
access that reaches a retired bank, raises UNCORRECTABLE with that word's offset, and no register is written; a store into
a poisoned word raises nothing. -/
def Obligations.ScratchpadLoadAndStore : Prop :=
    (∀ (s : State) (sz : Size) (sx : Bool) (gd ga : Reg) (disp : BitVec 13) (off n : Nat),
      n = sz.bytes → off = (BitVec.ofInt 64 ((s.g ga).toInt + disp.toInt)).toNat → off + n ≤ 0x200000 → off % n = 0 →
      (clean s [ga] → noLatent s s.curTile.val off n → s.me.readFails off n = none →
        exec (.ld sz sx gd ga disp) s = .next (wrote s gd (loaded sx n (s.me.mem.scratch.readLE off n)) 4)) ∧
      (clean s [gd, ga] → s.me.retiredHit off n = none →
        exec (.st sz gd ga disp) s =
          .next (((s.beforeWrite s.core.memdef).writeScratch s.curTile.val off (leBytes (s.g gd).toNat n)).skip 4)) ∧
      (∀ w, clean s [ga] → noLatent s s.curTile.val off n →
        s.me.retiredHit off n = some w ∨ (s.me.retiredHit off n = none ∧ badWord s.me.mem.scratchBad off n = some w) →
        exec (.ld sz sx gd ga disp) s = .next (s.faultA 0 Code.uncorrectable (uncDetail 0 w))) ∧
      (∀ w, clean s [gd, ga] → s.me.retiredHit off n = some w →
        exec (.st sz gd ga disp) s = .next ((s.beforeWrite s.core.memdef).faultA 1 Code.uncorrectable (uncDetail 0 w)))) ∧
    (∀ (s : State) (sz : Size) (sx : Bool) (gd ga : Reg) (disp : BitVec 13) (off : Nat),
      off = (BitVec.ofInt 64 ((s.g ga).toInt + disp.toInt)).toNat → clean s [gd, ga] →
      (0x200000 < off + sz.bytes →
        exec (.ld sz sx gd ga disp) s = .next (s.faultA 0 Code.scratchBounds off) ∧
        exec (.st sz gd ga disp) s = .next (s.faultA 1 Code.scratchBounds off)) ∧
      (off + sz.bytes ≤ 0x200000 → off % sz.bytes ≠ 0 →
        exec (.ld sz sx gd ga disp) s = .next (s.faultA 0 Code.alignment off) ∧
        exec (.st sz gd ga disp) s = .next (s.faultA 1 Code.alignment off)))

/-- 09 R214, 00 R2, 07 R156: what `st` stores, a later `ld` of the same place and width loads: on its own core by 07 R156, on
another core of the tile at once too, which is the model's choice (log 2: the scratchpad performs a store as it executes).
-/
def Obligations.StoreThenLoad : Prop :=
  ∀ (s t : State) (sz : Size) (gd ga gr gb : Reg) (disp disp' : BitVec 13) (off : Nat) (c : CoreId),
    clean s [gd, ga] → off = (BitVec.ofInt 64 ((s.g ga).toInt + disp.toInt)).toNat → off + sz.bytes ≤ 0x200000 →
    off % sz.bytes = 0 → s.me.retiredHit off sz.bytes = none → noLatent s s.curTile.val off sz.bytes → badWord s.me.mem.scratchBad off sz.bytes = none →
    s.core.remote = [] → exec (.st sz gd ga disp) s = .next t →
    off = (BitVec.ofInt 64 (((s.me.core c).read gb).toInt + disp'.toInt)).toNat → (s.me.core c).badReg [gb] = none → (s.me.core c).foundRegs [gb] = [] →
    ∃ u, exec (.ld sz false gr gb disp') { t with curCore := c } = .next u ∧
      u.g gr = if gr = 0 then 0 else BitVec.ofNat 64 ((s.g gd).toNat % 2 ^ (8 * sz.bytes))

/-- 09 R215: `ldx` and `stx` of a tile of the node in the same die complete; each checks the bounds, then the alignment, then
the tile, and faults so. `ldx` follows its core's remote stores (the model's choice, log 53); a `stx` to another tile
leaves its core at once and is performed by REMOTE_SCRATCH_ACCESS, oldest first (log 2), which does nothing where no store
is on its way. 10 R235, 07 R160: a `fence` performs, oldest first, all that its core has on its way, and every later write
of the core is a release. -/
def Obligations.RemoteScratchpadAccess : Prop :=
    (∀ (s : State) (sz : Size) (sx : Bool) (gd ga : Reg) (disp : BitVec 13) (ra t off n : Nat),
      n = sz.bytes → ra = (BitVec.ofInt 64 ((s.g ga).toInt + disp.toInt)).toNat → off = ra % 2 ^ 21 → t = ra / 2 ^ 21 % 2 ^ 8 →
      (ra < 2 ^ 29 → off + n ≤ 0x200000 → off % n = 0 → t / 64 = s.curTile.val / 64 → sameNode s.me (s.tile t) = true →
        (clean s [ga] → noLatent s.flushMine t off n → (s.flushMine.tile t).readFails off n = none →
          exec (.ldx sz sx gd ga disp) s =
            .next (wrote s.flushMine gd (loaded sx n ((s.flushMine.tile t).mem.scratch.readLE off n)) 4)) ∧
        (clean s [gd, ga] → (s.tile t).retiredHit off n = none → t ≠ s.curTile.val →
          exec (.stx sz gd ga disp) s =
            .next (((s.beforeWrite s.core.memdef).setCore { (s.beforeWrite s.core.memdef).core with
              remote := (s.beforeWrite s.core.memdef).core.remote ++
                [{ tile := t, off := off, bytes := leBytes (s.g gd).toNat n }] }).skip 4)) ∧
        (clean s [gd, ga] → s.me.retiredHit off n = none → t = s.curTile.val →
          exec (.stx sz gd ga disp) s =
            .next (((s.beforeWrite s.core.memdef).writeScratch t off (leBytes (s.g gd).toNat n)).skip 4))) ∧
      (clean s [gd, ga] → ∀ code detail,
        (code, detail) = (if 2 ^ 29 ≤ ra ∨ 0x200000 < off + n then (Code.scratchBounds, ra)
          else if off % n ≠ 0 then (Code.alignment, ra) else (Code.permission, 16)) →
        2 ^ 29 ≤ ra ∨ 0x200000 < off + n ∨ off % n ≠ 0 ∨ t / 64 ≠ s.curTile.val / 64 ∨ sameNode s.me (s.tile t) = false →
        exec (.ldx sz sx gd ga disp) s = .next (s.faultA 0 code detail) ∧
        exec (.stx sz gd ga disp) s = .next (s.faultA 1 code detail))) ∧
    (∀ (s : State) (t : TileId) (c : CoreId) (r : RemoteStore) (rest : List RemoteStore) (sc : Scope),
      ((s.coreAt t.val c).remote = r :: rest →
        exec (.remoteScratchAccess t c) s =
          .next ((s.setCoreAt t.val c { s.coreAt t.val c with remote := rest }).writeScratch r.tile r.off r.bytes)) ∧
      ((s.coreAt t.val c).remote = [] → exec (.remoteScratchAccess t c) s = .next s) ∧
      (s.core.remote = [] → exec (.fence sc) s = .next ((s.setCore { s.core with fenced := true }).skip 4)) ∧
      (∀ v : State, s.core.remote ≠ [] →
        v = s.core.remote.foldl (fun u x => u.writeScratch x.tile x.off x.bytes) (s.setCore { s.core with remote := [] }) →
        exec (.fence sc) s = .next ((v.setCore { v.core with fenced := true }).skip 4)) ∧
      (∀ m : Modifier, s.core.fenced = true → s.beforeWrite m = s.flushMine))

/-! ## Tensor memory and layout records (09 R217 to R223) -/

/-- 09 R217, R218 and Table 9.5, 07 R173, 19 R445: `ldt` and `stt` by what their coordinate names. In module memory `ldt`
reads the n bytes at the physical address of its element, or zeros of a discarded page, raises UNCORRECTABLE for a
poisoned granule, and stops as its translation stops; `stt` writes there. In a host window `ldt` takes bytes that the
publication buffer holds at once, or waits for the read over the link, and `stt` puts its bytes into the buffer, or waits
for room there; no window over the offset raises NOT_PRESENT, one without the right PERMISSION with DETAIL 1 for a read
and 2 for a write (which bit is which is the model's reading, log 20). In another module both wait for the response, or
raise FABRIC_PEER_ABSENT (with REMOTE 0, the model's choice, log 29). OUTSIDE `ldt` writes 0 and `stt` accesses nothing. A
coordinate that passes g31 or whose address is out of range raises DESCRIPTOR_INVALID, and a misaligned one ALIGNMENT. -/
def Obligations.TensorLoadAndStore : Prop :=
  ∀ (s s1 u : State) (sz : Size) (sx : Bool) (gd ga : Reg) (desc : BitVec 12) (d : Layout) (va n : Nat), n = sz.bytes →
    (TensorAt s desc.toNat ga n d va s1 → u = s1.beforeWrite s.core.memdef →
      (d.space = 0 →
        (∀ pa s2, nodeTranslate s1 s1.myDie s1.myPart va .read = (.ok (some pa), s2) →
          (badGranule s2.memBad pa n = none →
            exec (.ldt sz sx gd ga desc) s = .next (wrote s2 gd (loaded sx n (s2.mem.readLE pa n)) 4)) ∧
          (∀ g, badGranule s2.memBad pa n = some g → exec (.ldt sz sx gd ga desc) s = .next
            (s2.faultRec { code := Code.uncorrectable, detail := uncDetail 1 g, access := 0, vaddr := va }))) ∧
        (∀ s2, nodeTranslate s1 s1.myDie s1.myPart va .read = (.ok none, s2) →
          exec (.ldt sz sx gd ga desc) s = .next (wrote s2 gd 0 4)) ∧
        (∀ e s2, nodeTranslate s1 s1.myDie s1.myPart va .read = (.error e, s2) → exec (.ldt sz sx gd ga desc) s = .next
          (if e.wait then s2.block (.firmware { e.f with unit := s2.curCore.num } e.f.vaddr) else s2.faultRec e.f)) ∧
        (clean s [gd] →
          (∀ pa s2, nodeTranslate u s1.myDie s1.myPart va .write = (.ok (some pa), s2) →
            exec (.stt sz gd ga desc) s = .next ((s2.writeMem pa (leBytes (s1.g gd).toNat n)).skip 4)) ∧
          (∀ e s2, nodeTranslate u s1.myDie s1.myPart va .write = (.error e, s2) → exec (.stt sz gd ga desc) s = .next
            (if e.wait then s2.block (.firmware { e.f with unit := s2.curCore.num } e.f.vaddr) else s2.faultRec e.f)))) ∧
      (d.space = 1 →
        ((s1.part s1.myPart).window va = none →
          exec (.ldt sz sx gd ga desc) s =
            .next (s1.faultRec { code := Code.notPresent, detail := 0, access := 0, vaddr := va }) ∧
          (clean s [gd] → exec (.stt sz gd ga desc) s =
            .next (u.faultRec { code := Code.notPresent, detail := 0, access := 1, vaddr := va }))) ∧
        (∀ w h, (s1.part s1.myPart).window va = some w → h = w.host + va - w.offset →
          (w.rd = false → exec (.ldt sz sx gd ga desc) s =
            .next (s1.faultRec { code := Code.permission, detail := 1, access := 0, vaddr := va })) ∧
          (w.rd = true → (∃ j, j < n ∧ (s1.part s1.myPart).heldByte (h + j) = none) → exec (.ldt sz sx gd ga desc) s =
            .next (s1.block (.hostRead { offset := va, host := h, len := n, since := s1.seiche, what := .load gd sx n, unitLen := 4 }))) ∧
          (∀ v : Nat → Byte, w.rd = true → (∀ j, j < n → (s1.part s1.myPart).heldByte (h + j) = some (v j)) →
            exec (.ldt sz sx gd ga desc) s = .next (wrote s1 gd (loaded sx n (leNat ((List.range n).map v))) 4)) ∧
          (clean s [gd] → w.w = false → exec (.stt sz gd ga desc) s =
            .next (u.faultRec { code := Code.permission, detail := 2, access := 1, vaddr := va })) ∧
          (clean s [gd] → w.w = true → (u.part u.myPart).pubFull h n = true →
            exec (.stt sz gd ga desc) s = .next (u.block .bufferSpace)) ∧
          (clean s [gd] → w.w = true → (u.part u.myPart).pubFull h n = false → (∀ g ∈ (u.part u.myPart).pub, g.bytes.length = 64) →
            ∃ t, exec (.stt sz gd ga desc) s = .next t ∧ t.core.pc = u.core.pc + 4 ∧ t.host = u.host ∧ t.mem = u.mem ∧
              ∀ a, (t.part u.myPart).heldByte a =
                if h ≤ a ∧ a < h + n then some (BitVec.ofNat 8 ((s1.g gd).toNat / 2 ^ (8 * (a - h)))) else (u.part u.myPart).heldByte a))) ∧
      (2 ≤ d.space →
        (s1.reachable s1.myDie d.modnum = true → exec (.ldt sz sx gd ga desc) s = .next (s1.block (.fabric
          { module := d.modnum, offset := va, since := s1.seiche, limit := s1.me.prv.fabto, what := .load gd sx n, unitLen := 4 }))) ∧
        (s1.reachable s1.myDie d.modnum = false →
          exec (.ldt sz sx gd ga desc) s = .next (s1.faultA 0 Code.fabricPeerAbsent d.modnum)) ∧
        (clean s [gd] →
          (u.reachable u.myDie d.modnum = true → exec (.stt sz gd ga desc) s = .next (u.block (.fabric
            { module := d.modnum, offset := va, since := u.seiche, limit := u.me.prv.fabto
              what := .store (leBytes (s1.g gd).toNat n), unitLen := 4 }))) ∧
          (u.reachable u.myDie d.modnum = false →
            exec (.stt sz gd ga desc) s = .next (u.faultA 1 Code.fabricPeerAbsent d.modnum))))) ∧
    (TensorOutside s desc.toNat ga d s1 →
      exec (.ldt sz sx gd ga desc) s = .next (wrote s1 gd 0 4) ∧
      (clean s [gd] → exec (.stt sz gd ga desc) s = .next (s1.skip 4))) ∧
    (∀ code detail, TensorRefused s desc.toNat ga n s1 code detail →
      exec (.ldt sz sx gd ga desc) s = .next (s1.faultA 0 code detail) ∧
      (clean s [gd] → exec (.stt sz gd ga desc) s = .next (s1.faultA 1 code detail)))

/-- 09 R221: `dset` copies 64 bytes of the scratchpad over layout record N in module memory and `dget` copies them back; the
addresses are `ctl.dbase` + 64 × N and U(a); bounds before alignment (ACCESS in those faults is the model's choice, log
58). 09 R223: a `probe` reads its layout record and translates the pages of min(U(d), 65,536) elements from its coordinate
on; it touches nothing where the record's SPACE is not 0, and goes on with gd as it was. -/
def Obligations.LayoutCopiesAndProbe : Prop :=
    (∀ (s s1 : State) (ga : Reg) (desc : BitVec 12) (a ta : Nat),
      clean s [ga] → a = (s.g ga).toNat →
      (0x200000 < a + 64 → exec (.dset ga desc) s = .next (s.faultA 1 Code.scratchBounds a) ∧
        exec (.dget ga desc) s = .next (s.faultA 0 Code.scratchBounds a)) ∧
      (a + 64 ≤ 0x200000 → a % 64 ≠ 0 → exec (.dset ga desc) s = .next (s.faultA 1 Code.alignment a) ∧
        exec (.dget ga desc) s = .next (s.faultA 0 Code.alignment a)) ∧
      (a + 64 ≤ 0x200000 → a % 64 = 0 → noLatent s s.curTile.val a 64 →
      ta = (s.me.ctl.dbase.toNat + 64 * desc.toNat) % 2 ^ 56 →
      (∀ pa, s.me.readFails a 64 = none →
        nodeTranslate (s.beforeWrite s.core.memdef) s.myDie s.myPart ta .write = (.ok (some pa), s1) →
        ∃ t, exec (.dset ga desc) s = .next t ∧
          (badGranule s1.memBad pa 64 = none → t.mem = s1.mem.setBytes pa (s.me.mem.scratch.bytes a 64)) ∧
          (∀ b, b < pa ∨ pa + 64 ≤ b → t.mem.byte b = s1.mem.byte b) ∧ t.tiles = (s1.skip 4).tiles ∧ t.core = s1.core.skip 4) ∧
      (∀ l, nodeRead s s.myDie s.myPart ta 64 .read = (.ok l, s1) → l.length = 64 → s1.me.retiredHit a 64 = none →
        s1.core.remote = [] →
        exec (.dget ga desc) s = .next ((s1.writeScratch s1.curTile.val a l).skip 4)))) ∧
    (∀ (s s1 s2 : State) (w : Bool) (gd ga : Reg) (desc : BitVec 12) (d : Layout) (c : List Int),
      clean s [gd] → tensorOperand s desc.toNat ga (if w then 1 else 0) = (.ok (d, c), s1) →
      (d.space ≠ 0 → exec (.probe w gd ga desc) s = .next (s1.skip 4)) ∧
      (d.space = 0 →
        probeRun s1 d (entryOf s1.me.ctl.fmt d.fidx) desc.toNat (if w then .write else .read) c.dropLast
          (min (s1.g gd).toNat 65536) (c.getLastD 0) none = (.ok (), s2) →
        exec (.probe w gd ga desc) s = .next (s2.skip 4)))

/-! ## Atomics (09 R225, R226) -/

/-- 09 Table 9.6, R225: the ten atomics on the tile's own scratchpad: gd takes the old value, and the location takes the new
one, which `acas` writes only where the old value is the one expected: an `acas` that does not write is no release, and
leaves its core's remote stores on their way. 09 R225, R226: the ten atomics on a remote scratchpad, checked as a remote
access is and performed at the target tile after the core's remote stores (the model's choice, log 53). The new values are
those of the local form (`atomNew`). -/
def Obligations.ScratchpadAndRemoteAtomics : Prop :=
    (∀ (s s1 : State) (wide : Bool) (gd ga gb : Reg) (off n w old x : Nat),
      n = (if wide then 8 else 4) → w = 8 * n → off = (s.g ga).toNat → off + n ≤ 0x200000 → off % n = 0 →
      clean s [ga, gb] → s1 = s.beforeWrite s.core.memdef → noLatent s1 s.curTile.val off n → s1.me.readFails off n = none →
      old = s1.me.mem.scratch.readLE off n → x = (s.g gb).toNat % 2 ^ w →
      exec (.aadd wide gd ga gb) s = .next (atomDone s1 s.curTile.val off n gd old (some ((old + x) % 2 ^ w)) 4) ∧
      exec (.amin wide gd ga gb) s = .next (atomDone s1 s.curTile.val off n gd old
        (some (if (BitVec.ofNat w x).toInt < (BitVec.ofNat w old).toInt then x else old)) 4) ∧
      exec (.amax wide gd ga gb) s = .next (atomDone s1 s.curTile.val off n gd old
        (some (if (BitVec.ofNat w old).toInt < (BitVec.ofNat w x).toInt then x else old)) 4) ∧
      exec (.aminn wide gd ga gb) s = .next (atomDone s1 s.curTile.val off n gd old (some (min old x)) 4) ∧
      exec (.amaxn wide gd ga gb) s = .next (atomDone s1 s.curTile.val off n gd old (some (max old x)) 4) ∧
      exec (.aand wide gd ga gb) s = .next (atomDone s1 s.curTile.val off n gd old (some (old &&& x)) 4) ∧
      exec (.aor wide gd ga gb) s = .next (atomDone s1 s.curTile.val off n gd old (some (old ||| x)) 4) ∧
      exec (.axor wide gd ga gb) s = .next (atomDone s1 s.curTile.val off n gd old (some (old ^^^ x)) 4) ∧
      exec (.axchg wide gd ga gb) s = .next (atomDone s1 s.curTile.val off n gd old (some x) 4) ∧
      (clean s [gd] → old = (s.g gd).toNat % 2 ^ w → s.me.mem.scratch.readLE off n = old →
        exec (.acas wide gd ga gb) s = .next (atomDone s1 s.curTile.val off n gd old (some x) 4))) ∧
    (∀ (s : State) (wide : Bool) (gd ga gb : Reg) (off n old : Nat),
      n = (if wide then 8 else 4) → off = (s.g ga).toNat → off + n ≤ 0x200000 → off % n = 0 → clean s [ga, gb] → clean s [gd] →
      noLatent s s.curTile.val off n → s.me.readFails off n = none → old = s.me.mem.scratch.readLE off n →
      old ≠ (s.g gd).toNat % 2 ^ (8 * n) →
      exec (.acas wide gd ga gb) s = .next (wrote s gd (BitVec.ofNat 64 old) 4)) ∧
    (∀ (s s1 : State) (wide : Bool) (gd ga gb : Reg) (t off n old x : Nat),
      n = (if wide then 8 else 4) → (s.g ga).toNat < 2 ^ 29 → off = (s.g ga).toNat % 2 ^ 21 → t = (s.g ga).toNat / 2 ^ 21 →
      off + n ≤ 0x200000 → off % n = 0 → t / 64 = s.curTile.val / 64 → sameNode s.me (s.tile t) = true →
      clean s [ga, gb] → s1 = s.flushMine → noLatent s1 t off n → (s1.tile t).readFails off n = none →
      old = (s1.tile t).mem.scratch.readLE off n → x = (s.g gb).toNat % 2 ^ (8 * n) →
      let done := fun op => Host.Outcome.next (atomDone s1 t off n gd old (atomNew op (8 * n) old x (s.g gd).toNat) 4)
      exec (.aaddRemote wide gd ga gb) s = done .add ∧ exec (.aminRemote wide gd ga gb) s = done .min ∧
      exec (.amaxRemote wide gd ga gb) s = done .max ∧ exec (.aminnRemote wide gd ga gb) s = done .minn ∧
      exec (.amaxnRemote wide gd ga gb) s = done .maxn ∧ exec (.aandRemote wide gd ga gb) s = done .and ∧
      exec (.aorRemote wide gd ga gb) s = done .or ∧ exec (.axorRemote wide gd ga gb) s = done .xor ∧
      exec (.axchgRemote wide gd ga gb) s = done .xchg ∧
      (clean s [gd] → exec (.acasRemote wide gd ga gb) s = done .cas))

/-- 09 R225, R226: the ten atomics on tensor memory. On module memory each is one read-modify-write of the n bytes that its
element names: gd takes the old value, the bytes take the new one (`atomNew`, as in the local form), and every other byte
is as the translation left it; one that writes is a write with the modifier of its core, an `acas` that does not is none.
On another module's memory it is a request whose answer the core waits for, which keeps whether it is a release; on a host
window it raises PERMISSION (DETAIL 0 is log 20's), and OUTSIDE raises DESCRIPTOR_INVALID, as do a coordinate that passes
g31 and an address out of range; a misaligned address raises ALIGNMENT. -/
def Obligations.TensorAtomics : Prop :=
  ∀ (s s1 : State) (wide : Bool) (gd ga gb : Reg) (desc : BitVec 7) (d : Layout) (n : Nat),
    n = (if wide then 8 else 4) → clean s [gb] →
    let run := fun op (out : Out) =>
      (∀ va, TensorAt s desc.toNat ga n d va s1 →
        (∀ pa s2 old new, d.space = 0 →
          nodeTranslate s1 s1.myDie s1.myPart va .atomic = (.ok (some pa), s2) →
          badGranule s2.memBad pa n = none → old = s2.mem.readLE pa n →
          new = atomNew op (8 * n) old ((s2.g gb).toNat % 2 ^ (8 * n)) (s2.g gd).toNat →
          ∃ t v, out = .next t ∧ v = (if new.isSome then s2.beforeWrite s.core.memdef else s2) ∧
            t.core = (v.core.write gd (BitVec.ofNat 64 old)).skip 4 ∧ t.mem.readLE pa n = new.getD old % 2 ^ (8 * n) ∧
            (∀ a, a < pa ∨ pa + n ≤ a → t.mem.byte a = s2.mem.byte a) ∧
            (∀ k a, (t.tile k).mem.scratch.byte a = (v.tile k).mem.scratch.byte a)) ∧
        (∀ pa s2 g, d.space = 0 →
          nodeTranslate s1 s1.myDie s1.myPart va .atomic = (.ok (some pa), s2) →
          badGranule s2.memBad pa n = some g →
          out = .next (s2.faultRec { code := Code.uncorrectable, detail := uncDetail 1 g, access := 3, vaddr := va })) ∧
        (d.space = 1 → ∃ t, out = .next t ∧ t.me.life.phase = .draining ∧ t.core.pc = s1.core.pc ∧ t.mem = s1.mem ∧
          (s1.me.life.fault = none → t.me.life.fault.map (fun f => (f.code, f.access, f.vaddr)) = some (Code.permission, 3, va))) ∧
        (2 ≤ d.space → out = .next (fabricAccess 4 3 d.modnum va
          (.rmw op n gd ((s1.g gb).toNat % 2 ^ (8 * n)) (s1.g gd).toNat) s1
          (Modifier.isRelease s.core.memdef || s1.core.fenced)))) ∧
      (TensorOutside s desc.toNat ga d s1 → out = .next (s1.faultA 3 Code.descriptorInvalid desc.toNat)) ∧
      (∀ code detail, TensorRefused s desc.toNat ga n s1 code detail → out = .next (s1.faultA 3 code detail))
    run .add (exec (.aaddTensor wide gd ga gb desc) s) ∧ run .min (exec (.aminTensor wide gd ga gb desc) s) ∧
    run .max (exec (.amaxTensor wide gd ga gb desc) s) ∧ run .minn (exec (.aminnTensor wide gd ga gb desc) s) ∧
    run .maxn (exec (.amaxnTensor wide gd ga gb desc) s) ∧ run .and (exec (.aandTensor wide gd ga gb desc) s) ∧
    run .or (exec (.aorTensor wide gd ga gb desc) s) ∧ run .xor (exec (.axorTensor wide gd ga gb desc) s) ∧
    run .xchg (exec (.axchgTensor wide gd ga gb desc) s) ∧
    (clean s [gd] → run .cas (exec (.acasTensor wide gd ga gb desc) s))

/-! ## Prefixed accesses (08 R193, R194) -/

/-- 08 R193, 07 R159: a `pfx` unit runs its second word with the modifier of the prefix, as one unit of 8 bytes; a second word
that R194 does not admit raises ILLEGAL_INSTRUCTION with both words in DETAIL. 08 R187, R195, 18 Table 18.5: a unit that
is no instruction raises ILLEGAL_INSTRUCTION with its first two words in DETAIL; a unit that cannot be fetched raises
FETCH at its address with the page, which goes to firmware first where the page is absent. -/
def Obligations.PrefixedAndUndecodedUnits : Prop :=
    (∀ (s : State) (m : Modifier) (second : W32) (p : Prefixed),
      (decodeSecond second = none →
        exec (.pfx m second) s = .next (s.fault Code.illegalInstruction
          (0xA0000000 + m.chint.val * 256 + m.order.code * 16 + m.scope.code + second.toNat * 2 ^ 32))) ∧
      (decodeSecond second = some p → exec (.pfx m second) s = match p with
        | .ld sz sx gd ga disp => doLd m 8 sz sx gd ga disp s
        | .st sz gd ga disp => doSt m 8 sz gd ga disp s
        | .ldx sz sx gd ga disp => doLdx m 8 sz sx gd ga disp s
        | .stx sz gd ga disp => doStx m 8 sz gd ga disp s
        | .ldt sz sx gd ga desc => doLdt m 8 sz sx gd ga desc s
        | .stt sz gd ga desc => doStt m 8 sz gd ga desc s
        | .dset ga desc => doDset m 8 ga desc s
        | .dget ga desc => doDget m 8 ga desc s
        | .sigwait gd ga gb => doSigwait m 8 gd ga gb s
        | .atom op wide gd ga gb => doAtom m 8 op wide gd ga gb s
        | .atomRemote op wide gd ga gb => doAtomRemote m 8 op wide gd ga gb s
        | .atomTensor op wide gd ga gb desc => doAtomTensor m 8 op wide gd ga gb desc s) ∧
      (∀ sz sx gd ga disp, p = .ld sz sx gd ga disp → decodeSecond second = some p → clean s [ga] →
        noLatent s s.curTile.val (scratchOff (s.g ga) disp) sz.bytes →
        (scratchOff (s.g ga) disp) + sz.bytes ≤ 0x200000 → scratchOff (s.g ga) disp % sz.bytes = 0 →
        s.me.readFails (scratchOff (s.g ga) disp) sz.bytes = none →
        exec (.pfx m second) s =
          .next (wrote s gd (loaded sx sz.bytes (s.me.mem.scratch.readLE (scratchOff (s.g ga) disp) sz.bytes)) 8))) ∧
    (∀ (s : State) (w0 : W32) (w1 : Option W32) (page : VAddr) (straddle : Bool),
      exec (.illegalInstructionWord w0 w1) s =
        .next (s.fault Code.illegalInstruction (w0.toNat + (w1.getD 0).toNat * 2 ^ 32)) ∧
      exec (.instructionFetchFault page straddle false) s =
        .next (s.faultRec { code := Code.fetch, access := 2, vaddr := s.core.pc.toNat, page := page.toNat, straddle := straddle }) ∧
      exec (.instructionFetchFault page straddle true) s =
        .next (s.block (.firmware { code := Code.fetch, access := 2, unit := s.curCore.num, vaddr := s.core.pc.toNat
                                    page := page.toNat, straddle := straddle } page.toNat)))

/-! ## Token queues (06 R137, 10 R229) -/

/-- 06 R137: `qpush` appends the low 32 bits of its register, `qpop` and `qtry` take the head, `qpeek` reads it, `qcnt`
counts; a `qtry` or `qpeek` of an empty queue gives 0. A `qpush` waits for room, and behind a token that an engine owes
its queue (06 R139). 06 R137, R138, R141, 05 R117: where a token instruction waits or faults: a full queue, an empty one,
the wrong core, a token type that no core may push, a poisoned token (the numbering in DETAIL is the model's, log 24), a
stale one. 18 R429: a read of a token with an uncorrectable error that nothing has found yet adds 1 to UE, by `qpeek` too.
-/
def Obligations.TokenInstructions : Prop :=
    (∀ (s : State) (q : Fin 16) (gs gd : Reg) (k : Tok) (rest : List Tok),
      (clean s [gs] → q.val < 12 → s.curCore.num = producerOf q.val → 1 ≤ (s.g gs).toNat / 2 ^ 28 % 16 →
        (s.g gs).toNat / 2 ^ 28 % 16 ≤ 8 → (s.me.queueAt q.val).toks.length < (s.me.queueAt q.val).depth →
        (∀ e, ∀ o ∈ (s.me.eng e).ops, o.token.isSome = true → o.rcd.cq.toNat ≠ q.val) →
        exec (.qpush q gs) s = .next (((s.flushMine.setQueue s.curTile.val q.val
          ((s.flushMine.me.queueAt q.val).push ((s.g gs).truncate 32))).skip 4).traceToken q.val true)) ∧
      (s.curCore.num = s.me.consumerOf q.val → (s.me.queueAt q.val).toks = k :: rest → k.bad = false → k.ce = false → k.latent = false →
        exec (.qpeek gd q) s = .next (wrote s gd (k.w.zeroExtend 64) 4) ∧
        (stale s.me.ctl.pond k.w = false →
          exec (.qpop gd q) s = .next ((wrote (s.setQueue s.curTile.val q.val (s.me.queueAt q.val).pop) gd
            (k.w.zeroExtend 64) 4).traceToken q.val false) ∧
          exec (.qtry gd q) s = exec (.qpop gd q) s)) ∧
      (s.curCore.num = s.me.consumerOf q.val → (s.me.queueAt q.val).toks = [] →
        exec (.qtry gd q) s = .next (wrote s gd 0 4) ∧ exec (.qpeek gd q) s = .next (wrote s gd 0 4)) ∧
      exec (.qcnt gd q) s = .next (wrote s gd (BitVec.ofNat 64 (s.me.queueAt q.val).toks.length) 4)) ∧
    (∀ (s : State) (q : Fin 16) (gs gd : Reg) (k : Tok) (rest : List Tok),
      (clean s [gs] → 12 ≤ q.val ∨ s.curCore.num ≠ producerOf q.val ∨ (s.g gs).toNat / 2 ^ 28 % 16 = 0 ∨
          8 < (s.g gs).toNat / 2 ^ 28 % 16 →
        exec (.qpush q gs) s = .next (s.fault Code.queueMisuse ((s.g gs).toNat % 2 ^ 32 + q.val * 2 ^ 32))) ∧
      (clean s [gs] → q.val < 12 → s.curCore.num = producerOf q.val → 1 ≤ (s.g gs).toNat / 2 ^ 28 % 16 →
        (s.g gs).toNat / 2 ^ 28 % 16 ≤ 8 → (s.me.queueAt q.val).depth ≤ (s.me.queueAt q.val).toks.length ∨
          (∃ e, ∃ o ∈ (s.me.eng e).ops, o.token.isSome = true ∧ o.rcd.cq.toNat = q.val) →
        exec (.qpush q gs) s = .next (s.block (.push q.val)).markBlocked) ∧
      (s.curCore.num ≠ s.me.consumerOf q.val →
        exec (.qpop gd q) s = .next (s.fault Code.queueMisuse (q.val * 2 ^ 32)) ∧
        exec (.qtry gd q) s = .next (s.fault Code.queueMisuse (q.val * 2 ^ 32)) ∧
        exec (.qpeek gd q) s = .next (s.fault Code.queueMisuse (q.val * 2 ^ 32))) ∧
      (s.curCore.num = s.me.consumerOf q.val → (s.me.queueAt q.val).toks = [] →
        exec (.qpop gd q) s = .next (s.block (.pop q.val)).markBlocked) ∧
      (s.curCore.num = s.me.consumerOf q.val → (s.me.queueAt q.val).toks = k :: rest → k.ce = false →
        (k.bad = true → k.latent = false → exec (.qpop gd q) s =
          .next (s.fault Code.uncorrectable (uncDetail 3 (s.me.tokenPlace q.val)))) ∧
        (∀ u : State, k.bad = true → k.latent = true →
          u = (s.setQueue s.curTile.val q.val { s.me.queueAt q.val with toks := { k with latent := false } :: rest }).countUe
            s.curTile.val →
          exec (.qpop gd q) s = .next (u.fault Code.uncorrectable (uncDetail 3 (s.me.tokenPlace q.val))) ∧
          exec (.qpeek gd q) s = .next (wrote u gd (k.w.zeroExtend 64) 4)) ∧
        (k.bad = false → k.latent = false → stale s.me.ctl.pond k.w = true →
          exec (.qpop gd q) s = .next (s.fault Code.staleSlot (k.w.toNat + q.val * 2 ^ 32)))))

/-- 06 R131, R137: a queue is first in, first out: a token pushed into an empty local queue is the one its consumer pops, and
the queue is then empty again, HEAD and TAIL one further on. A SLOT or FREE token is so popped while it is not stale: its
pond is valid and no follower, and has its GEN, its slot and its bytes (05 R117). -/
def Obligations.TokenPassesThroughQueue : Prop :=
  ∀ (s t : State) (q : Fin 16) (gs gd : Reg) (c : CoreId), clean s [gs] → q.val < 12 →
    s.curCore.num = producerOf q.val → 1 ≤ (s.g gs).toNat / 2 ^ 28 % 16 → (s.g gs).toNat / 2 ^ 28 % 16 ≤ 8 →
    ((s.g gs).toNat / 2 ^ 28 % 16 ≤ 2 → ∀ p b, p = (s.g gs).toNat / 2 ^ 24 % 16 → b = pondOf s.me.ctl.pond p →
      Pond.v b = true ∧ isFollower s.me.ctl.pond p = false ∧ (s.g gs).toNat / 2 ^ 21 % 8 = Pond.gen b ∧
      (s.g gs).toNat / 2 ^ 17 % 16 < Pond.slots b ∧ (s.g gs).toNat % 2 ^ 17 * 64 ≤ slotBytes s.me.ctl.pond p) →
    (∀ e, ∀ o ∈ (s.me.eng e).ops, o.token.isSome = true → o.rcd.cq.toNat ≠ q.val) →
    0 < (s.me.queueAt q.val).depth → (s.me.queueAt q.val).toks = [] → c.num = s.me.consumerOf q.val →
    exec (.qpush q gs) s = .next t →
    ∃ u, exec (.qpop gd q) { t with curCore := c } = .next u ∧ (gd ≠ 0 → u.g gd = ((s.g gs).truncate 32).zeroExtend 64) ∧
      (u.me.queueAt q.val).toks = [] ∧ (u.me.queueAt q.val).head = ((s.me.queueAt q.val).head + 1) % 2 ^ 16 ∧
      (u.me.queueAt q.val).tail = ((s.me.queueAt q.val).tail + 1) % 2 ^ 16

/-- 06 R142, R148: `qpushx` to a tile of its own cluster that runs, with room and nobody waiting, puts its token there at once
(06 R142 gives no latency; at once is the model's choice, log 23), and any other waits; GANG_TOKEN_ACCEPT puts the token
of the waiting rank that comes first after the last one accepted, and its core goes on. -/
def Obligations.GangTokens : Prop :=
  ∀ (s : State) (q : Fin 16) (gs gr : Reg) (k r : Nat) (t : TileId) (u : Nat) (c : CoreId) (w : W32),
    (clean s [gs, gr] → 12 ≤ q.val → r = (s.g gr).toNat → r < 256 → r < s.me.gsize → k = s.me.rankTile r →
      1 ≤ (s.g gs).toNat / 2 ^ 28 % 16 → (s.g gs).toNat / 2 ^ 28 % 16 ≤ 8 → k / 8 = s.curTile.val / 8 →
      (s.flushMine.tile k).moves = true → ((s.flushMine.tile k).queueAt q.val).full = false →
      s.flushMine.gangWaiters k q.val = [] →
      exec (.qpushx gs q gr) s = .next (((s.flushMine.setQueue k q.val
        { ((s.flushMine.tile k).queueAt q.val).push ((s.g gs).truncate 32) with
          lastRank := some s.flushMine.me.rank }).skip 4).traceToken q.val true)) ∧
    (clean s [gs, gr] → 12 ≤ q.val → r = (s.g gr).toNat → r < 256 → r < s.me.gsize → k = s.me.rankTile r →
      1 ≤ (s.g gs).toNat / 2 ^ 28 % 16 → (s.g gs).toNat / 2 ^ 28 % 16 ≤ 8 →
      k / 8 ≠ s.curTile.val / 8 ∨ (s.flushMine.tile k).moves = false ∨ ((s.flushMine.tile k).queueAt q.val).full = true ∨
        s.flushMine.gangWaiters k q.val ≠ [] →
      exec (.qpushx gs q gr) s = .next (s.flushMine.block (.gangPush q.val r ((s.g gs).truncate 32))).markBlocked) ∧
    (clean s [gs, gr] → q.val < 12 ∨ 256 ≤ (s.g gr).toNat ∨ s.me.gsize ≤ (s.g gr).toNat ∨ (s.g gs).toNat / 2 ^ 28 % 16 = 0 ∨
        8 < (s.g gs).toNat / 2 ^ 28 % 16 →
      exec (.qpushx gs q gr) s = .next (s.fault Code.queueMisuse ((s.g gs).toNat % 2 ^ 32 + q.val * 2 ^ 32))) ∧
    (((s.tile t.val).queueAt q.val).full = false → (s.tile t.val).moves = true →
      firstWaiter (s.tile t.val).gsize (((s.tile t.val).queueAt q.val).lastRank.getD ((s.tile t.val).gsize - 1))
        (s.gangWaiters t.val q.val) = some (r, u, c, w) →
      exec (.gangTokenAccept t q) s = .next ((({ s.gangAccept t.val q.val r w with
        curTile := Fin.ofNat 256 u, curCore := c }).unblock.skip 4).traceToken q.val true)) ∧
    ((∃ a ∈ s.gangWaiters t.val q.val, True) →
      ∃ a ∈ s.gangWaiters t.val q.val,
        firstWaiter (s.tile t.val).gsize (((s.tile t.val).queueAt q.val).lastRank.getD ((s.tile t.val).gsize - 1))
          (s.gangWaiters t.val q.val) = some a ∧
        ∀ b ∈ s.gangWaiters t.val q.val,
          rankDistance (s.tile t.val).gsize (((s.tile t.val).queueAt q.val).lastRank.getD ((s.tile t.val).gsize - 1)) a.1 ≤
          rankDistance (s.tile t.val).gsize (((s.tile t.val).queueAt q.val).lastRank.getD ((s.tile t.val).gsize - 1)) b.1)

/-! ## Barriers (10 R231 to R234) -/

/-- 10 Table 10.2, R231, R233, R234: the five barrier instructions where the instance answers at once (`barNear`: 10 R230
gives only the order of requests; at once for a tile of the cluster of the group's lowest rank is the model's choice, log
23), and the request that waits where it does not: E written; an arrival counted, or the phase completed and its waiters
told; a `barw` whose arrival is counted, with `ctl.barpend` written and the core waiting, or which completes its phase and
ends; a `barw` that goes on waiting without arriving again where its phase is not told, and ends where it is; PH read. 10
R231, R232: BARRIER_MISUSE for a count of 0 or of more than 16 bits, for a `barset` after an arrival of the phase, and for
an arrival where E is 0. -/
def Obligations.BarrierInstructions : Prop :=
    (∀ (s : State) (bar : Fin 24) (ga gd : Reg) (b : BarInst), b = s.inst s.curTile.val bar.val →
      (clean s [ga] → s.barNear s.curTile.val bar.val = true → 0 < (s.g ga).toNat → (s.g ga).toNat < 2 ^ 16 → b.arr = 0 →
        exec (.barset bar ga) s = .next ((s.setInst s.curTile.val bar.val { b with e := (s.g ga).toNat }).unblock.skip 4)) ∧
      (s.barNear s.curTile.val bar.val = true → b.e ≠ 0 → s.core.remote = [] →
        (b.arr + 1 ≠ b.e → exec (.barv bar) s =
          .next ((s.setInst s.curTile.val bar.val { b with arr := b.arr + 1 }).unblock.skip 4)) ∧
        (b.arr + 1 = b.e → exec (.barv bar) s =
          .next (((s.setInst s.curTile.val bar.val { b with arr := 0, ph := (b.ph + 1) % 2 ^ 16 }).tellAll bar.val b.ph
            (s.barTiles s.curTile.val bar.val)).unblock.skip 4))) ∧
      (∀ u : State, s.barNear s.curTile.val bar.val = true → b.e ≠ 0 → s.core.remote = [] → s.core.barpend.v = false →
        u = s.setCore { s.core with barpend := { v := true, bar := bar.val, phase := b.ph, told := false } } →
        (b.arr + 1 ≠ b.e → s.me.life.phase = .running → exec (.barw bar) s =
          .next ((u.setInst s.curTile.val bar.val { b with arr := b.arr + 1 }).block (.barw bar.val b.ph)).markBlocked) ∧
        (∀ v : State, b.arr + 1 = b.e → s.curTile.val ∈ s.barTiles s.curTile.val bar.val →
          v = (u.setInst s.curTile.val bar.val { b with arr := 0, ph := (b.ph + 1) % 2 ^ 16 }).tellAll bar.val b.ph
            (s.barTiles s.curTile.val bar.val) →
          exec (.barw bar) s = .next (((v.setCore { v.core with
            wait := .none, barpend := { v := false, bar := bar.val, phase := b.ph, told := false } }).skip 4).traceBarrier
              s.curTile.val s.curCore.num bar.val false b.ph))) ∧
      (s.core.barpend.v = true → s.core.barpend.told = false → s.me.life.phase = .running →
        exec (.barw bar) s = .next (s.block (.barw bar.val s.core.barpend.phase)).markBlocked) ∧
      (s.core.barpend.v = true → s.core.barpend.told = true →
        exec (.barw bar) s = .next (((s.setCore { s.core with
          wait := .none, barpend := { s.core.barpend with v := false, told := false } }).skip 4).traceBarrier
            s.curTile.val s.curCore.num bar.val false s.core.barpend.phase)) ∧
      (s.barNear s.curTile.val bar.val = false →
        (clean s [ga] → exec (.barset bar ga) s = .next ((s.setInst s.curTile.val bar.val { b with
          reqs := b.reqs ++ [.set s.curTile.val s.curCore (s.g ga)] }).block (.barrierReq bar.val false))) ∧
        exec (.barv bar) s = .next ((s.setInst s.curTile.val bar.val { b with
          reqs := b.reqs ++ [.arrive s.curTile.val s.curCore false] }).block (.barrierReq bar.val false)) ∧
        (s.core.barpend.v = false → exec (.barw bar) s = .next ((s.setInst s.curTile.val bar.val { b with
          reqs := b.reqs ++ [.arrive s.curTile.val s.curCore true] }).block (.barrierReq bar.val true)))) ∧
      exec (.bart gd bar) s = .next (wrote s gd (BitVec.ofNat 64 b.ph) 4) ∧
      (clean s [ga] → b.ph = (s.g ga).toNat % 2 ^ 16 →
        exec (.barws gd bar ga) s = .next (s.block (.barws bar.val b.ph gd)).markBlocked) ∧
      (clean s [ga] → b.ph ≠ (s.g ga).toNat % 2 ^ 16 →
        exec (.barws gd bar ga) s = .next ((wrote s.unblock gd (BitVec.ofNat 64 b.ph) 4).traceBarrier
          s.curTile.val s.curCore.num bar.val true b.ph))) ∧
    (∀ (s : State) (bar : Fin 24) (ga : Reg), s.barNear s.curTile.val bar.val = true → s.core.wait = .none →
      (clean s [ga] → (2 ^ 16 ≤ (s.g ga).toNat ∨ s.g ga = 0 ∨ (s.inst s.curTile.val bar.val).arr ≠ 0) →
        ∃ t, exec (.barset bar ga) s = .next t ∧ t.me.life.phase = .draining ∧ t.core.pc = s.core.pc ∧
          (s.me.life.fault = none → t.me.life.fault.map FaultRec.code = some Code.barrierMisuse)) ∧
      ((s.inst s.curTile.val bar.val).e = 0 → s.core.barpend.v = false →
        ∃ t, exec (.barv bar) s = .next t ∧ exec (.barw bar) s = .next t ∧ t.me.life.phase = .draining ∧ t.core.pc = s.core.pc ∧
          (s.me.life.fault = none → t.me.life.fault.map FaultRec.code = some Code.barrierMisuse)))

/-- 10 R231, R233, R234: the barrier's events: BARRIER_ARRIVAL processes the oldest request of an instance for the core that
made it; BARW_WAKE ends the `barw` whose phase was told and the `barws` whose phase count has moved. -/
def Obligations.BarrierEvents : Prop :=
  ∀ (s : State) (t : TileId) (c : CoreId) (bar : Fin 24) (b : BarInst) (r : BarReq) (rest : List BarReq),
    (b = s.inst t.val bar.val → b.reqs = r :: rest →
      (∀ u d w, r = .arrive u d w → exec (.barrierArrival t bar) s =
        .next (State.arriveNow { s.setInst t.val bar.val { b with reqs := rest } with
          curTile := Fin.ofNat 256 u, curCore := d } bar.val w)) ∧
      (∀ u d a, r = .set u d a → exec (.barrierArrival t bar) s =
        .next (State.barsetAt { s.setInst t.val bar.val { b with reqs := rest } with
          curTile := Fin.ofNat 256 u, curCore := d } bar.val a))) ∧
    (∀ n p, (s.coreAt t.val c).wait = .barw n p → (s.coreAt t.val c).barpend.told = true →
      exec (.barwWake t c) s = .next (State.barwDone { s with curTile := t, curCore := c } n)) ∧
    (∀ n p, (s.coreAt t.val c).wait = .barw n p → (s.coreAt t.val c).barpend.told = false → exec (.barwWake t c) s = .next s) ∧
    (∀ n seen gd, (s.coreAt t.val c).wait = .barws n seen gd → (s.inst t.val n).ph ≠ seen →
      exec (.barwWake t c) s = .next (State.barwsDone { s with curTile := t, curCore := c } gd n (s.inst t.val n).ph))

/-! ## Sync cells, bound regions, sigwait (07 R167 to R169, 10 R236 to R238) -/

/-- 07 R167, R168: a new `acqx` of a free cell draws its ticket from NEXT and holds the cell EXCLUSIVE; a new `acqs` also
admits the next ticket and counts a reader; `rel` passes the cell on, or drops its reader. The fields of the cell's word
are said one by one, and every byte outside the word is as it was. An acquire whose ticket is not served, or an `acqx`
that is served while READERS is not 0, waits with its hold entry, NEXT one further on, and BLOCKED_INSTRUCTION_RETRY
grants it with the same ticket. An acquire of a cell held or waited for otherwise, a ninth entry and a `rel` of a cell not
held raise SYNC_MISUSE. Which references name one cell is the model's choice (log 57). -/
def Obligations.SyncCells : Prop :=
    (∀ (s s1 : State) (ga : Reg) (va pa v : Nat), clean s [ga] → cellWord s (s.g ga) .atomic = (.ok (va, pa), s1) →
      badGranule s1.memBad pa 8 = none → v = s1.mem.readLE pa 8 →
      (s1.core.holdOf va = none → s1.core.hold.length < 8 →
        (v / 2 ^ 32 % 2 ^ 16 = v / 2 ^ 48 → v / 2 ^ 16 % 2 ^ 16 = 0 → ∃ t, exec (.acqx ga) s = .next t ∧ t.core.pc = s1.core.pc + 4 ∧
          t.core.hold = s1.core.hold ++ [{ cell := va, state := .exclusive, ticket := v / 2 ^ 48 }] ∧
          cellFields (t.mem.readLE pa 8) = ((v / 2 ^ 48 + 1) % 2 ^ 16, v / 2 ^ 32 % 2 ^ 16, 0, v % 2 ^ 16) ∧
          ∀ a, a < pa ∨ pa + 8 ≤ a → t.mem.byte a = s1.mem.byte a) ∧
        (v / 2 ^ 32 % 2 ^ 16 = v / 2 ^ 48 → ∃ t, exec (.acqs ga) s = .next t ∧ t.core.pc = s1.core.pc + 4 ∧
          t.core.hold = s1.core.hold ++ [{ cell := va, state := .shared, ticket := v / 2 ^ 48 }] ∧
          cellFields (t.mem.readLE pa 8) =
            ((v / 2 ^ 48 + 1) % 2 ^ 16, (v / 2 ^ 32 + 1) % 2 ^ 16, (v / 2 ^ 16 + 1) % 2 ^ 16, v % 2 ^ 16) ∧
          ∀ a, a < pa ∨ pa + 8 ≤ a → t.mem.byte a = s1.mem.byte a) ∧
        (v / 2 ^ 32 % 2 ^ 16 ≠ v / 2 ^ 48 ∨ v / 2 ^ 16 % 2 ^ 16 ≠ 0 →
          ∃ t, exec (.acqx ga) s = .next t ∧ t.core.pc = s1.core.pc ∧ t.core.wait = .cell true va ∧
            t.core.hold = s1.core.hold ++ [{ cell := va, state := .waitX, ticket := v / 2 ^ 48 }] ∧
            cellFields (t.mem.readLE pa 8) =
              ((v / 2 ^ 48 + 1) % 2 ^ 16, v / 2 ^ 32 % 2 ^ 16, v / 2 ^ 16 % 2 ^ 16, v % 2 ^ 16)) ∧
        (v / 2 ^ 32 % 2 ^ 16 ≠ v / 2 ^ 48 →
          ∃ t, exec (.acqs ga) s = .next t ∧ t.core.pc = s1.core.pc ∧ t.core.wait = .cell false va ∧
            t.core.hold = s1.core.hold ++ [{ cell := va, state := .waitS, ticket := v / 2 ^ 48 }] ∧
            cellFields (t.mem.readLE pa 8) =
              ((v / 2 ^ 48 + 1) % 2 ^ 16, v / 2 ^ 32 % 2 ^ 16, v / 2 ^ 16 % 2 ^ 16, v % 2 ^ 16))) ∧
      (∀ h, s1.core.holdOf va = some h → h.state = .exclusive ∨ h.state = .shared →
        ∃ t, exec (.rel ga) s = .next t ∧ t.core.pc = s1.core.pc + 4 ∧ t.core.holdOf va = none ∧
          cellFields (t.mem.readLE pa 8) = (if h.state = .exclusive
            then (v / 2 ^ 48, (v / 2 ^ 32 + 1) % 2 ^ 16, v / 2 ^ 16 % 2 ^ 16, v % 2 ^ 16)
            else (v / 2 ^ 48, v / 2 ^ 32 % 2 ^ 16, (v / 2 ^ 16 + 2 ^ 16 - 1) % 2 ^ 16, v % 2 ^ 16)) ∧
          ∀ a, a < pa ∨ pa + 8 ≤ a → t.mem.byte a = s1.mem.byte a)) ∧
    (∀ (s s1 : State) (ga : Reg) (va pa : Nat), clean s [ga] → cellWord s (s.g ga) .atomic = (.ok (va, pa), s1) →
      (s1.core.holdOf va = none → 8 ≤ s1.core.hold.length →
        exec (.acqx ga) s = .next (s1.fault Code.syncMisuse 1) ∧ exec (.acqs ga) s = .next (s1.fault Code.syncMisuse 1)) ∧
      (∀ h, s1.core.holdOf va = some h →
        (h.state ≠ .waitX → exec (.acqx ga) s = .next (s1.fault Code.syncMisuse 0)) ∧
        (h.state ≠ .waitS → exec (.acqs ga) s = .next (s1.fault Code.syncMisuse 0)) ∧
        (h.state = .waitX ∨ h.state = .waitS → exec (.rel ga) s = .next (s1.fault Code.syncMisuse 2))) ∧
      (s1.core.holdOf va = none → exec (.rel ga) s = .next (s1.fault Code.syncMisuse 2))) ∧
    (∀ (s s1 u : State) (t : TileId) (c : CoreId) (excl : Bool) (va pa v : Nat) (h : Hold), (s.tile t.val).life.phase = .running →
      (s.coreAt t.val c).wait = .cell excl va → u = { s with curTile := t, curCore := c } → cellAt u va .atomic = (.ok pa, s1) →
      s1.core.holdOf va = some h → v = s1.mem.readLE pa 8 →
      (v / 2 ^ 32 % 2 ^ 16 = h.ticket → (excl = true → v / 2 ^ 16 % 2 ^ 16 = 0) →
        ∃ w, exec (.blockedInstructionRetry t c) s = .next w ∧ w.core.wait = .none ∧ w.core.pc = s1.core.pc + 4 ∧
          w.core.holdOf va = some { cell := va, state := if excl then .exclusive else .shared, ticket := h.ticket }) ∧
      (v / 2 ^ 32 % 2 ^ 16 ≠ h.ticket ∨ (excl = true ∧ v / 2 ^ 16 % 2 ^ 16 ≠ 0) →
        exec (.blockedInstructionRetry t c) s = .next (s1.block (.cell excl va))))

/-- 07 R169, 10 R237, R238: `bind` adds its region to the table where it has room and no other cell's region overlaps,
`unbind` takes one out; `sigwait` gives the word once it is at least b or the limit has passed, else waits on that word
and takes it up again at each retry, and SIGWAIT_TIMEOUT gives it after the limit. -/
def Obligations.RegionsAndSignals : Prop :=
  ∀ (s s1 s2 : State) (gd ga gb : Reg) (cell lo hi va : Nat) (l : List Byte) (t : TileId) (c : CoreId) (t0 len want : Nat),
    (clean s [ga, gb] → bindOperands s (s.g ga) (s.g gb) = (.ok (cell, lo, hi), s1) →
      ((s1.part s1.myPart).regions.length < 256 →
        (∀ r ∈ (s1.part s1.myPart).regions, r.cell = cell ∨ hi ≤ r.lo ∨ r.hi ≤ lo) →
        exec (.bind ga gb) s = .next ((s1.setRegions ((s1.part s1.myPart).regions ++
          [{ lo := lo, hi := hi, cell := cell }])).skip 4)) ∧
      ({ lo := lo, hi := hi, cell := cell } ∈ (s1.part s1.myPart).regions →
        exec (.unbind ga gb) s = .next ((s1.setRegions ((s1.part s1.myPart).regions.erase
          { lo := lo, hi := hi, cell := cell })).skip 4))) ∧
    (clean s [ga, gb, gd] → resolveWord s (s.g ga) 0 = (.ok (0, va), s1) →
      nodeRead s1 s1.myDie s1.myPart va 8 .read = (.ok l, s2) →
      (s1.g gb).toNat ≤ leNat l ∨ s2.g gd = 0 →
      exec (.sigwait gd ga gb) s = .next (wrote s2.unblock gd (BitVec.ofNat 64 (leNat l)) 4)) ∧
    (clean s [ga, gb, gd] → resolveWord s (s.g ga) 0 = (.ok (0, va), s1) →
      nodeRead s1 s1.myDie s1.myPart va 8 .read = (.ok l, s2) →
      leNat l < (s1.g gb).toNat → s2.g gd = BitVec.allOnes 64 ∨ s2.seiche - s1.seiche < (s2.g gd).toNat →
      exec (.sigwait gd ga gb) s = .next (s2.block (.sigwait s1.seiche va gd 4 (s1.g gb).toNat))) ∧
    ((s.tile t.val).life.phase = .running → (s.coreAt t.val c).wait = .sigwait t0 va gd len want →
      s1 = { s with curTile := t, curCore := c } → nodeRead s1 s1.myDie s1.myPart va 8 .read = (.ok l, s2) → want ≤ leNat l →
      exec (.blockedInstructionRetry t c) s = .next (wrote s2.unblock gd (BitVec.ofNat 64 (leNat l)) len)) ∧
    ((s.coreAt t.val c).wait = .sigwait t0 va gd len want → s1 = { s with curTile := t, curCore := c } →
      s1.g gd ≠ BitVec.allOnes 64 → (s1.g gd).toNat ≤ s.seiche - t0 →
      nodeRead s1 s1.myDie s1.myPart va 8 .read = (.ok l, s2) →
      exec (.sigwaitTimeout t c) s = .next (wrote s2.unblock gd (BitVec.ofNat 64 (leNat l)) len))

/-! ## Operations, streams, control registers (10 R239 to R256) -/

/-- 10 R240 to R244: the five instructions on a handle; a malformed handle raises RECORD_FIELD. `opwait` of an operation that
is not terminal waits. -/
def Obligations.HandleInstructions : Prop :=
  ∀ (s : State) (gd ga gb : Reg) (a seq : Nat) (e : Engine), clean s [ga, gb] → a = (s.g ga).toNat →
    (a < 3 * 2 ^ 32 → e = Engine.ofNum (a / 2 ^ 32) → seq = a % 2 ^ 32 →
      exec (.optest gd ga) s = .next (wrote s gd (BitVec.ofNat 64 ((s.me.eng e).stateCode seq)) 4) ∧
      (2 ≤ (s.me.eng e).stateCode seq →
        exec (.opwait gd ga) s = .next (wrote s gd (BitVec.ofNat 64 ((s.me.eng e).stateCode seq)) 4)) ∧
      ((s.me.eng e).stateCode seq < 2 → exec (.opwait gd ga) s = .next (s.block .opwait)) ∧
      exec (.opcancel ga) s =
        .next ((s.onOp e seq fun o => if o.token.isSome then o else { o with cancel := true }).skip 4) ∧
      exec (.opprio ga gb) s = .next ((s.onOp e seq fun o => { o with prio := min (s.g gb).toNat 31 }).skip 4) ∧
      exec (.opdetach ga) s = .next ((s.onOp e seq fun o => { o with attached := false }).skip 4)) ∧
    (3 * 2 ^ 32 ≤ a →
      exec (.optest gd ga) s = .next (s.fault Code.recordField 0) ∧ exec (.opwait gd ga) s = .next (s.fault Code.recordField 0) ∧
      exec (.opcancel ga) s = .next (s.fault Code.recordField 0) ∧ exec (.opprio ga gb) s = .next (s.fault Code.recordField 0) ∧
      exec (.opdetach ga) s = .next (s.fault Code.recordField 0))

/-- 02 R38, R53, 10 R246, R247, R249, 20 R469, 07 R174: how a stream ends, stops, traps and publishes. An `exit` with a hold
raises SYNC_MISUSE, with an attached operation it waits; a `yield` with no request latched only advances; `trap` and `brk`
take their faults with the program counter on the instruction; the BREAKPOINT of a `brk` with a debugger attached ends no
attempt, that of one without ends it, whatever stop of the gang comes between; a `publish` goes on once a link port is up.
It performs every held granule that the card's grants admit at host memory, empties the buffer, and then writes the
version counter, its least significant byte first, with its previous value plus 1 where `prt.pubctr` is not 0; no other
byte of host memory changes (19 R448). -/
def Obligations.StreamInstructions : Prop :=
  ∀ (s : State) (n : Fin 16) (disp : BitVec 21),
    (∀ u, s.core.hold = [] → s.me.attachedOf s.curCore = false → u = s.flushMine →
      exec .exit s = .next ((u.setCore { u.core with run := .exited, wait := .none, frames := [], spilled := 0, ended := true }).flushCore
        s.curTile.val s.curCore.num)) ∧
    (s.core.hold = [] → s.me.attachedOf s.curCore = true → exec .exit s = .next (s.block .exitOps)) ∧
    (s.core.hold ≠ [] → exec .exit s = .next (s.fault Code.syncMisuse 3)) ∧
    (disp ≠ 0 → s.me.life.latched = none → exec (.yield disp) s = .next (s.skip 4)) ∧
    (exec (.yield 0) s = .next (s.fault Code.illegalInstruction 0xEC000000)) ∧
    (disp ≠ 0 → s.me.life.latched.isSome → ∀ l s1 u, u = s1.flushMine →
      fetchSpan s (s.oldsOf s.curTile.val) s.myDie s.myPart (s.core.pc + BitVec.ofInt 56 (4 * disp.toInt)).toNat 16 = (.unit l, s1) →
      exec (.yield disp) s =
        .next (((u.setCore { u.core with run := .yielded, livemap := leNat l, ended := true }).skip 4).flushCore
          u.curTile.val u.curCore.num)) ∧
    exec (.trap n) s = .next (s.fault Code.trap n.val) ∧
    ((s.part s.myPart).dbg.attach = false → ∃ t, exec .brk s = .next t ∧ t = s.fault Code.breakpoint 0 ∧
      (s.me.life.fault = none → t.me.life.fault.map (fun f => (f.code, f.attached)) = some (Code.breakpoint, false))) ∧
    ((s.part s.myPart).dbg.attach = true → ∃ t, exec .brk s = .next t ∧ t.me.life.phase = .draining ∧
      t.me.life.rest = some .debug ∧ t.core.pc = s.core.pc ∧
      (s.me.life.fault = none → t.me.life.fault.map (fun f => (f.code, f.attached)) = some (Code.breakpoint, true))) ∧
    (∀ (u : State) (m : Node) (k : Nat) (f : FaultRec), (u.tile k).life.fault = some f →
      u.endingFault m k = if m.resumes f = true ∨ (f.code = Code.breakpoint ∧ f.attached = true) then none else some f) ∧
    (s.linkUp = true → exec .publish s = .next ((s.flushMine.publishDrain s.myPart).unblock.skip 4)) ∧
    (∀ (u : State) (p : Part) (ctr : Nat), s.linkUp = true → u = s.flushMine → p = u.part s.myPart → ctr = p.pubctr * 8 →
      (∀ g ∈ p.pub, g.host % 64 = 0 ∧ g.bytes.length = 64 ∧ u.granted s.myPart g.host 64 true = true) →
      p.pub.Pairwise (fun g h => g.host ≠ h.host) → (ctr ≠ 0 → u.granted s.myPart ctr 8 true = true) →
      ∃ t, exec .publish s = .next t ∧ t.core.pc = u.core.pc + 4 ∧ t.core.wait = .none ∧ (t.part s.myPart).pub = [] ∧
        (t.part s.myPart).pubver = p.pubver + 1 ∧ t.mem = u.mem ∧
        ∀ a, t.host.byte a = if ctr ≠ 0 ∧ ctr ≤ a ∧ a < ctr + 8
          then BitVec.ofNat 8 ((p.pubver + 1).toNat / 2 ^ (8 * (a - ctr))) else (p.heldByte a).getD (u.host.byte a)) ∧
    (s.linkUp = false → exec .publish s = .next (s.block .publish))

/-- 03 R59, 10 R252, R255, R256: format table, tick counter and generator, whose words with GB 31 decode to nothing (R256).
The clear bit 4 of DETAIL for an entry that is not legal is the model's choice (log 85). 05 R112, R113, 08 R178, 20 R473,
R474: the steps of a `ctlwr` to a pond, to the spill area and to the counters, which takes effect as its cycle ends
(`ErrorsAndCounters`; a read in a later cycle finds it done, `ControlRegisters`). -/
def Obligations.TableGeneratorAndRegisterSteps : Prop :=
    (∀ (s : State) (f : Fin 16) (gd ga gb gn : Reg),
      (clean s [ga] → (Ent.v (s.g ga).toNat = false ∨ Ent.legal (s.g ga).toNat = true) →
        exec (.fmtset f ga) s =
          .next ((s.setMe { s.me with ctl := { s.me.ctl with fmt := SMap.set 0 s.me.ctl.fmt f.val (s.g ga) } }).skip 4)) ∧
      (clean s [ga] → Ent.v (s.g ga).toNat = true → Ent.legal (s.g ga).toNat = false →
        exec (.fmtset f ga) s = .next (s.fault Code.illegalFormatEntry f.val)) ∧
      exec (.fmtget gd f) s = .next (wrote s gd (SMap.get 0 s.me.ctl.fmt f.val) 4) ∧
      exec (.rdsc gd) s = .next (wrote s gd (BitVec.ofNat 64 s.seiche) 4) ∧
      (gn.val = gb.val + 1 → clean s [ga, gb, gn] →
        exec (.rndkLo gd ga gb) s =
          .next (wrote s gd (BitVec.ofNat 64 (rand (s.g ga).toNat ((s.g gn).toNat * 2 ^ 64 + (s.g gb).toNat))) 4) ∧
        exec (.rndkHi gd ga gb) s =
          .next (wrote s gd (BitVec.ofNat 64 (rand (s.g ga).toNat ((s.g gn).toNat * 2 ^ 64 + (s.g gb).toNat) / 2 ^ 64)) 4)) ∧
      (∀ hi : Bool, decodeTableWord 32 (0x38 * 2 ^ 26 + gd.val * 2 ^ 21 + ga.val * 2 ^ 16 + 31 * 2 ^ 11 + 0x60 + b2n hi) = none)) ∧
    (∀ (s : State) (p : Fin 16) (ga : Reg) (v : Nat), clean s [ga] → v = (s.g ga).toNat →
      ((v / 2 ^ 63 = 1 → v / 2 ^ 32 % 2 ^ 11 ≠ 0 ∧ v / 2 ^ 32 % 2 ^ 11 ≤ 1024 ∧
          v / 2 ^ 22 % 2 ^ 10 + (v / 2 ^ 44 % 2 ^ 4 + 1) * (v / 2 ^ 32 % 2 ^ 11) ≤ 1024 ∧ p.val + 2 ^ (v / 2 ^ 58 % 4) ≤ 16) →
        exec (.pondWrite p ga) s =
          .next ((s.setMe { s.me with ctl := { s.me.ctl with pond := writePond s.me.ctl.pond p.val v } }).skip 4)) ∧
      (v % 2 ^ 21 % 8 = 0 → v / 2 ^ 32 % 2 ^ 22 % 8 = 0 → v % 2 ^ 21 ≤ v / 2 ^ 32 % 2 ^ 22 → v / 2 ^ 32 % 2 ^ 22 ≤ 0x200000 →
        s.core.sptr = s.core.spillBase →
        exec (.spillWrite ga) s = .next ((s.setCore { s.core with
          spillBase := v % 2 ^ 21, spillLimit := v / 2 ^ 32 % 2 ^ 22, sptr := v % 2 ^ 21 }).skip 4)) ∧
      exec (.perfClear ga) s = .next ((s.setMe { s.me with perf := perfWritten s v }).skip 4) ∧
      exec (.perfFreeze ga) s = .next ((s.setMe { s.me with perf := perfWritten s v }).skip 4))

/-- 08 R182, 10 R253, 07 R158, 04 Table 4.3: control registers: PERMISSION from index 0x800 on, ILLEGAL_INSTRUCTION for an
index that is not assigned, else `ctlrd` gives the value, of the counters the one that the core's own last write of
`ctl.perf.ctl` leaves, and the one before another core's write until its cycle ends (20 R474); a `ctlwr` runs the
register's own checks: the fields of `ctl.round`, `ctl.srkey`, `ctl.profile`, `ctl.memdef` and `ctl.bfmt` read back as
written, refused values of `ctl.round` (MODE above 4), `ctl.profile` (3) and `ctl.memdef` (CHINT above 3, SCOPE above 5)
raise ILLEGAL_INSTRUCTION, `ctl.spill`, the ponds and `ctl.perf.ctl` do what their own steps do, and the others are
read-only. -/
def Obligations.ControlRegisters : Prop :=
  ∀ (s : State) (idx : BitVec 12) (gd ga : Reg) (v : Word) (a : Nat), clean s [ga] → a = (s.g ga).toNat →
    let refused := Host.Outcome.next (s.fault Code.illegalInstruction (0xE8000000 + ga.val * 2 ^ 16 + idx.toNat))
    (0x800 ≤ idx.toNat → exec (.ctlrd gd idx) s = .next (s.fault Code.permission 8) ∧
      exec (.ctlwr idx ga) s = .next (s.fault Code.permission 8)) ∧
    (idx.toNat < 0x800 → readCtl s idx.toNat = none → (idx.toNat < 0x200 ∨ 0x300 ≤ idx.toNat ∨ perfOwn s = false →
      exec (.ctlrd gd idx) s = .next (s.fault Code.illegalInstruction (0xE4000000 + gd.val * 2 ^ 21 + idx.toNat))) ∧
      exec (.ctlwr idx ga) s = refused) ∧
    (idx.toNat < 0x800 → readCtl s idx.toNat = some v → idx.toNat < 0x200 ∨ 0x300 ≤ idx.toNat ∨ perfOwn s = false →
      exec (.ctlrd gd idx) s = .next (wrote s gd v 4)) ∧
    (0x200 ≤ idx.toNat → idx.toNat < 0x300 → perfOwn s = true →
      exec (.ctlrd gd idx) s = exec (.ctlrd gd idx) (s.setMe { s.me with perf := perfSettled s.me.perf })) ∧
    (readCtl s 0x010 = some s.me.ctl.tile ∧ readCtl s 0x014 = some s.me.ctl.dbase ∧ readCtl s 0x015 = some (BitVec.ofNat 64 s.seiche) ∧
      readCtl s 0x025 = some (BitVec.ofNat 64 (s.core.depth * 2 ^ 32 + s.core.sptr))) ∧
    (idx = 0x021 → ∃ t, exec (.ctlwr idx ga) s = .next t ∧ t.core = s.core.skip 4 ∧ readCtl t 0x021 = some (s.g ga)) ∧
    (idx = 0x020 →
      (a % 8 < 5 → ∃ t, exec (.ctlwr idx ga) s = .next t ∧ t.core = s.core.skip 4 ∧ readCtl t 0x020 = some (BitVec.ofNat 64 (a % 16))) ∧
      (5 ≤ a % 8 → exec (.ctlwr idx ga) s = refused)) ∧
    (idx = 0x022 →
      (a % 4 < 3 → ∃ t, exec (.ctlwr idx ga) s = .next t ∧ t.core = s.core.skip 4 ∧ readCtl t 0x022 = some (BitVec.ofNat 64 (a % 4))) ∧
      (a % 4 = 3 → exec (.ctlwr idx ga) s = refused)) ∧
    (idx = 0x023 →
      (a / 256 % 16 ≤ 3 → a % 8 ≤ 5 → ∃ t, exec (.ctlwr idx ga) s = .next t ∧ t.core = { s.core.skip 4 with memdef := t.core.memdef } ∧
        readCtl t 0x023 = some (BitVec.ofNat 64 (a / 256 % 16 * 256 + a / 16 % 4 * 16 + a % 8))) ∧
      (3 < a / 256 % 16 ∨ 5 < a % 8 → exec (.ctlwr idx ga) s = refused)) ∧
    (0x40 ≤ idx.toNat → idx.toNat < 0x60 → ∃ t, exec (.ctlwr idx ga) s = .next t ∧ t.core = s.core.skip 4 ∧
      readCtl t idx.toNat = some (BitVec.ofNat 64 (a % 16))) ∧
    (∀ p : Fin 16, idx.toNat = 0x60 + p.val → exec (.ctlwr idx ga) s = exec (.pondWrite p ga) s) ∧
    (idx = 0x024 → exec (.ctlwr idx ga) s = exec (.spillWrite ga) s) ∧
    (idx = 0x201 → exec (.ctlwr idx ga) s = exec (.perfClear ga) s ∧ exec (.ctlwr idx ga) s = exec (.perfFreeze ga) s) ∧
    (idx.toNat < 0x800 → readCtl s idx.toNat = some v → ¬ (0x20 ≤ idx.toNat ∧ idx.toNat ≤ 0x24) → ¬ (0x40 ≤ idx.toNat ∧ idx.toNat < 0x70) →
      idx ≠ 0x201 → exec (.ctlwr idx ga) s = .next (s.skip 4))

/-! ## Vector instructions (11) -/

/-- 11 R259, R260, 08 R181, R175: what writing lanes means: a lane that the mask makes active takes its value, every other
element of every panel keeps its own, the unit is two words long; k0 is all ones, and a write of k0 changes nothing. -/
def Obligations.LanesWrittenUnderTheMask : Prop :=
  ∀ (s : State) (km : Nat) (dst : VOpnd) (v : Nat → Nat), dst.panel = true →
    (∀ l, l < dst.lanes → laneOf (lanesWritten s dst (activeLanes s km dst.lanes) v) dst l =
      if (s.me.mem.maskOf km).getLsbD l then v l % 2 ^ 32 else laneOf s dst l) ∧
    (∀ key, (∀ l, l < dst.lanes → (s.me.mem.maskOf km).getLsbD l = true → key ≠ dst.key l) →
      (lanesWritten s dst (activeLanes s km dst.lanes) v).me.mem.elemAt key = s.me.mem.elemAt key) ∧
    (lanesWritten s dst (activeLanes s km dst.lanes) v).core = s.core.skip 8 ∧
    (∀ l, l < 256 → (s.me.mem.maskOf 0).getLsbD l = true) ∧ (∀ w, s.me.mem.setMask 0 w = s.me.mem)

/-- 11 R264, R265, 04 R102, R103 and Table 4.4, 03 R68: the rounding instructions: on each active lane the exact result of the
lanes' FP32 values is rounded once to FP32 in the mode that RM selects, with the random bits of the destination element
under mode SR. What the exact results are: a product and a sum by their integers, with R265's special values and R102's
zeros; a quotient, a root and the inverse of a root by the integers they lie between, 60 or more leading bits and one more
that tells if anything follows, which decides every rounding; Table 4.4's special values; the exact values of `vexp2` at
integers and of `vlog2` at powers of two. Every other value of `vexp2` and `vlog2` is what log 22's enclosures give (the
model's choice), a `vexp2` of 4,096 and beyond rounds as 2^±1000, and the sign of a zero divided by a finite value is the
model's choice too (log 74). -/
def Obligations.VectorRoundingInstructions : Prop :=
  (∀ (s : State) (f : VFields) (mode : Nat) (sat : Bool), s.curCore = .x →
    (mode, sat) = roundingOf s f.rm.val →
    let ls := activeLanes s f.km.val f.vd.lanes
    let a := fun l => fp32 (laneOf s f.va l)
    let b := fun l => fp32 (laneOf s f.vb l)
    let c := fun l => fp32 (laneOf s f.vc l)
    let done := fun (vop : Nat) (x : Nat → Val) => Host.Outcome.next (lanesWritten s f.vd ls fun l =>
      round entFp32 (x l) mode (vecRnd s.me.ctl.srkey vop f.vd l) sat)
    (readable s [f.km.val] (ls.map f.va.key) →
      ((Instr.vrcp f).wellFormed = true → exec (.vrcp f) s = done 0x0A fun l => vrcpVal (a l)) ∧
      ((Instr.vrsq f).wellFormed = true → exec (.vrsq f) s = done 0x0B fun l => vrsqVal (a l)) ∧
      ((Instr.vsqrt f).wellFormed = true → exec (.vsqrt f) s = done 0x0C fun l => vsqrtVal (a l)) ∧
      ((Instr.vexp2 f).wellFormed = true → exec (.vexp2 f) s = done 0x0E fun l => vexp2Val (a l)) ∧
      ((Instr.vlog2 f).wellFormed = true → exec (.vlog2 f) s = done 0x0F fun l => vlog2Val (a l))) ∧
    (readable s [f.km.val] (ls.flatMap fun l => [f.va.key l, f.vb.key l]) →
      ((Instr.vadd f).wellFormed = true → exec (.vadd f) s = done 0x00 fun l => vsum mode (a l) (b l)) ∧
      ((Instr.vsub f).wellFormed = true → exec (.vsub f) s = done 0x01 fun l => vsum mode (a l) (b l).negate) ∧
      ((Instr.vmul f).wellFormed = true → exec (.vmul f) s = done 0x02 fun l => (a l).mul (b l)) ∧
      ((Instr.vdiv f).wellFormed = true → exec (.vdiv f) s = done 0x0D fun l => vquot (a l) (b l))) ∧
    (readable s [f.km.val] (ls.flatMap fun l => [f.va.key l, f.vb.key l, f.vc.key l]) →
      ((Instr.vfma f).wellFormed = true → exec (.vfma f) s = done 0x03 fun l => vsum mode ((a l).mul (b l)) (c l)) ∧
      ((Instr.vfms f).wellFormed = true → exec (.vfms f) s = done 0x04 fun l => vsum mode ((a l).mul (b l)) (c l).negate) ∧
      ((Instr.vfnma f).wellFormed = true → exec (.vfnma f) s = done 0x05 fun l => vsum mode ((a l).mul (b l)).negate (c l)))) ∧
  (∀ (x : Val) (p q : Bool) (m n : Nat) (e f : Int) (mode : Nat),
    (x.mul .nan = .nan ∧ Val.nan.mul x = .nan ∧ vsum mode x .nan = .nan ∧ vsum mode .nan x = .nan ∧ vquot x .nan = .nan ∧ vquot .nan x = .nan) ∧
    ((Val.inf p).mul (.inf q) = .inf (p != q) ∧ (Val.inf p).mul (.fin q n f) = (if n = 0 then .nan else .inf (p != q)) ∧
      (Val.fin q n f).mul (.inf p) = (if n = 0 then .nan else .inf (p != q)) ∧
      ∃ k g, (Val.fin p m e).mul (.fin q n f) = .fin (p != q) k g ∧ g ≤ e + f ∧ m * n * 2 ^ (e + f - g).toNat = k) ∧
    (vsum mode (.inf p) (.inf q) = (if p = q then .inf p else .nan) ∧ vsum mode (.inf p) (.fin q n f) = .inf p ∧
      vsum mode (.fin q n f) (.inf p) = .inf p ∧
      let lo := min e f
      let int := fun (neg : Bool) (k : Nat) (g : Int) => (if neg then -1 else 1) * ((k * 2 ^ (g - lo).toNat : Nat) : Int)
      let z := int p m e + int q n f
      (z ≠ 0 → ∃ k g, vsum mode (.fin p m e) (.fin q n f) = .fin (decide (z < 0)) k g ∧ lo ≤ g ∧ int (decide (z < 0)) k g = z) ∧
      (z = 0 → ∃ g, vsum mode (.fin p m e) (.fin q n f) = .fin (if mode = 3 then decide (¬ (m = 0 ∧ n = 0 ∧ p = false ∧ q = false))
        else decide (m = 0 ∧ n = 0 ∧ p = true ∧ q = true)) 0 g)) ∧
    (vquot (.inf p) (.inf q) = .nan ∧ vquot (.inf p) (.fin q n f) = .inf (p != q) ∧ vquot (.fin p m e) (.inf q) = .fin (p != q) 0 0 ∧
      (n = 0 → vquot (.fin p m e) (.fin q n f) = if m = 0 then .nan else .inf (p != q)) ∧
      (n ≠ 0 → m = 0 → vquot (.fin p m e) (.fin q n f) = .fin (p != q) 0 0) ∧
      (n ≠ 0 → m ≠ 0 → ∃ k i : Nat, ∃ more : Bool, vquot (.fin p m e) (.fin q n f) = .fin (p != q) (2 * i + b2n more) (e - f - k - 1) ∧
        2 ^ 60 ≤ i ∧ i * n ≤ m * 2 ^ k ∧ m * 2 ^ k < (i + 1) * n ∧ (more = true ↔ i * n ≠ m * 2 ^ k))) ∧
    (vrcpVal x = vquot (.fin false 1 0) x) ∧
    (vsqrtVal .nan = .nan ∧ vsqrtVal (.inf p) = (if p then .nan else .inf false) ∧
      (m = 0 → vsqrtVal (.fin p m e) = .fin p 0 0) ∧ (m ≠ 0 → vsqrtVal (.fin true m e) = .nan) ∧
      (m ≠ 0 → ∃ k i : Nat, ∃ more : Bool, vsqrtVal (.fin false m e) = .fin false (2 * i + b2n more) (e / 2 - k - 1) ∧ 2 ^ 60 ≤ i ∧
        i * i ≤ m * 2 ^ ((e % 2).toNat + 2 * k) ∧ m * 2 ^ ((e % 2).toNat + 2 * k) < (i + 1) * (i + 1) ∧
        (more = true ↔ i * i ≠ m * 2 ^ ((e % 2).toNat + 2 * k)))) ∧
    (vrsqVal .nan = .nan ∧ vrsqVal (.inf p) = (if p then .nan else .fin false 0 0) ∧
      (m = 0 → vrsqVal (.fin p m e) = .inf p) ∧ (m ≠ 0 → vrsqVal (.fin true m e) = .nan) ∧
      (m ≠ 0 → ∃ k i : Nat, ∃ more : Bool, vrsqVal (.fin false m e) = .fin false (2 * i + b2n more) (-(e / 2) - k - 1) ∧ 2 ^ 60 ≤ i ∧
        i * i * (m * 2 ^ (e % 2).toNat) ≤ 2 ^ (2 * k) ∧ 2 ^ (2 * k) < (i + 1) * (i + 1) * (m * 2 ^ (e % 2).toNat) ∧
        (more = true ↔ i * i * (m * 2 ^ (e % 2).toNat) ≠ 2 ^ (2 * k)))) ∧
    (vexp2Val .nan = .nan ∧ vexp2Val (.inf p) = (if p then .fin false 0 0 else .inf false) ∧ (m = 0 → vexp2Val (.fin p m e) = .fin false 1 0) ∧
      (∀ k : Nat, m < 4096 → vexp2Val (.fin p (m * 2 ^ k) (-k)) = .fin false 1 (if p then -(m : Int) else m)) ∧
      (m ≠ 0 → 12 ≤ Nat.log2 m + e → vexp2Val (.fin p m e) = .fin false 1 (if p then -1000 else 1000))) ∧
    (vlog2Val .nan = .nan ∧ vlog2Val (.inf p) = (if p then .nan else .inf false) ∧ (m = 0 → vlog2Val (.fin p m e) = .inf true) ∧
      (m ≠ 0 → vlog2Val (.fin true m e) = .nan) ∧
      ∀ k : Nat, vlog2Val (.fin false (2 ^ k) e) = .fin (decide (k + e < 0)) (k + e).natAbs 0))

/-- 11 R266, R269, R270: the raw two-operand and one-operand lanes: minima and maxima of FP32 words (the canonical NaN where
either is a NaN, else the smaller or the larger word unchanged, as the words order by sign and magnitude, -0 below +0),
sign bit operations, logic, shifts by the low five bits, and 32-bit integers that wrap, or clamp where SAT is 1. -/
def Obligations.VectorIntegerAndLogic : Prop :=
  (∀ x y : Nat, x < 2 ^ 32 → y < 2 ^ 32 →
    let nan := fun (w : Nat) => 0x7F800000 < w % 2 ^ 31
    let place := fun (w : Nat) => if w < 2 ^ 31 then (w : Int) else -((w % 2 ^ 31 : Nat) : Int) - 1
    fpMin x y = (if nan x ∨ nan y then 0x7FC00000 else if place x ≤ place y then x else y) ∧
    fpMax x y = (if nan x ∨ nan y then 0x7FC00000 else if place y ≤ place x then x else y)) ∧
  ∀ (s : State) (f : VFields), s.curCore = .x →
    let ls := activeLanes s f.km.val f.vd.lanes
    let a := fun l => laneOf s f.va l
    let b := fun l => laneOf s f.vb l
    let done := fun (x : Nat → Nat) => Host.Outcome.next (lanesWritten s f.vd ls x)
    let int := fun (v : Int) => if (roundingOf s f.rm.val).2 then (BitVec.ofInt 32 (max (-2 ^ 31) (min v (2 ^ 31 - 1)))).toNat
      else (BitVec.ofInt 32 v).toNat
    let sg := fun (x : Nat) => (BitVec.ofNat 32 x).toInt
    (readable s [f.km.val] (ls.map f.va.key) →
      ((Instr.vabs f).wellFormed = true → exec (.vabs f) s = done fun l => a l % 2 ^ 31) ∧
      ((Instr.vneg f).wellFormed = true → exec (.vneg f) s = done fun l => a l ^^^ 2 ^ 31)) ∧
    (readable s [f.km.val] (ls.flatMap fun l => [f.va.key l, f.vb.key l]) →
      ((Instr.vmin f).wellFormed = true → exec (.vmin f) s = done fun l => fpMin (a l) (b l)) ∧
      ((Instr.vmax f).wellFormed = true → exec (.vmax f) s = done fun l => fpMax (a l) (b l)) ∧
      ((Instr.vand f).wellFormed = true → exec (.vand f) s = done fun l => a l &&& b l) ∧
      ((Instr.vor f).wellFormed = true → exec (.vor f) s = done fun l => a l ||| b l) ∧
      ((Instr.vxor f).wellFormed = true → exec (.vxor f) s = done fun l => a l ^^^ b l) ∧
      ((Instr.vshl f).wellFormed = true → exec (.vshl f) s = done fun l => a l * 2 ^ (b l % 32)) ∧
      ((Instr.vshr f).wellFormed = true → exec (.vshr f) s = done fun l => a l / 2 ^ (b l % 32)) ∧
      ((Instr.vsra f).wellFormed = true → exec (.vsra f) s = done fun l => (BitVec.ofInt 32 (sg (a l) / 2 ^ (b l % 32))).toNat) ∧
      ((Instr.viadd f).wellFormed = true → exec (.viadd f) s = done fun l => int (sg (a l) + sg (b l))) ∧
      ((Instr.visub f).wellFormed = true → exec (.visub f) s = done fun l => int (sg (a l) - sg (b l))) ∧
      ((Instr.vimul f).wellFormed = true → exec (.vimul f) s = done fun l => int (sg (a l) * sg (b l))))

/-- 11 R267, R268, R271 to R273, R279 to R281: comparison into a mask under the conditions of 11 Table 11.4, selection (which
reads both sources of every active lane, the model's reading, log 86), conversion between entries, broadcasts, moves,
permutation, transposition, indices and random bits. 03 R69 to R71, R73, R74, R77: what a conversion gives: a raw copy
between equal entries; into KIND 1 the integer that the mode chooses, at the ends of the range where it passes them
whatever SAT is, the highest for a NaN; into KIND 0 the code whose value is the one that the mode chooses on the grid of
the entry, a zero of its sign where the entry has one, R70's code past the largest, and R71's codes for NaN and infinity;
into a UEXP entry the power of two that the mode chooses for a positive value, 0x00 below the least, R70's code past the
largest, and 0xFF for every other finite value and NaN. -/
def Obligations.VectorMovesAndConversions : Prop :=
  (∀ (g f c mode rnd : Nat) (sat neg : Bool) (m : Nat) (e : Int), mode ≤ 4 → rnd < 2 ^ 24 → Ent.legal f = true →
    (convert f f c mode rnd sat = c ∧ (g ≠ f → convert g f c mode rnd sat = round f (decodeElem g c) mode rnd sat)) ∧
    (Ent.legal g = true → Ent.kind g = 1 → decodeElem g c =
      let z : Int := if Ent.sign g ∧ 2 ^ (Ent.width g - 1) ≤ c % 2 ^ Ent.width g then (c % 2 ^ Ent.width g : Nat) - 2 ^ Ent.width g
        else (c % 2 ^ Ent.width g : Nat)
      .fin (decide (z < 0)) z.natAbs 0) ∧
    -- the integer that the mode chooses for |x| in units of 2^u (R69)
    let chosen := fun (u : Int) =>
      let p := m * 2 ^ (e - u).toNat
      let d := 2 ^ (u - e).toNat
      p / d + (if (mode = 0 ∧ (d < 2 * (p % d) ∨ (2 * (p % d) = d ∧ p / d % 2 = 1))) ∨ (mode = 2 ∧ p % d ≠ 0 ∧ neg = false) ∨
        (mode = 3 ∧ p % d ≠ 0 ∧ neg = true) ∨ (mode = 4 ∧ rnd < p % d * 2 ^ 24 / d) then 1 else 0)
    let sized := fun (c : Nat) => if neg then c + 2 ^ (Ent.width f - 1) else c
    let hi : Int := if Ent.sign f then 2 ^ (Ent.width f - 1) - 1 else 2 ^ Ent.width f - 1
    let lo : Int := if Ent.sign f then -2 ^ (Ent.width f - 1) else 0
    let code := fun (z : Int) => (z % 2 ^ Ent.width f).toNat
    (Ent.kind f = 1 → round f .nan mode rnd sat = code hi ∧ round f (.inf neg) mode rnd sat = code (if neg then lo else hi) ∧
      round f (.fin neg m e) mode rnd sat = code (max lo (min hi (if neg then -(chosen 0 : Int) else chosen 0)))) ∧
    (Ent.kind f = 0 → Ent.policy f ≠ 4 →
      let r := round f (.fin neg m e) mode rnd sat
      let top := Ent.ew f + Ent.fw f
      -- R70: the largest finite code, the infinity, or the canonical NaN of Table 3.5
      let largest := if Ent.policy f = 0 then (2 ^ Ent.ew f - 1) * 2 ^ Ent.fw f - 1 else if Ent.policy f = 1 then 2 ^ top - 2 else 2 ^ top - 1
      let nan := [(2 ^ Ent.ew f - 1) * 2 ^ Ent.fw f + 2 ^ (Ent.fw f - 1), 2 ^ top - 1, 2 ^ top, 2 ^ top - 1].getD (Ent.policy f) 0
      let past := if mode = 1 ∨ (mode = 2 ∧ neg = true) ∨ (mode = 3 ∧ neg = false) ∨ sat = true ∨ Ent.policy f = 3 then sized largest
        else if Ent.policy f = 0 then sized ((2 ^ Ent.ew f - 1) * 2 ^ Ent.fw f) else nan
      round f .nan mode rnd sat = nan ∧
      round f (.inf neg) mode rnd sat = (if Ent.policy f = 0 then sized ((2 ^ Ent.ew f - 1) * 2 ^ Ent.fw f) else past) ∧
      (m = 0 → r = if Ent.policy f = 2 then 0 else sized 0) ∧
      (m ≠ 0 →
        let least := 1 - Ent.bias f
        let ex := max least (Nat.log2 m + e)
        let n := chosen (ex - Ent.fw f)
        let place := (ex - least).toNat * 2 ^ Ent.fw f + n
        (largest < place → r = past) ∧
        (place ≤ largest → n = 0 → r = if Ent.policy f = 2 then 0 else sized 0) ∧
        (place ≤ largest → n ≠ 0 → r < 2 ^ Ent.width f ∧ (decodeFloat f r = .fin neg n (ex - Ent.fw f) ∨
          (n = 2 ^ (Ent.fw f + 1) ∧ decodeFloat f r = .fin neg (2 ^ Ent.fw f) (ex - Ent.fw f + 1)))))) ∧
    (Ent.kind f = 0 → Ent.policy f = 4 → round f .nan mode rnd sat = 0xFF ∧ round f (.inf true) mode rnd sat = 0xFF ∧
      round f (.fin true m e) mode rnd sat = 0xFF ∧ round f (.fin neg 0 e) mode rnd sat = 0xFF ∧
      round f (.inf false) mode rnd sat = (if mode = 1 ∨ mode = 3 ∨ sat = true then 0xFE else 0xFF) ∧
      -- 2^k ≤ x < 2^(k+1), and x = (1 + part / unit) × 2^k
      (m ≠ 0 →
        let unit := 2 ^ Nat.log2 m
        let part := m - unit
        let low := (Nat.log2 m : Int) + e + Ent.bias f
        let j := if (mode = 0 ∧ (unit < 2 * part ∨ (2 * part = unit ∧ low % 2 ≠ 0))) ∨ (mode = 2 ∧ part ≠ 0) ∨
          (mode = 4 ∧ rnd < part * 2 ^ 24 / unit) then low + 1 else low
        round f (.fin false m e) mode rnd sat =
          if j < 0 then 0 else if 254 < j then (if mode = 1 ∨ mode = 3 ∨ sat = true then 0xFE else 0xFF) else j.toNat))) ∧
  (∀ a b : Nat, a < 2 ^ 32 → b < 2 ^ 32 →
    let nan := fun (x : Nat) => 0x7F800000 < x % 2 ^ 31
    -- the order of FP32 values that are not NaN, by sign and magnitude
    let at_ := fun (x : Nat) => if x < 2 ^ 31 then (x : Int) else -((x - 2 ^ 31 : Nat) : Int)
    (vcond 0 a b = true ↔ ¬nan a ∧ ¬nan b ∧ at_ a = at_ b) ∧ (vcond 1 a b = true ↔ nan a ∨ nan b ∨ at_ a ≠ at_ b) ∧
    (vcond 2 a b = true ↔ ¬nan a ∧ ¬nan b ∧ at_ a < at_ b) ∧ (vcond 3 a b = true ↔ ¬nan a ∧ ¬nan b ∧ at_ a ≤ at_ b) ∧
    (vcond 4 a b = true ↔ nan a ∨ nan b) ∧ (vcond 5 a b = true ↔ a = b) ∧
    (vcond 6 a b = true ↔ (BitVec.ofNat 32 a).toInt < (BitVec.ofNat 32 b).toInt) ∧ (vcond 7 a b = true ↔ a < b)) ∧
  ∀ (s : State) (f : VFields), s.curCore = .x →
    let ls := activeLanes s f.km.val f.vd.lanes
    let n := f.vd.lanes
    let done := fun (x : Nat → Nat) => Host.Outcome.next (lanesWritten s f.vd ls x)
    ((Instr.vcmp f).wellFormed = true →
      readable s [f.km.val] ((activeLanes s f.km.val f.va.lanes).flatMap fun l => [f.va.key l, f.vb.key l]) →
      ∃ m, exec (.vcmp f) s = .next ((s.setMem m).skip 8) ∧
        m = { s.me.mem with mask := m.mask, maskBad := m.maskBad, maskCe := m.maskCe } ∧ (∀ k, k ≠ f.vd.p.val → m.maskOf k = s.me.mem.maskOf k) ∧
        (f.vd.p.val ≠ 0 → ∀ l, l < 256 → (m.maskOf f.vd.p.val).getLsbD l =
          if l ∈ activeLanes s f.km.val f.va.lanes then vcond f.vc.p.val (laneOf s f.va l) (laneOf s f.vb l)
          else (s.me.mem.maskOf f.vd.p.val).getLsbD l) ∧
        (∀ i, i ∈ m.maskBad → i ∈ s.me.mem.maskBad) ∧ (∀ i, i ∈ m.maskCe → i ∈ s.me.mem.maskCe) ∧
        (f.vd.p.val ≠ 0 → ∀ i, i ∈ s.me.mem.maskBad → (i ∈ m.maskBad ↔ ¬ (i / 8 = f.vd.p.val ∧
          ∀ j, j < 32 → 32 * (i % 8) + j ∈ activeLanes s f.km.val f.va.lanes)))) ∧
    ((Instr.vsel f).wellFormed = true → readable s [f.vc.p.val] [] →
      readable s [f.km.val] (ls.flatMap fun l => [f.va.key l, f.vb.key l]) →
      exec (.vsel f) s = done fun l => if (s.me.mem.maskOf f.vc.p.val).getLsbD l then laneOf s f.va l else laneOf s f.vb l) ∧
    ((Instr.vcvt f).wellFormed = true → readable s [f.km.val] (ls.map f.va.key) →
      useEntry s.me.ctl.fmt f.vb.p.val [0, 1] = none → useEntry s.me.ctl.fmt f.vc.p.val [0, 1] = none →
      exec (.vcvt f) s = done fun l =>
        convert (entryOf s.me.ctl.fmt f.vb.p.val) (entryOf s.me.ctl.fmt f.vc.p.val)
          (laneOf s f.va l % 2 ^ Ent.width (entryOf s.me.ctl.fmt f.vb.p.val)) (roundingOf s f.rm.val).1
          (vecRnd s.me.ctl.srkey 0x28 f.vd l) (roundingOf s f.rm.val).2) ∧
    (clean s [f.va.reg] → readable s [f.km.val] [] →
      ((Instr.vbcast f).wellFormed = true → exec (.vbcast f) s = done fun _ => (s.g f.va.reg).toNat % 2 ^ 32) ∧
      ((Instr.vidx f).wellFormed = true → exec (.vidx f) s = done fun l => ((s.g f.va.reg).toNat % 2 ^ 32 + l) % 2 ^ 32)) ∧
    (clean s [f.va.reg, f.vb.reg, f.vc.reg] → readable s [f.km.val] [] → (Instr.vrng f).wellFormed = true →
      exec (.vrng f) s = done fun l =>
        rand (s.g f.va.reg).toNat (4 * 2 ^ 120 + (s.g f.vb.reg).toNat % 2 ^ 56 * 2 ^ 64 +
          ((s.g f.vc.reg).toNat + l / 4) % 2 ^ 64) / 2 ^ (32 * (l % 4)) % 2 ^ 32) ∧
    ((Instr.vbcastRows f).wellFormed = true → readable s [f.km.val] (ls.map fun l => f.va.key (l % 16)) →
      exec (.vbcastRows f) s = done fun l => laneOf s f.va (l % 16)) ∧
    ((Instr.vbcastCols f).wellFormed = true → readable s [f.km.val] (ls.map fun l => f.va.key (l / 16)) →
      exec (.vbcastCols f) s = done fun l => laneOf s f.va (l / 16)) ∧
    ((Instr.vmov f).wellFormed = true → readable s [f.km.val] (ls.map f.va.key) →
      exec (.vmov f) s = done fun l => laneOf s f.va l) ∧
    ((Instr.vtrans f).wellFormed = true → readable s [f.km.val] (ls.map fun l => f.va.key (l % 16 * 16 + l / 16)) →
      exec (.vtrans f) s = done fun l => laneOf s f.va (l % 16 * 16 + l / 16)) ∧
    ((Instr.vperm f).wellFormed = true → readable s [f.km.val] (ls.map f.vb.key) →
      readable s [f.km.val] (ls.map fun l => f.va.key (laneOf s f.vb l % n)) →
      exec (.vperm f) s = done fun l => laneOf s f.va (laneOf s f.vb l % n)) ∧
    ((Instr.vmovToG f).wellFormed = true → readable s [] [f.va.key f.vb.idx.val] →
      exec (.vmovToG f) s = .next (wrote s f.vd.reg (BitVec.ofNat 64 (laneOf s f.va f.vb.idx.val)) 8)) ∧
    ((Instr.vmovFromG f).wellFormed = true → clean s [f.va.reg] →
      exec (.vmovFromG f) s = .next (lanesWritten s f.vd [f.vb.idx.val] fun _ => (s.g f.va.reg).toNat % 2 ^ 32))

/-- 11 R274, R275 (with ga, gb and KM free of uncorrectable errors, which come before these checks by the model's reading, log
87): `vld` and `vst` move one 32-bit word of the scratchpad per active lane, at a + b × l, or in rows of 16 words b apart;
`vst` changes no other byte but those of the remote stores that a `fence` puts before it (07 R160), and of two lanes at
one address the higher stands. A lane out of bounds, else a misaligned one, faults before any lane has an effect, with the
offset of the lowest such lane (which of several lanes is the model's choice, log 71). -/
def Obligations.VectorLoadAndStore : Prop :=
  ∀ (s : State) (f : VFields) (at_ : Nat → Nat), s.curCore = .x → clean s [f.va.reg, f.vb.reg] → readable s [f.km.val] [] →
    (∀ l, at_ l = if f.vd.lanes = 16 then (s.g f.va.reg + BitVec.ofNat 64 l * s.g f.vb.reg).toNat
      else (s.g f.va.reg + BitVec.ofNat 64 (l / 16) * s.g f.vb.reg + BitVec.ofNat 64 (4 * (l % 16))).toNat) →
    let ls := activeLanes s f.km.val f.vd.lanes
    ((∀ l ∈ ls, at_ l + 4 ≤ 0x200000 ∧ at_ l % 4 = 0) →
      ((Instr.vld f).wellFormed = true → (∀ l ∈ ls, noLatent s s.curTile.val (at_ l) 4 ∧ s.me.readFails (at_ l) 4 = none) →
        exec (.vld f) s = .next (lanesWritten s f.vd ls fun l => s.me.mem.scratch.readLE (at_ l) 4)) ∧
      ((Instr.vst f).wellFormed = true → (∀ l ∈ ls, s.me.retiredHit (at_ l) 4 = none) → readable s [] (ls.map f.vd.key) →
        ∃ m u, u = (if s.core.fenced then s.flushMine else s) ∧ exec (.vst f) s = .next ((u.setMem m).skip 8) ∧
          m.panel = s.me.mem.panel ∧ m.mask = s.me.mem.mask ∧
          (∀ a, (∀ l ∈ ls, a < at_ l ∨ at_ l + 4 ≤ a) → m.scratch.byte a = u.me.mem.scratch.byte a) ∧
          ∀ l ∈ ls, (∀ h ∈ ls, l < h → at_ h ≠ at_ l) → m.scratch.readLE (at_ l) 4 = laneOf s f.vd l)) ∧
    (∀ l ∈ ls, 0x200000 < at_ l + 4 → (∀ j ∈ ls, j < l → at_ j + 4 ≤ 0x200000) →
      ((Instr.vld f).wellFormed = true → exec (.vld f) s = .next (s.faultA 0 Code.scratchBounds (at_ l))) ∧
      ((Instr.vst f).wellFormed = true → exec (.vst f) s = .next (s.faultA 1 Code.scratchBounds (at_ l)))) ∧
    (∀ l ∈ ls, (∀ j ∈ ls, at_ j + 4 ≤ 0x200000) → at_ l % 4 ≠ 0 → (∀ j ∈ ls, j < l → at_ j % 4 = 0) →
      ((Instr.vld f).wellFormed = true → exec (.vld f) s = .next (s.faultA 0 Code.alignment (at_ l))) ∧
      ((Instr.vst f).wellFormed = true → exec (.vst f) s = .next (s.faultA 1 Code.alignment (at_ l))))

/-- 11 R276 to R278: `vred` writes one lane per group of 16, the root of the fixed tree over the lanes present under the mask,
and `vscan` every prefix, left to right; the integer sum is the exact sum of the present lanes, wrapped, or clamped where
SAT is 1; where none is present the result is that of 11 Table 11.5; stochastic rounding, from RM or from `ctl.round`,
raises ILLEGAL_INSTRUCTION. 11 R282, 08 R191: the mask instructions; one that reads a mask with an uncorrectable error
raises UNCORRECTABLE, which UE counts, with the first such word in DETAIL (the numbering and the order of the masks are
the model's, logs 24 and 96); and that a core other than the X-core has no vector instruction: each of the 46 raises
ILLEGAL_INSTRUCTION there. -/
def Obligations.VectorReductionsAndMasks : Prop :=
    (∀ (s : State) (f : VFields) (mode : Nat) (sat : Bool), s.curCore = .x → (mode, sat) = roundingOf s f.rm.val →
      (mode ≠ 4 → readable s [f.km.val] ((activeLanes s f.km.val f.va.lanes).map f.va.key) →
        ((Instr.vred f).wellFormed = true → exec (.vred f) s =
          .next (lanesWritten s f.vd (List.range (f.va.lanes / 16)) fun r =>
            reduceGroup f.vc.p.val mode sat (presentLanes s f.km.val f.va r))) ∧
        ((Instr.vscan f).wellFormed = true → exec (.vscan f) s =
          .next (lanesWritten s f.vd (List.range f.va.lanes) fun l =>
            (scanGroup f.vc.p.val mode sat none 0 (presentLanes s f.km.val f.va (l / 16))).getD (l % 16) 0))) ∧
      (mode = 4 →
        ((Instr.vred f).wellFormed = true → exec (.vred f) s = .next (s.illegal (.vred f))) ∧
        ((Instr.vscan f).wellFormed = true → exec (.vscan f) s = .next (s.illegal (.vscan f))))) ∧
    (∀ (rop : Fin 6) (mode : Nat) (sat : Bool) (l : List (Option Nat)) (j : Nat) (x y : Nat), l.length = 16 → j < 16 →
      let v := fun i => (l.getD i none).map fun x => if rop.val ≤ 2 ∧ (fp32 x).isNan = true then 0x7FC00000 else x
      let none_ := [0, 0xFF800000, 0x7F800000, 0, 0x80000000, 0x7FFFFFFF].getD rop.val 0
      let sum := fun (l : List (Option Nat)) => (l.map fun o => ((o.map fun x => (BitVec.ofNat 32 x).toInt).getD 0)).sum
      let int := fun (z : Int) => (BitVec.ofInt 32 (if sat then max (-2 ^ 31) (min z (2 ^ 31 - 1)) else z)).toNat
      (rop.val ≠ 3 → reduceGroup rop.val mode sat l = (treeAt (combine rop.val mode sat) v 4 0).getD none_ ∧
        (scanGroup rop.val mode sat none 0 l).getD j 0 = (prefixAt (combine rop.val mode sat) v j).getD none_) ∧
      (rop.val = 3 → reduceGroup rop.val mode sat l = int (sum l) ∧
        (scanGroup rop.val mode sat none 0 l).getD j 0 = int (sum (l.take (j + 1)))) ∧
      (combine 0 mode sat x y = round entFp32 (vsum mode (fp32 x) (fp32 y)) mode 0 sat ∧
        combine 1 mode sat x y = fpMax x y ∧ combine 2 mode sat x y = fpMin x y ∧
        combine 4 mode sat x y = (if (BitVec.ofNat 32 x).toInt < (BitVec.ofNat 32 y).toInt then y else x) ∧
        combine 5 mode sat x y = (if (BitVec.ofNat 32 y).toInt < (BitVec.ofNat 32 x).toInt then y else x))) ∧
    (∀ (s : State) (f : VFields),
      (s.curCore = .x →
        (readable s [f.va.p.val, f.vb.p.val] [] →
          ((Instr.kand f).wellFormed = true → exec (.kand f) s = .next ((s.setMem (s.me.mem.setMask f.vd.p.val
            (s.me.mem.maskOf f.va.p.val &&& s.me.mem.maskOf f.vb.p.val))).skip 8)) ∧
          ((Instr.kor f).wellFormed = true → exec (.kor f) s = .next ((s.setMem (s.me.mem.setMask f.vd.p.val
            (s.me.mem.maskOf f.va.p.val ||| s.me.mem.maskOf f.vb.p.val))).skip 8))) ∧
        (∀ a ms, s.me.mem.vecPoison ms [] = some a → (∀ i ∈ s.me.mem.maskCe, i / 8 ∉ ms) →
          let stops := fun (i : Instr) => i.wellFormed = true →
            exec i s = .next ((s.countUe s.curTile.val).fault Code.uncorrectable (uncDetail 2 a))
          (ms = [f.va.p.val, f.vb.p.val] → stops (.kand f) ∧ stops (.kor f)) ∧
          (ms = [f.va.p.val] → stops (.knot f) ∧ stops (.kpop f))) ∧
        (∀ a ms, s.me.mem.vecPoison ms [] = some a ↔ ∃ k i, ms.find? (fun k => decide (k ≠ 0) &&
            s.me.mem.maskBad.any fun i => decide (i / 8 = k)) = some k ∧
          s.me.mem.maskBad.find? (fun i => decide (i / 8 = k)) = some i ∧ a = 0x8000 + 4 * i) ∧
        (readable s [f.va.p.val] [] →
          ((Instr.knot f).wellFormed = true → exec (.knot f) s = .next ((s.setMem (s.me.mem.setMask f.vd.p.val
            (~~~ s.me.mem.maskOf f.va.p.val))).skip 8)) ∧
          ((Instr.kpop f).wellFormed = true → exec (.kpop f) s = .next (wrote s f.vd.reg
            (BitVec.ofNat 64 ((List.range 256).countP fun i => (s.me.mem.maskOf f.va.p.val).getLsbD i)) 8)))) ∧
      (s.curCore ≠ .x → ∀ i ∈ [Instr.vadd f, .vsub f, .vmul f, .vfma f, .vfms f, .vfnma f, .vmin f, .vmax f, .vabs f, .vneg f,
          .vrcp f, .vrsq f, .vsqrt f, .vdiv f, .vexp2 f, .vlog2 f, .vcmp f, .vsel f, .vand f, .vor f, .vxor f, .vshl f, .vshr f,
          .vsra f, .viadd f, .visub f, .vimul f, .vcvt f, .vbcast f, .vbcastRows f, .vbcastCols f, .vmov f, .vmovToG f,
          .vmovFromG f, .vld f, .vst f, .vred f, .vscan f, .vperm f, .vtrans f, .vrng f, .vidx f, .kand f, .kor f, .knot f,
          .kpop f], exec i s = .next (s.illegal i)))

/-! ## Records (12 R289, R295 to R297) -/

/-- 12 R289, 02 R44: each of the 22 records, issued by the core that owns its engine while the engine has room and every check
passes, is accepted: the core's remote stores are performed, the engine assigns the next sequence number and puts the
operation last in its queue, and the core goes on past the 64 bytes. A record that waited for room is accepted so by
RECORD_ACCEPT. -/
def Obligations.RecordsAreAccepted : Prop :=
  ∀ (s : State) (k : RecKind) (r : Rec) (c : IssueCtx) (e : Engine), e = k.engine →
    (s.curCore = e.owner → s.me.hasRoom e = true → Admitted s k r c →
      ∃ t, exec (recordOf k r) s = .next t ∧ t = acceptRecord s (newOp s k c r) ∧ t.core.pc = s.core.pc + 64 ∧
        (t.me.eng e).ops = (s.me.eng e).ops ++ [newOp s k c r] ∧ (t.me.eng e).last = nextSeq (s.me.eng e).last ∧
        t.core.remote = [] ∧ ∀ g, t.g g = s.g g) ∧
    (∀ (u : State) (t : TileId) (d : CoreId), (u.coreAt t.val d).wait = .engineRoom k r → (u.tile t.val).hasRoom e = true →
      s = ({ u with curTile := t, curCore := d } : State).unblock → Admitted s k r c →
      exec (.recordAccept t d) u = .next (acceptRecord s (newOp s k c r)))

/-- 12 R289, R297, R295, R311: where a record is refused, in the order of the checks: the wrong core, then a wait for room;
the transfer block of a store out of bounds or unreadable; RECORD_FIELD with the first word at fault, for fields and then
for ponds; ILLEGAL_FORMAT_ENTRY (its DETAIL where several entries fail is the model's reading, log 30); RECORD_FIELD for
what needs a format; PERMISSION of a chain over a tile of another node (its place here, after the late fields and before
OVERLAP, is the model's choice, log 79); OVERLAP with the handle that it meets, under DET 1; SCHEDULE_MISS, whose DETAIL
is the stamp's tick T modulo 2^64. -/
def Obligations.RecordRefusals : Prop :=
  ∀ (s : State) (k : RecKind) (r : Rec) (c : IssueCtx) (w : Nat) (ws : List Nat) (d h : Nat),
    (s.curCore ≠ k.engine.owner → exec (recordOf k r) s = .next (s.fault Code.recordField 65520)) ∧
    (s.curCore = k.engine.owner → 16 ≤ (s.me.eng k.engine).ops.length →
      exec (recordOf k r) s = .next (s.block (.engineRoom k r))) ∧
    (s.curCore = k.engine.owner → (s.me.eng k.engine).ops.length < 16 → k.mayDrain = true →
      (0x200000 < 64 * r.h .d + 64 → exec (recordOf k r) s = .next (s.faultA 0 Code.scratchBounds (64 * r.h .d))) ∧
      (64 * r.h .d + 64 ≤ 0x200000 → noLatent s s.curTile.val (64 * r.h .d + 8) 8 → s.me.readFails (64 * r.h .d + 8) 8 = some d →
        exec (recordOf k r) s = .next (s.faultA 0 Code.uncorrectable (uncDetail 0 d)))) ∧
    (s.curCore = k.engine.owner → (s.me.eng k.engine).ops.length < 16 → IssueReads s k r c →
      (fieldWords k c (tileTic s.curTile.val) r = w :: ws →
        exec (recordOf k r) s = .next (s.fault Code.recordField (firstWord (w :: ws)))) ∧
      (fieldWords k c (tileTic s.curTile.val) r = [] → pondStepWords k c r = w :: ws →
        exec (recordOf k r) s = .next (s.fault Code.recordField (firstWord (w :: ws)))) ∧
      (fieldWords k c (tileTic s.curTile.val) r = [] → pondStepWords k c r = [] →
        (formatStep k c r = some d → exec (recordOf k r) s = .next (s.fault Code.illegalFormatEntry d)) ∧
        (formatStep k c r = none → lateWords k c r = w :: ws →
          exec (recordOf k r) s = .next (s.fault Code.recordField (firstWord (w :: ws)))) ∧
        (formatStep k c r = none → lateWords k c r = [] →
          (k = .mchain → (∃ t ∈ chainTiles s.curTile.val r, sameNode s.me (s.tile t) = false) →
            exec (recordOf k r) s = .next (s.fault Code.permission 16)) ∧
          ((k = .mchain → ∀ t ∈ chainTiles s.curTile.val r, sameNode s.me (s.tile t) = true) →
            (bit s.me.ctl.node.toNat 58 = true → overlapWith s.me (newOp s k c r) = some h →
              exec (recordOf k r) s = .next (s.fault Code.overlap h)) ∧
            ((bit s.me.ctl.node.toNat 58 = true → overlapWith s.me (newOp s k c r) = none) → r.stamp = true →
              stampTick s.seiche r.w14.toNat < s.seiche →
              ∃ t, exec (recordOf k r) s = .next t ∧ t.me.life.phase = .draining ∧ t.core.pc = s.core.pc ∧
                (s.me.life.fault = none → t.me.life.fault.map (fun f => (f.code, f.detail)) =
                  some (Code.scheduleMiss, (stampTick s.seiche r.w14.toNat % 2 ^ 64).toNat))))))) ∧
    (∀ x : Nat, firstWord (w :: ws) ≤ 15 ∧ (x ∈ w :: ws → firstWord (w :: ws) ≤ x) ∧
      (w ≤ 15 → (∀ y ∈ ws, y ≤ 15) → firstWord (w :: ws) ∈ w :: ws))

/-! ## Operations on their engines (02 R40 to R47; 06 R137, R140; 12 R290 to R312) -/

namespace Sys2Proof.Claims

/-- Word n of row r of a tile's accumulators (12 R292). -/
def accWord (s : State) (t r n : Nat) : Nat := (SMap.get 0 (s.tile t).mem.acc (128 * r + n)).toNat

/-- No word that a pass reads is poisoned: its accumulator row, its plane, and for a KIND 3 plane its group terms (12 R302).
-/
def passClean (s : State) (t r : Nat) : Prop :=
  (∀ n, n < 128 → 128 * r + n ∉ (s.tile t).mem.accBad) ∧ ∀ i ∈ (s.tile t).mem.planeBad, (s.tile t).mem.act.reads i = false

/-- The terms of column n of a pass over a KIND 0 or KIND 2 plane, block by block: 32 K positions a block of a dense one (04
R95), a group a block of a sparse one, whose indices above 23 give +0 (04 R100). -/
def passTerms (p : Plane) (x : Nat → Val) (n : Nat) : List (List Val) :=
  if p.sp = 0 then chunks 32 4 ((List.range 128).map fun k => (x k).mul (p.val k n))
  else (List.range (spGroups p.sp)).map fun h => (sparsePairs p h n).map fun a =>
    if a.1 ≤ 23 then (x (24 * h + a.1)).mul (p.val a.2 n) else Val.zero

/-- The integer sum of column n of a pass over a KIND 1 plane (04 R98, R100). -/
def passSum (p : Plane) (x : Nat → Int) (n : Nat) : Int :=
  if p.sp = 0 then ((List.range 128).map fun k => x k * p.int k n).sum
  else ((List.range (spGroups p.sp)).map fun h => ((sparsePairs p h n).map fun a =>
    if a.1 ≤ 23 then x (24 * h + a.1) * p.int a.2 n else 0).sum).sum

/-- The terms of column n of a pass over a KIND 3 plane: one for each m K positions, from group g0 of the scale memory on (04
R93). -/
def passGroups (p : Plane) (scale : Memory) (g0 m : Nat) (x : Nat → Int) (n : Nat) : List (List Val) :=
  (List.range (128 / m)).map fun j =>
    let ks := (List.range m).map fun i => m * j + i
    let w := scale.readLE (512 * (g0 + m * j / Ent.block p.fmt.toNat) + 4 * n) 4
    let z := if Ent.zp p.fmt.toNat = true then (if Ent.sign p.fmt.toNat = true then (BitVec.ofNat 16 (w / 2 ^ 16)).toInt
      else ((w / 2 ^ 16 % 2 ^ 16 : Nat) : Int)) else 0
    [(decodeFloat p.sfmt.toNat (w % 2 ^ 16)).mul
      (Val.ofInt ((ks.map fun k => p.int k n * x k).sum - z * (ks.map x).sum))]

/-- A pass of `mma`, dense, or of `mmas`, sparse, that is not chained: its operands lie in range and none is poisoned, and its
reads leave s1 (12 R302, R305). -/
def PassReads (s s1 : State) (t : TileId) (o : Op) (p : Plane) (f r : Nat) (l : List Byte) (ua : List UnitAt) : Prop :=
  (o.kind = .mma ∧ p.sp = 0 ∨ o.kind = .mmas ∧ p.sp ≠ 0) ∧ o.rcd.chain = false ∧ o.west = false ∧ p = (s.tile t.val).mem.act ∧
  f = o.latch.fmtOf o.rcd .a ∧ o.row .a (o.stride .a) (rowBytes (kPositions p.sp) f) s = (.ok ua, s) ∧
  readRow t.val ua (rowBytes (kPositions p.sp) f) s = (.ok l, s1) ∧ 0 ≤ (o.rcd.h .d : Int) + o.stride .d ∧
  (o.rcd.h .d : Int) + o.stride .d ≤ 65535 ∧ r = ((o.rcd.h .d : Int) + o.stride .d).toNat / 128 ∧ passClean s t.val r ∧ passClean s1 t.val r

/-- What one pass does to the accumulators: row r takes new words, and every other keeps its own; the scratchpad and the
planes stay. -/
def PassGives (s s1 : State) (t : TileId) (o : Op) (r : Nat) (w : Nat → Nat) : Prop :=
  ∃ u, iterOp t.val o false s = (.ok (), u) ∧ (u.tile t.val).mem.scratch = (s1.tile t.val).mem.scratch ∧
    (u.tile t.val).mem.act = (s.tile t.val).mem.act ∧ (u.tile t.val).mem.shd = (s.tile t.val).mem.shd ∧
    ∀ q n, n < 128 → accWord u t.val q n = if q = r then w n else accWord s t.val q n

/-- The entries that the shadow plane of u keeps for weights read from the units of some rows: of each, the entry of its bank
and its scale entry where it is not the plane's own, f; every other row keeps what v has (03 R83). -/
def WeightEntries (v u : State) (t : TileId) (o : Op) (x : Opd) (f : Nat) (rows : Nat → Bool) (us : Nat → List UnitAt) : Prop :=
  ∀ k n, n < 128 →
    let e := o.elemEntry x f (us k) n
    SMap.get 0 (u.tile t.val).mem.shd.ents (128 * k + n) = (if rows k then (if e = f then 0 else BitVec.ofNat 64 e)
      else SMap.get 0 (v.tile t.val).mem.shd.ents (128 * k + n)) ∧
    SMap.get 0 (u.tile t.val).mem.shd.sents (128 * k + n) = (if rows k then
        (if e = f then 0 else BitVec.ofNat 64 (scaleEntry o.latch.fmt e))
      else SMap.get 0 (v.tile t.val).mem.shd.sents (128 * k + n))

/-- What the passes of `mma` and `mmas` do (12 R301 to R303, R305; 04 R92 to R100), where they stop nowhere. -/
def PassIterations : Prop :=
  ∀ (s s1 : State) (t : TileId) (o : Op) (f fb r : Nat) (ua us : List UnitAt) (l sc : List Byte) (p : Plane) (ub : Nat → List UnitAt)
    (lk : Nat → List Byte),
    let e := fun k => o.elemEntry .a f ua k
    let x := fun k => rowVal o.latch.fmt (leNat l) (kPositions p.sp) f (e k) k
    let xi := fun k => decodeInt (e k) (codeAt (leNat l) (Ent.width f) k)
    let prof := o.profile (bit (s.tile t.val).ctl.node.toNat 58)
    let acc := fun n blocks => accumulate prof o.kind.opc (BitVec.ofNat 64 f) p.fmt (accWord s t.val r n) blocks % 2 ^ 32
    (PassReads s s1 t o p f r l ua → o.kind = .mma ∧ o.rcd.epi = false ∨ o.kind = .mmas →
      (p.loaded = true → Ent.kind p.fmt.toNat ≠ 3 →
        (Ent.kind f = 0 ∨ Ent.kind f = 2 ∧ p.sp = 0 → Ent.kind p.fmt.toNat = 0 ∨ Ent.kind p.fmt.toNat = 2 ∧ p.sp = 0 →
          PassGives s s1 t o r fun n => acc n (passTerms p x n)) ∧
        (Ent.kind f = 1 → Ent.kind p.fmt.toNat = 1 → PassGives s s1 t o r fun n =>
          (let z := (BitVec.ofNat 32 (accWord s t.val r n)).toInt + passSum p xi n
          (BitVec.ofInt 32 (if o.rcd.accsat then max (-2 ^ 31) (min z (2 ^ 31 - 1)) else z)).toNat))) ∧
      (∀ g0 : Nat, o.kind = .mma → p.loaded = true → Ent.kind f = 1 → Ent.kind p.fmt.toNat = 3 → (g0 : Int) = (o.rcd.h .b : Int) + o.stride .b →
        g0 + 128 / Ent.block p.fmt.toNat ≤ 64 →
        (∀ i ∈ (s.tile t.val).mem.scaleBad, i < 512 * g0 ∨ 512 * (g0 + 128 / Ent.block p.fmt.toNat) ≤ i) →
        PassGives s s1 t o r fun n => acc n (passGroups p (s.tile t.val).mem.scale g0
          (if prof = 2 then 32 else Ent.block p.fmt.toNat) xi n)) ∧
      (p.loaded = false → p.sp = 0 →
        (Ent.kind f = 1 → PassGives s s1 t o r fun n => accWord s t.val r n) ∧
        (Ent.kind f = 0 ∨ Ent.kind f = 2 → PassGives s s1 t o r fun n => acc n (List.replicate 4 [Val.zero])))) ∧
    (PassReads s s t o p f r l ua → (∀ i ∈ (s.tile t.val).mem.accCe, i / 128 ≠ r) → (∀ i ∈ (s.tile t.val).mem.planeCe, p.reads i = false) →
      o.kind = .mma → o.rcd.epi = true → fb = o.latch.fmtOf o.rcd .b → Ent.kind p.fmt.toNat ≠ 3 →
      (∀ k, o.t ≤ k → k < 128 → k = o.t ∨ o.t + 1 = o.rcd.total →
        o.row .b ((k * unitsOf (planeRowBytes fb) : Nat) : Int) (planeRowBytes fb) s = (.ok (ub k), s) ∧
        readRow t.val (ub k) (planeRowBytes fb) s = (.ok (lk k), s)) →
      (Ent.kind fb = 2 → o.t = 0 → o.row .b ((128 * unitsOf (planeRowBytes fb) : Nat) : Int) (planeScaleBytes fb) s = (.ok us, s) ∧
        readRow t.val us (planeScaleBytes fb) s = (.ok sc, s) ∧ sc ≠ [] ∧ planeScaleBytes fb ≠ 0) →
      ∃ u, iterOp t.val o false s = (.ok (), u) ∧ (u.tile t.val).mem.act = (s.tile t.val).mem.act ∧
        (∀ k n, k < 128 → n < 128 → (u.tile t.val).mem.shd.code k n = if o.t ≤ k ∧ (k = o.t ∨ o.t + 1 = o.rcd.total)
          then codeAt (leNat (lk k)) (Ent.width fb) n % 2 ^ 32 else (s.tile t.val).mem.shd.code k n) ∧
        WeightEntries s u t o .b fb (fun k => decide (o.t ≤ k) && decide (k < 128) && (decide (k = o.t) || decide (o.t + 1 = o.rcd.total))) ub ∧
        (u.tile t.val).mem.shd.scale = (if Ent.kind fb = 2 ∧ o.t = 0 then Memory.setBytes [] 0 sc else (s.tile t.val).mem.shd.scale) ∧
        (∀ q n, n < 128 → q ≠ r → accWord u t.val q n = accWord s t.val q n) ∧
        (p.loaded = true → Ent.kind f = 0 ∨ Ent.kind f = 2 → Ent.kind p.fmt.toNat = 0 ∨ Ent.kind p.fmt.toNat = 2 →
          ∀ n, n < 128 → accWord u t.val r n = acc n (passTerms p x n)) ∧
        (p.loaded = true → Ent.kind f = 1 → Ent.kind p.fmt.toNat = 1 → ∀ n, n < 128 → accWord u t.val r n =
          (let z := (BitVec.ofNat 32 (accWord s t.val r n)).toInt + passSum p xi n
          (BitVec.ofInt 32 (if o.rcd.accsat then max (-2 ^ 31) (min z (2 ^ 31 - 1)) else z)).toNat))) ∧
    (∀ (q : Plane) (h n k : Nat),
      (sparsePairs q h n).Perm ((List.range (spN q.sp)).map fun i =>
        (q.meta_.readLE (8 * (128 * h + n)) 8 / 2 ^ (5 * i) % 32, spN q.sp * h + i)) ∧
      (∀ e sf : Word, (e, sf) = (if SMap.get 0 q.ents (128 * k + n) = 0 then (q.fmt, q.sfmt)
          else (SMap.get 0 q.ents (128 * k + n), SMap.get 0 q.sents (128 * k + n))) →
        q.val k n = (if Ent.kind e.toNat = 2 then decodeScaled e.toNat sf.toNat (q.code k n)
            (q.scale.byte (128 * (k / Ent.block q.fmt.toNat) + n)).toNat else decodeElem e.toNat (q.code k n)) ∧
          (Ent.kind e.toNat = Ent.kind q.fmt.toNat → q.int k n = decodeInt e.toNat (q.code k n)))) ∧
    ([1, 2, 3].map spN = [6, 8, 12] ∧ [1, 2, 3].map spGroups = [21, 16, 10] ∧ [0, 1, 2, 3].map kPositions = [128, 504, 384, 240]) ∧
    (∀ (op w : Nat) (g h : Word) (bs : List (List Val)),
      accumulate 1 op g h w bs = roundFp32 (Val.sum (fp32 w) bs.flatten) ∧
      (∀ b rest, bs = b :: rest → accumulate 2 op g h w bs = roundFp32 ((fp32 w).add ((rest.map blockSum).foldl
        (fun v w => fp32 (roundFp32 (v.add w))) (blockSum b)))) ∧
      (bs = [] → accumulate 0 op g h w bs = roundFp32 (fp32 w)) ∧
      (∀ x, bs = [[x]] → accumulate 0 op g h w bs = roundFp32 ((fp32 w).add x) ∨
        accumulate 0 op g h w bs = roundFp32 (x.add (fp32 w))) ∧
      (w < 2 ^ 32 → bs = List.replicate 4 [Val.zero] → ∀ k, k = 1 ∨ k = 2 → accumulate k op g h w bs =
        if w = 2 ^ 31 then 0 else if (fp32 w).isNan = true then 0x7FC00000 else w))

/-- An accumulator word through an epilogue block: scale, bias and clamp as its control word enables them (04 R101, 12 Table
12.5). -/
def throughEpilogue (blk : Nat → Nat) (v : Val) (n : Nat) : Val :=
  let v := if blk 258 % 2 = 1 then v.mul (fp32 (blk n)) else v
  let v := if blk 258 / 2 % 2 = 1 then v.add (fp32 (blk (128 + n))) else v
  if blk 258 / 4 % 2 = 1 then
    let v := if v.lt (fp32 (blk 256)) then fp32 (blk 256) else v
    if (fp32 (blk 257)).lt v then fp32 (blk 257) else v
  else v

/-- What starting each matrix record does (12 R299, R303, R307, R309), where it stops nowhere, and where a direct drain stops.
-/
def MatrixStarts : Prop :=
  ∀ (s : State) (t : TileId) (o : Op) (off : Nat) (x : Nat → Nat),
    (o.kind = .wload ∨ o.kind = .mma ∧ o.rcd.epi = true → ∃ u f, startOp t.val o s = (.ok o, u) ∧
      f = (if o.kind = .wload then o.latch.fmtOf o.rcd .a else o.latch.fmtOf o.rcd .b) ∧
      (u.tile t.val).mem.shd = { loaded := true, fmt := BitVec.ofNat 64 f, sfmt := BitVec.ofNat 64 (scaleEntry o.latch.fmt f)
                                 sp := if o.kind = .wload then spOf o.rcd else 0 } ∧
      (u.tile t.val).mem.act = (s.tile t.val).mem.act ∧ (∀ k n, (u.tile t.val).mem.shd.code k n = 0) ∧
      ∀ q n, accWord u t.val q n = accWord s t.val q n) ∧
    (o.kind = .wswap ∨ o.kind = .mzero ∨ o.kind = .mchain ∨ o.kind = .mcopy ∨ o.kind = .mmas ∨ o.kind = .mma ∧ o.rcd.epi = false ∨
      o.kind = .mdrain ∧ o.rcd.epi = false → ∃ v, startOp t.val o s = (.ok v, s) ∧ v = { o with started := v.started } ∧
        (o.kind ≠ .mdrain → v = o)) ∧
    (o.kind = .mdrain ∨ o.kind = .mdrainDirect → o.rcd.epi = true → off = 64 * o.rcd.h .b →
      (∀ i, x i = (s.tile t.val).mem.scratch.readLE (off + 4 * i) 4) →
      (0x200000 < off + 1036 → startOp t.val o s = (.error { f := opRec Code.scratchBounds off 0 }, s)) ∧
      (off + 1036 ≤ 0x200000 → noLatent s t.val off 1036 → (s.tile t.val).readFails off 1036 = none →
        (8 ≤ x 258 → startOp t.val o s = (.error { f := opRec Code.recordField 12 0 }, s)) ∧
        (x 258 < 8 → o.kind = .mdrain → ∃ v, startOp t.val o s = (.ok v, s) ∧ v = { o with started := v.started } ∧
          ∀ i, i < 259 → (SMap.get 0 v.started.epilogue i).toNat = x i) ∧
        (x 258 < 8 → o.kind = .mdrainDirect → (∀ a ∈ o.rowsOf .a, 0 ≤ a ∧ a ≤ 65535) → ∃ u v, startOp t.val o s = (.ok v, u) ∧
          v = { o with started := v.started, t := o.rcd.total } ∧
          (∀ i, i < 259 → (SMap.get 0 v.started.epilogue i).toNat = x i) ∧
          u = s.setTile t.val { s.tile t.val with mem := { (s.tile t.val).mem with
            pins := (s.tile t.val).mem.pins ++ [{ seq := o.seq, op := v }] } }))) ∧
    (o.kind = .mdrainDirect → o.rcd.epi = false →
      ((∀ a ∈ o.rowsOf .a, 0 ≤ a ∧ a ≤ 65535) → ∃ u v, startOp t.val o s = (.ok v, u) ∧
        v = { o with started := v.started, t := o.rcd.total } ∧
        u = s.setTile t.val { s.tile t.val with mem := { (s.tile t.val).mem with
          pins := (s.tile t.val).mem.pins ++ [{ seq := o.seq, op := v }] } }) ∧
      (∀ a, (o.rowsOf .a).find? (fun a => decide (a < 0 ∨ 65535 < a)) = some a →
        startOp t.val o s = (.error { f := opRec Code.scratchBounds (a % 2 ^ 64).toNat 0 }, s)))

/-- What an iteration of each matrix record does (12 R299 to R310; 04 R92 to R101), where it stops nowhere. -/
def MatrixIterations : Prop :=
  ∀ (s s1 s2 : State) (t : TileId) (o : Op) (f r nb : Nat) (a : Int) (ua ub ud : List UnitAt) (l lb : List Byte),
    (o.kind = .wload → f = o.latch.fmtOf o.rcd .a → o.row .a (o.stride .a) (planeRowBytes f) s = (.ok ua, s) →
      readRow t.val ua (planeRowBytes f) s = (.ok l, s1) →
      let codes := fun (u v : State) => (∀ k n, n < 128 → (u.tile t.val).mem.shd.code k n =
          if k = o.t then codeAt (leNat l) (Ent.width f) n % 2 ^ 32 else (v.tile t.val).mem.shd.code k n) ∧
        WeightEntries v u t o .a f (fun k => decide (k = o.t)) fun _ => ua
      (o.t ≠ 0 ∨ spOf o.rcd = 0 ∧ Ent.kind f ≠ 2 →
        ∃ u, iterOp t.val o false s = (.ok (), u) ∧ (u.tile t.val).mem.act = (s1.tile t.val).mem.act ∧
          (u.tile t.val).mem.scratch = (s1.tile t.val).mem.scratch ∧ codes u s1 ∧
          (u.tile t.val).mem.shd.scale = (s1.tile t.val).mem.shd.scale ∧
          (u.tile t.val).mem.shd.meta_ = (s1.tile t.val).mem.shd.meta_) ∧
      (o.t = 0 → spOf o.rcd ≠ 0 ∨ Ent.kind f = 2 →
        nb = (if spOf o.rcd ≠ 0 then 8 * 128 * spGroups (spOf o.rcd) else 128 * 128 / Ent.block f) → nb ≠ 0 →
        o.row .b 0 nb s = (.ok ub, s) → readRow t.val ub nb s1 = (.ok lb, s2) →
        ∃ u, iterOp t.val o false s = (.ok (), u) ∧ (u.tile t.val).mem.act = (s2.tile t.val).mem.act ∧
          (u.tile t.val).mem.scratch = (s2.tile t.val).mem.scratch ∧ codes u s2 ∧
          (if spOf o.rcd ≠ 0 then (u.tile t.val).mem.shd.meta_ = Memory.setBytes [] 0 lb ∧
              (u.tile t.val).mem.shd.scale = (s2.tile t.val).mem.shd.scale
           else (u.tile t.val).mem.shd.scale = Memory.setBytes [] 0 lb ∧
              (u.tile t.val).mem.shd.meta_ = (s2.tile t.val).mem.shd.meta_))) ∧
    (o.kind = .wswap → ∃ u, iterOp t.val o false s = (.ok (), u) ∧ (u.tile t.val).mem.act = (s.tile t.val).mem.shd ∧
      (u.tile t.val).mem.shd = (s.tile t.val).mem.act ∧ ∀ r n, accWord u t.val r n = accWord s t.val r n) ∧
    (o.kind = .mzero → a = (o.rcd.h .d : Int) + o.stride .d → 0 ≤ a → a ≤ 65535 →
      ∃ u, iterOp t.val o false s = (.ok (), u) ∧
        ∀ r n, n < 128 → accWord u t.val r n = if r = a.toNat / 128 then 0 else accWord s t.val r n) ∧
    (o.kind = .mdrain → f = o.latch.fmtOf o.rcd .d → a = (o.rcd.h .a : Int) + o.stride .a → 0 ≤ a → a ≤ 65535 →
      r = a.toNat / 128 → passClean s t.val r → (∀ i ∈ (s.tile t.val).mem.accCe, i / 128 ≠ r) →
      o.row .d (o.stride .d) (planeRowBytes f) s = (.ok ud, s) → rowWritable t.val ud s = (.ok (), s) →
      let word := fun n => if o.rcd.accsat then Val.ofInt (BitVec.ofNat 32 (accWord s t.val r n)).toInt else fp32 (accWord s t.val r n)
      iterOp t.val o false s = (.ok (), s.writeRow t.val ud (packBytes (Ent.width f) ((List.range 128).map fun n =>
        o.round 0x01 (o.elemEntry .d f ud n) o.ivec n (if o.rcd.epi
          then throughEpilogue (fun i => (SMap.get 0 o.started.epilogue i).toNat) (word n) n else word n))))) ∧
    (∀ g n, o.kind = .mcopy → n = o.rcd.h .b → f = o.latch.fmtOf o.rcd .a → g = o.latch.fmtOf o.rcd .d →
      o.row .a (o.stride .a) (rowBytes n f) s = (.ok ua, s) → o.row .d (o.stride .d) (rowBytes n g) s = (.ok ud, s) →
      readRow t.val ua (rowBytes n f) s = (.ok l, s1) → rowWritable t.val ud s1 = (.ok (), s1) →
      iterOp t.val o false s = (.ok (), s1.writeRow t.val ud (packBytes (Ent.width g) ((List.range n).map fun j =>
        let e := o.elemEntry .a f ua j
        let c := o.elemEntry .d g ud j
        if e = c ∨ 2 ≤ Ent.kind c then codeAt (leNat l) (Ent.width f) j
        else o.round 0x02 c o.ivec j (rowVal o.latch.fmt (leNat l) n f e j))))) ∧
    (o.kind = .mchain → ∃ u, iterOp t.val o false s = (.ok (), u) ∧ (u.tile t.val).mem.chainLen = o.rcd.h .a % 8 + 1 ∧
      (u.tile t.val).mem.chainPos = o.rcd.h .a / 8 % 8 ∧ (u.tile t.val).mem.chainIn = [])

/-- What writing a row of a pond does: where its units lie apart, each takes its 64 bytes and every other byte keeps (05
R114). -/
def RowsWritten : Prop :=
  ∀ (s : State) (t : TileId) (us : List UnitAt) (l : List Byte), l.length = 64 * us.length → (∀ u ∈ us, u.off % 64 = 0) →
    us.Pairwise (fun u v => u.off ≠ v.off) →
    (∀ i u, us[i]? = some u → ((s.writeRow t.val us l).tile t.val).mem.scratch.bytes u.off 64 = (l.drop (64 * i)).take 64) ∧
    (∀ a, (∀ u ∈ us, a < u.off ∨ u.off + 64 ≤ a) →
      ((s.writeRow t.val us l).tile t.val).mem.scratch.byte a = (s.tile t.val).mem.scratch.byte a)

/-- What an iteration of each record of the load engine does (13 R322 to R326, R339), where it stops nowhere. -/
def LoadIterations : Prop :=
  ∀ (s s1 s2 s3 s4 : State) (t : TileId) (o : Op) (g : Bool) (d : Layout) (b : Transfer) (fs n : Nat) (ix : Int)
    (us ua : List UnitAt) (ps : Places) (bs : List Byte),
    (o.kind = .fill → n = o.rcd.h .b → o.rawRow .d n s = (.ok us, s) → rowWritable t.val us s = (.ok (), s) →
      iterOp t.val o g s = (.ok (), s.writeRow t.val us (List.replicate n o.started.pattern).flatten)) ∧
    (o.started.transfer = some b →
      (o.kind = .xpull → o.rawRow .d b.len s = (.ok us, s) → o.remoteOff .a b s = (.ok n, s) →
        ua = (List.range b.len).map (fun i => { off := n + 64 * i, pond := 0 }) →
        readRow (b.arg / 2 ^ 21 % 2 ^ 8) ua (64 * b.len) s = (.ok bs, s1) → rowWritable t.val us s1 = (.ok (), s1) →
        iterOp t.val o g s = (.ok (), s1.writeRow t.val us bs)) ∧
      (o.started.layout = some d → fs = entryOf o.latch.fmt d.fidx →
        (o.kind = .tload ∨ o.kind = .tgather ∨ o.kind = .rload → o.loadRow s = (.ok us, s1) → o.index t.val s1 = (.ok ix, s2) →
          o.places .a d b ix s2 = (.ok ps, s3) → readPlaces t.val d g (placeBytes fs ps) s3 = (.ok bs, s4) →
          rowWritable t.val us s4 = (.ok (), s4) → Ent.kind fs ≠ 2 → Ent.kind o.pondFmt ≠ 2 →
          let c := takeCodes (Ent.width fs) ps bs
          iterOp t.val o g s = (.ok (), s4.writeRow t.val us (imageOf o.pondFmt ((List.range c.length).map fun j =>
            let e := o.elemEntry .d o.pondFmt us j
            if fs = e ∨ 2 ≤ Ent.kind e then c.getD j 0 else o.round 0x02 e o.ivec j (decodeElem fs (c.getD j 0))) []))) ∧
        (o.kind = .sload → 0 ≤ (o.rcd.h .d : Int) + o.stride .d → (o.rcd.h .d : Int) + o.stride .d ≤ 63 →
          o.places .a d b 0 s = (.ok ps, s1) → readPlaces t.val d g (placeBytes fs ps) s1 = (.ok bs, s2) →
          ∃ u, iterOp t.val o g s = (.ok (), u) ∧ (u.tile t.val).mem.scale =
            (s2.tile t.val).mem.scale.setBytes (512 * ((o.rcd.h .d : Int) + o.stride .d).toNat) (packBytes 32 (takeCodes 32 ps bs)) ∧
            (u.tile t.val).mem.scratch = (s2.tile t.val).mem.scratch) ∧
        (∀ rows, o.kind = .mcred → o.loadRow s = (.ok us, s1) → o.places .a d b 0 s1 = (.ok ps, s2) → ps.any (·.isSome) = true →
          absent (tileDie t.val) o.started.members s2 = none →
          (g = false → ∃ w, iterOp t.val o g s = (.error { f := opRec 0 0 0, fab := some w }, s2)) ∧
          (g = true → readMembers (tileDie t.val) (s.tile t.val).partNo fs ps o.started.members s2 = (.ok rows, s3) →
            rowWritable t.val us s3 = (.ok (), s3) →
            iterOp t.val o g s = (.ok (), s3.writeRow t.val us (imageOf o.pondFmt ((List.range b.len).map fun j =>
              if (ps.getD j none).isSome then o.foldMembers b.rop fs (o.elemEntry .d o.pondFmt us j) j (rows.map fun r => r.getD j 0)
              else 0) []))))))

/-- What an iteration of each record of the store engine does (13 R325, R327, R329 to R331), where it stops nowhere. -/
def StoreIterations : Prop :=
  ∀ (s s1 s2 s3 s4 : State) (t : TileId) (o : Op) (g : Bool) (d : Layout) (b : Transfer) (fd n : Nat) (ix : Int)
    (us ud : List UnitAt) (ps : Places) (l : List Byte) (cs : List Nat × List Nat) (m : List (Nat × Option Nat)),
    o.started.transfer = some b →
      (o.kind = .xpush → o.rawRow .a b.len s = (.ok us, s) → o.remoteOff .d b s = (.ok n, s) →
        ud = (List.range b.len).map (fun i => { off := n + 64 * i, pond := 0 }) →
        rowWritable (b.arg / 2 ^ 21 % 2 ^ 8) ud s = (.ok (), s) → readRow t.val us (64 * b.len) s = (.ok l, s1) →
        iterOp t.val o g s = (.ok (), s1.writeRow (b.arg / 2 ^ 21 % 2 ^ 8) ud l)) ∧
      (o.started.layout = some d → fd = entryOf o.latch.fmt d.fidx →
        (o.kind = .tstore ∨ o.kind = .tscatter ∨ o.kind = .rstore → o.storeUnits d b s = (.ok us, s) →
          o.index t.val s = (.ok ix, s1) → o.places .d d b ix s1 = (.ok ps, s1) →
          (d.space = 0 → pageMap (tileDie t.val) (s1.tile t.val).partNo .write (placeBytes fd ps) [] s1 = (.ok m, s2) →
            o.storeCodes t.val b fd us s2 = (.ok cs, s3) →
            iterOp t.val o g s = (.ok (), s3.mergeRow ((rowWrites fd ps cs.1 cs.2).filterMap fun x =>
              (physOf m x.1).map fun p => (p, x.2)))) ∧
          (2 ≤ d.space → absent (tileDie t.val) [d.modnum] s1 = none → o.storeCodes t.val b fd us s1 = (.ok cs, s2) →
            (SMap.get {} (s2.tile t.val).es.failed d.modnum).code = 0 →
            ∃ u, iterOp t.val o g s = (.ok (), u) ∧ u.mem = s2.mem ∧ u.tiles = s2.tiles ∧
              u.posted.map (fun v => (v.tile, v.seat, v.module, v.offset, v.bytes, v.signal)) =
                s2.posted.map (fun v => (v.tile, v.seat, v.module, v.offset, v.bytes, v.signal)) ++
                (runsOf (rowWrites fd ps cs.1 cs.2)).map fun r => (t.val, (s2.tile t.val).life.seat, d.modnum, r.1, r.2, none))) ∧
        (o.kind = .tred → o.storeUnits d b s = (.ok us, s) → o.places .d d b 0 s = (.ok ps, s) →
          pageMap (tileDie t.val) (s.tile t.val).partNo .atomic (placeBytes fd ps) [] s = (.ok m, s1) →
          memPoison m .atomic (placeBytes fd ps) s1 = (.ok (), s1) → o.storeCodes t.val b fd us s1 = (.ok cs, s2) →
          iterOp t.val o g s = (.ok (), s2.reduceRow m b.rop o.rm.2 ps cs.1)) ∧
        (∀ p sc, o.kind = .rsig → absent (tileDie t.val) [d.modnum] s = none →
          addressOf d fd (b.coord.take d.rank) = .at_ p sc → (SMap.get {} (s.tile t.val).es.failed d.modnum).code = 0 →
          ∃ u w, iterOp t.val o g s = (.ok (), u) ∧ u.posted = s.posted ++ [w] ∧ w.tile = t.val ∧ w.seat = (s.tile t.val).life.seat ∧
            w.module = d.modnum ∧ w.offset = p / 8 ∧ w.signal = some (b.set, BitVec.ofNat 64 b.arg) ∧ u.mem = s.mem ∧ u.tiles = s.tiles))

end Sys2Proof.Claims

/-- 02 R40, R46, R47, 12 R290, R293, R295: what an engine does with the operation at its head: OPERATION_START starts a queued
one that is ready, or at its tick STAMP_EXPIRY does; ENGINE_ITERATION runs the next iteration of a running one, which
retires after the last, faults where the iteration does, or is cancelled at a boundary (10 R243: an iteration in progress
completes); an operation whose tick has come and that is not ready, or not the head, misses it (so does one of a node with
DET once the cycle of its tick is over, 20 R488; that any other starts late at a STAMP_EXPIRY after its tick is the
model's choice, log 63); QUEUED_CANCEL_COMPLETE cancels a queued one. 12 R299 to R310, 04 R92 to R101, 13 R322 to R331,
R339: what the starts and iterations of the records of each engine do (`MatrixStarts`, `PassIterations`: dense, sparse and
grouped planes, an unloaded one, the preload; `MatrixIterations`, `LoadIterations`, `StoreIterations`). The model's
choices: which bank's entry an element decodes by (`elemEntry`, log 33), the scale entry of a KIND 2 plane is the one its
load latched (log 65), preload rows left at the last pass belong to its iteration (log 78), a stamped operation that is
not the head misses at once (log 52), an epilogue block that is refused gives RECORD_FIELD with DETAIL 12 (log 30), VADDR
is 0 for a fault of an operation without an address (log 28), and the clamp leaves a zero of either sign that equals its
bound (log 54); the tree of profile 0 is free (04 R94). -/
def Obligations.EnginesRunOperations : Prop :=
  (∀ (s s1 s2 : State) (t : TileId) (e : Engine) (o o1 o2 run done_ : Op) (rest : List Op) (n : Nat) (f : FaultRec),
    ((s.tile t.val).eng e).ops = o :: rest → (s.tile t.val).life.phase = .running → o.token = none → o.wait = .none →
    ((s.tile t.val).traceStall (3 + e.num) = false → s.hub.power.hold = false → o.recBad = [] → o.recCe = [] →
      (o.state = .queued → o.cancel = false → (s.tile t.val).opReady o = true → o.kind ≠ .mchain →
        (startOp t.val o s = (.ok o1, s1) → o1.kind = o.kind → run = { o1 with state := .running, atStart := false } →
          (o.stamp = none → exec (.operationStart t e) s = .next (if o1.rcd.total ≤ o1.t
            then s1.finishOp t.val e run .retired else s1.setOp t.val e run)) ∧
          (o.stamp = some n → n ≤ s.seiche → o.atStart = false →
            (bit (s.tile t.val).ctl.node.toNat 58 = true → s.seiche < n + 2) →
            exec (.stampExpiry t e) s = .next (if o1.rcd.total ≤ o1.t
              then s1.finishOp t.val e run .retired else s1.setOp t.val e run))) ∧
        (startOp t.val o s = (.error { f := f }, s1) → o.stamp = none →
          exec (.operationStart t e) s = .next (s1.opFault t.val e { o with atStart := true } f))) ∧
      (o.state = .queued → o.cancel = false → o.atStart = false → o.stamp = some n → n ≤ s.seiche →
        (s.tile t.val).opReady o = false ∨ bit (s.tile t.val).ctl.node.toNat 58 = true ∧ n + 2 ≤ s.seiche →
        exec (.stampExpiry t e) s = .next (s.missOp t.val e o n)) ∧
      (o.stampDue s.seiche false = false → rest.find? (·.stampDue s.seiche false) = some o2 → o2.seq ≠ o.seq →
        exec (.stampExpiry t e) s = .next (s.missOp t.val e o2 (o2.stamp.getD 0)))) ∧
    (o.state = .running → o.suspended = false →
      (o.cancel = true → o.inIter = false → exec (.engineIteration t e) s = .next (s.finishOp t.val e o .cancelled)) ∧
      (o.cancel = false ∨ o.inIter = true → o.atStart = false → o.atRendezvous = false →
        (iterOp t.val o false s = (.ok (), s1) → done_ = { o with t := o.t + 1, wait := .none, inIter := false, entered := [] } →
          s2 = s1.setEngAt t.val e { s1.engAt t.val e with ended := true } →
          exec (.engineIteration t e) s = .next (if o.rcd.total ≤ o.t + 1 then s2.finishOp t.val e done_ .retired
            else s2.setOp t.val e { done_ with suspended := s2.restsHere t.val done_ })) ∧
        (iterOp t.val o false s = (.error { f := f }, s1) →
          exec (.engineIteration t e) s = .next (s1.opFault t.val e o f)))) ∧
    (o.state = .queued → o.cancel = true →
      exec (.queuedCancelComplete t e) s = .next (s.finishOp t.val e o .cancelled))) ∧
  MatrixStarts ∧ PassIterations ∧ MatrixIterations ∧ RowsWritten ∧ LoadIterations ∧ StoreIterations

/-- 02 R40, R46, R47, 12 R290, R293, R295, R301, R310: the four events of an engine complete, on states that meet conditions
of their own: OPERATION_START of a `wswap` or `mzero` that heads the matrix engine, is ready and has no stamp makes it
RUNNING; so does STAMP_EXPIRY in the cycle of its stamp's tick; ENGINE_ITERATION of a running `wswap` exchanges the planes
and counts an iteration, after the last of which the operation retires; QUEUED_CANCEL_COMPLETE of a queued operation with
its cancel pending at the head of its engine cancels it. 02 R45, R47, 06 R140: an operation that retires or is cancelled
leaves its engine as it pushes its one token on its completion queue; a full queue keeps the token and the operation until
TOKEN_PENDING_APPEND finds room; with completion queue 31 there is no token (one cancelled while QUEUED keeps so too, the
model's choice, log 62). 12 R309: the store that ends releases the pin it took, unless it faulted. 06 R137:
BLOCKED_INSTRUCTION_RETRY lets a waiting core execute its instruction again, next. -/
def Obligations.TokensOfOperations : Prop :=
  ∀ (s : State) (t : TileId) (e : Engine) (o : Op) (w : W32) (q : Queue) (c : CoreId),
    q = (s.tile t.val).queueAt o.rcd.cq.toNat → (s.tile t.val).life.phase = .running →
    (∀ how, (o.endToken e how = none ↔ o.rcd.cq.toNat = 31) ∧
      (∀ u, s.finishOp t.val e o how = u →
        (o.endToken e how = some w → q.full = false →
          ((u.tile t.val).queueAt o.rcd.cq.toNat).toks.map Tok.w = q.toks.map Tok.w ++ [w] ∧
          (((u.tile t.val).eng e).ops.all fun p => p.seq != o.seq) = true ∧
          (seqDist o.seq ((s.tile t.val).eng e).last < 2 ^ 31 → ((u.tile t.val).eng e).stateCode o.seq = how.code)) ∧
        (o.endToken e how = some w → q.full = true → (s.tile t.val).life.rest ≠ some .ending →
          u = s.setOp t.val e { o with t := o.rcd.total, token := some w, cancel := false, wait := .none }))) ∧
    (∀ how pin, o.started.pin = some pin → ((s.endOp t.val e o how).tile t.val).mem.pins =
      if how = .faulted then (s.tile t.val).mem.pins else (s.tile t.val).mem.pins.filter fun x => x.seq != pin) ∧
    (((s.tile t.val).eng e).ops.find? (fun p => p.token.isSome) = some o → o.token = some w → q.full = false → o.state = .running →
      exec (.tokenPendingAppend t e) s = .next ((s.setQueue t.val o.rcd.cq.toNat (q.push w)).endOp t.val e o
        (if tokType w = 7 then .cancelled else .retired))) ∧
    ((s.coreAt t.val c).wait.retries = true →
      exec (.blockedInstructionRetry t c) s = .next { s.setCoreAt t.val c { s.coreAt t.val c with
        wait := if (s.coreAt t.val c).wait = .launch then .launch else .none } with agenda := .core t c :: s.agenda }) ∧
    (∀ (rest : List Op) (n : Nat) (d : Op), ((s.tile t.val).eng e).ops = o :: rest → o.token = none → o.wait = .none →
      (e = .matrix → o.kind = .wswap ∨ o.kind = .mzero → o.state = .queued → o.cancel = false → (s.tile t.val).opReady o = true →
        o.t < o.rcd.total → o.recBad = [] → o.recCe = [] → (s.tile t.val).traceStall 4 = false → s.hub.power.hold = false →
        (o.stamp = none → exec (.operationStart t .matrix) s =
          .next (s.setOp t.val .matrix { o with state := .running, atStart := false })) ∧
        (o.stamp = some n → o.atStart = false → n ≤ s.seiche → s.seiche < n + 2 → exec (.stampExpiry t .matrix) s =
          .next (s.setOp t.val .matrix { o with state := .running, atStart := false }))) ∧
      (e = .matrix → o.kind = .wswap → o.state = .running → o.suspended = false → o.cancel = false → o.atStart = false →
        d = { o with t := o.t + 1, wait := .none, inIter := false, entered := [] } →
        ∃ u v : State, exec (.engineIteration t .matrix) s = .next u ∧ (v.tile t.val).mem.act = (s.tile t.val).mem.shd ∧
          (v.tile t.val).mem.shd = (s.tile t.val).mem.act ∧ (∀ k, k ≠ t.val → v.tile k = s.tile k) ∧
          u = if o.rcd.total ≤ o.t + 1 then v.finishOp t.val .matrix d .retired else v.setOp t.val .matrix { d with suspended := false }) ∧
      (o.state = .queued → o.cancel = true →
        exec (.queuedCancelComplete t e) s = .next (s.finishOp t.val e o .cancelled)))

/-- 12 R311, 06 R143, R145: the rendezvous of a chain of 1 to 8 tiles. An `mchain` that starts on one tile alone sets the
chain and retires at once; one of a longer chain waits, unless another that has started, of a tile in its chain or with
its tile in that one's chain, has another L or another place: then all of them are FAULTED with RECORD_FIELD, one of a
frozen tile among them, which keeps a fault that it already holds as its own (the model's reading, log 90).
MCHAIN_RENDEZVOUS: when every tile of the chain has started one that fits, each takes its place in the chain and each
operation retires, once none of the tiles is frozen; one that does not fit, and has not met partners of its own, faults
all; while one has not come, nothing happens (one that goes on after a RETRY teardown and whose partner is lost is
cancelled, the model's choice, log 72: left out here). 12 R312: a pass whose row comes from the west consumes it, and
passes it on to the tile to its east. LOCAL_DEADLOCK and GANG_DEADLOCK: the condition, held 4,096 cycles, raises DEADLOCK
with the wait-for word on the tile, on every tile of the gang; before that, or where the condition does not hold, nothing
happens. The model's reading (log 26): a tile of the gang that meets the local condition takes its own, or took it in this
tick. -/
def Obligations.ChainsAndDeadlock : Prop :=
  ∀ (s v : State) (t : TileId) (run o : Op) (p : PartId) (node : VAddr) (n : Node) (ops : Nat → Op) (rest : List Op),
    ((s.tile t.val).em.ops = o :: rest → o.kind = .mchain → o.state = .queued → o.cancel = false → o.token = none → o.wait = .none →
      o.stamp = none → (s.tile t.val).opReady o = true → o.t < o.rcd.total → (s.tile t.val).life.phase = .running →
      o.recBad = [] → o.recCe = [] → (s.tile t.val).traceStall 4 = false → s.hub.power.hold = false →
      run = { o with state := .running, atStart := false } → v = s.setOp t.val .matrix run →
      ((∀ u q, u / 8 = t.val / 8 → u ≠ t.val → v.chainSeen u = some q →
          u ∈ chainTiles t.val o.rcd ∨ t.val ∈ chainTiles u q.rcd → chainFits t.val o u q = true) →
        (chainLenOf o.rcd = 1 → exec (.operationStart t .matrix) s =
          .next ((v.setChain t.val o.rcd).finishOp t.val .matrix { run with t := o.rcd.total } .retired)) ∧
        (chainLenOf o.rcd ≠ 1 → exec (.operationStart t .matrix) s = .next v)) ∧
      ((∃ x ∈ v.rendezvous t.val run, chainFits t.val o x.1 x.2 = false) → exec (.operationStart t .matrix) s =
        .next (((t.val, run) :: v.rendezvous t.val run).foldl State.chainFault v))) ∧
    (∀ (w : State) (x : Nat × Op),
      ((w.tile x.1).life.fault = none → w.chainFault x = w.opFault x.1 .matrix x.2 (opRec Code.recordField 12 0)) ∧
      ((w.tile x.1).life.fault ≠ none → w.chainFault x = w.setOp x.1 .matrix { x.2 with state := .faulted, wait := .none })) ∧
    (∀ x, x ∈ v.rendezvous t.val o ↔ x.1 / 8 = t.val / 8 ∧ x.1 ≠ t.val ∧ v.chainSeen x.1 = some x.2 ∧
      (x.1 ∈ chainTiles t.val o.rcd ∨ t.val ∈ chainTiles x.1 x.2.rcd) ∧ v.chainMet x.1 x.2 = false) ∧
    (∀ u q, chainFits t.val o u q = true ↔ q.rcd.ha.toNat % 8 = o.rcd.ha.toNat % 8 ∧
      u + o.rcd.ha.toNat / 8 % 8 = t.val + q.rcd.ha.toNat / 8 % 8) ∧
    (s.chainOp t.val = some o →
      ((∀ u ∈ chainTiles t.val o.rcd, s.chainSeen u = some (ops u) ∧ chainFits t.val o u (ops u) = true) →
        (∃ u ∈ chainTiles t.val o.rcd, s.chainOp u = none) → exec (.mchainRendezvous t) s = .next s) ∧
      ((∀ u ∈ chainTiles t.val o.rcd, s.chainOp u = some (ops u) ∧ chainFits t.val o u (ops u) = true) →
        exec (.mchainRendezvous t) s = .next ((chainTiles t.val o.rcd).foldl
          (fun w u => (w.setChain u (ops u).rcd).finishOp u .matrix { ops u with t := (ops u).rcd.total } .retired) s)) ∧
      ((∃ u ∈ chainTiles t.val o.rcd, ∃ q, s.chainSeen u = some q ∧ chainFits t.val o u q = false ∧ s.chainMet u q = false) →
        exec (.mchainRendezvous t) s = .next ((s.chainPartners t.val o).foldl State.chainFault s)) ∧
      (∀ u q, (u, q) ∈ s.chainPartners t.val o ↔ u ∈ chainTiles t.val o.rcd ∧ s.chainSeen u = some q ∧
        (chainFits t.val o u q = true ∨ s.chainMet u q = false)) ∧
      ((∀ u ∈ chainTiles t.val o.rcd, ∀ q, s.chainSeen u = some q → chainFits t.val o u q = true ∨ s.chainMet u q = true) →
        (∃ u ∈ chainTiles t.val o.rcd, ∀ q, s.chainSeen u = some q → chainFits t.val o u q = false) →
        (∃ u ∈ chainTiles t.val o.rcd, (s.tile u).torn = false) → exec (.mchainRendezvous t) s = .next s)) ∧
    (s.chainOp t.val = none → exec (.mchainRendezvous t) s = .next s) ∧
    (∀ r : Rec, v = s.setChain t.val r → (v.tile t.val).mem.chainLen = r.ha.toNat % 8 + 1 ∧
      (v.tile t.val).mem.chainPos = r.ha.toNat / 8 % 8 ∧ (v.tile t.val).mem.chainIn = []) ∧
    (o.kind = .mma ∨ o.kind = .mmas → o.rcd.chain = true → o.west = true → iterOp t.val o false s = (.ok (), v) →
      (v.tile t.val).mem.chainIn = (s.tile t.val).mem.chainIn.drop 1 ∧
      ((s.tile t.val).mem.chainPos + 1 < (s.tile t.val).mem.chainLen →
        (v.tile (t.val + 1)).mem.chainIn = (s.tile (t.val + 1)).mem.chainIn ++ [(s.tile t.val).mem.chainIn.headD []])) ∧
    (s.localDeadlock t.val = true →
      (4096 ≤ (s.tile t.val).life.deadCount → ∃ u, exec (.localDeadlock t) s = .next u ∧
        (u.tile t.val).life.phase = .draining ∧ ((s.tile t.val).life.fault = none →
          (u.tile t.val).life.fault.map (fun f => (f.code, f.detail)) = some (Code.deadlock, (s.tile t.val).waitWord false)))) ∧
    ((s.tile t.val).life.deadCount < 4096 ∨ s.localDeadlock t.val = false → exec (.localDeadlock t) s = .next s) ∧
    (s.findNode p.val node.toNat = some n → s.gangBlocked n = true → n.tiles.Nodup → 4096 ≤ n.gangCount →
      ∃ u, exec (.gangDeadlock p node) s = .next u ∧ ∀ k ∈ n.tiles,
        (s.justDead k = false → (u.tile k).life.phase = .draining ∧ ((s.tile k).life.fault = none →
          (u.tile k).life.fault.map (fun f => (f.code, f.detail)) =
            some (Code.deadlock, (s.tile k).waitWord (!s.localDeadlock k)))) ∧
        (s.justDead k = true → u.tile k = s.tile k)) ∧
    (∀ k, s.justDead k = true ↔ ∃ f, (s.tile k).life.fault = some f ∧ f.code = Code.deadlock ∧ f.tick = s.seiche) ∧
    (s.findNode p.val node.toNat = some n → n.gangCount < 4096 ∨ s.gangBlocked n = false → exec (.gangDeadlock p node) s = .next s)

/-! ## The life of a tile (02 R53 to R56; 06 R146 to R148; 17 R399; 18 R417 to R428) -/

/-- 06 R146, R148, 18 R419, R421, R422: TAKING A FAULT AND COMING BACK. A fault of the running core's instruction is recorded
once, with the core, the instruction's address and the tick; the tile drains; the core keeps its program counter and its
registers, nothing of memory changes, and a later fault of the same drain is not recorded, unless it arises in the same
cycle as the one recorded and its unit comes before that one's (18 R421; which of the two arose first is the model's free
value, log 70). TILE_RESUME of the resolved fault lets the tile run again, with no fault recorded, every core at the
program counter it kept. -/
def Obligations.FaultsDrainAndResume : Prop :=
  ∀ (s u : State) (code detail : Nat) (t : TileId),
    (u = s.fault code detail →
      (s.me.life.fault = none → u.me.life.fault = some { code := code, detail := detail, unit := s.curCore.num
                                                         vaddr := s.core.pc.toNat, tick := s.seiche }) ∧
      (∀ g, s.me.life.fault = some g → u.me.life.fault = some g ∨ (g.tick = s.seiche ∧ s.curCore.num < g.order ∧
        s.me.life.phase = .draining ∧ u.me.life.fault = some { code := code, detail := detail, unit := s.curCore.num
                                                               vaddr := s.core.pc.toNat, tick := s.seiche })) ∧
      u.me.life.phase = .draining ∧ u.core.pc = s.core.pc ∧ (∀ r, u.g r = s.g r) ∧ u.core.frames = s.core.frames ∧
      u.me.mem = s.me.mem ∧ u.mem = s.mem ∧ u.host = s.host ∧ (∀ k, k ≠ s.curTile.val → u.tile k = s.tile k) ∧
      canFetch u s.curTile.val s.curCore = false) ∧
    ((s.tile t.val).life.phase = .frozen → (s.tile t.val).life.fault.isSome → (s.tile t.val).life.resolved = true →
      (s.tile t.val).life.rest = none → (s.tile t.val).life.gatedClock = false → (s.tile t.val).mem.chainLen ≤ 1 →
      ∃ v, exec (.tileResume t) s = .next v ∧ (v.tile t.val).life.phase = .running ∧ (v.tile t.val).life.fault = none ∧
        (∀ c, (v.coreAt t.val c) = (s.coreAt t.val c)) ∧ (v.tile t.val).mem = (s.tile t.val).mem ∧
        ∀ e o, o ∈ ((v.tile t.val).eng e).ops → o.state ≠ .faulted ∧ o.suspended = false)

/-- 06 R146, R147, 18 R417, R420, R423: TILE_FREEZE: a draining tile at rest freezes; with a fault of an attempt that goes on,
it writes its record; a running tile whose chain mate drains begins to drain, unless it has reached the DEADLOCK count and
takes that fault (06 R143). FIRMWARE_RESOLVE: where firmware completes the translation that a core or an operation waits
for, the instruction, or the wait it was in, goes on, and the iteration is made again; where it cannot, the fault is
delivered; the fault a frozen tile is resolvable for under RESUME is resolved, or ends the attempt. -/
def Obligations.FreezingAndFirmware : Prop :=
  ∀ (s s1 : State) (t : TileId) (c : CoreId) (e : Engine) (o : Op) (f : FaultRec) (va : Nat) (why : EndWhy) (k : Seat) (n : Node),
    ((s.tile t.val).life.phase = .draining → s.atRest t.val = true → (s.tile t.val).torn = false →
      ((s.freeze t.val).tile t.val).life.phase = .frozen ∧
      ((s.tile t.val).life.rest ≠ some .ending →
        exec (.tileFreeze t) s = .next ((s.freeze t.val).freezeRecord t.val)) ∧
      ((s.tile t.val).life.rest = some .ending → (((s.freeze t.val).freezeRecord t.val).nodeOf t.val).ending = some why →
        exec (.tileFreeze t) s = .next (((s.freeze t.val).freezeRecord t.val).tearDown t.val why))) ∧
    ((s.tile t.val).life.phase = .running → (s.tile t.val).torn = false →
      (∃ k ∈ s.mates t.val, (s.tile k).life.phase = .draining ∨ (s.tile k).life.phase = .frozen) →
      ((s.tile t.val).life.deadCount < 4096 ∨ s.localDeadlock t.val = false →
        exec (.tileFreeze t) s = .next (s.setTile t.val ((s.tile t.val).bringToRest .chain))) ∧
      (4096 ≤ (s.tile t.val).life.deadCount → s.localDeadlock t.val = true →
        exec (.tileFreeze t) s = .next (s.deadlock t.val false))) ∧
    ((s.tile t.val).firmwareCore = some (c, f, va) →
      (complete s (s.tile t.val).partNo va = some s1 →
        exec (.firmwareResolve t) s = .next (s1.setCoreAt t.val c { s1.coreAt t.val c with wait := (s1.coreAt t.val c).after, after := .none })) ∧
      (complete s (s.tile t.val).partNo va = none →
        exec (.firmwareResolve t) s =
          .next ((s.setCoreAt t.val c { s.coreAt t.val c with wait := .none }).takeFault t.val f.delivered))) ∧
    ((s.tile t.val).firmwareCore = none → (s.tile t.val).firmwareOp = some (e, o, f, va) →
      (complete s (s.tile t.val).partNo va = some s1 →
        exec (.firmwareResolve t) s = .next (s1.setOp t.val e { o with wait := .none })) ∧
      (complete s (s.tile t.val).partNo va = none →
        exec (.firmwareResolve t) s = .next (s.opFault t.val e o f.delivered))) ∧
    ((s.tile t.val).firmwareCore = none → (s.tile t.val).firmwareOp = none → (s.tile t.val).life.fault = some f →
      (s.tile t.val).life.seat = some k → s.findNode k.part k.node = some n → (s.tile t.val).life.phase = .frozen →
      n.state = .running → Rcd.policy n.rcd = 1 → f.resolvable = true → (s.tile t.val).life.resolved = false →
      (complete s k.part f.vaddr = some s1 → exec (.firmwareResolve t) s = .next ((s1.setTile t.val { s1.tile t.val with
        life := { (s1.tile t.val).life with resolved := true } }).markResolved t.val f)) ∧
      (complete s k.part f.vaddr = none →
        exec (.firmwareResolve t) s = .next (s.reportFault k.part n (s.tile t.val).rank f.code)))

/-- 02 R53, R54, 18 R423 to R428: a request latches on a running tile, and is kept for the resume of a frozen one; past its
deadline a tile that has not stopped drains for a forced save, but a tile on which the local deadlock condition has held
for 4,096 cycles takes DEADLOCK and is not saved (06 R143); a stopped tile comes to rest, its save engine writes the area,
SAVE_COMPLETE writes the cut and the save word last, and that of the last tile of the gang leaves its node SAVED and its
tiles free, unless every tile had finished; a write of the area that cannot be translated raises PREEMPT_TIMEOUT with
ACCESS 1 and its address (18 Table 18.4); a save or a restore past LIMIT raises PREEMPT_TIMEOUT with the ticks elapsed in
bits 63:32 of DETAIL. A held tile of a saved gang is restored from its area. -/
def Obligations.PreemptionOfTiles : Prop :=
  ∀ (s s1 s2 : State) (t : TileId) (k : Seat) (n : Node) (x : Tile) (m : SaveMaps), x = s.tile t.val → x.life.seat = some k →
    ((s.nodeOf t.val).preempt = true → x.life.latched = none → x.life.pending = false →
      (x.life.phase = .running → exec (.preemptRequest t) s = .next (s.setTile t.val { x with
        life := { x.life with latched := some s.seiche, deadline := x.prv.pdead } })) ∧
      (x.life.phase = .frozen → exec (.preemptRequest t) s = .next (s.setTile t.val { x with
        life := { x.life with pending := true } }))) ∧
    (∀ l, x.life.phase = .running → x.life.latched = some l →
      (4096 ≤ x.life.deadCount → s.localDeadlock t.val = true → exec (.preemptDeadline t) s = .next (s.deadlock t.val false)) ∧
      (l + x.life.deadline ≤ s.seiche → x.allStopped = false → x.trace.waiting = [] →
        x.life.deadCount < 4096 ∨ s.localDeadlock t.val = false →
        exec (.preemptDeadline t) s = .next (s.setTile t.val (x.bringToRest .forced)) ∧
        (x.bringToRest .forced).life.phase = .draining ∧ (x.bringToRest .forced).life.rest = some .forced) ∧
      (x.allStopped = true →
        (x.life.deadCount < 4096 ∨ s.localDeadlock t.val = false →
          exec (.tileSave t) s = .next (s.setTile t.val (x.bringToRest .cooperative))) ∧
        (4096 ≤ x.life.deadCount → s.localDeadlock t.val = true → exec (.tileSave t) s = .next (s.deadlock t.val false)))) ∧
    (x.life.phase = .frozen → x.saveRest = true → (∀ u ∈ (s.nodeOf t.val).tiles, (s.tile u).saveRest = true) →
      m = x.saveMaps x.saveModeOf →
      s1 = ((s.setTile t.val { x with life := { x.life with saveStart := s.seiche, saveMode := x.saveModeOf } }).noteArrays t.val m).noteSave
        t.val m →
      (x.saveArrayPoison m Tok.bad = true ∨ x.saveScratchPoison m = true → ∃ u, exec (.tileSave t) s = .next u ∧
        (u.tile t.val).life.phase = .frozen ∧ (u.tile t.val).life.fault.map FaultRec.code = some Code.preemptTimeout) ∧
      (∀ h, x.saveArrayPoison m Tok.bad = false → x.saveScratchPoison m = false →
        writeParts s1.draw (tileDie t.val) k.part (saveBase (s1.nodeOf t.val) k.rank) (x.saveParts x.saveModeOf m s1.choices) = (some h, s2) →
        ∃ u, exec (.tileSave t) s = .next u ∧ (u.tile t.val).life.phase = .frozen ∧
          (u.tile t.val).life.fault.map (fun f => (f.code, f.access, f.vaddr)) = some (Code.preemptTimeout, 1, h.vaddr)) ∧
      (x.saveArrayPoison m Tok.bad = false → x.saveScratchPoison m = false →
        writeParts s1.draw (tileDie t.val) k.part (saveBase (s1.nodeOf t.val) k.rank) (x.saveParts x.saveModeOf m s1.choices) = (none, s2) →
        exec (.tileSave t) s = .next (s2.setTile t.val { s2.tile t.val with life := { (s2.tile t.val).life with phase := .saving } }))) ∧
    (s.findNode k.part k.node = some n → x.life.phase = .saving → x.life.saveBad = false → x.life.saveCe = 0 → s.seiche ≤ x.life.saveStart + x.prv.savelim →
      writeParts s (tileDie t.val) k.part (saveBase n k.rank) (x.saveHead n k.part s.seiche) = (none, s1) →
      s2 = s1.setTile t.val { s1.tile t.val with life := { (s1.tile t.val).life with phase := .saved } } →
      ((∃ u ∈ n.tiles, (s2.tile u).life.phase ≠ .saved) ∨ (∀ u ∈ n.tiles, (s2.tile u).finished = true) →
        exec (.saveComplete t) s = .next s2) ∧
      ((∀ u ∈ n.tiles, (s2.tile u).life.phase = .saved) → (∃ u ∈ n.tiles, (s2.tile u).finished = false) →
        ∃ v, exec (.saveComplete t) s = .next v ∧ (∀ u ∈ n.tiles, (v.tile u).life.phase = .free ∧ (v.tile u).life.seat = none) ∧
          ∃ y, v.findNode k.part k.node = some y ∧ y.state = .saved ∧ y.wasSaved = true ∧ y.tiles = [] ∧ y.readyAt = s2.seiche)) ∧
    (x.life.phase = .saving ∨ (x.life.phase = .held ∧ (s.nodeOf t.val).wasSaved = true) →
      (x.life.saveStart + x.prv.savelim < s.seiche →
        exec (.saveComplete t) s = .next s ∧ exec (.gangRestore t) s = .next s ∧
        ∃ u, exec (.saveLimitExpiry t) s = .next u ∧ (u.tile t.val).life.phase = .frozen ∧
          (u.tile t.val).life.fault = some { code := Code.preemptTimeout, source := 2, tick := s.seiche
                                             detail := (s.seiche - x.life.saveStart) % 2 ^ 32 * 2 ^ 32 }) ∧
      (s.seiche ≤ x.life.saveStart + x.prv.savelim → exec (.saveLimitExpiry t) s = .next s)) ∧
    (s.findNode k.part k.node = some n → x.life.phase = .held → n.state = .running → n.wasSaved = true → x.life.saveBad = false →
      x.life.saveCe = 0 → s.seiche ≤ x.life.saveStart + x.prv.savelim → exec (.gangRestore t) s = .next (s.restoreTile t.val k n))

/-- 17 R399, 02 R35, R36, 18 R427, 20 R479: TILE_WAKE_BEGIN starts to wake a reserved tile, one in 32 ticks on a die and in
pick order, and does nothing within 32 ticks of the last or while an earlier pick of the die is still to be woken;
TILE_WAKE_COMPLETE, 32 ticks later, holds it; GANG_RELEASE, once every tile of the gang is held, starts each rank in the
state of 02 Table 2.5 with its three cores at the entry points of the node record, and the errors that the free tile held
in its scratchpad (18 R433's example; the model's reading, log 51); TILE_CLOCK_GATE gates a tile that has been free for
GATEDLY. -/
def Obligations.WakingAndRelease : Prop :=
  ∀ (s : State) (t : TileId) (p : PartId) (node : VAddr) (n : Node) (k : Nat),
    ((s.tile t.val).life.phase = .reserved → (∀ j, (s.die (tileDie t.val)).lastWake = some j → j + 32 ≤ s.seiche) →
      (∀ u ∈ (s.nodeOf t.val).picks.takeWhile (· != t.val), tileDie u = tileDie t.val → (s.tile u).life.phase ≠ .reserved) →
      ∃ u, exec (.tileWakeBegin t) s = .next u ∧ (u.tile t.val).life.phase = .waking s.seiche ∧
        (u.die (tileDie t.val)).lastWake = some s.seiche) ∧
    (∀ j, (s.die (tileDie t.val)).lastWake = some j → s.seiche < j + 32 → exec (.tileWakeBegin t) s = .next s) ∧
    (∀ u ∈ (s.nodeOf t.val).picks.takeWhile (· != t.val), tileDie u = tileDie t.val → (s.tile u).life.phase = .reserved →
      exec (.tileWakeBegin t) s = .next s) ∧
    ((s.tile t.val).life.phase = .waking k → k + 32 ≤ s.seiche →
      ∃ u, exec (.tileWakeComplete t) s = .next u ∧ (u.tile t.val).life.phase = .held) ∧
    ((s.tile t.val).life.phase = .waking k → s.seiche < k + 32 → exec (.tileWakeComplete t) s = .next s) ∧
    (s.findNode p.val node.toNat = some n → n.state = .running → n.tiles.Nodup → n.tiles[k]? = some t.val → n.wasSaved = false →
      n.stopping = none → (∀ u ∈ n.tiles, (s.tile u).life.phase = .held ∧ (s.tile u).partNo = p.val) → (s.part p.val).dbg.tren = false →
      ∃ u, exec (.gangRelease p node) s = .next u ∧ (u.tile t.val).life.phase = .running ∧
        (u.tile t.val).ctl.gang = BitVec.ofNat 64 (Rcd.size n.rcd * 2 ^ 16 + k) ∧ (u.tile t.val).ctl.tile = BitVec.ofNat 64 (ctlTile s.hub.modnum t.val) ∧
        (u.tile t.val).cl = { run := .running, pc := BitVec.ofNat 56 (Rcd.entL n.rcd) } ∧
        (u.tile t.val).cx = { run := .running, pc := BitVec.ofNat 56 (Rcd.entX n.rcd) } ∧
        (u.tile t.val).cw = { run := .running, pc := BitVec.ofNat 56 (Rcd.entW n.rcd) } ∧
        (u.tile t.val).mem = { scratchBad := (s.tile t.val).mem.scratchBad, scratchLatent := (s.tile t.val).mem.scratchLatent } ∧
        (u.tile t.val).ctl.fmt = n.fmt ∧ (u.tile t.val).ctl.pond = [] ∧ (u.tile t.val).ctl.round = 0 ∧
        ∀ q : Fin 16, ((u.tile t.val).queueAt q.val).toks = [] ∧ ((u.tile t.val).queueAt q.val).depth = Rcd.depth n.rcd q.val) ∧
    (s.findNode p.val node.toNat = some n → (∃ u ∈ n.tiles, (s.tile u).life.phase ≠ .held ∧ (s.tile u).life.phase ≠ .restored) →
      exec (.gangRelease p node) s = .next s) ∧
    (s.ownerOf t.val = some p.val → (s.tile t.val).life.phase = .free → (s.tile t.val).life.gatedClock = false →
      (s.part p.val).sched.gatedly ≠ 0xFFFFFFFF → (s.tile t.val).life.since + (s.part p.val).sched.gatedly ≤ s.seiche →
      exec (.tileClockGate t) s = .next (s.setTile t.val { s.tile t.val with
        life := { (s.tile t.val).life with gatedClock := true } }))

/-! ## The fabric, the link and translations (07 R171 to R173; 09 R215; 13 R333 to R337; 18 R409 to R416; 19 R437 to R445) -/

/-- 13 R333 to R335, 19 R439, R445: the answers to a waiting unit. For a core, FABRIC_RESPONSE in time performs the access: a
load's register takes the bytes of the target, a store leaves them there, an atomic does both (one that writes as a
release performs the core's remote stores, an `acas` that does not write none), each on what the answer shows of the
target's memory, which is the outside's (the model's form, log 6); a fault of the target is taken with REMOTE set and the
bits of DETAIL that 18 Table 18.5 lists for its code; none in time, FABRIC_TIMEOUT raises its fault with the module in
DETAIL. HOST_WINDOW_READ_COMPLETION, over a link that is up, gives the bytes of the window where a grant covers them, else
PERMISSION; HOST_READ_TIMEOUT raises NOT_PRESENT. For an engine, the answer of a module its operation waits for lets the
iteration be made on the bytes that it shows, for `mcred` once every member has answered, or faults the operation with
that module's number; that of another module, or a second of one member, does nothing. The model's readings: DETAIL 1 of
that PERMISSION (log 20), VADDR of an operation's fault (log 28), REMOTE 0 of FABRIC_TIMEOUT (log 29). -/
def Obligations.AnswersToUnits : Prop :=
  ∀ (s u v : State) (t : TileId) (c : CoreId) (f : FabWait) (h : HostRead) (mo : BitVec 10) (held : List (BitVec 46 × BitVec 8)),
    u = { s with curTile := t, curCore := c } →
    (∀ p m a, m ≠ s.hub.modnum → ((s.learn p m held).farMem p m).byte a =
      (((held.reverse.find? fun b => decide (b.1.toNat = a)).map (·.2)).getD ((s.farMem p m).byte a)) ∧
      (s.learn p m held).tiles = s.tiles ∧ (s.learn p m held).mem = s.mem) ∧
    ((s.coreAt t.val c).wait = .fabric f → f.module = mo.toNat → f.module ≠ s.hub.modnum →
      (v = u.learn (s.tile t.val).partNo f.module held → s.seiche ≤ f.since + f.limit →
        (∀ gd sx n, f.what = .load gd sx n →
          exec (.fabricResponse t ⟨.core c, mo⟩ (.ok held)) s = .next (wrote v.unblock gd
            (loaded sx n (leNat ((v.farMem (s.tile t.val).partNo f.module).bytes f.offset n))) f.unitLen)) ∧
        (∀ l, f.what = .store l → ∃ w, exec (.fabricResponse t ⟨.core c, mo⟩ (.ok held)) s = .next w ∧
          w.core.pc = u.core.pc + BitVec.ofNat 56 f.unitLen ∧ w.core.wait = .none ∧
          ∀ i, i < l.length → (w.farMem (s.tile t.val).partNo f.module).byte (f.offset + i) = l.getD i 0) ∧
        (∀ op n gd x e old, f.what = .rmw op n gd x e →
          old = (v.farMem (s.tile t.val).partNo f.module).readLE f.offset n →
          ∃ w, exec (.fabricResponse t ⟨.core c, mo⟩ (.ok held)) s = .next w ∧
          w.core.pc = u.core.pc + BitVec.ofNat 56 f.unitLen ∧ (gd ≠ 0 → w.g gd = loaded false n old) ∧
          w.farMem (s.tile t.val).partNo f.module = (match atomNew op (8 * n) old x e with
            | some y => (v.farMem (s.tile t.val).partNo f.module).writeLE f.offset n y
            | none => v.farMem (s.tile t.val).partNo f.module) ∧
          let v' := if f.release = true ∧ (atomNew op (8 * n) old x e).isSome = true then v.flushMine else v
          (∀ k a, (w.tile k).mem.scratch.byte a = (v'.tile k).mem.scratch.byte a) ∧ w.core.remote = v'.core.remote) ∧
        (∀ x : FabFault, x.code.toNat = Code.notPresent ∨ x.code.toNat = Code.permission ∨ x.code.toNat = Code.uncorrectable →
          exec (.fabricResponse t ⟨.core c, mo⟩ (.fault x)) s =
            .next (u.unblock.faultRec (remoteFault (farFault x) f.module f.offset f.what.access)))) ∧
      (f.since + f.limit < s.seiche →
        (∀ a, exec (.fabricResponse t ⟨.core c, mo⟩ a) s = .next u) ∧
        exec (.fabricTimeout t ⟨.core c, mo⟩) s = .next (u.unblock.faultA f.what.access Code.fabricTimeout f.module))) ∧
    ((s.coreAt t.val c).wait = .hostRead h →
      (s.seiche ≤ h.since + 10000000 → s.linkUp = false → exec (.hostWindowReadCompletion t (.core c)) s = .next u) ∧
      (s.seiche ≤ h.since + 10000000 → s.linkUp = true →
        (s.granted (s.tile t.val).partNo h.host h.len false = true → ∀ gd sx, h.what = .load gd sx h.len →
          exec (.hostWindowReadCompletion t (.core c)) s = .next (wrote u.unblock gd
            (loaded sx h.len (leNat (s.windowBytes (s.tile t.val).partNo h.host h.len))) h.unitLen)) ∧
        (s.granted (s.tile t.val).partNo h.host h.len false = false →
          exec (.hostWindowReadCompletion t (.core c)) s = .next (u.refuse.unblock.faultRec
            { code := Code.permission, detail := 1, access := h.what.access, vaddr := h.offset }))) ∧
      (h.since + 10000000 < s.seiche → exec (.hostReadTimeout t (.core c)) s = .next (u.unblock.faultRec
        { code := Code.notPresent, detail := 0, access := h.what.access, vaddr := h.offset }))) ∧
    (∀ (e : Engine) (o : Op), (s.engAt t.val e).fabricOp = some (o, f) → mo.toNat ≠ s.hub.modnum →
      (o.asks f mo.toNat = false → (∀ a, exec (.fabricResponse t ⟨.engine e, mo⟩ a) s = .next s) ∧
        exec (.fabricTimeout t ⟨.engine e, mo⟩) s = .next s) ∧
      ((o.kind ≠ .mcred ∧ f.module = mo.toNat) ∨ (o.kind = .mcred ∧ mo.toNat ∈ o.started.members ∧ mo.toNat ∉ f.heard) →
      (v = s.learn (s.tile t.val).partNo mo.toNat held → s.seiche ≤ f.since + f.limit →
        (o.kind ≠ .mcred ∨ (∀ m ∈ o.started.members, m = mo.toNat ∨ m ∈ f.heard) →
          exec (.fabricResponse t ⟨.engine e, mo⟩ (.ok held)) s = .next (v.iterate t.val e { o with wait := .none } true)) ∧
        (o.kind = .mcred → (∃ m ∈ o.started.members, m ≠ mo.toNat ∧ m ∉ f.heard) →
          exec (.fabricResponse t ⟨.engine e, mo⟩ (.ok held)) s =
            .next (v.setOp t.val e { o with wait := .fabric { f with heard := mo.toNat :: f.heard } })) ∧
        (∀ x : FabFault, x.code.toNat = Code.notPresent ∨ x.code.toNat = Code.permission ∨ x.code.toNat = Code.uncorrectable →
          exec (.fabricResponse t ⟨.engine e, mo⟩ (.fault x)) s =
            .next (s.opFault t.val e o (remoteFault (farFault x) mo.toNat f.offset 0)))) ∧
      (f.since + f.limit < s.seiche → exec (.fabricTimeout t ⟨.engine e, mo⟩) s =
        .next (s.opFault t.val e o { code := Code.fabricTimeout, detail := mo.toNat })))) ∧
    (∀ (e : Engine) (o : Op), (s.engAt t.val e).hostOp = some (o, h) →
      (s.seiche ≤ h.since + 10000000 → s.linkUp = true →
        exec (.hostWindowReadCompletion t (.engine e)) s = .next (s.iterate t.val e { o with wait := .none } true)) ∧
      (h.since + 10000000 < s.seiche → exec (.hostReadTimeout t (.engine e)) s = .next (s.opFault t.val e o
        { code := Code.notPresent, detail := 0, access := h.what.access, vaddr := h.offset }))) ∧
    (∀ (x : FabFault) (y : FarFault) (m off acc : Nat), (farFault x).code = x.code.toNat ∧
      (x.code.toNat = Code.notPresent → (farFault x).detail = x.detail.toNat % 16) ∧
      (x.code.toNat = Code.permission → (farFault x).detail = x.detail.toNat % 8) ∧
      (x.code.toNat = Code.uncorrectable → (farFault x).detail = uncDetail 1 (x.detail.toNat / 256)) ∧
      (remoteFault y m off acc).code = y.code ∧ (remoteFault y m off acc).detail = y.detail ∧
      (y.code ≠ Code.fabricPeerAbsent → (remoteFault y m off acc).remote = true ∧ (remoteFault y m off acc).vaddr = off) ∧
      (y.code = Code.fabricPeerAbsent → (remoteFault y m off acc).remote = false))

/-- 07 R171, R172, 13 R327, R337, 18 R409, R416, 19 R455: posted writes and signals of a store engine. SIGNAL_PERFORM performs
every earlier write of the engine to that module first, however many, in order, then sets or adds to the signal's word.
POSTED_FAILURE and FABRIC_ROUTE_LOSS discard the oldest entry and every later one of its engine to the module, and the
engine records the failure. The model's choices (log 48): the engine keeps the first failure, with its code and DETAIL,
and a later one leaves it; a write whose node has left its tile records none; entries are of one engine where they are of
the same tile and seat in its gang, and a failure that comes while the gang is saved is recorded in its saved context.
FABRIC_REQUEST_ARRIVAL does nothing while the fabric is down and nothing where no export space carries the tag; a write
merges each byte under the mask of its bits at the places that the export root of its domain gives, an atomic computes on
the word there, a signal sets or adds to it; firmware of another module writes its doubleword of the group table. -/
def Obligations.PostedWritesAndSignals : Prop :=
  ∀ (s s1 : State) (t : TileId) (m : BitVec 10) (w : Posted) (arg : Word) (set : Bool) (f : FabFault) (g old : FarFault),
    m.toNat ≠ s.hub.modnum →
    (∀ a b, s.posted = a ++ w :: b → (∀ v ∈ a, v.of t.val m.toNat = true → v.done = true ∨ v.signal = none) →
      w.of t.val m.toNat = true → w.done = false → w.signal = some (set, arg) →
      s1 = (a.filter fun v => w.same v && !v.done).foldl (fun x v =>
        x.setFarMem v.part m.toNat (mergeBytes (x.farMem v.part m.toNat) v.offset v.bytes)) s →
      exec (.signalPerform t m) s = .next { s1.setFarMem w.part m.toNat ((s1.farMem w.part m.toNat).writeLE w.offset 8
        (if set then arg.toNat else ((s1.farMem w.part m.toNat).readLE w.offset 8 + arg.toNat) % 2 ^ 64)) with
          posted := (a.map fun v => if w.same v then { v with done := true } else v) ++ b }) ∧
    (∀ v, w.same v = true ↔ v.tile = w.tile ∧ v.module = w.module ∧ v.seat = w.seat ∧ v.orphan = w.orphan ∧ v.away = w.away) ∧
    ((∀ v ∈ s.posted, v.of t.val m.toNat = true → v.done = true ∨ v.signal = none) → exec (.signalPerform t m) s = .next s) ∧
    (s.posted.find? (fun v => v.of t.val m.toNat) = some w →
      (w.done = false ∧ (f.code.toNat = Code.notPresent ∨ f.code.toNat = Code.permission ∨ f.code.toNat = Code.uncorrectable) ∧
          g = farFault f) ∨
        ((f.code.toNat = Code.fabricPeerAbsent ∨ (f.code.toNat = Code.fabricTimeout ∧ w.since + w.limit < s.seiche)) ∧
          g = { code := f.code.toNat, detail := m.toNat }) →
      ∃ u, exec (.postedFailure t m f) s = .next u ∧
        (∀ v ∈ u.posted, w.same v = false) ∧ (∀ v ∈ s.posted, w.same v = false → v ∈ u.posted) ∧
        (w.orphan = true → (u.tile t.val).es.failed = (s.tile t.val).es.failed) ∧
        (w.orphan = false → w.away = false → old = SMap.get {} (s.tile t.val).es.failed m.toNat →
          SMap.get {} (u.tile t.val).es.failed m.toNat = if old.code = 0 then g else old) ∧
        (∀ k n, w.orphan = false → w.away = true → w.seat = some k → s.findNode k.part k.node = some n →
          old = SMap.get {} (SMap.get {} n.saves k.rank).es.failed m.toNat →
          ∃ n', u.findNode k.part k.node = some n' ∧
            SMap.get {} (SMap.get {} n'.saves k.rank).es.failed m.toNat = if old.code = 0 then g else old)) ∧
    (s.posted.find? (fun v => v.of t.val m.toNat) = none → exec (.postedFailure t m f) s = .next s) ∧
    (∀ why, (∃ u, exec (.fabricRouteLoss m why) s = .next u ∧
        (∀ d, why = .route d → (u.peer m.toNat).noRoute.getLsbD d.val = true) ∧
        ((∀ d, why ≠ .route d) → (u.peer m.toNat).ready = false) ∧
        (((∀ d, why ≠ .route d) ∨ ∃ d : DieId, why = .route d ∧ d.val = tileDie t.val) →
          (∀ v ∈ u.posted, v.of t.val m.toNat = false) ∧
          (w ∈ s.posted → w.of t.val m.toNat = true → w.orphan = false → w.away = false →
            old = SMap.get {} (s.tile t.val).es.failed m.toNat → SMap.get {} (u.tile t.val).es.failed m.toNat =
              if old.code = 0 then { code := Code.fabricPeerAbsent, detail := m.toNat } else old)) ∧
        (∀ d : DieId, why = .route d → d.val ≠ tileDie t.val → u.tile t.val = s.tile t.val ∧
          ∀ v ∈ s.posted, v.of t.val m.toNat = true → v ∈ u.posted))) ∧
    (∀ die tag off, s.hub.fabricUp = false → ∀ q, exec (.fabricRequestArrival die tag off q) s = .next s) ∧
    (∀ die tag off n dw v, s.hub.fabricUp = true →
      exec (.fabricRequestArrival die tag off (.group n dw v)) s = .next (s.groupReg (128 * n.toNat + 8 * dw) v.toNat)) ∧
    (∀ (die : DieId) (tag : BitVec 16) off, s.hub.fabricUp = true → s.exportOf die.val tag.toNat = none →
      ∀ q, (∀ n dw v, q ≠ .group n dw v) → exec (.fabricRequestArrival die tag off q) s = .next s) ∧
    (∀ (die : DieId) (tag : BitVec 16) (off : BitVec 46) (p a : Nat), s.hub.fabricUp = true → s.exportOf die.val tag.toNat = some p →
      (∀ l : List (Byte × Byte), (∀ b ∈ l, b.2 ≠ 0) →
        exportPlaces s die.val p off.toNat .write l.length = (.ok ((List.range l.length).map (a + ·)), s1) →
        badGranule s1.memBad a l.length = none →
        ∃ u, exec (.fabricRequestArrival die tag off (.write l)) s = .next u ∧ ∀ i v k, l[i]? = some (v, k) →
          u.mem.byte (a + i) = (s1.mem.byte (a + i) &&& ~~~k) ||| (v &&& k)) ∧
      (∀ op wide x e, badGranule s1.memBad a (if wide then 8 else 4) = none →
        exportPlaces s die.val p off.toNat .atomic (if wide then 8 else 4) =
          (.ok ((List.range (if wide then 8 else 4)).map (a + ·)), s1) →
        ∃ u, exec (.fabricRequestArrival die tag off (.rmw op wide x e)) s = .next u ∧
          u.mem.readLE a (if wide then 8 else 4) =
            (atomNew op (if wide then 64 else 32) (s1.mem.readLE a (if wide then 8 else 4))
              (x.toNat % (if wide then 2 ^ 64 else 2 ^ 32)) e.toNat).getD (s1.mem.readLE a (if wide then 8 else 4))) ∧
      (badGranule s1.memBad a 8 = none → exportPlaces s die.val p off.toNat .atomic 8 = (.ok ((List.range 8).map (a + ·)), s1) →
        ∃ u, exec (.fabricRequestArrival die tag off (.signal set arg)) s = .next u ∧
          u.mem.readLE a 8 = if set then arg.toNat else (s1.mem.readLE a 8 + arg.toNat) % 2 ^ 64))

/-- 18 R413 to R415: PAGE_WALK keeps the translation that a granting walk gives (the model's choice, log 11: 18 R414 lets a
die keep it or not) and marks its leaf's companion word; SHOOT_DOWN leaves no kept translation of the range in the dies
named, and every other as it was. -/
def Obligations.TranslationsAreKeptAndShotDown : Prop :=
  ∀ (s : State) (die : DieId) (p : PartId) (root : Root) (va : VAddr) (acc : Access) (k : Kept) (len : Nat) (dies : BitVec 4),
    ((walk s die.val p.val root va.toNat acc).2.1 = some k →
      ∃ u, exec (.pageWalk die p root va acc) s = .next u ∧ k ∈ (u.die die.val).kept ∧
        (∀ j ∈ (s.die die.val).kept, j ∈ (u.die die.val).kept) ∧
        u.mem = (s.markLeaf die.val .read k.companion).mem) ∧
    ((walk s die.val p.val root va.toNat acc).2.1 = none → exec (.pageWalk die p root va acc) s = .next s) ∧
    (∃ u, exec (.shootDown p root va len dies) s = .next u ∧ u.mem = s.mem ∧ u.tiles = s.tiles ∧ u.parts = s.parts ∧
      (∀ d : DieId, dies.getLsbD d.val = true →
        (u.die d.val).kept = (s.die d.val).kept.filter fun j => !j.inRange p.val root va.toNat len) ∧
      (∀ d : DieId, dies.getLsbD d.val = false → u.die d.val = s.die d.val))

/-! ## The graph scheduler (10 R245; 17 R376 to R405) -/

/-- 10 R245, 17 R376, R385, R388 to R392, R398: how a node gets to its tiles. `launch` of an aligned, readable record submits
it once the pool has room, in the order in which the waiting launches arrived, and waits till then; NODE_FIRING admits the
first node that waits: one that reads well enters the pool, a malformed one is REJECTED, one that cannot be read FAULTED;
PLACEMENT makes picks that the rules permit (distinct entries of the list, each within DEV of its place; for a saved gang
that keeps its chains the tiles of `Node.home`, which tries the clusters in rising order from CURSOR's: that it takes
these is the model's choice, logs 10 and 69, where 17 R393 does not say which clusters are taken) and the node is PLACING;
RESERVATION_REPLY commits it, or rolls back where a die refuses. -/
def Obligations.NodesReachTheirTiles : Prop :=
  ∀ (s u s1 s2 : State) (ga : Reg) (a q : Nat) (l : List Byte) (p : PartId) (node : VAddr) (n n1 : Node) (rest : List Nat) (c : Nat)
    (picks : List Nat) (lst : List (List Nat)) (tiles : List Nat),
    (clean s [ga] → a = (s.g ga).toNat → q = s.myPart → u = s.flushMine →
      (a % 128 ≠ 0 ∨ 2 ^ 56 ≤ a → exec (.launch ga) s = .next (s.fault Code.alignment a)) ∧
      (a % 128 = 0 → a < 2 ^ 56 →
        (u.part q).sched.room = false ∨ (∃ x, (u.launchQueue q).head? = some x ∧ x ≠ (s.curTile.val, s.curCore)) →
        exec (.launch ga) s = .next (u.queueLaunch.block .launch) ∧
        (u.queueLaunch.part q).sched.launchers = (if (s.curTile.val, s.curCore) ∈ u.launchQueue q then u.launchQueue q
          else u.launchQueue q ++ [(s.curTile.val, s.curCore)])) ∧
      (a % 128 = 0 → a < 2 ^ 56 → (u.part q).sched.room = true →
        (∀ x, (u.launchQueue q).head? = some x → x = (s.curTile.val, s.curCore)) →
        nodeRead u s.myDie q a 128 .read = (.ok l, s1) → s1.myPart = q → s2 = s1.leaveLaunch.unblock.skip 4 →
        s2.findNode q a = none → exec (.launch ga) s = .next (s2.submit q a))) ∧
    ((s.part p.val).sched.waiting = node.toNat :: rest → s.findNode p.val node.toNat = some n → (s.part p.val).sched.room = true →
      n.state ≠ .saved →
      (loadNode s p.val n = (.ok n1, s1) → exec (.nodeFiring p node) s = .next (s1.enterPool p.val n1)) ∧
      (loadNode s p.val n = (.malformed n1, s1) → exec (.nodeFiring p node) s =
        .next ((s1.endNode p.val { n1 with fcode := Code.descriptorInvalid } .rejected true).post (some p.val)
          { status := Status.nodeRejected, addr := n1.addr })) ∧
      (loadNode s p.val n = (.failed n1 c, s1) →
        exec (.nodeFiring p node) s = .next (s1.endNode p.val { n1 with fcode := c } .faulted true))) ∧
    (s1 = s.noteHead p.val → (s1.part p.val).state = .active → (∀ m ∈ (s1.part p.val).sched.nodes, m.state ≠ .placing) →
      s1.nextToPlace p.val = some n → n.addr = node.toNat →
      (n.state = .ready → n.checked = false → (s1.part p.val).dbg.matchesNode n = true →
        exec (.placement p node picks) s = .next ((s1.putNode p.val { n with held := true, aged := s1.seiche - n.aged }).addHit p.val
          { kind := 2, ring := 0, addr := n.addr })) ∧
      (n.state ≠ .ready ∨ n.checked = true ∨ (s1.part p.val).dbg.matchesNode n = false →
        lst = unitList (s1.eligible p.val n) (Rcd.tps n.rcd) (s1.part p.val).sched.cursor →
        tiles = rankTiles (Rcd.tps n.rcd) (Rcd.nstage n.rcd) ((picks.map fun j => lst.getD j []).flatMap id) →
        picks.length = unitsNeeded n.rcd → picks.Nodup → (∀ j ∈ picks, j < lst.length) →
        (n.keepsChain = false → ∀ k, k < unitsNeeded n.rcd →
          picks.getD k 0 ≤ k + (s1.part p.val).sched.dev ∧ k ≤ picks.getD k 0 + (s1.part p.val).sched.dev) →
        (n.keepsChain = true → n.home (s1.eligible p.val n) (s1.part p.val).sched.cursor = some tiles) →
        s2 = s1.writeNode p.val { n with
          state := .placing, picks := (picks.map fun j => lst.getD j []).flatMap id, tiles := tiles
          wasSaved := decide (n.state = .saved) } →
        exec (.placement p node picks) s = .next (s2.setSched p.val { (s2.part p.val).sched with
          cursor := ((lst.getD (maxOf picks) []).getLastD 0 + 1) % 256 })) ∧
      (n.state ≠ .ready ∨ n.checked = true ∨ (s1.part p.val).dbg.matchesNode n = false →
        lst = unitList (s1.eligible p.val n) (Rcd.tps n.rcd) (s1.part p.val).sched.cursor →
        (picks.length ≠ unitsNeeded n.rcd ∨ ¬picks.Nodup ∨ (∃ j ∈ picks, lst.length ≤ j)) →
        exec (.placement p node picks) s = .next s1)) ∧
    (s.findNode p.val node.toNat = some n → n.state = .placing → n.cancelled = false →
      (s.refusing p.val n = 0 → exec (.reservationReply p node 0) s = .next (s.commit p.val n)) ∧
      (∀ r, s.refusing p.val n = r → r ≠ 0 → exec (.reservationReply p node r) s = .next (s.writeNode p.val { n with
        tiles := [], picks := [], state := if n.wasSaved then .saved else .ready })))

/-- 17 R381, R384, R387 to R389, R402 to R405, 02 R39: what the scheduler does besides. NODE_RETIREMENT of a finished gang
makes the node RETIRED and counts its successors down, one that waits and reaches 0 being READY; it and ATTEMPT_END free
the tiles, on which nothing of the node stays but the errors in scratchpad words that no read has found (the model's
reading, log 51); FAULT_REPORT ends the attempt with the lowest rank of those that faulted first; CONE_WALK_STEP cancels
the waiting node at the head of its queue with CAUSE the root; NODE_AGEING raises a priority below the cap by one and
counts the interval; BACKFILL_LIMIT ends the backfill. 17 R389: PREEMPTION_DECISION, for a head that cannot be placed,
takes candidates of lower PRIO, lowest first and the latest start first among equals, until with their tiles the head
could be placed, and asks each for its tiles; where all are not enough it asks none. That the tiles of gangs already asked
count as tiles to come, so that none more is asked where they suffice, is the model's reading (log 73). A tile that is
held is no backfill's: it is eligible for the node it is held for, and for the present head (which the model lets be
placed on a tile held for an earlier head, log 73). -/
def Obligations.SchedulerEvents : Prop :=
  ∀ (s s1 s2 : State) (p : PartId) (node : VAddr) (n h : Node) (t : TileId) (k : Seat) (f : FaultRec) (r c tick : Nat) (w : Walk)
    (rest : List Walk) (g : Graph) (v : Nat) (q l : List Nat) (ns cs : List Node) (why : EndWhy) (asked : List Nat),
    (s.findNode p.val node.toNat = some n → n.state = .running → n.tiles ≠ [] → (∀ u ∈ n.tiles, (s.tile u).retires = true) →
      ∃ x, exec (.nodeRetirement p node) s = .next x ∧
        (∀ u ∈ n.tiles, (x.tile u).life.phase = .free ∧ (x.tile u).life.seat = none ∧ (x.tile u).life.fault = none ∧
          (x.tile u).mem = { scratchBad := (s.tile u).mem.scratchBad.filter (s.tile u).mem.scratchLatent.contains
                             scratchLatent := (s.tile u).mem.scratchLatent } ∧
          (x.tile u).queue = [] ∧ (∀ e, (x.tile u).eng e = {}) ∧ (∀ d, x.coreAt u d = {}) ∧ (x.tile u).ctl = {}) ∧
        (n.graph = none → x.findNode p.val n.addr = none) ∧
        (∀ m, x.findNode p.val n.addr = some m → m.state = .retired ∧ m.pooled = false ∧ m.tiles = []) ∧
        -- each successor that waits or is cancelled counts down once for each place in the list (17 R381)
        ∀ a m gr, (s.part p.val).sched.graphOf n = some gr → s.findNode p.val a = some m → a ≠ n.addr →
          let c := n.succ.countP fun i => decide (gr.base + 128 * i = a)
          (m.state = .waiting → ∃ m', x.findNode p.val a = some m' ∧ m'.predcnt = m.predcnt - c ∧
            m'.state = if m.predcnt ≠ 0 ∧ m.predcnt ≤ c then .ready else .waiting) ∧
          (m.state = .cancelled → ∀ m', x.findNode p.val a = some m' → m'.predcnt = m.predcnt - c ∧ m'.state = .cancelled) ∧
          (m.state ≠ .waiting → m.state ≠ .cancelled →
            ∀ m', x.findNode p.val a = some m' → m'.predcnt = m.predcnt ∧ m'.state = m.state)) ∧
    (s.findNode p.val node.toNat = some n → n.state = .ending → n.ending = some why →
      ((∀ u ∈ n.tiles, (s.tile u).ended = true) → ∃ x, exec (.attemptEnd p node) s = .next x ∧
        ∀ u ∈ n.tiles, (x.tile u).life.phase = .free ∧ (x.tile u).life.seat = none ∧ (x.tile u).life.fault = none ∧
          (x.tile u).mem = { scratchBad := (s.tile u).mem.scratchBad.filter (s.tile u).mem.scratchLatent.contains
                             scratchLatent := (s.tile u).mem.scratchLatent } ∧
          (x.tile u).queue = [] ∧ (∀ e, (x.tile u).eng e = {}) ∧ (∀ d, x.coreAt u d = {}) ∧ (x.tile u).ctl = {}) ∧
      ((∃ u ∈ n.tiles, (s.tile u).ended = false) → exec (.attemptEnd p node) s = .next s)) ∧
    ((s.tile t.val).life.seat = some k → s.findNode k.part k.node = some n → s.endingFault n t.val = some f →
      (s.tile t.val).life.phase = .frozen → n.state = .running → s.lowestFault n f.tick = some (r, c) →
      exec (.faultReport t) s = .next (s.reportFault k.part n r c) ∧ ∀ j, j < r → ∀ m, s.endingFault n (n.tiles.getD j 0) = some m →
        m.tick ≠ f.tick) ∧
    ((s.part p.val).sched.walks = w :: rest → (s.part p.val).sched.graphs.find? (·.addr == w.graph) = some g → w.begun = true →
      w.queue = v :: q → s.findNode p.val (g.base + 128 * v) = some n →
      (n.state = .waiting → s.succOf p.val n = (l, s1) → s2 = s1.endNode p.val { n with cause := w.root } .cancelled false →
        exec (.coneWalkStep p) s = .next (s2.walkHeader p.val g w rest (s2.enqueue p.val g q l))) ∧
      (n.state ≠ .waiting → exec (.coneWalkStep p) s = .next (s.walkHeader p.val g w rest q))) ∧
    (s.findNode p.val node.toNat = some n → n.pooled = true → n.held = false → n.state = .ready →
      (s.part p.val).sched.ageint ≠ 0 →
      (n.aged + (s.part p.val).sched.ageint ≤ s.seiche → exec (.nodeAgeing p node) s = .next (s.putNode p.val { n with
        eprio := if n.eprio < (s.part p.val).sched.agecap then n.eprio + 1 else n.eprio
        aged := n.aged + (s.part p.val).sched.ageint })) ∧
      (s.seiche < n.aged + (s.part p.val).sched.ageint → exec (.nodeAgeing p node) s = .next s)) ∧
    ((s.part p.val).sched.head = some h → (s.part p.val).sched.headSince = some (h.addr, tick) →
      (tick + (s.part p.val).sched.bflim ≤ s.seiche →
        exec (.backfillLimit p) s = .next (s.setSched p.val { (s.part p.val).sched with backfill := false })) ∧
      (s.seiche < tick + (s.part p.val).sched.bflim → exec (.backfillLimit p) s = .next s)) ∧
    (s1 = s.noteHead p.val → (s1.part p.val).sched.head = some h →
      asked = ((s1.part p.val).sched.nodes.filter fun n => decide (n.state = .running) && n.preempt).flatMap (·.tiles) →
      (s1.placeable p.val h = true → exec (.preemptionDecision p) s = .next s1) ∧
      (s1.placeable p.val h = false → s1.placeableOn p.val h (s1.freedFor p.val h asked) = true →
        exec (.preemptionDecision p) s = .next s1) ∧
      (s1.placeable p.val h = false → s1.placeableOn p.val h (s1.freedFor p.val h asked) = false →
        cs = ((s1.part p.val).sched.nodes.filter fun n => decide (n.state = .running) && Rcd.preempt n.rcd &&
          !n.preempt && decide (Rcd.prio n.rcd < Rcd.prio h.rcd)).foldr insertCand [] →
        (s1.victims p.val h asked cs = none → exec (.preemptionDecision p) s = .next s1) ∧
        (s1.victims p.val h asked cs = some ns →
          exec (.preemptionDecision p) s = .next (ns.foldl (fun s n => s.putNode p.val { n with preempt := true, forHead := h.addr }) s1) ∧
          ∀ m ∈ ns, m.state = .running ∧ Rcd.preempt m.rcd = true ∧ Rcd.prio m.rcd < Rcd.prio h.rcd))) ∧
    ((cs.foldr insertCand []).Perm cs ∧ (cs.foldr insertCand []).Pairwise fun a b =>
      Rcd.prio a.rcd < Rcd.prio b.rcd ∨ (Rcd.prio a.rcd = Rcd.prio b.rcd ∧ b.startTick ≤ a.startTick)) ∧
    (∀ extra, s.victims p.val h extra cs = some ns ↔ ns ≠ [] ∧ ns <+: cs ∧
      s.placeableOn p.val h (s.freedFor p.val h (extra ++ ns.flatMap (·.tiles))) = true ∧
      ∀ pre, pre <+: ns → pre ≠ [] → pre ≠ ns → s.placeableOn p.val h (s.freedFor p.val h (extra ++ pre.flatMap (·.tiles))) = false) ∧
    (((s.part p.val).sched.head.map (·.addr) ≠ some n.addr → (∃ y ∈ (s.part p.val).sched.heldFor, y.1 = t.val ∧ y.2 ≠ n.addr) →
        s.eligible p.val n t.val = false) ∧
      ((s.part p.val).sched.head.map (·.addr) = some n.addr ∨ (∀ y ∈ (s.part p.val).sched.heldFor, y.1 = t.val → y.2 = n.addr) →
        (s.eligible p.val n t.val = true ↔ (s.part p.val).clusters.getLsbD (t.val / 8) = true ∧ (s.tile t.val).life.phase = .free ∧
          (s.tile t.val).life.seat = none ∧ (s.tile t.val).prv.retired &&& BitVec.ofNat 32 (Rcd.banks n.rcd) = 0)))

/-! ## Rings and packets (19 R440 to R449, R491) -/

/-- 19 R441, R442, R443: the registers of a ring and the way of a packet: a doorbell that goes back or passes the ring's size
overruns an active ring; START, RESUME, STOP, which ends a wait between re-reads in whatever state the ring is, and which
a ring of a partition in reset ignores; an intact packet at RPTR is accepted in its one read over a link that is up, and
one that is not is read again 1,000 ticks later, each wait twice the last, until the eighth re-read that fails leaves the
ring TORN and posts PACKET_TORN; the oldest accepted packet starts when nothing holds it, and one with a reserved bit or
an opcode that is not valid there completes at once. -/
def Obligations.RingsAcceptAndStartPackets : Prop :=
  ∀ (s s1 : State) (r : RingId) (x : Ring) (w : Word) (l : List Byte) (k : Packet) (rest : List Packet), x = s.ring r →
    (x.state = .active → w.toNat < x.wptr ∨ 2 ^ x.log2 < w.toNat - x.rptr →
      exec (.ringDoorbell r w) s = .next ((s.setRing r { x with wptr := w.toNat, state := .overrun, readAt := none, rereads := 0 }).post
        r.owner { status := Status.ringOverrun, ring := r.num })) ∧
    (x.wptr ≤ w.toNat → w.toNat - x.rptr ≤ 2 ^ x.log2 → exec (.ringDoorbell r w) s = .next (s.setRing r { x with wptr := w.toNat })) ∧
    (s.takesCmd r = true →
      (x.state ≠ .active → exec (.ringStart r) s = .next (s.setRing r { x with
        cmd := 1, rptr := x.wptr, state := .active, torn := 0, rereads := 0, readAt := none })) ∧
      (x.state = .torn → exec (.ringResume r) s = .next (s.setRing r { x with cmd := 2, state := .active, rereads := 0, readAt := none })) ∧
      (x.state = .active ∨ x.state = .overrun ∨ x.state = .torn ∨ x.state = .stopped → exec (.ringStop r) s = .next (s.setRing r { x with cmd := 3, state := .idle, rereads := 0, readAt := none }))) ∧
    (∀ p k, r = .part p k → (s.part p.val).state = .resetting →
      exec (.ringStart r) s = .next s ∧ exec (.ringResume r) s = .next s ∧ exec (.ringStop r) s = .next s ∧
      exec (.packetAccept r) s = .next s ∧ exec (.packetReread r) s = .next s) ∧
    (s.linkUp = false → exec (.packetAccept r) s = .next s ∧ exec (.packetReread r) s = .next s) ∧
    (s.ringAccepts r = true → s.linkUp = true → x.rptr < x.wptr → s.readPacket r = (l, s1) →
      (x.readAt = none → intact l x.rptr = true → exec (.packetAccept r) s = .next (s1.acceptPacket r l)) ∧
      (x.readAt = none → intact l x.rptr = false →
        exec (.packetAccept r) s = .next (s1.setRing r { s1.ring r with rereads := 0, readAt := some (s1.seiche + 1000) })) ∧
      (∀ due y, x.readAt = some due → due ≤ s.seiche → y = s1.ring r →
        (intact l y.rptr = true → exec (.packetReread r) s =
          .next ((s1.setRing r { y with torn := min (y.torn + 1) 0xFFFF, rereads := y.rereads + 1 }).acceptPacket r l)) ∧
        (intact l y.rptr = false → y.rereads < 7 → ∃ u, exec (.packetReread r) s = .next u ∧ u.ring r = { y with
          torn := min (y.torn + 1) 0xFFFF, rereads := y.rereads + 1, readAt := some (s1.seiche + 1000 * 2 ^ (y.rereads + 1)) }) ∧
        (intact l y.rptr = false → y.rereads = 7 → exec (.packetReread r) s = .next ((s1.setRing r { y with
          torn := min (y.torn + 1) 0xFFFF, state := .torn, readAt := none, rereads := 0 }).post r.owner
            { status := Status.packetTorn, ring := r.num, addr := y.rptr })))) ∧
    (x.accepted = k :: rest → x.held = false → s.packetWaits r = false → (k.fence = true → x.open_ = []) →
      s.breaksAt r k = false →
      (k.reservedSet = false → ∀ n, operandCount (decide (r = .admin)) k.opcode = some n → k.extraSet n = false →
        ∃ u, exec (.packetStart r) s = .next u ∧ u.ring r = { x with accepted := rest, passed := false, open_ := x.open_ ++ [k] }) ∧
      (k.reservedSet = true → exec (.packetStart r) s =
        .next ((s.setRing r { x with accepted := rest, passed := false }).notifyDone r k Status.badField 0)) ∧
      (k.reservedSet = false → operandCount (decide (r = .admin)) k.opcode = none → exec (.packetStart r) s =
        .next ((s.setRing r { x with accepted := rest, passed := false }).notifyDone r k Status.badOpcode 0)))

/-- 19 R443, Table 19.6, R446, R449, R491: what the thirteen packets of a partition do once started, and how each completes.
CANCEL_NODE of a node on no tile cancels it with CAUSE 0xFFFF, of a PLACING one is kept for the replies, of a RUNNING one
ends its attempt, of a terminal one and of none does nothing. A MAP writes the leaves of its pages and refuses with
BAD_FIELD or BUSY; an UNMAP clears, a DISCARD marks, the entry that a walk ends at, and every export leaf of its frame; an
EXPORT writes the export leaf of the page's frame, an UNEXPORT clears it; kept translations of the range go with each. A
frame that a MAP names is a data frame before any table is taken for it. That ABORT_GRAPH of an address that is no graph,
and CANCEL_NODE of a record that the scheduler does not hold, complete with DONE is the model's reading (log 44), and so
is the order of the flag bits of MAP and EXPORT, Rd at bit 0, W at 1, X at 2 (log 27). -/
def Obligations.PacketsOfPartitions : Prop :=
  ∀ (s : State) (p : PartId) (c : PktCtx) (k : Packet) (a b d f : Word) (n : Node) (v : Nat) (s1 : State) (root xroot pa e lvl xa size : Nat),
    (Started s p c 0x01 [] k → exec (.nop p c) s = .next (s.completePacket c k (Done.ok s))) ∧
    (Started s p c 0x02 [a] k → a.toNat % 128 = 0 → a.toNat < 2 ^ 56 → s.findNode p.val a.toNat = none →
      ((s.part p.val).sched.room = true → exec (.submitNode p c a) s = .next (s.completePacket c k (Done.ok (s.submit p.val a.toNat)))) ∧
      ((s.part p.val).sched.room = false → exec (.submitNode p c a) s = .next s)) ∧
    (Started s p c 0x03 [a] k → a.toNat % 64 ≠ 0 ∨ 2 ^ 56 ≤ a.toNat →
      exec (.submitGraph p c a) s = .next (s.completePacket c k (Done.no Status.badField s))) ∧
    (∀ l s1 g, Started s p c 0x03 [a] k → a.toNat % 64 = 0 → a.toNat < 2 ^ 56 → s.schedRead p.val a.toNat 64 = (.ok l, s1) →
      g = ({ addr := a.toNat, base := field (leNat (l.take 8)) 7 49 * 128, count := field (leNat ((l.drop 8).take 8)) 0 16 } : Graph) →
      g.count ≠ 0 → field (leNat ((l.drop 8).take 8)) 16 4 ≠ 1 → (∀ h ∈ (s1.part p.val).sched.graphs, h.addr ≠ a.toNat) →
      (∀ i, i < g.count → s1.findNode p.val (g.base + 128 * i) = none) →
      exec (.submitGraph p c a) s = .next (s.completePacket c k (Done.ok (s1.submitGraph p.val g)))) ∧
    (Started s p c 0x04 [a] k → s.findNode p.val a.toNat = some n →
      (n.state = .waiting ∨ n.state = .ready → exec (.cancelNode p c a) s =
        .next (s.completePacket c k (Done.ok (s.endNode p.val { n with cause := 0xFFFF } .cancelled true)))) ∧
      (n.state = .saved → exec (.cancelNode p c a) s = .next (s.completePacket c k (Done.ok (s.cancelSaved p.val n)))) ∧
      (n.state = .placing → exec (.cancelNode p c a) s =
        .next (s.completePacket c k (Done.ok (s.putNode p.val { n with cancelled := true })))) ∧
      (n.state = .running → exec (.cancelNode p c a) s =
        .next (s.completePacket c k (Done.ok (s.endAttempt p.val n .cancel)))) ∧
      (n.state.terminal = true → exec (.cancelNode p c a) s = .next (s.completePacket c k (Done.ok s)))) ∧
    (Started s p c 0x04 [a] k → s.findNode p.val a.toNat = none →
      exec (.cancelNode p c a) s = .next (s.completePacket c k (Done.ok s))) ∧
    (Started s p c 0x05 [a] k → exec (.abortGraph p c a) s = .next (s.completePacket c k (Done.ok (s.abortGraph p.val a.toNat)))) ∧
    (Started s p c 0x06 [a, b, d, f] k → exec (.map p c a b d f) s =
      .next (s.completePacket c k (s.mapRange p.val a.toNat b.toNat d.toNat f.toNat))) ∧
    (Started s p c 0x06 [a, b, d, f] k → size = field f.toNat 4 2 →
      (mapFlagsOk f.toNat = false ∨ a.toNat % pageBytes size ≠ 0 ∨ b.toNat % pageBytes size ≠ 0 ∨ 2 ^ 56 < a.toNat + b.toNat ∨
        (d.toNat ≠ 2 ^ 64 - 1 ∧ (bit f.toNat 8 = true ∨ d.toNat % pageBytes size ≠ 0 ∨ (s.part p.val).usable d.toNat b.toNat = false)) →
        exec (.map p c a b d f) s = .next (s.completePacket c k (Done.no Status.badField s))) ∧
      (mapFlagsOk f.toNat = true → a.toNat % pageBytes size = 0 → b.toNat = pageBytes size → a.toNat + b.toNat ≤ 2 ^ 56 →
        d.toNat ≠ 2 ^ 64 - 1 → bit f.toNat 8 = false → d.toNat % pageBytes size = 0 → (s.part p.val).usable d.toNat b.toNat = true →
        ownRoot s p.val = some root →
        (anyPresent s root size 1 a.toNat = true → exec (.map p c a b d f) s = .next (s.completePacket c k (Done.no Status.busy s))) ∧
        (anyPresent s root size 1 a.toNat = false →
          reachEntry (s.setPart p.val { s.part p.val with dataFrames := (d.toNat, b.toNat) :: (s.part p.val).dataFrames })
            p.val a.toNat (sizeLevel size) 3 root = some (pa, s1) →
          exec (.map p c a b d f) s =
            .next (s.completePacket c k (Done.ok (writeLeaves s1 pa d.toNat size (bit f.toNat 0) (bit f.toNat 1) (bit f.toNat 2)))) ∧
            (size = 0 → badGranule s1.memBad pa 8 = none → (writeLeaves s1 pa d.toNat 0 (bit f.toNat 0) (bit f.toNat 1) (bit f.toNat 2)).read8 pa =
              d.toNat + b2n (bit f.toNat 2) * 16 + b2n (bit f.toNat 1) * 8 + b2n (bit f.toNat 0) * 4 + 3)))) ∧
    (a.toNat % 4096 = 0 → b.toNat = 4096 → ownRoot s p.val = some root → findEntry s a.toNat 3 root = (0, pa) → e = s.read8 pa →
      Pte.v e = true → Pte.leaf e = true → Pte.g64 e = false →
      (Started s p c 0x07 [a, b] k → exec (.unmap p c a b) s = .next (s.completePacket c k (Done.ok
        (((mapExports (s.writeEntry pa 0) p.val (Pte.frame e) 4096 fun _ => 0).shootDown p.val .own a.toNat b.toNat 0xF).shootDown
          p.val .exported 0 (2 ^ 56) 0xF)))) ∧
      (Started s p c 0x08 [a, b] k → exec (.discard p c a b) s = .next (s.completePacket c k (Done.ok
        (((mapExports (s.writeEntry pa (setField e 7 1 1)) p.val (Pte.frame e) 4096 setDisc).shootDown
          p.val .own a.toNat b.toNat 0xF).shootDown p.val .exported 0 (2 ^ 56) 0xF))))) ∧
    (Started s p c 0x07 [a, b] k → exec (.unmap p c a b) s = .next (s.completePacket c k (s.unmapRange p.val a.toNat b.toNat))) ∧
    (Started s p c 0x08 [a, b] k → exec (.discard p c a b) s = .next (s.completePacket c k (s.discardRange p.val a.toNat b.toNat))) ∧
    (s.linkUp = false → a.toNat ≤ 4095 → 2 ≤ b.toNat → b.toNat ≤ 64 → exec (.groupSet p c a b d) s = .next s) ∧
    (Started s p c 0x09 [a, b, d] k → v = b.toNat → a.toNat ≤ 4095 → 2 ≤ v → v ≤ 64 →
      s.linkUp = true → s.granted p.val d.toNat (2 * v) false = true → (∀ m ∈ halves (s.host.bytes d.toNat (2 * v)), m ≤ 1023) →
      (s.group a.toNat).gm1 = 0 ∨ (s.group a.toNat).bound &&& (2 ^ 16 - 1 - 2 ^ p.val) = 0 →
      ∃ g : Group, exec (.groupSet p c a b d) s = .next (s.completePacket c k (Done.ok (s.setGroup a.toNat g))) ∧
        g.members = halves (s.host.bytes d.toNat (2 * v)) ∧
        g.bound = if (s.group a.toNat).gm1 = 0 then 0 else (s.group a.toNat).bound) ∧
    (Started s p c 0x0A [a] k → a.toNat ≤ 4095 → (s.group a.toNat).gm1 ≠ 0 → exec (.groupBind p c a) s =
      .next (s.completePacket c k (Done.ok (s.setGroup a.toNat { s.group a.toNat with
        bound := (s.group a.toNat).bound ||| 2 ^ p.val })))) ∧
    (Started s p c 0x0A [a] k → 4095 < a.toNat ∨ (s.group a.toNat).gm1 = 0 → exec (.groupBind p c a) s =
      .next (s.completePacket c k (Done.no Status.badField s))) ∧
    (Started s p c 0x0B [a] k → a.toNat ≤ 4095 → (s.group a.toNat).gm1 ≠ 0 → exec (.groupUnbind p c a) s =
      .next (s.completePacket c k (Done.ok (s.setGroup a.toNat { s.group a.toNat with
        bound := (s.group a.toNat).bound &&& (2 ^ 16 - 1 - 2 ^ p.val) })))) ∧
    (Started s p c 0x0C [a, b, d, f] k → exec (.exportPages p c a b d f) s =
      .next (s.completePacket c k (s.exportRange p.val a.toNat b.toNat d.toNat f.toNat))) ∧
    (Started s p c 0x0C [a, b, d, f] k → a.toNat % 4096 ≠ 0 ∨ b.toNat % 4096 ≠ 0 ∨ d.toNat % 4096 ≠ 0 ∨ 2 ^ 46 < a.toNat + b.toNat ∨
      4 ≤ f.toNat → exec (.exportPages p c a b d f) s = .next (s.completePacket c k (Done.no Status.badField s))) ∧
    (Started s p c 0x0C [a, b, d, f] k → a.toNat % 4096 = 0 → b.toNat = 4096 → d.toNat % 4096 = 0 → a.toNat + b.toNat ≤ 2 ^ 46 →
      f.toNat < 4 → ownRoot s p.val = some root → exportRoot s p.val = some xroot → findEntry s d.toNat 3 root = (lvl, pa) →
      e = s.read8 pa → Pte.v e = true → Pte.leaf e = true →
      ((Pte.malformed e lvl d.toNat = true ∨ (bit f.toNat 0 = true ∧ Pte.rd e = false) ∨ (bit f.toNat 1 = true ∧ Pte.w e = false) →
        exec (.exportPages p c a b d f) s = .next (s.completePacket c k (Done.no Status.busy s))) ∧
       (Pte.malformed e lvl d.toNat = false → (bit f.toNat 0 = true → Pte.rd e = true) → (bit f.toNat 1 = true → Pte.w e = true) →
        presentAt s a.toNat 0 3 xroot = false → reachEntry s p.val a.toNat 0 3 xroot = some (xa, s1) →
        exec (.exportPages p c a b d f) s = .next (s.completePacket c k (Done.ok (s1.writeEntry xa
          (leafEntry (Pte.frame e + d.toNat % 2 ^ levelShift lvl / 4096 * 4096) (bit f.toNat 0) (bit f.toNat 1) false (Pte.disc e)
            false))))))) ∧
    (Started s p c 0x0D [a, b] k → a.toNat % 4096 = 0 → b.toNat = 4096 → exportRoot s p.val = some xroot →
      findEntry s a.toNat 3 xroot = (0, pa) → e = s.read8 pa → Pte.v e = true → Pte.leaf e = true → Pte.g64 e = false →
      exec (.unexportPages p c a b) s = .next (s.completePacket c k (Done.ok
        ((s.writeEntry pa 0).shootDown p.val .exported a.toNat b.toNat 0xF)))) ∧
    (Started s p c 0x0D [a, b] k → exec (.unexportPages p c a b) s =
      .next (s.completePacket c k (s.unexportRange p.val a.toNat b.toNat)))

/-- 19 R450 to R454, R460 to R462: the packets of the admin ring: PART_CREATE makes a partition of free clusters and frames,
and measures it; PART_RESET of an active one begins and, once nothing of it is left, ends it active; PART_DESTROY then
gives its clusters and frames back; LOAD_IMAGE, over a link that is up, takes an image that verifies, extends MEAS2 by it,
and refuses another with AUTH_FAILED. The end of a reset leaves the rings idle, no node, no region, an empty publication
buffer, no kept translation and no group bound; the end of a destroy leaves no cluster, no frame and no root. A reset
drops the packets that have not started, among them a SUBMIT_NODE that waits for the pool's room. That one that has
started goes on, and a node that it submits is cancelled, the looks at a reset until it ends, and BAD_FIELD before BUSY,
are the model's choice (log 43), and so are the byte order of MEAS2, the least significant byte first, and that an
accepted image is a fabric image where `Config.fabricImage` says so (log 12). -/
def Obligations.PacketsOfTheAdminRing : Prop :=
  ∀ (s : State) (c : PktCtx) (k : Packet) (p a b d f : Word),
    (AdminStarted s c 0x40 [p, a, b, d, f] k →
      (createBadField p.toNat a.toNat b.toNat d.toNat f.toNat = true →
        exec (.partCreate c p a b d f) s = .next (s.completePacket c k (Done.no Status.badField s))) ∧
      (createBadField p.toNat a.toNat b.toNat d.toNat f.toNat = false →
        (s.createBusy p.toNat a.toNat b.toNat d.toNat = true →
          exec (.partCreate c p a b d f) s = .next (s.completePacket c k (Done.no Status.busy s))) ∧
        (s.createBusy p.toNat a.toNat b.toNat d.toNat = false →
          exec (.partCreate c p a b d f) s = .next (s.completePacket c k
            (Done.ok (s.createPart p.toNat a.toNat b.toNat d.toNat f.toNat [p, a, b, d, f]))) ∧
          ((s.createPart p.toNat a.toNat b.toNat d.toNat f.toNat [p, a, b, d, f]).part p.toNat).state = .active ∧
          ((s.createPart p.toNat a.toNat b.toNat d.toNat f.toNat [p, a, b, d, f]).part p.toNat).clusters = BitVec.ofNat 32 a.toNat))) ∧
    (AdminStarted s c 0x41 [p] k → p.toNat ≤ 15 →
      ((s.part p.toNat).state = .active → exec (.partReset c p) s = .next (s.resetBegin p.toNat k.index)) ∧
      ((s.part p.toNat).state = .absent → exec (.partReset c p) s = .next (s.completePacket c k (Done.no Status.busy s))) ∧
      ((s.part p.toNat).state = .resetting → (s.part p.toNat).resetter = some k.index →
        (s.resetDone p.toNat = true → exec (.partReset c p) s = .next (s.completePacket c k (Done.ok (s.resetEnd p.toNat)))) ∧
        (s.resetDone p.toNat = false → exec (.partReset c p) s = .next (s.cancelNodes p.toNat)))) ∧
    (AdminStarted s c 0x42 [p] k → p.toNat ≤ 15 →
      ((s.part p.toNat).state = .active → exec (.partDestroy c p) s = .next (s.resetBegin p.toNat k.index)) ∧
      ((s.part p.toNat).state = .resetting → (s.part p.toNat).resetter = some k.index → s.resetDone p.toNat = true →
        exec (.partDestroy c p) s = .next (s.completePacket c k (Done.ok ((s.resetEnd p.toNat).destroyPart p.toNat))))) ∧
    (∀ (r : Ring) (room : Bool), (r.stopped room).state = .stopped ∧ (r.stopped room).accepted = [] ∧ (r.stopped room).held = false ∧
      ∀ j, j ∈ (r.stopped room).open_ ↔ j ∈ r.open_ ∧ (room = true ∨ j.opcode ≠ 0x02)) ∧
    (∀ q, s.resetDone q = true → (∀ n ∈ (s.part q).sched.nodes, n.state.terminal = true) ∧ ∀ r ∈ (s.part q).rings, r.2.open_ = []) ∧
    (∀ (q : PartId) (t : State), t = s.resetEnd q.val →
      (t.part q.val).state = .active ∧ (t.part q.val).sched.nodes = [] ∧ (t.part q.val).sched.graphs = [] ∧
      (t.part q.val).pub = [] ∧ (t.part q.val).regions = [] ∧ (∀ n, n < 16 → (SMap.get {} (t.part q.val).rings n).state = .idle) ∧
      (∀ d : DieId, (∀ j ∈ (t.die d.val).kept, j.part ≠ q.val) ∧ (SMap.get {} (t.die d.val).xlt q.val).xen = true) ∧
      (∀ g, bit (t.group g).bound q.val = false ∧ (t.group g).members = (s.group g).members) ∧ t.mem = s.mem) ∧
    (∀ (q : PartId) (t : State), t = s.destroyPart q.val →
      (t.part q.val).state = .absent ∧ (t.part q.val).clusters = 0 ∧ (t.part q.val).frameLen = 0 ∧ (t.part q.val).dataFrames = [] ∧
      ∀ d : DieId, (SMap.get {} (t.die d.val).xlt q.val).en = false ∧ (SMap.get {} (t.die d.val).xlt q.val).xen = false) ∧
    (∀ l : List Byte, (s.acceptImage l).measure 2 =
        BitVec.ofNat 384 (leNat (sha sha384 (leBytes (s.measure 2).toNat 48 ++ sha sha384 l))) ∧
      (∀ i, i ≠ 2 → (s.acceptImage l).measure i = s.measure i) ∧
      (s.acceptImage l).hub.imageLoaded = (s.hub.imageLoaded || Config.fabricImage l)) ∧
    (s.linkUp = false → exec (.loadImage c a b) s = .next s) ∧
    (AdminStarted s c 0x43 [a, b] k → s.linkUp = true → s.granted firmwareSource a.toNat b.toNat false = true →
      (Config.imageVerifies (s.host.bytes a.toNat b.toNat) = true →
        exec (.loadImage c a b) s = .next (s.completePacket c k (Done.ok (s.acceptImage (s.host.bytes a.toNat b.toNat))))) ∧
      (Config.imageVerifies (s.host.bytes a.toNat b.toNat) = false →
        exec (.loadImage c a b) s = .next (s.completePacket c k (Done.no Status.authFailed
          { s with hub := { s.hub with fails := min (s.hub.fails + 1) 0xFFFF } }))))

/-! ## The module, the host and the card (01 R23, R24; 17 Table 17.4; 18 R429 to R433; 19 R435 to R463; 20 R465 to R487) -/

/-- 01 R23, R24, 19 R436, R439, R447, R455 to R459: the tick, the clamps of the tile clock, the link ports, the module number
and its LOCK, the last stage of bring-up, the host's accesses through its aperture and the register writes: each where it
takes effect, and where the rules give it none. SEICHE_TICK first does what may not wait past the tick (20 R478, 12 R295,
18 R432), which where nothing is due is nothing. The model's choices: bring-up as free values (log 16), accesses of 8
aligned bytes (log 19), the comparisons of the clamp (log 37), the 64 GiB of the aperture (log 42). -/
def Obligations.ModuleAndHostEvents : Prop :=
  ∀ (s s1 : State) (mhz : BitVec 12) (port : Fin 2) (v : Word) (p : PartId) (addr : VAddr) (len : Nat) (l : List Byte) (pa : BitVec 40)
    (who : RegWriter) (x : Power),
    exec .seicheTick s = .next { s.tickWork with seiche := s.seiche + 1 } ∧
    ((∀ y ∈ s.tiles, ∀ e, (y.2.eng e).ops = []) → (∀ q ∈ s.parts, q.2.dbg.tren = false) → (s.seiche + 1) % 2 ^ 24 ≠ 0 →
      exec .seicheTick s = .next { s with seiche := s.seiche + 1 }) ∧
    (mhz.toNat < s.hub.power.fclk → exec (.thermalLimit mhz) s = .next { s with hub := { s.hub with power := { s.hub.power with
      fclk := mhz.toNat, clamps := min (s.hub.power.clamps + 1) 0xFFFF } } }) ∧
    (s.hub.power.fclk ≤ mhz.toNat → exec (.thermalLimit mhz) s = .next s) ∧
    (s.hub.power.due ≤ s.seiche → ∃ u w, exec .powerClamp s = .next u ∧ w = (Config.watts s.choices).toNat ∧
      u.hub.power.watts = w ∧ u.hub.power.due = (s.seiche / 1000 + 1) * 1000 ∧
      (x = s.hub.power → x.limit < w →
        u.hub.power.fclk = (if 500 < x.fclk then x.fclk - 100 else x.fclk) ∧ u.hub.power.high = x.high + 1 ∧ u.hub.power.low = 0) ∧
      (x = s.hub.power → w ≤ x.limit → u.hub.power.hold = false ∧ u.hub.power.high = 0 ∧
        u.hub.power.low = (if 20 * w ≤ 19 * x.limit then x.low + 1 else 0) ∧
        u.hub.power.fclk = (if 10 ≤ u.hub.power.low ∧ x.fclk < 2500 then min 2500 (x.fclk + 100) else x.fclk))) ∧
    ((∃ u, exec (.linkPortFailure port) s = .next u ∧ SMap.get true u.hub.ports port.val = false ∧ u.tiles = s.tiles ∧ u.mem = s.mem) ∧
      (∃ u, exec (.linkPortRecovery port) s = .next u ∧ SMap.get true u.hub.ports port.val = true ∧ u.tiles = s.tiles ∧ u.mem = s.mem) ∧
      (SMap.get true s.hub.ports port.val = false → exec (.linkPortFailure port) s = .next s) ∧
      (SMap.get true s.hub.ports port.val = true → exec (.linkPortRecovery port) s = .next s)) ∧
    (s.hub.lock = true → exec (.fabidWrite v) s = .next s) ∧
    (s.hub.lock = false → ∃ u, exec (.fabidWrite v) s = .next u ∧ u.hub.modnum = v.toNat % 1024 ∧
      u.hub.lock = v.getLsbD 63 ∧ u.mem = s.mem ∧ u.parts = s.parts) ∧
    (s.hub.stage = 7 → s.hub.err = 0 → s.hub.lock = true → s.hub.imageLoaded = true → ∃ u, exec .fabricTraining s = .next u ∧
      ((Config.bringUp s.choices = true ∧ Config.bringUp (s.choices + 1) = true) → u.hub.stage = 8 ∧ u.hub.fabricUp = true) ∧
      ((Config.bringUp s.choices = false ∨ Config.bringUp (s.choices + 1) = false) → u.hub.stage = 7 ∧ u.hub.err ≠ 0)) ∧
    (∃ u, exec .powerOnReset s = .next u ∧ u.tiles = [] ∧ u.parts = [] ∧ u.mem = [] ∧ u.host = s.host ∧ u.peers = s.peers ∧
      u.hub.lock = false ∧ u.hub.stage ≤ 7 ∧ (u.hub.stage = 7 ↔ u.hub.err = 0)) ∧
    (addr.toNat + len ≤ 2 ^ 36 →
      (hubRead s 0 p.val (spanFuel len) addr.toNat len = (.ok l, s1) →
        exec (.apertureRead p addr len) s = .next { s1 with hub := { s1.hub with aperture := l } }) ∧
      (∀ c, hubRead s 0 p.val (spanFuel len) addr.toNat len = (.error c, s1) → exec (.apertureRead p addr len) s =
        .next (({ s1 with hub := { s1.hub with aperture := List.replicate len 0xFF } }).postNoGrant (some p.val) addr.toNat))) ∧
    (addr.toNat + l.length ≤ 2 ^ 36 →
      (hubWrite s 0 p.val (spanFuel l.length) addr.toNat l = (none, s1) → exec (.apertureWrite p addr l) s = .next s1) ∧
      (∀ c, hubWrite s 0 p.val (spanFuel l.length) addr.toNat l = (some c, s1) → exec (.apertureWrite p addr l) s =
        .next (s1.postNoGrant (some p.val) addr.toNat))) ∧
    ((s.part p.val).ev.held = [] → (s.part p.val).ev.lost = 0 → exec (.eventHeadWrite (some p) v) s =
      .next (s.setPart p.val { s.part p.val with ev := { (s.part p.val).ev with head := v.toNat } })) ∧
    (pa.toNat % 8 = 0 → 0x6000000000 ≤ pa.toNat → exec (.registerWrite who pa v) s = .next (s.hubReg who pa.toNat v.toNat)) ∧
    (exec (.registerWrite .host 0x6000000100 v) s = .next { s with hub := { s.hub with power := { s.hub.power with
      hostlim := max 100 (min 3200 (v.toNat % 2 ^ 16)) } } }) ∧
    (pa.toNat % 8 ≠ 0 → exec (.registerWrite who pa v) s = .next s)

/-- 18 R429 to R433, 20 R474, R475: SOFT_ERROR in each kind of array (an uncorrectable one poisons the word, a correctable one
changes no value, and counts nothing yet; of a register and of a weight plane each word has its own); the read that finds
a correctable error corrects and counts it: of a register, a token, a spilled frame, a panel or mask, an accumulator row;
the read of a scratchpad word, or SCRUB, which meets every word once in a period of 2^24 ticks, finds and counts its
latent error (an error in the buffer of a record is found as its engine starts that record, which an uncorrectable one
faults, and HBM counts none: the model's choices, log 38); BANK_RETIREMENT; and COUNTED_CYCLE, which counts one leaf of
each of the six units (which leaves a cycle may go to is 20 Table 20.4's, as the model reads it in log 55) and nothing
else, and nothing at all where the tile does not run or a leaf is none that its unit's cycle may go to; a write of
`ctl.perf.ctl` takes effect after the count of its cycle. -/
def Obligations.ErrorsAndCounters : Prop :=
  ∀ (s s1 : State) (t : TileId) (x : Tile) (off pa n : Nat) (bank : Fin 32) (lv : CycleLeaves) (c : CoreId) (r : Fin 32) (i w : Nat)
    (q : Fin 16) (k : Nat), x = s.tile t.val →
    (off < 0x200000 → ∀ b, exec (.softError t (.scratchpad off) b) s = .next (s.setTile t.val { x with mem := { x.mem with
      scratchBad := if b then x.mem.scratchBad else insertNat x.mem.scratchBad (off / 4 * 4)
      scratchLatent := insertNat x.mem.scratchLatent (off / 4 * 4) } })) ∧
    (pa < hbmEnd → exec (.softError t (.hbm pa) false) s = .next { s with memBad := insertNat s.memBad (pa / 32 * 32) } ∧
      exec (.softError t (.hbm pa) true) s = .next s) ∧
    (∀ a b, x.hasPlace a = false → exec (.softError t a b) s = .next s) ∧
    (∀ b hi, r ≠ 0 → k = 2 * r.val + b2n hi → exec (.softError t (.gReg c r.val hi) b) s = .next (s.setTile t.val (x.setCore c
      { x.core c with gBad := badAfter b k (x.core c).gBad, gCe := ceAfter b k (x.core c).gBad (x.core c).gCe }))) ∧
    (∀ b hi f, (x.core c).frames[i]? = some f → w < f.size → k = 2 * w + b2n hi →
      ∃ u, exec (.softError t (.hidden c i w hi) b) s = .next u ∧
      ((u.tile t.val).core c).frames[i]? = some { f with bad := badAfter b k f.bad, ce := ceAfter b k f.bad f.ce } ∧
      (u.tile t.val).prv = x.prv ∧ ∀ j, j ≠ i → ((u.tile t.val).core c).frames[j]? = (x.core c).frames[j]?) ∧
    (∀ b, k < 32 → i < 256 → exec (.softError t (.panel k i) b) s = .next (s.setTile t.val { x with mem := { x.mem with
      panelBad := badAfter b (k * 256 + i) x.mem.panelBad
      panelCe := ceAfter b (k * 256 + i) x.mem.panelBad x.mem.panelCe } })) ∧
    (∀ b, 1 ≤ k → k < 8 → w < 8 → exec (.softError t (.mask k w) b) s = .next (s.setTile t.val { x with mem := { x.mem with
      maskBad := badAfter b (8 * k + w) x.mem.maskBad, maskCe := ceAfter b (8 * k + w) x.mem.maskBad x.mem.maskCe } })) ∧
    (∀ b, i < 65536 → exec (.softError t (.acc i) b) s = .next (s.setTile t.val { x with mem := { x.mem with
      accBad := badAfter b i x.mem.accBad, accCe := ceAfter b i x.mem.accBad x.mem.accCe } })) ∧
    (∀ b, off < 0x8000 → exec (.softError t (.scale off) b) s = .next (s.setTile t.val { x with mem := { x.mem with
      scaleBad := badAfter b (off / 4 * 4) x.mem.scaleBad, scaleCe := ceAfter b (off / 4 * 4) x.mem.scaleBad x.mem.scaleCe } })) ∧
    (∀ b, i < 32768 ∨ i < 65536 ∧ (i % 16384 < 256 ∨ 8192 ≤ i % 16384 ∧ i % 16384 < 13568) → exec (.softError t (.plane i) b) s = .next (s.setTile t.val { x with mem := { x.mem with
      planeBad := badAfter b i x.mem.planeBad, planeCe := ceAfter b i x.mem.planeBad x.mem.planeCe } })) ∧
    (∀ b tok, (x.queueAt q.val).toks[i]? = some tok → ∃ u, exec (.softError t (.token q i) b) s = .next u ∧
      ((u.tile t.val).queueAt q.val).toks[i]? = some { tok with
        bad := tok.bad || !b, ce := b && !tok.bad, latent := tok.latent || (!b && !tok.bad) } ∧
      ∀ j, j ≠ i → ((u.tile t.val).queueAt q.val).toks[j]? = (x.queueAt q.val).toks[j]?) ∧
    (x.life.phase = .saving ∨ x.life.phase = .held → exec (.softError t .saveBuffer false) s = .next (s.setTile t.val { x with
      life := { x.life with saveBad := true } }) ∧
      exec (.softError t .saveBuffer true) s = .next (s.setTile t.val { x with life := { x.life with saveCe := x.life.saveCe + 1 } })) ∧
    (∀ b e o, (x.eng e).ops[i]? = some o → o.state = .queued → w < 16 → ∃ u, exec (.softError t (.record e i w) b) s = .next u ∧
      ((u.tile t.val).eng e).ops[i]? = some { o with recBad := badAfter b w o.recBad, recCe := ceAfter b w o.recBad o.recCe } ∧
      ∀ j, j ≠ i → ((u.tile t.val).eng e).ops[j]? = (x.eng e).ops[j]?) ∧
    (∀ e o rest, (x.eng e).ops = o :: rest → x.life.phase = .running → o.mayStart = true → o.stamp = none → x.opReady o = true →
      x.traceStall (3 + e.num) = false → s.hub.power.hold = false →
      s1 = (if o.recCe = [] then s else ceCounted s t.val o.recCe.length) →
      (∀ j l, o.recBad = j :: l → exec (.operationStart t e) s = .next ((s1.countUe t.val).opFault t.val e
        { o with recCe := [], atStart := true } { code := Code.uncorrectable, detail := uncDetail 3 (4 * j) })) ∧
      (∀ o1 s2, o.recBad = [] → startOp t.val { o with recCe := [] } s1 = (.ok o1, s2) → o1.kind ≠ .mchain → o1.t < o1.rcd.total →
        exec (.operationStart t e) s = .next (s2.setOp t.val e { o1 with state := .running, atStart := false }))) ∧
    (∀ (j : Instr) (gd : Reg) (rs : List Reg), registerForm j = some (gd, rs) → s.core.foundRegs rs ≠ [] →
      exec j s = exec j (gFound s rs)) ∧
    (∀ (gd : Reg) (tok : Tok) (rest : List Tok), s.curCore.num = s.me.consumerOf q.val → (s.me.queueAt q.val).toks = tok :: rest →
      tok.ce = true → tok.latent = false → exec (.qpop gd q) s = exec (.qpop gd q) (ceCounted (s.setQueue s.curTile.val q.val
        { s.me.queueAt q.val with toks := { tok with ce := false } :: rest }) s.curTile.val 1)) ∧
    (∀ (f : Fin 21) (disp : BitVec 21) (fr : Frame) (fs : List Frame), s.core.frames = fr :: fs → fr.bad = [] →
      spillCount (fr :: fs ++ [{ size := f.val, ret := 0, hidden := [], bad := [] }]) = 1 →
      s.core.depth < 65535 → s.core.sptr + (Frame.bytes fr).length ≤ s.core.spillLimit →
      s.me.retiredHit s.core.sptr (Frame.bytes fr).length = none → s.core.fenced = false →
      ∃ u, exec (.call f disp) s = .next u ∧ (fr.ce ≠ [] → u.me.prv.ce = min (s.me.prv.ce + fr.ce.length) 0xFFFFFFFF)) ∧
    (∀ masks keys a b, a = s.me.mem.maskCe.filter (fun j => masks.contains (j / 8)) → b = s.me.mem.panelCe.filter keys.contains →
      s1 = s.noteVec masks keys →
      (a = [] → b = [] → s1 = s) ∧
      (a ≠ [] ∨ b ≠ [] → s1.me.prv.ce = min (s.me.prv.ce + (a.length + b.length)) 0xFFFFFFFF ∧ s1.me.prv.ue = s.me.prv.ue ∧
        s1.me.mem = { s.me.mem with maskCe := s1.me.mem.maskCe, panelCe := s1.me.mem.panelCe } ∧
        (∀ j ∈ s1.me.mem.maskCe, j / 8 ∉ masks) ∧ ∀ j ∈ s1.me.mem.panelCe, j ∉ keys)) ∧
    (∀ row l, l = x.mem.accCe.filter (fun j => decide (j / 128 = row)) → s1 = s.noteAcc t.val row →
      (l = [] → s1 = s) ∧
      (l ≠ [] → (s1.tile t.val).prv.ce = min (x.prv.ce + l.length) 0xFFFFFFFF ∧
        (s1.tile t.val).mem = { x.mem with accCe := x.mem.accCe.filter fun j => decide (j / 128 ≠ row) })) ∧
    (x.mem.latentIn off n = [w] → x.retiredHit off n = none → s1 = s.noteRead t.val off n →
      (s1.tile t.val).mem.scratch = x.mem.scratch ∧ (s1.tile t.val).mem.scratchBad = x.mem.scratchBad ∧
      (w ∈ x.mem.scratchBad → (s1.tile t.val).prv.ue = min (x.prv.ue + 1) 0xFFFF ∧ (s1.tile t.val).prv.ce = x.prv.ce ∧
        (s1.tile t.val).prv.lastBank = w / 0x10000 ∧
        SMap.get 0 (s1.tile t.val).prv.bankErrs (w / 0x10000) = SMap.get 0 x.prv.bankErrs (w / 0x10000) + 1) ∧
      (w ∉ x.mem.scratchBad → (s1.tile t.val).prv.ce = min (x.prv.ce + 1) 0xFFFFFFFF ∧ (s1.tile t.val).prv.ue = x.prv.ue)) ∧
    (w = off / 4 * 4 → off < 0x200000 → w ∉ x.prv.scrubbed →
      (w ∈ x.mem.scratchLatent → ∃ u, exec (.scrub t off) s = .next u ∧ (u.tile t.val).mem.scratch = x.mem.scratch ∧
        (u.tile t.val).mem.scratchBad = x.mem.scratchBad ∧
        (w ∈ x.mem.scratchBad → (u.tile t.val).prv.ue = min (x.prv.ue + 1) 0xFFFF ∧
          SMap.get 0 (u.tile t.val).prv.bankErrs (w / 0x10000) = SMap.get 0 x.prv.bankErrs (w / 0x10000) + 1) ∧
        (w ∉ x.mem.scratchBad → (u.tile t.val).prv.ce = min (x.prv.ce + 1) 0xFFFFFFFF)) ∧
      (w ∉ x.mem.scratchLatent → exec (.scrub t off) s =
        .next (s.setTile t.val { x with prv := { x.prv with scrubbed := insertNat x.prv.scrubbed w } }))) ∧
    (off / 4 * 4 ∈ x.prv.scrubbed → exec (.scrub t off) s = .next s) ∧
    ((s.seiche + 1) % 2 ^ 24 = 0 → s1 = s.expireLate.writeMarks → ∃ u, exec .seicheTick s = .next u ∧
      (u.tile t.val).prv.scrubbed = [] ∧ ∀ j ∈ (u.tile t.val).mem.scratchLatent, j ∈ (s1.tile t.val).prv.scrubbed) ∧
    (x.life.phase = .free → x.life.seat = none → 3 ≤ SMap.get 0 x.prv.bankErrs bank.val → x.prv.retired.getLsbD bank.val = false →
      ∃ u, exec (.bankRetirement t bank) s = .next u ∧ (u.tile t.val).prv.retired.getLsbD bank.val = true ∧
        ∀ b : Fin 32, b ≠ bank → (u.tile t.val).prv.retired.getLsbD b.val = x.prv.retired.getLsbD b.val) ∧
    (x.moves = true → s.mayCycle t.val lv = true → ∃ u, exec (.countedCycle t lv) s = .next u ∧
      (x.perf.freeze = true → (u.tile t.val).perf = perfSettled x.perf) ∧
      (x.perf.freeze = false → ∃ p, (u.tile t.val).perf = perfSettled p ∧ p.freeze = false ∧ p.next = x.perf.next ∧
        p.cycles = x.perf.cycles + 1 ∧
        (∀ j, j ∈ [lv.l.val, 16 + lv.x.val, 32 + lv.w.val, 48 + lv.le.val, 64 + lv.me.val, 80 + lv.se.val] →
          SMap.get 0 p.leaf j = SMap.get 0 x.perf.leaf j + 1) ∧
        (∀ j, j ∉ [lv.l.val, 16 + lv.x.val, 32 + lv.w.val, 48 + lv.le.val, 64 + lv.me.val, 80 + lv.se.val] →
          SMap.get 0 p.leaf j = SMap.get 0 x.perf.leaf j)) ∧
      (∀ d, (u.tile t.val).core d =
        { x.core d with ended := false, did := if (x.core d).wait = .none then none else (x.core d).did }) ∧ (u.tile t.val).mem = x.mem) ∧
    (∀ (y : Core) (stall : Bool) (leaf j : Nat), y.ended = false → y.run = .running →
      (y.wait = .none → y.did = some j → y.mayLeaf stall leaf = (leaf == j)) ∧
      (y.wait = .none → y.did = none → y.mayLeaf true leaf = (leaf == 8)) ∧
      (y.wait = .barrierReq j false → y.mayLeaf stall leaf = (leaf == 8)) ∧
      (y.wait = .barrierReq j true → y.mayLeaf stall leaf = (leaf == 5)) ∧
      (∀ f a, y.wait = .firmware f a → y.mayLeaf stall leaf =
        (leaf == (if f.access = 2 then 3 else if y.after = .none then y.waits else 5)))) ∧
    (∀ (y z : State) (l : List Byte) (w : Nat), z = y.begins l →
      w = (if leNat (l.take 4) / 2 ^ 26 % 64 = 0x28 then leNat ((l.drop 4).take 4) else leNat (l.take 4)) →
      z.core.waits = (if w / 2 ^ 26 % 64 = 0x2B ∨ w / 2 ^ 26 % 64 = 0x35 ∨ (w / 2 ^ 26 % 64 = 0x2A ∧ w % 2048 ≤ 1) ∨
        (w / 2 ^ 26 % 64 = 0x38 ∧ w / 16 % 128 = 2) then 5
        else if w / 2 ^ 26 % 64 = 0x20 ∨ w / 2 ^ 26 % 64 = 0x26 ∨ w / 2 ^ 26 % 64 = 0x27 then 7 else 8)) ∧
    (∀ (y : Eng) (st : Op → Bool) (leaf : Nat),
      (y.ended = true → y.mayLeaf st leaf = (leaf == 0)) ∧
      (y.ended = false → y.ops = [] → y.mayLeaf st leaf = (leaf == 5)) ∧
      (∀ o rest, y.ended = false → y.ops = o :: rest → o.state ≠ .faulted →
        (o.token.isSome = true → y.mayLeaf st leaf = (leaf == 4)) ∧
        (o.token = none → o.state = .queued → y.mayLeaf st leaf = (leaf == 1)) ∧
        (o.token = none → o.state = .running → o.atStart = false → o.wait = .none → st o = true → y.mayLeaf st leaf = (leaf == 3)))) ∧
    (x.moves = false ∨ s.mayCycle t.val lv = false → exec (.countedCycle t lv) s = .next s)

/-- 19 R463, 20 R465 to R487: the security block's answers, and the debugger: stops, resumes and releases, the marks and polls
of the trace and the UNIT order of the records of one tick, and the hash tree's request and update: a request during an
update is kept, and more than one is one. In STALL mode a record for which no room is left beside those of the tick has
HEAD read again and waits where there is still none; one that fits does not wait for another unit's (20 R480, R482). The
bytes of MEAS in an answer, the least significant first, are the model's choice (log 12). The response codes and
capability bits are those of the SPDM standard (the model's source, log 32); that an MK is made with the records of its
tick, that one is not made twice and waits with the records that wait, and that nothing is made where the trace does not
run are the model's choices (log 36). -/
def Obligations.SecurityAndDebugEvents : Prop :=
  ∀ (s : State) (asym hash : W32) (slot : Byte) (off len : BitVec 16) (nonce : List Byte) (i : Fin 9) (q : Byte) (p : PartId)
    (node : VAddr) (n : Node) (h : Hit) (rest : List Hit) (mq : Fin 32) (cut : BitVec 28) (t : TileId) (v : Word),
    exec .getVersion s = .next (s.answer 0x04 [0x00, 0x13]) ∧
    exec .getCapabilities s = .next (s.answer 0x61 (leBytes 0x16 4)) ∧
    exec (.negotiateAlgorithms asym hash) s =
      .next (s.answer 0x63 (leBytes (asym.toNat &&& 0x80) 4 ++ leBytes (hash.toNat &&& 0x02) 4)) ∧
    exec .getDigests s = .next (s.answer 0x01 (1 :: sha sha384 Config.certChain)) ∧
    (slot = 0 → ∃ u, exec (.getCertificate slot off len) s = .next u ∧ u.hub.spdm.code = 0x02 ∧
      u.hub.spdm.payload.drop 4 = (Config.certChain.drop off.toNat).take len.toNat) ∧
    (slot ≠ 0 → exec (.getCertificate slot off len) s = .next (s.answer 0x7F [0x01, 0x82]) ∧
      exec (.challenge slot nonce) s = .next (s.answer 0x7F [0x01, 0x83])) ∧
    (slot = 0 → ∃ u, exec (.challenge slot nonce) s = .next u ∧ u.hub.spdm.code = 0x03 ∧
      ∃ signed, u.hub.spdm.payload = sha sha384 Config.certChain ++ signed) ∧
    (1 ≤ i.val → ∃ u, exec (.getMeasurements (BitVec.ofNat 8 i.val) nonce) s = .next u ∧ u.hub.spdm.code = 0x60 ∧
      (u.hub.spdm.payload.drop 2).take 48 = leBytes (SMap.get 0 s.hub.meas (i.val - 1)).toNat 48) ∧
    exec (.getMeasurements 0xFD nonce) s = .next (s.answer 0x7F [0x07, 0xE0]) ∧
    exec (.spdmUnsupportedRequest q) s = .next (s.answer 0x7F [0x07, q]) ∧
    (s.stopTarget p.val = some n → exec (.debugStop p mq cut) s =
      .next ((s.putNode p.val { n with markq := mq.val, cutid := cut.toNat }).stopGang p.val n.addr 4)) ∧
    (s.stopTarget p.val = none → exec (.debugStop p mq cut) s = .next s) ∧
    (s.findNode p.val node.toNat = some n → n.stopping = some 4 → n.state = .running → n.stopped = false → n.tiles ≠ [] →
      (∀ u ∈ n.tiles, (s.tile u).life.phase = .frozen ∧ (s.tile u).life.rest = some .debug) →
      exec (.debugStopComplete p node) s =
        .next ((s.putNode p.val { n with stopped := true }).addHit p.val { kind := 4, ring := 0, addr := n.addr })) ∧
    ((s.part p.val).dbg.hits = h :: rest →
      (h.kind = 4 → s.findNode p.val h.addr = some n → n.tiles = [t.val] → (s.tile t.val).life.phase = .frozen →
        (s.tile t.val).life.rest = some .debug → (s.tile t.val).life.fault = none → (s.tile t.val).life.gatedClock = false →
        ∃ u, exec (.debugResume p) s = .next u ∧ (u.tile t.val).life.phase = .running ∧ (u.part p.val).dbg.hits = rest ∧
          ∀ d, (u.coreAt t.val d) = (s.coreAt t.val d)) ∧
      (h.kind = 1 → ∃ u, exec (.debugRelease p) s = .next u ∧ (u.part p.val).dbg.hits = rest ∧
        (SMap.get {} (u.part p.val).rings h.ring).held = false ∧ (SMap.get {} (u.part p.val).rings h.ring).passed = true)) ∧
    (exec (.hashRequest p) s = .next (s.setDebug p.val { (s.part p.val).dbg with hreq := min 2 ((s.part p.val).dbg.hreq + 1) })) ∧
    ((s.part p.val).dbg.hreq ≠ 0 → ∃ u, exec (.hashUpdate p) s = .next u ∧
      (u.part p.val).dbg.hdone = ((s.part p.val).dbg.hdone + 1) % 2 ^ 64 ∧
      (u.part p.val).dbg.hreq = (s.part p.val).dbg.hreq - 1) ∧
    ((s.part p.val).dbg.hreq = 0 → exec (.hashUpdate p) s = .next s) ∧
    (s.traceRuns t.val = true →
      ((s.tile t.val).trace.lastMk + (s.part (s.tile t.val).partNo).dbg.mkint ≤ s.seiche →
        ((∀ r ∈ (s.tile t.val).trace.fresh ++ (s.tile t.val).trace.waiting, r.isMark = false) →
          exec (.traceMarker t) s = .next (s.traceMark t.val)) ∧
        ((∃ r ∈ (s.tile t.val).trace.fresh ++ (s.tile t.val).trace.waiting, r.isMark = true) → exec (.traceMarker t) s = .next s)) ∧
      (s.seiche < (s.tile t.val).trace.lastMk + (s.part (s.tile t.val).partNo).dbg.mkint → exec (.traceMarker t) s = .next s)) ∧
    (∀ r l, l.Pairwise (fun a b : TraceRec => a.unit ≤ b.unit) → (insertRec r l).Pairwise fun a b => a.unit ≤ b.unit) ∧
    (s.traceRuns t.val = false → exec (.traceMarker t) s = .next s ∧ exec (.traceHeadPoll t) s = .next s) ∧
    (s.traceRuns t.val = true → (s.tile t.val).trace.waiting ≠ [] → (s.tile t.val).trace.lastPoll + 1000 ≤ s.seiche →
      exec (.traceHeadPoll t) s = .next (s.traceReadHead t.val)) ∧
    (∀ c (x : Trace) (r : TraceRec), (s.part (s.tile t.val).partNo).dbg.trmode = true → x = (s.tile t.val).trace → x.gapped = false →
      s.traceOn t.val = true → r = { unit := c, tick := s.seiche, dws := [v] } →
      (s.traceHolds t.val r = true ↔ x.tail + ((insertRec r x.fresh).map fun y => 8 * y.dws.length).sum +
        (if x.leads s.seiche (insertRec r x.fresh) then 16 else 0) + 16 - x.head ≤ s.traceSize t.val) ∧
      (s.traceHolds t.val r = true → (∀ w ∈ x.waiting, w.unit ≠ c) →
        ((s.traceAppend t.val c [v]).tile t.val).trace = { x with fresh := insertRec r x.fresh }) ∧
      (x.waiting = [] → s.traceHolds t.val r = false → (s.traceReadHead t.val).traceHolds t.val r = false →
        ((s.traceAppend t.val c [v]).tile t.val).trace.waiting = [r] ∧
        ((s.traceAppend t.val c [v]).tile t.val).trace.lastPoll = s.seiche))

/-! ## The machine as a whole -/

/-- 08 R183, R195: a step runs the decoded instruction. Where the agenda's head is a core that may fetch, and the bytes at its
program counter, translated for a fetch by a translation its die keeps, within a page, unpoisoned and not written since
the node began (08 R197), decode to an instruction, the step is `exec` of that instruction, with the core set as the
running one, its cycle marked for the counters with the kind of instruction that it has begun (20 R475), and nothing else
changed; more generally it is so for every unit that the fetch gives whole. An event at the head is `exec` of that event;
a core that may not fetch does nothing; an empty agenda asks the free value `Config.schedule` who moves (the model's own,
log 1). -/
def Obligations.StepRunsTheDecodedInstruction : Prop :=
  ∀ (s u u1 : State) (t : TileId) (c : CoreId) (rest : List Act) (i : Instr) (more : List Byte) (a n pc : Nat) (l : List Byte),
    (s.agenda = .core t c :: rest → u = { s with agenda := rest, curTile := t, curCore := c } →
      (canFetch u t.val c = true → pc = (u.coreAt t.val c).pc.toNat →
        translate u (tileDie t.val) (u.tile t.val).partNo .own pc .fetch = (.pa a, u) → a < 0x6000000000 →
        badGranule u.memBad a 4 = none → n = 4 * unitWords (leNat (u.mem.bytes a 4)) → badGranule u.memBad a n = none →
        pc % 4096 + n ≤ 4096 → (∀ o ∈ u.oldsOf t.val, o.pa < a ∨ a + n ≤ o.pa) → decode (u.mem.bytes a n) = .ok (i, more) →
        step s = exec i (u.begins (u.mem.bytes a n))) ∧
      (canFetch u t.val c = true → fetchUnit u t.val c = (.unit l, u1) → decode l = .ok (i, more) → step s = exec i (u1.begins l)) ∧
      (canFetch u t.val c = false → step s = .next u)) ∧
    ((u.begins l).core = { u.core with did := some (unitLeaf (leNat (l.take 4))), waits := unitWaits l } ∧ (u.begins l).me.mem = u.me.mem ∧
      (∀ k, k ≠ u.curTile.val → (u.begins l).tile k = u.tile k) ∧ (u.begins l).mem = u.mem) ∧
    (s.agenda = .event i :: rest → step s = exec i { s with agenda := rest }) ∧
    (s.agenda = [] → Config.schedule s.choices = none → step s = .next { s with choices := s.choices + 1 }) ∧
    (s.agenda = [] → Config.schedule s.choices = some (.event i) → step s = exec i { s with choices := s.choices + 1 })

/-- 08 R183 to R195, 12 R284: DECODE AND ENCODE AGREE. For every well-formed instruction that has an encoding, with every
operand at every value its encoding admits, decoding its words gives it back, and decoding its bytes in memory gives it
back with the bytes that follow; and words that decode are the encoding of what they decode to, which is well-formed: no
bit of a word is dropped. -/
def Obligations.DecodeAndEncodeAgree : Prop :=
  (∀ (i : Instr) (rest : List Byte), i.wellFormed = true → encode i ≠ [] →
    decodeWords (encode i) = .ok i ∧ decode (bytesOf (encode i) ++ rest) = .ok (i, rest)) ∧
  (∀ (ws : List Nat) (i : Instr), decodeWords ws = .ok i → encode i = ws ∧ i.wellFormed = true)

/-- 08 Tables 8.4 to 8.9: words that the spec writes out decode to the instructions they stand for. -/
def Obligations.WordsOfTheSpecDecode : Prop :=
  decodeTableWord 32 0x04853004 = some (.mulhn 4 5 6) ∧ decodeTableWord 32 0x314B6340 = some (.madd 10 11 12 13) ∧
  decodeTableWord 32 0x18420003 = some (.shli 2 2 3) ∧ decodeTableWord 32 0x34640385 = some (.bext 3 4 14 5) ∧
  decodeTableWord 32 0x5064000C = some (.bltn 3 4 12) ∧ decodeTableWord 32 0x5A80FFFB = some (.loop 20 0xFFFB) ∧
  decodeTableWord 32 0x59210000 = some (.jr 9) ∧ decodeTableWord 32 0x58020000 = some .ret ∧
  decodeTableWord 32 0x80F4A00C = some (.ldt .w true 7 20 12) ∧ decodeTableWord 32 0x88060028 = some (.dset 6 0x28) ∧
  decodeTableWord 32 0xB0200000 = some (.qpush 0 1) ∧ decodeTableWord 32 0xC0040001 = some (.barset 1 4) ∧
  decodeTableWord 32 0xE4600010 = some (.ctlrd 3 0x010) ∧ decodeTableWord 32 0xE0000000 = some .exit

/-- 09 R202, 18 R429, R430, 08 R175: the frame of the instructions that compute on registers (`registerForm`) and of those
that control (`controlForm`). With a source that holds an uncorrectable error each raises UNCORRECTABLE at the first such
source, which UE counts (the numbering in DETAIL is the model's, log 24); else each completes: the program counter is 4
on, gd alone of the registers may change, g0 still reads 0, and every special register, queue and barrier, every byte of
every scratchpad, of HBM and of host memory, every other core and every other tile is as it was. A control instruction of
a core with no remote store on its way and no trace, where it raises no fault, leaves the same as it was but the register
it writes, `ctl.*` only where it is a write of one. With remote stores on their way, or a trace, it leaves so the
registers, the other cores, the engines, the queues and every byte of every scratchpad but those that the remote stores
name, which `fence` alone performs. 10 R256: no word with GB 31 is an `rndk`. -/
def Obligations.RegisterInstructionsFrame : Prop :=
  (∀ (s : State) (i : Instr) (gd : Reg) (rs : List Reg), registerForm i = some (gd, rs) →
    (∀ w, s.core.badReg rs = some w → exec i s =
      .next (((s.noteG rs).countUe s.curTile.val).fault Code.uncorrectable (regDetail w))) ∧
    (clean s rs → ∃ t, exec i s = .next t ∧ t.core.pc = s.core.pc + 4 ∧ (∀ r, r ≠ gd → t.g r = s.g r) ∧ t.g 0 = 0 ∧
      t.core = { s.core with g := t.core.g, gBad := t.core.gBad, gCe := t.core.gCe, pc := t.core.pc } ∧
      (∀ c, c ≠ s.curCore → t.me.core c = s.me.core c) ∧ (∀ e, t.me.eng e = s.me.eng e) ∧ t.me.ctl = s.me.ctl ∧
      t.me.queue = s.me.queue ∧ t.me.life = s.me.life ∧ (∀ k, k ≠ s.curTile.val → t.tile k = s.tile k) ∧
      (∀ k a, (t.tile k).mem.scratch.byte a = (s.tile k).mem.scratch.byte a) ∧ (∀ a, t.mem.byte a = s.mem.byte a) ∧
      (∀ a, t.host.byte a = s.host.byte a) ∧ t.parts = s.parts ∧ t.dies = s.dies ∧ t.hub = s.hub)) ∧
  (∀ (s t : State) (i : Instr) (gs : List Reg), controlForm i = some gs → s.traceOn s.curTile.val = false → s.core.remote = [] →
    s.me.life.phase = .running → exec i s = .next t → t.me.life.phase = .running →
    (∀ r, r ∉ gs → t.g r = s.g r) ∧ t.core.frames = s.core.frames ∧ (∀ c, c ≠ s.curCore → t.me.core c = s.me.core c) ∧
    (∀ e, t.me.eng e = s.me.eng e) ∧ t.me.queue = s.me.queue ∧ t.me.mem = s.me.mem ∧ (writesCtl i = false → t.me.ctl = s.me.ctl) ∧
    (∀ k, k ≠ s.curTile.val → t.tile k = s.tile k) ∧ t.mem = s.mem ∧ t.host = s.host ∧ t.parts = s.parts ∧ t.dies = s.dies ∧
    t.hub = s.hub) ∧
  (∀ (s t : State) (i : Instr) (gs : List Reg), controlForm i = some gs → s.me.life.phase = .running → exec i s = .next t →
    t.me.life.phase = .running →
    (∀ r, r ∉ gs → t.g r = s.g r) ∧ t.core.frames = s.core.frames ∧ (∀ c, c ≠ s.curCore → t.me.core c = s.me.core c) ∧
    (∀ e, t.me.eng e = s.me.eng e) ∧ t.me.queue = s.me.queue ∧ (writesCtl i = false → t.me.ctl = s.me.ctl) ∧ t.host = s.host ∧
    (∀ k a, (∀ sc, i = .fence sc → ∀ r ∈ s.core.remote, k ≠ r.tile ∨ a < r.off ∨ r.off + r.bytes.length ≤ a) →
      (t.tile k).mem.scratch.byte a = (s.tile k).mem.scratch.byte a) ∧
    (∀ sc, i = .fence sc → t.core.remote = []) ∧ ((∀ sc, i ≠ .fence sc) → t.core.remote = s.core.remote)) ∧
  (∀ (gd ga : Reg) (hi : Bool),
    decodeTableWord 32 (0x38 * 2 ^ 26 + gd.val * 2 ^ 21 + ga.val * 2 ^ 16 + 31 * 2 ^ 11 + 0x60 + b2n hi) = none)

/-- 09 R214 to R217, R224 to R226: the frame of the instructions that store or access scratchpads: `st` at U(a + SExt(DISP))
of its own scratchpad, `aadd` at a, and `stt` at the physical address that the translation of its element gives. The n
bytes there are those stored, but in a poisoned granule of HBM nothing is (09 R219, 18 R431); every other byte of the
scratchpad, of every other tile's and of HBM reads as before (for `stt`, as the translation left it: it may mark the
companion word of its leaf), and so does every register but the gd of `aadd`. `ldx`, `stx` and the twenty atomics on
scratchpads, where they raise no fault and the core has no remote store on its way, go on 4 bytes later with everything as
it was but gd and, for the storing ones, the n bytes that the address names. -/
def Obligations.StoringInstructionsFrame : Prop :=
  ∀ (s : State) (sz : Size) (gd ga gb : Reg) (disp : BitVec 13) (off n : Nat),
    (n = sz.bytes → off = scratchOff (s.g ga) disp → off + n ≤ 0x200000 → off % n = 0 → s.me.retiredHit off n = none →
      badWord s.me.mem.scratchBad off n = none → s.core.remote = [] → clean s [gd, ga] →
      ∃ t, exec (.st sz gd ga disp) s = .next t ∧ t.core.pc = s.core.pc + 4 ∧ (∀ r, t.g r = s.g r) ∧
        (∀ j, j < n → t.me.mem.scratch.byte (off + j) = BitVec.ofNat 8 ((s.g gd).toNat / 2 ^ (8 * j))) ∧
        (∀ a, a < off ∨ off + n ≤ a → t.me.mem.scratch.byte a = s.me.mem.scratch.byte a) ∧
        (∀ k, k ≠ s.curTile.val → t.tile k = s.tile k) ∧ (∀ a, t.mem.byte a = s.mem.byte a) ∧ t.me.ctl = s.me.ctl) ∧
    (∀ wide : Bool, n = (if wide then 8 else 4) → off = (s.g ga).toNat → off + n ≤ 0x200000 → off % n = 0 →
      s.me.readFails off n = none → s.core.remote = [] → clean s [ga, gb] →
      ∃ t, exec (.aadd wide gd ga gb) s = .next t ∧ t.core.pc = s.core.pc + 4 ∧ (∀ r, r ≠ gd → t.g r = s.g r) ∧
        (gd ≠ 0 → t.g gd = BitVec.ofNat 64 (s.me.mem.scratch.readLE off n)) ∧
        t.me.mem.scratch.readLE off n = (s.me.mem.scratch.readLE off n + (s.g gb).toNat) % 2 ^ (8 * n) ∧
        (∀ a, a < off ∨ off + n ≤ a → t.me.mem.scratch.byte a = s.me.mem.scratch.byte a) ∧
        (∀ k, k ≠ s.curTile.val → t.tile k = s.tile k) ∧ (∀ a, t.mem.byte a = s.mem.byte a) ∧ t.me.ctl = s.me.ctl) ∧
    (∀ (desc : BitVec 12) (d : Layout) (va pa : Nat) (s1 s2 : State), n = sz.bytes → TensorAt s desc.toNat ga n d va s1 →
      d.space = 0 → s.core.remote = [] → clean s [gd] →
      nodeTranslate (s1.beforeWrite s.core.memdef) s1.myDie s1.myPart va .write = (.ok (some pa), s2) →
      ∃ t, exec (.stt sz gd ga desc) s = .next t ∧ (∀ r, t.g r = s2.g r) ∧
        (badGranule s2.memBad pa n = none → ∀ j, j < n → t.mem.byte (pa + j) = BitVec.ofNat 8 ((s1.g gd).toNat / 2 ^ (8 * j))) ∧
        (pa / 32 * 32 ∈ s2.memBad → pa % n = 0 → ∀ a, t.mem.byte a = s2.mem.byte a) ∧
        (∀ a, a < pa ∨ pa + n ≤ a → t.mem.byte a = s2.mem.byte a) ∧
        (∀ k a, (t.tile k).mem.scratch.byte a = (s2.tile k).mem.scratch.byte a)) ∧
    (∀ (i : Instr) (remote wide : Bool) (u : State), scratchAtom i = some (remote, wide, gd, ga) → s.core.remote = [] →
      s.me.life.phase = .running → exec i s = .next u → u.me.life.phase = .running →
      u.core.pc = s.core.pc + 4 ∧ accessFrame s u [gd] (if remote then (s.g ga).toNat / 2 ^ 21 else s.curTile.val)
        (if remote then (s.g ga).toNat % 2 ^ 21 else (s.g ga).toNat) (if wide then 8 else 4)) ∧
    (∀ (sx : Bool) (ra : Nat) (u : State), ra = (BitVec.ofInt 64 ((s.g ga).toInt + disp.toInt)).toNat → s.core.remote = [] →
      s.me.life.phase = .running → u.me.life.phase = .running →
      (exec (.ldx sz sx gd ga disp) s = .next u → u.core.pc = s.core.pc + 4 ∧ accessFrame s u [gd] 0 0 0) ∧
      (exec (.stx sz gd ga disp) s = .next u →
        u.core.pc = s.core.pc + 4 ∧ accessFrame s u [] s.curTile.val (ra % 2 ^ 21) sz.bytes))

/-- Bytes keep one form (the model's canonical form of its byte stores): for every state whose HBM, host memory and management
region, the memory of whose peers, and whose scratchpads, scale memories and plane scales and metadata, those of saved
gangs among them, are listed in it, a step that goes on leaves them so: addresses strictly rising and no entry equal to
what an unlisted address reads as. -/
def Obligations.MemoryStaysCanonical : Prop :=
  ∀ s t : State, canonical s = true → step s = .next t → canonical t = true

/-- 01 R24, 02 Tables 2.1 to 2.5, 03 Tables 3.7 and 3.8, 04 Table 4.3, 17 Table 17.4, 18 Tables 18.1 and 18.6, 19 Tables 19.2
to 19.8, 19.11, 20 Table 20.1: what reset leaves: canonical memory that reads zero, and the registers at the values that
the tables give. -/
def Obligations.ResetState : Prop :=
  canonical State.reset = true ∧ (∀ a, State.reset.mem.byte a = 0) ∧ State.reset.seiche = 0 ∧
  (∀ t, (State.reset.tile t).life.phase = .free ∧ (State.reset.tile t).ctl.round = 0 ∧ (State.reset.tile t).ctl.srkey = 0 ∧
    (State.reset.tile t).ctl.profile = 1 ∧ (State.reset.tile t).prv.pdead = 100000 ∧ (State.reset.tile t).prv.savelim = 1000000 ∧
    (State.reset.tile t).prv.fabto = 500000 ∧ (State.reset.tile t).prv.retired = 0 ∧
    ∀ c r, ((State.reset.tile t).core c).read r = 0) ∧
  (∀ p, (State.reset.part p).state = .absent ∧ (State.reset.part p).clusters = 0 ∧ (State.reset.part p).sched.agecap = 24 ∧
    (State.reset.part p).sched.ageint = 1000000 ∧ (State.reset.part p).sched.bflim = 2000000 ∧ (State.reset.part p).sched.dev = 4 ∧
    (State.reset.part p).sched.gatedly = 50000 ∧ (State.reset.part p).dbg.mkint = 100000 ∧ (State.reset.part p).dbg.tren = false ∧
    ∀ r, (SMap.get {} (State.reset.part p).rings r).state = .idle) ∧
  State.reset.hub.stage = 0 ∧ State.reset.hub.err = 0 ∧ State.reset.hub.lock = false ∧ State.reset.hub.power.hostlim = 3200 ∧
  State.reset.hub.power.fwlim = 3200 ∧ State.reset.hub.power.fclk = 2500 ∧ ∀ i, SMap.get 0 State.reset.hub.meas i = 0
end

