-- ==== Sys2Proof/Laws/Store.lean ====
section
/-! SUPPORT. Sparse stores and byte stores: what a read gives after a write, and that every operation keeps the canonical
form. -/
namespace Sys2Proof.Machine

/-! ## Reads after writes -/

@[simp] theorem SMap.get_put_same {α : Type} (d : α) (m : SMap α) (k : Nat) (v : α) : SMap.get d (SMap.put m k v) k = v := by
  induction m with
  | nil => simp [SMap.put, SMap.get]
  | cons p m ih =>
    obtain ⟨a, w⟩ := p
    simp only [SMap.put]
    split
    · simp [SMap.get]
    · split
      · simp [SMap.get]
      · rename_i h2; simp [SMap.get, h2, ih]

@[simp] theorem SMap.get_put_other {α : Type} (d : α) (m : SMap α) {k j : Nat} (v : α) (h : j ≠ k) :
    SMap.get d (SMap.put m k v) j = SMap.get d m j := by
  induction m with
  | nil => simp [SMap.put, SMap.get, h]
  | cons p m ih =>
    obtain ⟨a, w⟩ := p
    simp only [SMap.put]
    split
    · simp [SMap.get, h]
    · split
      · rename_i h2; subst h2; simp [SMap.get, h]
      · simp [SMap.get, ih]

@[simp] theorem SMap.get_erase_same {α : Type} (d : α) (m : SMap α) (k : Nat) : SMap.get d (SMap.erase m k) k = d := by
  induction m with
  | nil => rfl
  | cons p m ih =>
    simp only [SMap.erase]
    split
    · exact ih
    · rename_i h; simp [SMap.get, h, ih]

@[simp] theorem SMap.get_erase_other {α : Type} (d : α) (m : SMap α) {k j : Nat} (h : j ≠ k) :
    SMap.get d (SMap.erase m k) j = SMap.get d m j := by
  induction m with
  | nil => rfl
  | cons p m ih =>
    obtain ⟨a, w⟩ := p
    simp only [SMap.erase]
    split
    · rename_i h2; subst h2; simp [SMap.get, h, ih]
    · simp [SMap.get, ih]

@[simp] theorem SMap.get_set_same {α : Type} [DecidableEq α] (d : α) (m : SMap α) (k : Nat) (v : α) :
    SMap.get d (SMap.set d m k v) k = v := by
  simp only [SMap.set]
  split
  · rename_i h; simp [h]
  · simp

@[simp] theorem SMap.get_set_other {α : Type} [DecidableEq α] (d : α) (m : SMap α) {k j : Nat} (v : α) (h : j ≠ k) :
    SMap.get d (SMap.set d m k v) j = SMap.get d m j := by
  simp only [SMap.set]
  split <;> simp [h]

/-! ## The canonical form -/

theorem SMap.wfFrom_mono {α : Type} [DecidableEq α] {d : α} {lo lo' : Nat} {m : SMap α} (h : lo' ≤ lo)
    (hm : SMap.wfFrom d lo m = true) : SMap.wfFrom d lo' m = true := by
  cases m with
  | nil => rfl
  | cons p m =>
    simp only [SMap.wfFrom, Bool.and_eq_true, decide_eq_true_eq] at *
    exact ⟨⟨by omega, hm.1.2⟩, hm.2⟩

theorem SMap.wfFrom_put {α : Type} [DecidableEq α] {d : α} {m : SMap α} {lo k : Nat} {v : α} (hv : v ≠ d) (hk : lo ≤ k)
    (hm : SMap.wfFrom d lo m = true) : SMap.wfFrom d lo (SMap.put m k v) = true := by
  induction m generalizing lo with
  | nil => simp [SMap.put, SMap.wfFrom, hk, hv]
  | cons p m ih =>
    obtain ⟨a, w⟩ := p
    simp only [SMap.wfFrom, Bool.and_eq_true, decide_eq_true_eq] at hm
    simp only [SMap.put]
    split
    · simp only [SMap.wfFrom, Bool.and_eq_true, decide_eq_true_eq]
      exact ⟨⟨hk, hv⟩, ⟨by omega, hm.1.2⟩, hm.2⟩
    · split
      · rename_i h2; subst h2
        simp only [SMap.wfFrom, Bool.and_eq_true, decide_eq_true_eq]
        exact ⟨⟨hk, hv⟩, hm.2⟩
      · simp only [SMap.wfFrom, Bool.and_eq_true, decide_eq_true_eq]
        exact ⟨hm.1, ih (by omega) hm.2⟩

theorem SMap.wfFrom_erase {α : Type} [DecidableEq α] {d : α} {m : SMap α} {lo k : Nat}
    (hm : SMap.wfFrom d lo m = true) : SMap.wfFrom d lo (SMap.erase m k) = true := by
  induction m generalizing lo with
  | nil => rfl
  | cons p m ih =>
    obtain ⟨a, w⟩ := p
    simp only [SMap.wfFrom, Bool.and_eq_true, decide_eq_true_eq] at hm
    simp only [SMap.erase]
    split
    · exact ih (SMap.wfFrom_mono (by omega) hm.2)
    · simp only [SMap.wfFrom, Bool.and_eq_true, decide_eq_true_eq]
      exact ⟨hm.1, ih hm.2⟩

theorem SMap.wf_put {α : Type} [DecidableEq α] {d : α} {m : SMap α} {k : Nat} {v : α} (hv : v ≠ d)
    (hm : SMap.wf d m = true) : SMap.wf d (SMap.put m k v) = true := SMap.wfFrom_put hv (Nat.zero_le _) hm

theorem SMap.wf_erase {α : Type} [DecidableEq α] {d : α} {m : SMap α} {k : Nat}
    (hm : SMap.wf d m = true) : SMap.wf d (SMap.erase m k) = true := SMap.wfFrom_erase hm

theorem SMap.wf_set {α : Type} [DecidableEq α] {d : α} {m : SMap α} {k : Nat} {v : α}
    (hm : SMap.wf d m = true) : SMap.wf d (SMap.set d m k v) = true := by
  simp only [SMap.set]
  split
  · exact SMap.wf_erase hm
  · rename_i h; exact SMap.wf_put h hm

theorem SMap.wfFrom_filter {α : Type} [DecidableEq α] {d : α} {m : SMap α} {lo : Nat} (f : Nat × α → Bool)
    (hm : SMap.wfFrom d lo m = true) : SMap.wfFrom d lo (m.filter f) = true := by
  induction m generalizing lo with
  | nil => rfl
  | cons p m ih =>
    obtain ⟨a, w⟩ := p
    simp only [SMap.wfFrom, Bool.and_eq_true, decide_eq_true_eq] at hm
    simp only [List.filter]
    split
    · simp only [SMap.wfFrom, Bool.and_eq_true, decide_eq_true_eq]
      exact ⟨hm.1, ih hm.2⟩
    · exact SMap.wfFrom_mono (by omega) (ih hm.2)

/-! ## Byte stores -/

@[simp] theorem Memory.byte_setByte_same (m : Memory) (a : Nat) (v : Byte) : (m.setByte a v).byte a = v := by
  simp [Memory.byte, Memory.setByte]

@[simp] theorem Memory.byte_setByte_other (m : Memory) {a b : Nat} (v : Byte) (h : b ≠ a) :
    (m.setByte a v).byte b = m.byte b := by
  simp [Memory.byte, Memory.setByte, h]

theorem Memory.byte_setBytes (m : Memory) (a b : Nat) (l : List Byte) :
    (m.setBytes a l).byte b = if a ≤ b ∧ b < a + l.length then l.getD (b - a) 0 else m.byte b := by
  induction l generalizing m a with
  | nil => simp [Memory.setBytes]
  | cons v l ih =>
    simp only [Memory.setBytes, ih, List.length_cons]
    by_cases hb : b = a
    · subst hb; simp
    · by_cases h : a + 1 ≤ b ∧ b < a + 1 + l.length
      · rw [if_pos h, if_pos (by omega), show b - a = b - (a + 1) + 1 by omega]; simp
      · rw [if_neg h, if_neg (by omega), Memory.byte_setByte_other _ _ hb]

@[simp] theorem Memory.length_bytes (m : Memory) (a n : Nat) : (m.bytes a n).length = n := by
  induction n generalizing a with
  | zero => rfl
  | succ n ih => simp [Memory.bytes, ih]

theorem Memory.bytes_getD (m : Memory) (a n i : Nat) (h : i < n) : (m.bytes a n).getD i 0 = m.byte (a + i) := by
  induction n generalizing a i with
  | zero => omega
  | succ n ih =>
    cases i with
    | zero => simp [Memory.bytes]
    | succ i => simp only [Memory.bytes, List.getD_cons_succ]; rw [ih (a + 1) i (by omega)]; congr 1; omega

theorem Memory.bytes_congr {m m' : Memory} {a n : Nat} (h : ∀ b, a ≤ b → b < a + n → m'.byte b = m.byte b) :
    m'.bytes a n = m.bytes a n := by
  induction n generalizing a with
  | zero => rfl
  | succ n ih =>
    simp only [Memory.bytes]
    rw [h a (by omega) (by omega), ih fun b h1 h2 => h b (by omega) (by omega)]

/-- Bytes read back where they were written. -/
theorem Memory.bytes_setBytes_same (m : Memory) (a : Nat) (l : List Byte) : (m.setBytes a l).bytes a l.length = l := by
  induction l generalizing m a with
  | nil => rfl
  | cons v l ih =>
    simp only [Memory.setBytes, List.length_cons, Memory.bytes, ih]
    rw [Memory.byte_setBytes, if_neg (by omega)]; simp

@[simp] theorem length_leBytes (v n : Nat) : (leBytes v n).length = n := by
  induction n generalizing v with
  | zero => rfl
  | succ n ih => simp [leBytes, ih]

theorem leNat_lt (l : List Byte) : leNat l < 256 ^ l.length := by
  induction l with
  | nil => simp [leNat]
  | cons b l ih =>
    have hb := b.isLt
    simp only [leNat, List.length_cons, Nat.pow_succ]
    omega

/-- The little-endian bytes of a number give it back, modulo their width. -/
theorem leNat_leBytes (v n : Nat) : leNat (leBytes v n) = v % 256 ^ n := by
  induction n generalizing v with
  | zero => simp [leNat, leBytes, Nat.mod_one]
  | succ n ih =>
    simp only [leBytes, leNat, ih, BitVec.toNat_ofNat]
    have h := Nat.mod_mul (a := 256) (b := 256 ^ n) (x := v)
    rw [show 256 ^ (n + 1) = 256 * 256 ^ n by rw [Nat.pow_succ, Nat.mul_comm], h]

theorem leBytes_leNat (l : List Byte) : leBytes (leNat l) l.length = l := by
  induction l with
  | nil => rfl
  | cons b l ih =>
    have hb := b.isLt
    simp only [leNat, List.length_cons, leBytes]
    rw [show (b.toNat + 256 * leNat l) / 256 = leNat l by omega, ih]
    congr 1
    apply BitVec.eq_of_toNat_eq
    simp only [BitVec.toNat_ofNat]; omega

/-- A value written reads back, modulo its width. -/
theorem Memory.readLE_writeLE_same (m : Memory) (a n v : Nat) : (m.writeLE a n v).readLE a n = v % 256 ^ n := by
  have h := Memory.bytes_setBytes_same m a (leBytes v n)
  rw [length_leBytes] at h
  rw [Memory.readLE, Memory.writeLE, h, leNat_leBytes]

/-- A write leaves the bytes outside it alone. -/
theorem Memory.byte_writeLE_other (m : Memory) {a n v b : Nat} (h : b < a ∨ a + n ≤ b) :
    (m.writeLE a n v).byte b = m.byte b := by
  rw [Memory.writeLE, Memory.byte_setBytes, if_neg]; rw [length_leBytes]; omega

theorem Memory.wf_setByte {m : Memory} {a : Nat} {v : Byte} (h : m.wf = true) : (m.setByte a v).wf = true := SMap.wf_set h

theorem Memory.wf_setBytes {m : Memory} {a : Nat} {l : List Byte} (h : m.wf = true) : (m.setBytes a l).wf = true := by
  induction l generalizing m a with
  | nil => exact h
  | cons v l ih => exact ih (Memory.wf_setByte h)

theorem Memory.wf_writeLE {m : Memory} {a n v : Nat} (h : m.wf = true) : (m.writeLE a n v).wf = true := Memory.wf_setBytes h

theorem Memory.wf_zero {m : Memory} {a n : Nat} (h : m.wf = true) : (m.zero a n).wf = true := SMap.wfFrom_filter _ h

end Sys2Proof.Machine
end

