-- ==== Sys2Proof/Laws/State.lean ====
section
/-! SUPPORT. One lemma per field of the state per update, so that no later proof unfolds a record update. -/
namespace Sys2Proof.Machine

/-! ## The fields that an update of a unit leaves alone -/

@[simp] theorem State.setTile_agenda (s : State) (t : Nat) (x : Tile) : (s.setTile t x).agenda = s.agenda := rfl
@[simp] theorem State.setTile_choices (s : State) (t : Nat) (x : Tile) : (s.setTile t x).choices = s.choices := rfl
@[simp] theorem State.setTile_curTile (s : State) (t : Nat) (x : Tile) : (s.setTile t x).curTile = s.curTile := rfl
@[simp] theorem State.setTile_curCore (s : State) (t : Nat) (x : Tile) : (s.setTile t x).curCore = s.curCore := rfl
@[simp] theorem State.setTile_seiche (s : State) (t : Nat) (x : Tile) : (s.setTile t x).seiche = s.seiche := rfl
@[simp] theorem State.setTile_mem (s : State) (t : Nat) (x : Tile) : (s.setTile t x).mem = s.mem := rfl
@[simp] theorem State.setTile_memBad (s : State) (t : Nat) (x : Tile) : (s.setTile t x).memBad = s.memBad := rfl
@[simp] theorem State.setTile_dies (s : State) (t : Nat) (x : Tile) : (s.setTile t x).dies = s.dies := rfl
@[simp] theorem State.setTile_parts (s : State) (t : Nat) (x : Tile) : (s.setTile t x).parts = s.parts := rfl
@[simp] theorem State.setTile_hub (s : State) (t : Nat) (x : Tile) : (s.setTile t x).hub = s.hub := rfl
@[simp] theorem State.setTile_host (s : State) (t : Nat) (x : Tile) : (s.setTile t x).host = s.host := rfl
@[simp] theorem State.setTile_peers (s : State) (t : Nat) (x : Tile) : (s.setTile t x).peers = s.peers := rfl
@[simp] theorem State.setTile_posted (s : State) (t : Nat) (x : Tile) : (s.setTile t x).posted = s.posted := rfl
@[simp] theorem State.setTile_dsets (s : State) (t : Nat) (x : Tile) : (s.setTile t x).dsets = s.dsets := rfl
@[simp] theorem State.setTile_olds (s : State) (t : Nat) (x : Tile) : (s.setTile t x).olds = s.olds := rfl

@[simp] theorem State.setMe_agenda (s : State) (x : Tile) : (s.setMe x).agenda = s.agenda := rfl
@[simp] theorem State.setMe_choices (s : State) (x : Tile) : (s.setMe x).choices = s.choices := rfl
@[simp] theorem State.setMe_curTile (s : State) (x : Tile) : (s.setMe x).curTile = s.curTile := rfl
@[simp] theorem State.setMe_curCore (s : State) (x : Tile) : (s.setMe x).curCore = s.curCore := rfl
@[simp] theorem State.setMe_seiche (s : State) (x : Tile) : (s.setMe x).seiche = s.seiche := rfl
@[simp] theorem State.setMe_mem (s : State) (x : Tile) : (s.setMe x).mem = s.mem := rfl
@[simp] theorem State.setMe_memBad (s : State) (x : Tile) : (s.setMe x).memBad = s.memBad := rfl
@[simp] theorem State.setMe_dies (s : State) (x : Tile) : (s.setMe x).dies = s.dies := rfl
@[simp] theorem State.setMe_parts (s : State) (x : Tile) : (s.setMe x).parts = s.parts := rfl
@[simp] theorem State.setMe_hub (s : State) (x : Tile) : (s.setMe x).hub = s.hub := rfl
@[simp] theorem State.setMe_host (s : State) (x : Tile) : (s.setMe x).host = s.host := rfl
@[simp] theorem State.setMe_peers (s : State) (x : Tile) : (s.setMe x).peers = s.peers := rfl
@[simp] theorem State.setMe_posted (s : State) (x : Tile) : (s.setMe x).posted = s.posted := rfl
@[simp] theorem State.setMe_dsets (s : State) (x : Tile) : (s.setMe x).dsets = s.dsets := rfl
@[simp] theorem State.setMe_olds (s : State) (x : Tile) : (s.setMe x).olds = s.olds := rfl

@[simp] theorem State.setCore_agenda (s : State) (k : Core) : (s.setCore k).agenda = s.agenda := rfl
@[simp] theorem State.setCore_choices (s : State) (k : Core) : (s.setCore k).choices = s.choices := rfl
@[simp] theorem State.setCore_curTile (s : State) (k : Core) : (s.setCore k).curTile = s.curTile := rfl
@[simp] theorem State.setCore_curCore (s : State) (k : Core) : (s.setCore k).curCore = s.curCore := rfl
@[simp] theorem State.setCore_seiche (s : State) (k : Core) : (s.setCore k).seiche = s.seiche := rfl
@[simp] theorem State.setCore_mem (s : State) (k : Core) : (s.setCore k).mem = s.mem := rfl
@[simp] theorem State.setCore_memBad (s : State) (k : Core) : (s.setCore k).memBad = s.memBad := rfl
@[simp] theorem State.setCore_dies (s : State) (k : Core) : (s.setCore k).dies = s.dies := rfl
@[simp] theorem State.setCore_parts (s : State) (k : Core) : (s.setCore k).parts = s.parts := rfl
@[simp] theorem State.setCore_hub (s : State) (k : Core) : (s.setCore k).hub = s.hub := rfl
@[simp] theorem State.setCore_host (s : State) (k : Core) : (s.setCore k).host = s.host := rfl
@[simp] theorem State.setCore_peers (s : State) (k : Core) : (s.setCore k).peers = s.peers := rfl
@[simp] theorem State.setCore_posted (s : State) (k : Core) : (s.setCore k).posted = s.posted := rfl
@[simp] theorem State.setCore_dsets (s : State) (k : Core) : (s.setCore k).dsets = s.dsets := rfl
@[simp] theorem State.setCore_olds (s : State) (k : Core) : (s.setCore k).olds = s.olds := rfl

@[simp] theorem State.setCoreAt_agenda (s : State) (t : Nat) (c : CoreId) (k : Core) : (s.setCoreAt t c k).agenda = s.agenda := rfl
@[simp] theorem State.setCoreAt_choices (s : State) (t : Nat) (c : CoreId) (k : Core) : (s.setCoreAt t c k).choices = s.choices := rfl
@[simp] theorem State.setCoreAt_curTile (s : State) (t : Nat) (c : CoreId) (k : Core) : (s.setCoreAt t c k).curTile = s.curTile := rfl
@[simp] theorem State.setCoreAt_curCore (s : State) (t : Nat) (c : CoreId) (k : Core) : (s.setCoreAt t c k).curCore = s.curCore := rfl
@[simp] theorem State.setCoreAt_seiche (s : State) (t : Nat) (c : CoreId) (k : Core) : (s.setCoreAt t c k).seiche = s.seiche := rfl
@[simp] theorem State.setCoreAt_mem (s : State) (t : Nat) (c : CoreId) (k : Core) : (s.setCoreAt t c k).mem = s.mem := rfl
@[simp] theorem State.setCoreAt_memBad (s : State) (t : Nat) (c : CoreId) (k : Core) : (s.setCoreAt t c k).memBad = s.memBad := rfl
@[simp] theorem State.setCoreAt_dies (s : State) (t : Nat) (c : CoreId) (k : Core) : (s.setCoreAt t c k).dies = s.dies := rfl
@[simp] theorem State.setCoreAt_parts (s : State) (t : Nat) (c : CoreId) (k : Core) : (s.setCoreAt t c k).parts = s.parts := rfl
@[simp] theorem State.setCoreAt_hub (s : State) (t : Nat) (c : CoreId) (k : Core) : (s.setCoreAt t c k).hub = s.hub := rfl
@[simp] theorem State.setCoreAt_host (s : State) (t : Nat) (c : CoreId) (k : Core) : (s.setCoreAt t c k).host = s.host := rfl
@[simp] theorem State.setCoreAt_peers (s : State) (t : Nat) (c : CoreId) (k : Core) : (s.setCoreAt t c k).peers = s.peers := rfl
@[simp] theorem State.setCoreAt_posted (s : State) (t : Nat) (c : CoreId) (k : Core) : (s.setCoreAt t c k).posted = s.posted := rfl
@[simp] theorem State.setCoreAt_dsets (s : State) (t : Nat) (c : CoreId) (k : Core) : (s.setCoreAt t c k).dsets = s.dsets := rfl
@[simp] theorem State.setCoreAt_olds (s : State) (t : Nat) (c : CoreId) (k : Core) : (s.setCoreAt t c k).olds = s.olds := rfl

@[simp] theorem State.setEngAt_agenda (s : State) (t : Nat) (e : Engine) (k : Eng) : (s.setEngAt t e k).agenda = s.agenda := rfl
@[simp] theorem State.setEngAt_choices (s : State) (t : Nat) (e : Engine) (k : Eng) : (s.setEngAt t e k).choices = s.choices := rfl
@[simp] theorem State.setEngAt_curTile (s : State) (t : Nat) (e : Engine) (k : Eng) : (s.setEngAt t e k).curTile = s.curTile := rfl
@[simp] theorem State.setEngAt_curCore (s : State) (t : Nat) (e : Engine) (k : Eng) : (s.setEngAt t e k).curCore = s.curCore := rfl
@[simp] theorem State.setEngAt_seiche (s : State) (t : Nat) (e : Engine) (k : Eng) : (s.setEngAt t e k).seiche = s.seiche := rfl
@[simp] theorem State.setEngAt_mem (s : State) (t : Nat) (e : Engine) (k : Eng) : (s.setEngAt t e k).mem = s.mem := rfl
@[simp] theorem State.setEngAt_memBad (s : State) (t : Nat) (e : Engine) (k : Eng) : (s.setEngAt t e k).memBad = s.memBad := rfl
@[simp] theorem State.setEngAt_dies (s : State) (t : Nat) (e : Engine) (k : Eng) : (s.setEngAt t e k).dies = s.dies := rfl
@[simp] theorem State.setEngAt_parts (s : State) (t : Nat) (e : Engine) (k : Eng) : (s.setEngAt t e k).parts = s.parts := rfl
@[simp] theorem State.setEngAt_hub (s : State) (t : Nat) (e : Engine) (k : Eng) : (s.setEngAt t e k).hub = s.hub := rfl
@[simp] theorem State.setEngAt_host (s : State) (t : Nat) (e : Engine) (k : Eng) : (s.setEngAt t e k).host = s.host := rfl
@[simp] theorem State.setEngAt_peers (s : State) (t : Nat) (e : Engine) (k : Eng) : (s.setEngAt t e k).peers = s.peers := rfl
@[simp] theorem State.setEngAt_posted (s : State) (t : Nat) (e : Engine) (k : Eng) : (s.setEngAt t e k).posted = s.posted := rfl
@[simp] theorem State.setEngAt_dsets (s : State) (t : Nat) (e : Engine) (k : Eng) : (s.setEngAt t e k).dsets = s.dsets := rfl
@[simp] theorem State.setEngAt_olds (s : State) (t : Nat) (e : Engine) (k : Eng) : (s.setEngAt t e k).olds = s.olds := rfl

@[simp] theorem State.setDie_agenda (s : State) (d : Nat) (x : Die) : (s.setDie d x).agenda = s.agenda := rfl
@[simp] theorem State.setDie_choices (s : State) (d : Nat) (x : Die) : (s.setDie d x).choices = s.choices := rfl
@[simp] theorem State.setDie_curTile (s : State) (d : Nat) (x : Die) : (s.setDie d x).curTile = s.curTile := rfl
@[simp] theorem State.setDie_curCore (s : State) (d : Nat) (x : Die) : (s.setDie d x).curCore = s.curCore := rfl
@[simp] theorem State.setDie_seiche (s : State) (d : Nat) (x : Die) : (s.setDie d x).seiche = s.seiche := rfl
@[simp] theorem State.setDie_mem (s : State) (d : Nat) (x : Die) : (s.setDie d x).mem = s.mem := rfl
@[simp] theorem State.setDie_memBad (s : State) (d : Nat) (x : Die) : (s.setDie d x).memBad = s.memBad := rfl
@[simp] theorem State.setDie_tiles (s : State) (d : Nat) (x : Die) : (s.setDie d x).tiles = s.tiles := rfl
@[simp] theorem State.setDie_parts (s : State) (d : Nat) (x : Die) : (s.setDie d x).parts = s.parts := rfl
@[simp] theorem State.setDie_hub (s : State) (d : Nat) (x : Die) : (s.setDie d x).hub = s.hub := rfl
@[simp] theorem State.setDie_host (s : State) (d : Nat) (x : Die) : (s.setDie d x).host = s.host := rfl
@[simp] theorem State.setDie_peers (s : State) (d : Nat) (x : Die) : (s.setDie d x).peers = s.peers := rfl
@[simp] theorem State.setDie_posted (s : State) (d : Nat) (x : Die) : (s.setDie d x).posted = s.posted := rfl
@[simp] theorem State.setDie_dsets (s : State) (d : Nat) (x : Die) : (s.setDie d x).dsets = s.dsets := rfl
@[simp] theorem State.setDie_olds (s : State) (d : Nat) (x : Die) : (s.setDie d x).olds = s.olds := rfl

@[simp] theorem State.setPart_agenda (s : State) (p : Nat) (x : Part) : (s.setPart p x).agenda = s.agenda := rfl
@[simp] theorem State.setPart_choices (s : State) (p : Nat) (x : Part) : (s.setPart p x).choices = s.choices := rfl
@[simp] theorem State.setPart_curTile (s : State) (p : Nat) (x : Part) : (s.setPart p x).curTile = s.curTile := rfl
@[simp] theorem State.setPart_curCore (s : State) (p : Nat) (x : Part) : (s.setPart p x).curCore = s.curCore := rfl
@[simp] theorem State.setPart_seiche (s : State) (p : Nat) (x : Part) : (s.setPart p x).seiche = s.seiche := rfl
@[simp] theorem State.setPart_mem (s : State) (p : Nat) (x : Part) : (s.setPart p x).mem = s.mem := rfl
@[simp] theorem State.setPart_memBad (s : State) (p : Nat) (x : Part) : (s.setPart p x).memBad = s.memBad := rfl
@[simp] theorem State.setPart_tiles (s : State) (p : Nat) (x : Part) : (s.setPart p x).tiles = s.tiles := rfl
@[simp] theorem State.setPart_dies (s : State) (p : Nat) (x : Part) : (s.setPart p x).dies = s.dies := rfl
@[simp] theorem State.setPart_hub (s : State) (p : Nat) (x : Part) : (s.setPart p x).hub = s.hub := rfl
@[simp] theorem State.setPart_host (s : State) (p : Nat) (x : Part) : (s.setPart p x).host = s.host := rfl
@[simp] theorem State.setPart_peers (s : State) (p : Nat) (x : Part) : (s.setPart p x).peers = s.peers := rfl
@[simp] theorem State.setPart_posted (s : State) (p : Nat) (x : Part) : (s.setPart p x).posted = s.posted := rfl
@[simp] theorem State.setPart_dsets (s : State) (p : Nat) (x : Part) : (s.setPart p x).dsets = s.dsets := rfl
@[simp] theorem State.setPart_olds (s : State) (p : Nat) (x : Part) : (s.setPart p x).olds = s.olds := rfl

@[simp] theorem State.draw_agenda (s : State) : (s.draw).agenda = s.agenda := rfl
@[simp] theorem State.draw_curTile (s : State) : (s.draw).curTile = s.curTile := rfl
@[simp] theorem State.draw_curCore (s : State) : (s.draw).curCore = s.curCore := rfl
@[simp] theorem State.draw_seiche (s : State) : (s.draw).seiche = s.seiche := rfl
@[simp] theorem State.draw_mem (s : State) : (s.draw).mem = s.mem := rfl
@[simp] theorem State.draw_memBad (s : State) : (s.draw).memBad = s.memBad := rfl
@[simp] theorem State.draw_tiles (s : State) : (s.draw).tiles = s.tiles := rfl
@[simp] theorem State.draw_dies (s : State) : (s.draw).dies = s.dies := rfl
@[simp] theorem State.draw_parts (s : State) : (s.draw).parts = s.parts := rfl
@[simp] theorem State.draw_hub (s : State) : (s.draw).hub = s.hub := rfl
@[simp] theorem State.draw_host (s : State) : (s.draw).host = s.host := rfl
@[simp] theorem State.draw_peers (s : State) : (s.draw).peers = s.peers := rfl
@[simp] theorem State.draw_posted (s : State) : (s.draw).posted = s.posted := rfl
@[simp] theorem State.draw_dsets (s : State) : (s.draw).dsets = s.dsets := rfl
@[simp] theorem State.draw_olds (s : State) : (s.draw).olds = s.olds := rfl

@[simp] theorem State.setG_agenda (s : State) (r : Reg) (v : Word) : (s.setG r v).agenda = s.agenda := rfl
@[simp] theorem State.setG_choices (s : State) (r : Reg) (v : Word) : (s.setG r v).choices = s.choices := rfl
@[simp] theorem State.setG_curTile (s : State) (r : Reg) (v : Word) : (s.setG r v).curTile = s.curTile := rfl
@[simp] theorem State.setG_curCore (s : State) (r : Reg) (v : Word) : (s.setG r v).curCore = s.curCore := rfl
@[simp] theorem State.setG_seiche (s : State) (r : Reg) (v : Word) : (s.setG r v).seiche = s.seiche := rfl
@[simp] theorem State.setG_mem (s : State) (r : Reg) (v : Word) : (s.setG r v).mem = s.mem := rfl
@[simp] theorem State.setG_memBad (s : State) (r : Reg) (v : Word) : (s.setG r v).memBad = s.memBad := rfl
@[simp] theorem State.setG_dies (s : State) (r : Reg) (v : Word) : (s.setG r v).dies = s.dies := rfl
@[simp] theorem State.setG_parts (s : State) (r : Reg) (v : Word) : (s.setG r v).parts = s.parts := rfl
@[simp] theorem State.setG_hub (s : State) (r : Reg) (v : Word) : (s.setG r v).hub = s.hub := rfl
@[simp] theorem State.setG_host (s : State) (r : Reg) (v : Word) : (s.setG r v).host = s.host := rfl
@[simp] theorem State.setG_peers (s : State) (r : Reg) (v : Word) : (s.setG r v).peers = s.peers := rfl
@[simp] theorem State.setG_posted (s : State) (r : Reg) (v : Word) : (s.setG r v).posted = s.posted := rfl
@[simp] theorem State.setG_dsets (s : State) (r : Reg) (v : Word) : (s.setG r v).dsets = s.dsets := rfl
@[simp] theorem State.setG_olds (s : State) (r : Reg) (v : Word) : (s.setG r v).olds = s.olds := rfl

@[simp] theorem State.skip_agenda (s : State) (n : Nat) : (s.skip n).agenda = s.agenda := rfl
@[simp] theorem State.skip_choices (s : State) (n : Nat) : (s.skip n).choices = s.choices := rfl
@[simp] theorem State.skip_curTile (s : State) (n : Nat) : (s.skip n).curTile = s.curTile := rfl
@[simp] theorem State.skip_curCore (s : State) (n : Nat) : (s.skip n).curCore = s.curCore := rfl
@[simp] theorem State.skip_seiche (s : State) (n : Nat) : (s.skip n).seiche = s.seiche := rfl
@[simp] theorem State.skip_mem (s : State) (n : Nat) : (s.skip n).mem = s.mem := rfl
@[simp] theorem State.skip_memBad (s : State) (n : Nat) : (s.skip n).memBad = s.memBad := rfl
@[simp] theorem State.skip_dies (s : State) (n : Nat) : (s.skip n).dies = s.dies := rfl
@[simp] theorem State.skip_parts (s : State) (n : Nat) : (s.skip n).parts = s.parts := rfl
@[simp] theorem State.skip_hub (s : State) (n : Nat) : (s.skip n).hub = s.hub := rfl
@[simp] theorem State.skip_host (s : State) (n : Nat) : (s.skip n).host = s.host := rfl
@[simp] theorem State.skip_peers (s : State) (n : Nat) : (s.skip n).peers = s.peers := rfl
@[simp] theorem State.skip_posted (s : State) (n : Nat) : (s.skip n).posted = s.posted := rfl
@[simp] theorem State.skip_dsets (s : State) (n : Nat) : (s.skip n).dsets = s.dsets := rfl
@[simp] theorem State.skip_olds (s : State) (n : Nat) : (s.skip n).olds = s.olds := rfl

@[simp] theorem State.block_agenda (s : State) (w : Wait) : (s.block w).agenda = s.agenda := rfl
@[simp] theorem State.block_choices (s : State) (w : Wait) : (s.block w).choices = s.choices := rfl
@[simp] theorem State.block_curTile (s : State) (w : Wait) : (s.block w).curTile = s.curTile := rfl
@[simp] theorem State.block_curCore (s : State) (w : Wait) : (s.block w).curCore = s.curCore := rfl
@[simp] theorem State.block_seiche (s : State) (w : Wait) : (s.block w).seiche = s.seiche := rfl
@[simp] theorem State.block_mem (s : State) (w : Wait) : (s.block w).mem = s.mem := rfl
@[simp] theorem State.block_memBad (s : State) (w : Wait) : (s.block w).memBad = s.memBad := rfl
@[simp] theorem State.block_dies (s : State) (w : Wait) : (s.block w).dies = s.dies := rfl
@[simp] theorem State.block_parts (s : State) (w : Wait) : (s.block w).parts = s.parts := rfl
@[simp] theorem State.block_hub (s : State) (w : Wait) : (s.block w).hub = s.hub := rfl
@[simp] theorem State.block_host (s : State) (w : Wait) : (s.block w).host = s.host := rfl
@[simp] theorem State.block_peers (s : State) (w : Wait) : (s.block w).peers = s.peers := rfl
@[simp] theorem State.block_posted (s : State) (w : Wait) : (s.block w).posted = s.posted := rfl
@[simp] theorem State.block_dsets (s : State) (w : Wait) : (s.block w).dsets = s.dsets := rfl
@[simp] theorem State.block_olds (s : State) (w : Wait) : (s.block w).olds = s.olds := rfl

@[simp] theorem State.takeFault_agenda (s : State) (t : Nat) (f : FaultRec) : (s.takeFault t f).agenda = s.agenda := rfl
@[simp] theorem State.takeFault_choices (s : State) (t : Nat) (f : FaultRec) : (s.takeFault t f).choices = s.choices := rfl
@[simp] theorem State.takeFault_curTile (s : State) (t : Nat) (f : FaultRec) : (s.takeFault t f).curTile = s.curTile := rfl
@[simp] theorem State.takeFault_curCore (s : State) (t : Nat) (f : FaultRec) : (s.takeFault t f).curCore = s.curCore := rfl
@[simp] theorem State.takeFault_seiche (s : State) (t : Nat) (f : FaultRec) : (s.takeFault t f).seiche = s.seiche := rfl
@[simp] theorem State.takeFault_mem (s : State) (t : Nat) (f : FaultRec) : (s.takeFault t f).mem = s.mem := rfl
@[simp] theorem State.takeFault_memBad (s : State) (t : Nat) (f : FaultRec) : (s.takeFault t f).memBad = s.memBad := rfl
@[simp] theorem State.takeFault_dies (s : State) (t : Nat) (f : FaultRec) : (s.takeFault t f).dies = s.dies := rfl
@[simp] theorem State.takeFault_parts (s : State) (t : Nat) (f : FaultRec) : (s.takeFault t f).parts = s.parts := rfl
@[simp] theorem State.takeFault_hub (s : State) (t : Nat) (f : FaultRec) : (s.takeFault t f).hub = s.hub := rfl
@[simp] theorem State.takeFault_host (s : State) (t : Nat) (f : FaultRec) : (s.takeFault t f).host = s.host := rfl
@[simp] theorem State.takeFault_peers (s : State) (t : Nat) (f : FaultRec) : (s.takeFault t f).peers = s.peers := rfl
@[simp] theorem State.takeFault_posted (s : State) (t : Nat) (f : FaultRec) : (s.takeFault t f).posted = s.posted := rfl
@[simp] theorem State.takeFault_dsets (s : State) (t : Nat) (f : FaultRec) : (s.takeFault t f).dsets = s.dsets := rfl
@[simp] theorem State.takeFault_olds (s : State) (t : Nat) (f : FaultRec) : (s.takeFault t f).olds = s.olds := rfl

@[simp] theorem State.fault_agenda (s : State) (code detail : Nat) : (s.fault code detail).agenda = s.agenda := rfl
@[simp] theorem State.fault_choices (s : State) (code detail : Nat) : (s.fault code detail).choices = s.choices := rfl
@[simp] theorem State.fault_curTile (s : State) (code detail : Nat) : (s.fault code detail).curTile = s.curTile := rfl
@[simp] theorem State.fault_curCore (s : State) (code detail : Nat) : (s.fault code detail).curCore = s.curCore := rfl
@[simp] theorem State.fault_seiche (s : State) (code detail : Nat) : (s.fault code detail).seiche = s.seiche := rfl
@[simp] theorem State.fault_mem (s : State) (code detail : Nat) : (s.fault code detail).mem = s.mem := rfl
@[simp] theorem State.fault_memBad (s : State) (code detail : Nat) : (s.fault code detail).memBad = s.memBad := rfl
@[simp] theorem State.fault_dies (s : State) (code detail : Nat) : (s.fault code detail).dies = s.dies := rfl
@[simp] theorem State.fault_parts (s : State) (code detail : Nat) : (s.fault code detail).parts = s.parts := rfl
@[simp] theorem State.fault_hub (s : State) (code detail : Nat) : (s.fault code detail).hub = s.hub := rfl
@[simp] theorem State.fault_host (s : State) (code detail : Nat) : (s.fault code detail).host = s.host := rfl
@[simp] theorem State.fault_peers (s : State) (code detail : Nat) : (s.fault code detail).peers = s.peers := rfl
@[simp] theorem State.fault_posted (s : State) (code detail : Nat) : (s.fault code detail).posted = s.posted := rfl
@[simp] theorem State.fault_dsets (s : State) (code detail : Nat) : (s.fault code detail).dsets = s.dsets := rfl
@[simp] theorem State.fault_olds (s : State) (code detail : Nat) : (s.fault code detail).olds = s.olds := rfl

@[simp] theorem State.writeScratch_agenda (s : State) (t off : Nat) (l : List Byte) : (s.writeScratch t off l).agenda = s.agenda := rfl
@[simp] theorem State.writeScratch_choices (s : State) (t off : Nat) (l : List Byte) : (s.writeScratch t off l).choices = s.choices := rfl
@[simp] theorem State.writeScratch_curTile (s : State) (t off : Nat) (l : List Byte) : (s.writeScratch t off l).curTile = s.curTile := rfl
@[simp] theorem State.writeScratch_curCore (s : State) (t off : Nat) (l : List Byte) : (s.writeScratch t off l).curCore = s.curCore := rfl
@[simp] theorem State.writeScratch_seiche (s : State) (t off : Nat) (l : List Byte) : (s.writeScratch t off l).seiche = s.seiche := rfl
@[simp] theorem State.writeScratch_mem (s : State) (t off : Nat) (l : List Byte) : (s.writeScratch t off l).mem = s.mem := rfl
@[simp] theorem State.writeScratch_memBad (s : State) (t off : Nat) (l : List Byte) : (s.writeScratch t off l).memBad = s.memBad := rfl
@[simp] theorem State.writeScratch_dies (s : State) (t off : Nat) (l : List Byte) : (s.writeScratch t off l).dies = s.dies := rfl
@[simp] theorem State.writeScratch_parts (s : State) (t off : Nat) (l : List Byte) : (s.writeScratch t off l).parts = s.parts := rfl
@[simp] theorem State.writeScratch_hub (s : State) (t off : Nat) (l : List Byte) : (s.writeScratch t off l).hub = s.hub := rfl
@[simp] theorem State.writeScratch_host (s : State) (t off : Nat) (l : List Byte) : (s.writeScratch t off l).host = s.host := rfl
@[simp] theorem State.writeScratch_peers (s : State) (t off : Nat) (l : List Byte) : (s.writeScratch t off l).peers = s.peers := rfl
@[simp] theorem State.writeScratch_posted (s : State) (t off : Nat) (l : List Byte) : (s.writeScratch t off l).posted = s.posted := rfl
@[simp] theorem State.writeScratch_dsets (s : State) (t off : Nat) (l : List Byte) : (s.writeScratch t off l).dsets = s.dsets := rfl
@[simp] theorem State.writeScratch_olds (s : State) (t off : Nat) (l : List Byte) : (s.writeScratch t off l).olds = s.olds := rfl

/-! ## Tiles, dies and partitions -/

@[simp] theorem State.tile_setTile_same (s : State) (t : Nat) (x : Tile) : (s.setTile t x).tile t = x := by
  simp [State.tile, State.setTile]

@[simp] theorem State.tile_setTile_other (s : State) {t u : Nat} (x : Tile) (h : u ≠ t) : (s.setTile t x).tile u = s.tile u := by
  simp [State.tile, State.setTile, h]

@[simp] theorem State.die_setDie_same (s : State) (d : Nat) (x : Die) : (s.setDie d x).die d = x := by
  simp [State.die, State.setDie]

@[simp] theorem State.die_setDie_other (s : State) {d u : Nat} (x : Die) (h : u ≠ d) : (s.setDie d x).die u = s.die u := by
  simp [State.die, State.setDie, h]

@[simp] theorem State.part_setPart_same (s : State) (p : Nat) (x : Part) : (s.setPart p x).part p = x := by
  simp [State.part, State.setPart]

@[simp] theorem State.part_setPart_other (s : State) {p u : Nat} (x : Part) (h : u ≠ p) : (s.setPart p x).part u = s.part u := by
  simp [State.part, State.setPart, h]

@[simp] theorem State.part_setTile (s : State) (t p : Nat) (x : Tile) : (s.setTile t x).part p = s.part p := rfl
@[simp] theorem State.die_setTile (s : State) (t d : Nat) (x : Tile) : (s.setTile t x).die d = s.die d := rfl
@[simp] theorem State.tile_setPart (s : State) (t p : Nat) (x : Part) : (s.setPart p x).tile t = s.tile t := rfl
@[simp] theorem State.tile_setDie (s : State) (t d : Nat) (x : Die) : (s.setDie d x).tile t = s.tile t := rfl
@[simp] theorem State.tile_draw (s : State) (t : Nat) : s.draw.tile t = s.tile t := rfl

/-! ## Cores and engines of a tile -/

@[simp] theorem Tile.core_setCore_same (x : Tile) (c : CoreId) (k : Core) : (x.setCore c k).core c = k := by cases c <;> rfl

@[simp] theorem Tile.core_setCore_other (x : Tile) {c d : CoreId} (k : Core) (h : d ≠ c) : (x.setCore c k).core d = x.core d := by
  cases c <;> cases d <;> first | rfl | exact absurd rfl h

@[simp] theorem Tile.eng_setEng_same (x : Tile) (e : Engine) (k : Eng) : (x.setEng e k).eng e = k := by cases e <;> rfl

@[simp] theorem Tile.eng_setEng_other (x : Tile) {e d : Engine} (k : Eng) (h : d ≠ e) : (x.setEng e k).eng d = x.eng d := by
  cases e <;> cases d <;> first | rfl | exact absurd rfl h

@[simp] theorem Tile.setCore_setCore (x : Tile) (c : CoreId) (k l : Core) : (x.setCore c k).setCore c l = x.setCore c l := by
  cases c <;> rfl

@[simp] theorem Tile.setCore_life (x : Tile) (c : CoreId) (k : Core) : (x.setCore c k).life = x.life := by cases c <;> rfl
@[simp] theorem Tile.setCore_el (x : Tile) (c : CoreId) (k : Core) : (x.setCore c k).el = x.el := by cases c <;> rfl
@[simp] theorem Tile.setCore_em (x : Tile) (c : CoreId) (k : Core) : (x.setCore c k).em = x.em := by cases c <;> rfl
@[simp] theorem Tile.setCore_es (x : Tile) (c : CoreId) (k : Core) : (x.setCore c k).es = x.es := by cases c <;> rfl
@[simp] theorem Tile.setCore_ctl (x : Tile) (c : CoreId) (k : Core) : (x.setCore c k).ctl = x.ctl := by cases c <;> rfl
@[simp] theorem Tile.setCore_queue (x : Tile) (c : CoreId) (k : Core) : (x.setCore c k).queue = x.queue := by cases c <;> rfl
@[simp] theorem Tile.setCore_mem (x : Tile) (c : CoreId) (k : Core) : (x.setCore c k).mem = x.mem := by cases c <;> rfl
@[simp] theorem Tile.setCore_perf (x : Tile) (c : CoreId) (k : Core) : (x.setCore c k).perf = x.perf := by cases c <;> rfl
@[simp] theorem Tile.setCore_prv (x : Tile) (c : CoreId) (k : Core) : (x.setCore c k).prv = x.prv := by cases c <;> rfl
@[simp] theorem Tile.setCore_trace (x : Tile) (c : CoreId) (k : Core) : (x.setCore c k).trace = x.trace := by cases c <;> rfl
@[simp] theorem Tile.setCore_eng (x : Tile) (c : CoreId) (k : Core) (e : Engine) : (x.setCore c k).eng e = x.eng e := by cases c <;> cases e <;> rfl
@[simp] theorem Tile.setEng_life (x : Tile) (e : Engine) (k : Eng) : (x.setEng e k).life = x.life := by cases e <;> rfl
@[simp] theorem Tile.setEng_cl (x : Tile) (e : Engine) (k : Eng) : (x.setEng e k).cl = x.cl := by cases e <;> rfl
@[simp] theorem Tile.setEng_cx (x : Tile) (e : Engine) (k : Eng) : (x.setEng e k).cx = x.cx := by cases e <;> rfl
@[simp] theorem Tile.setEng_cw (x : Tile) (e : Engine) (k : Eng) : (x.setEng e k).cw = x.cw := by cases e <;> rfl
@[simp] theorem Tile.setEng_ctl (x : Tile) (e : Engine) (k : Eng) : (x.setEng e k).ctl = x.ctl := by cases e <;> rfl
@[simp] theorem Tile.setEng_queue (x : Tile) (e : Engine) (k : Eng) : (x.setEng e k).queue = x.queue := by cases e <;> rfl
@[simp] theorem Tile.setEng_mem (x : Tile) (e : Engine) (k : Eng) : (x.setEng e k).mem = x.mem := by cases e <;> rfl
@[simp] theorem Tile.setEng_perf (x : Tile) (e : Engine) (k : Eng) : (x.setEng e k).perf = x.perf := by cases e <;> rfl
@[simp] theorem Tile.setEng_prv (x : Tile) (e : Engine) (k : Eng) : (x.setEng e k).prv = x.prv := by cases e <;> rfl
@[simp] theorem Tile.setEng_trace (x : Tile) (e : Engine) (k : Eng) : (x.setEng e k).trace = x.trace := by cases e <;> rfl

/-! ## The running core -/

@[simp] theorem State.me_setTile_cur (s : State) (x : Tile) : (s.setTile s.curTile.val x).me = x := by simp [State.me]
@[simp] theorem State.me_setMe (s : State) (x : Tile) : (s.setMe x).me = x := by simp [State.me, State.setMe]
@[simp] theorem State.me_setCore (s : State) (k : Core) : (s.setCore k).me = s.me.setCore s.curCore k := by simp [State.setCore]
@[simp] theorem State.core_setCore (s : State) (k : Core) : (s.setCore k).core = k := by simp [State.core]
@[simp] theorem State.setCore_setCore (s : State) (k l : Core) : (s.setCore k).setCore l = s.setCore l := by
  have h (m : SMap Tile) (n : Nat) (x y : Tile) : SMap.put (SMap.put m n x) n y = SMap.put m n y := by
    induction m with
    | nil => simp [SMap.put]
    | cons p m ih =>
      obtain ⟨a, w⟩ := p
      simp only [SMap.put]
      split
      · simp [SMap.put]
      · split
        · simp [SMap.put]
        · rename_i h1 h2; simp [SMap.put, h1, h2, ih]
  show State.setTile _ _ _ = State.setTile _ _ _
  simp [State.setTile, State.setCore, State.setMe, State.me, State.tile, h]

/-- Another tile than the running core's is as it was. -/
@[simp] theorem State.tile_setCore_other (s : State) {u : Nat} (k : Core) (h : u ≠ s.curTile.val) :
    (s.setCore k).tile u = s.tile u := by simp [State.setCore, State.setMe, h]

@[simp] theorem State.core_setG (s : State) (r : Reg) (v : Word) : (s.setG r v).core = s.core.write r v := by simp [State.setG]
@[simp] theorem State.core_skip (s : State) (n : Nat) : (s.skip n).core = s.core.skip n := by simp [State.skip]
@[simp] theorem State.core_block (s : State) (w : Wait) : (s.block w).core = { s.core with wait := w } := by simp [State.block]

/-! ## Registers -/

@[simp] theorem Core.read_zero (k : Core) : k.read 0 = 0 := by simp [Core.read]

/-- A register written reads back, unless it is g0, which reads as zero. -/
theorem Core.read_write_same (k : Core) (r : Reg) (v : Word) : (k.write r v).read r = if r.val = 0 then 0 else v := by
  simp only [Core.read, Core.write]
  split <;> simp

theorem Core.read_write_other (k : Core) {r q : Reg} (v : Word) (h : q ≠ r) : (k.write r v).read q = k.read q := by
  have h' : q.val ≠ r.val := fun e => h (Fin.ext e)
  simp only [Core.read, Core.write]
  split
  · rfl
  · split <;> simp [h']

@[simp] theorem Core.read_skip (k : Core) (n : Nat) (r : Reg) : (k.skip n).read r = k.read r := rfl

@[simp] theorem Core.skip_run (k : Core) (n : Nat) : (k.skip n).run = k.run := rfl
@[simp] theorem Core.skip_g (k : Core) (n : Nat) : (k.skip n).g = k.g := rfl
@[simp] theorem Core.skip_gBad (k : Core) (n : Nat) : (k.skip n).gBad = k.gBad := rfl
@[simp] theorem Core.skip_gCe (k : Core) (n : Nat) : (k.skip n).gCe = k.gCe := rfl
@[simp] theorem Core.skip_frames (k : Core) (n : Nat) : (k.skip n).frames = k.frames := rfl
@[simp] theorem Core.skip_spilled (k : Core) (n : Nat) : (k.skip n).spilled = k.spilled := rfl
@[simp] theorem Core.skip_spillBase (k : Core) (n : Nat) : (k.skip n).spillBase = k.spillBase := rfl
@[simp] theorem Core.skip_spillLimit (k : Core) (n : Nat) : (k.skip n).spillLimit = k.spillLimit := rfl
@[simp] theorem Core.skip_sptr (k : Core) (n : Nat) : (k.skip n).sptr = k.sptr := rfl
@[simp] theorem Core.skip_memdef (k : Core) (n : Nat) : (k.skip n).memdef = k.memdef := rfl
@[simp] theorem Core.skip_barpend (k : Core) (n : Nat) : (k.skip n).barpend = k.barpend := rfl
@[simp] theorem Core.skip_hold (k : Core) (n : Nat) : (k.skip n).hold = k.hold := rfl
@[simp] theorem Core.skip_wait (k : Core) (n : Nat) : (k.skip n).wait = k.wait := rfl
@[simp] theorem Core.skip_remote (k : Core) (n : Nat) : (k.skip n).remote = k.remote := rfl
@[simp] theorem Core.skip_after (k : Core) (n : Nat) : (k.skip n).after = k.after := rfl
@[simp] theorem Core.skip_fenced (k : Core) (n : Nat) : (k.skip n).fenced = k.fenced := rfl
@[simp] theorem Core.skip_ended (k : Core) (n : Nat) : (k.skip n).ended = k.ended := rfl
@[simp] theorem Core.skip_did (k : Core) (n : Nat) : (k.skip n).did = k.did := rfl
@[simp] theorem Core.skip_waits (k : Core) (n : Nat) : (k.skip n).waits = k.waits := rfl
@[simp] theorem Core.skip_livemap (k : Core) (n : Nat) : (k.skip n).livemap = k.livemap := rfl
@[simp] theorem Core.write_run (k : Core) (r : Reg) (v : Word) : (k.write r v).run = k.run := by simp only [Core.write]; split <;> rfl
@[simp] theorem Core.write_pc (k : Core) (r : Reg) (v : Word) : (k.write r v).pc = k.pc := by simp only [Core.write]; split <;> rfl
@[simp] theorem Core.write_frames (k : Core) (r : Reg) (v : Word) : (k.write r v).frames = k.frames := by simp only [Core.write]; split <;> rfl
@[simp] theorem Core.write_spilled (k : Core) (r : Reg) (v : Word) : (k.write r v).spilled = k.spilled := by simp only [Core.write]; split <;> rfl
@[simp] theorem Core.write_spillBase (k : Core) (r : Reg) (v : Word) : (k.write r v).spillBase = k.spillBase := by simp only [Core.write]; split <;> rfl
@[simp] theorem Core.write_spillLimit (k : Core) (r : Reg) (v : Word) : (k.write r v).spillLimit = k.spillLimit := by simp only [Core.write]; split <;> rfl
@[simp] theorem Core.write_sptr (k : Core) (r : Reg) (v : Word) : (k.write r v).sptr = k.sptr := by simp only [Core.write]; split <;> rfl
@[simp] theorem Core.write_memdef (k : Core) (r : Reg) (v : Word) : (k.write r v).memdef = k.memdef := by simp only [Core.write]; split <;> rfl
@[simp] theorem Core.write_barpend (k : Core) (r : Reg) (v : Word) : (k.write r v).barpend = k.barpend := by simp only [Core.write]; split <;> rfl
@[simp] theorem Core.write_hold (k : Core) (r : Reg) (v : Word) : (k.write r v).hold = k.hold := by simp only [Core.write]; split <;> rfl
@[simp] theorem Core.write_wait (k : Core) (r : Reg) (v : Word) : (k.write r v).wait = k.wait := by simp only [Core.write]; split <;> rfl
@[simp] theorem Core.write_remote (k : Core) (r : Reg) (v : Word) : (k.write r v).remote = k.remote := by simp only [Core.write]; split <;> rfl
@[simp] theorem Core.write_after (k : Core) (r : Reg) (v : Word) : (k.write r v).after = k.after := by simp only [Core.write]; split <;> rfl
@[simp] theorem Core.write_fenced (k : Core) (r : Reg) (v : Word) : (k.write r v).fenced = k.fenced := by simp only [Core.write]; split <;> rfl
@[simp] theorem Core.write_ended (k : Core) (r : Reg) (v : Word) : (k.write r v).ended = k.ended := by simp only [Core.write]; split <;> rfl
@[simp] theorem Core.write_did (k : Core) (r : Reg) (v : Word) : (k.write r v).did = k.did := by simp only [Core.write]; split <;> rfl
@[simp] theorem Core.write_waits (k : Core) (r : Reg) (v : Word) : (k.write r v).waits = k.waits := by simp only [Core.write]; split <;> rfl
@[simp] theorem Core.write_livemap (k : Core) (r : Reg) (v : Word) : (k.write r v).livemap = k.livemap := by simp only [Core.write]; split <;> rfl

end Sys2Proof.Machine
end

