-- ==== Sys2Proof/Laws/Home.lean ====
section
/-! SUPPORT. Writes at the home of module memory and of a scratchpad: everything they can do to the bytes, and that they keep
the canonical form. -/
namespace Sys2Proof.Machine

/-! ## Module memory -/

theorem writeAround_wf (bad : List Nat) {m : Memory} {a : Nat} {l : List Byte} (h : m.wf = true) :
    (writeAround bad m a l).wf = true := by
  induction l generalizing m a with
  | nil => simpa [writeAround] using h
  | cons v l ih =>
    simp only [writeAround]
    split
    · exact ih h
    · exact ih (Memory.wf_setByte h)

theorem byte_writeAround_other (bad : List Nat) (m : Memory) {a b : Nat} (l : List Byte) (h : b < a ∨ a + l.length ≤ b) :
    (writeAround bad m a l).byte b = m.byte b := by
  induction l generalizing m a with
  | nil => rfl
  | cons v l ih =>
    simp only [List.length_cons] at h
    simp only [writeAround]
    split
    · exact ih _ (by omega)
    · rw [ih _ (by omega), Memory.byte_setByte_other _ _ (by omega)]

/-- A byte of a granule that stays poisoned keeps. -/
theorem byte_writeAround_kept (bad : List Nat) (m : Memory) {a b : Nat} (l : List Byte) (h : b / 32 * 32 ∈ bad) :
    (writeAround bad m a l).byte b = m.byte b := by
  induction l generalizing m a with
  | nil => rfl
  | cons v l ih =>
    simp only [writeAround]
    split
    · exact ih _
    · rename_i hn
      rw [ih _, Memory.byte_setByte_other]
      rintro rfl
      exact hn (by simpa using h)

/-- Where no granule is poisoned the bytes are written as they are. -/
theorem homeWrite_clean {bad : List Nat} {pa : Nat} {l : List Byte} (m : Memory) (h : badGranule bad pa l.length = none) :
    homeWrite bad m pa l = m.setBytes pa l := by simp [homeWrite, h]

theorem homeWrite_wf (bad : List Nat) {m : Memory} (pa : Nat) (l : List Byte) (h : m.wf = true) :
    (homeWrite bad m pa l).wf = true := by
  simp only [homeWrite]
  split
  · exact Memory.wf_setBytes h
  · exact writeAround_wf _ h

theorem byte_homeWrite_other (bad : List Nat) (m : Memory) {pa b : Nat} (l : List Byte) (h : b < pa ∨ pa + l.length ≤ b) :
    (homeWrite bad m pa l).byte b = m.byte b := by
  simp only [homeWrite]
  split
  · have hn : ¬(pa ≤ b ∧ b < pa + l.length) := by omega
    simp [Memory.byte_setBytes, hn]
  · exact byte_writeAround_other _ _ _ h

theorem State.writeMem_wf (s : State) (pa : Nat) (l : List Byte) (h : s.mem.wf = true) : (s.writeMem pa l).mem.wf = true :=
  homeWrite_wf _ _ _ h

theorem State.byte_writeMem_other (s : State) {pa b : Nat} (l : List Byte) (h : b < pa ∨ pa + l.length ≤ b) :
    (s.writeMem pa l).mem.byte b = s.mem.byte b := byte_homeWrite_other _ _ _ h

theorem State.readLE_writeMem (s : State) (pa n v : Nat) (h : badGranule s.memBad pa n = none) :
    (s.writeMem pa (leBytes v n)).mem.readLE pa n = v % 256 ^ n := by
  have e : (s.writeMem pa (leBytes v n)).mem = s.mem.writeLE pa n v := homeWrite_clean s.mem (by simpa using h)
  rw [e, Memory.readLE_writeLE_same]

theorem State.mergeRow_wf (s : State) (l : List ByteWrite) (h : s.mem.wf = true) : (s.mergeRow l).mem.wf = true := by
  simp only [State.mergeRow]
  generalize s.memBad.filter _ = bad
  generalize s.mem = m at h ⊢
  induction l generalizing m with
  | nil => exact h
  | cons x l ih =>
    simp only [List.foldl_cons]
    apply ih
    split
    · exact h
    · exact Memory.wf_setByte h

/-! ## Scratchpads -/

theorem writeKeeping_wf (bad : List Nat) (lo n : Nat) {m : Memory} {a : Nat} {l : List Byte} (h : m.wf = true) :
    (writeKeeping bad lo n m a l).wf = true := by
  induction l generalizing m a with
  | nil => simpa [writeKeeping] using h
  | cons v l ih =>
    simp only [writeKeeping]
    split
    · exact ih h
    · exact ih (Memory.wf_setByte h)

theorem byte_writeKeeping_other (bad : List Nat) (lo n : Nat) (m : Memory) {a b : Nat} (l : List Byte)
    (h : b < a ∨ a + l.length ≤ b) : (writeKeeping bad lo n m a l).byte b = m.byte b := by
  induction l generalizing m a with
  | nil => rfl
  | cons v l ih =>
    simp only [List.length_cons] at h
    simp only [writeKeeping]
    split
    · exact ih _ (by omega)
    · rw [ih _ (by omega), Memory.byte_setByte_other _ _ (by omega)]

/-! ## The fields that these writes leave alone -/

@[simp] theorem State.writeMem_agenda (s : State) (pa : Nat) (l : List Byte) : (s.writeMem pa l).agenda = s.agenda := rfl
@[simp] theorem State.writeMem_choices (s : State) (pa : Nat) (l : List Byte) : (s.writeMem pa l).choices = s.choices := rfl
@[simp] theorem State.writeMem_curTile (s : State) (pa : Nat) (l : List Byte) : (s.writeMem pa l).curTile = s.curTile := rfl
@[simp] theorem State.writeMem_curCore (s : State) (pa : Nat) (l : List Byte) : (s.writeMem pa l).curCore = s.curCore := rfl
@[simp] theorem State.writeMem_seiche (s : State) (pa : Nat) (l : List Byte) : (s.writeMem pa l).seiche = s.seiche := rfl
@[simp] theorem State.writeMem_tiles (s : State) (pa : Nat) (l : List Byte) : (s.writeMem pa l).tiles = s.tiles := rfl
@[simp] theorem State.writeMem_dies (s : State) (pa : Nat) (l : List Byte) : (s.writeMem pa l).dies = s.dies := rfl
@[simp] theorem State.writeMem_parts (s : State) (pa : Nat) (l : List Byte) : (s.writeMem pa l).parts = s.parts := rfl
@[simp] theorem State.writeMem_hub (s : State) (pa : Nat) (l : List Byte) : (s.writeMem pa l).hub = s.hub := rfl
@[simp] theorem State.writeMem_host (s : State) (pa : Nat) (l : List Byte) : (s.writeMem pa l).host = s.host := rfl
@[simp] theorem State.writeMem_peers (s : State) (pa : Nat) (l : List Byte) : (s.writeMem pa l).peers = s.peers := rfl
@[simp] theorem State.writeMem_posted (s : State) (pa : Nat) (l : List Byte) : (s.writeMem pa l).posted = s.posted := rfl
@[simp] theorem State.writeMem_dsets (s : State) (pa : Nat) (l : List Byte) : (s.writeMem pa l).dsets = s.dsets := rfl

@[simp] theorem State.mergeRow_agenda (s : State) (l : List ByteWrite) : (s.mergeRow l).agenda = s.agenda := rfl
@[simp] theorem State.mergeRow_choices (s : State) (l : List ByteWrite) : (s.mergeRow l).choices = s.choices := rfl
@[simp] theorem State.mergeRow_curTile (s : State) (l : List ByteWrite) : (s.mergeRow l).curTile = s.curTile := rfl
@[simp] theorem State.mergeRow_curCore (s : State) (l : List ByteWrite) : (s.mergeRow l).curCore = s.curCore := rfl
@[simp] theorem State.mergeRow_seiche (s : State) (l : List ByteWrite) : (s.mergeRow l).seiche = s.seiche := rfl
@[simp] theorem State.mergeRow_tiles (s : State) (l : List ByteWrite) : (s.mergeRow l).tiles = s.tiles := rfl
@[simp] theorem State.mergeRow_dies (s : State) (l : List ByteWrite) : (s.mergeRow l).dies = s.dies := rfl
@[simp] theorem State.mergeRow_parts (s : State) (l : List ByteWrite) : (s.mergeRow l).parts = s.parts := rfl
@[simp] theorem State.mergeRow_hub (s : State) (l : List ByteWrite) : (s.mergeRow l).hub = s.hub := rfl
@[simp] theorem State.mergeRow_host (s : State) (l : List ByteWrite) : (s.mergeRow l).host = s.host := rfl
@[simp] theorem State.mergeRow_peers (s : State) (l : List ByteWrite) : (s.mergeRow l).peers = s.peers := rfl
@[simp] theorem State.mergeRow_posted (s : State) (l : List ByteWrite) : (s.mergeRow l).posted = s.posted := rfl
@[simp] theorem State.mergeRow_dsets (s : State) (l : List ByteWrite) : (s.mergeRow l).dsets = s.dsets := rfl

end Sys2Proof.Machine
end

