-- ==== Sys2Proof/Laws/Access.lean ====
section
/-! SUPPORT. What a source check, a walk, a translation and an access of a node can do to the state: everything they leave alone,
and that they keep the canonical form of memory. -/
namespace Sys2Proof.Machine

/-! ## Sources -/

/-- Where no correctable error lies in the registers, their read changes nothing. -/
theorem State.noteG_clean {s : State} {rs : List Reg} (h : s.core.foundRegs rs = []) : s.noteG rs = s := by
  simp [State.noteG, h]

/-- A source check sees the registers as their read leaves them (18 R429). -/
theorem withSources_note (rs : List Reg) (s : State) (f : State → State) :
    withSources rs s f = match (s.noteG rs).core.badReg rs with
      | some w => .next ((s.noteG rs).badSource w)
      | none => .next (f (s.noteG rs)) := rfl

/-- An instruction whose sources are clean runs as its meaning says. -/
theorem withSources_clean {rs : List Reg} {s : State} (f : State → State) (h : s.core.badReg rs = none)
    (hc : s.core.foundRegs rs = []) : withSources rs s f = .next (f s) := by
  simp [withSources, State.noteG_clean hc, h]

/-- One with a poisoned source faults and does nothing else. -/
theorem withSources_bad {rs : List Reg} {s : State} {w : Nat} (f : State → State) (h : s.core.badReg rs = some w)
    (hc : s.core.foundRegs rs = []) : withSources rs s f = .next (s.badSource w) := by
  simp [withSources, State.noteG_clean hc, h]

/-- Every instruction that only checks its sources goes on. -/
theorem withSources_next (rs : List Reg) (s : State) (f : State → State) : ∃ t, withSources rs s f = .next t := by
  rw [withSources_note]
  split <;> exact ⟨_, rfl⟩

/-! ## What a read of the scratchpad finds (18 R429) -/

/-- Where no error lies latent, a read changes nothing. -/
theorem State.noteRead_clean {s : State} {t off n : Nat} (h : (s.tile t).mem.latentIn off n = []) : s.noteRead t off n = s := by
  simp [State.noteRead, h]

/-- All that a read can do: count the errors it finds on its tile. -/
theorem State.noteRead_state (s : State) (t off n : Nat) :
    s.noteRead t off n = s ∨
      s.noteRead t off n = s.setTile t (((s.tile t).mem.latentIn off n).foldl Tile.foundWord (s.tile t)) := by
  unfold State.noteRead
  dsimp only
  split
  · exact .inl rfl
  · rename_i ws _
    split
    · exact .inl rfl
    · exact .inr (by simp_all)

/-! ## What a translation leaves alone -/

/-- Two states that differ at most in module memory, in its poison and earlier words, and in the count of free values drawn. -/
structure SameButMem (s t : State) : Prop where
  agenda : t.agenda = s.agenda
  curTile : t.curTile = s.curTile
  curCore : t.curCore = s.curCore
  seiche : t.seiche = s.seiche
  tiles : t.tiles = s.tiles
  dies : t.dies = s.dies
  parts : t.parts = s.parts
  hub : t.hub = s.hub
  host : t.host = s.host
  peers : t.peers = s.peers
  posted : t.posted = s.posted
  dsets : t.dsets = s.dsets

theorem SameButMem.refl (s : State) : SameButMem s s := ⟨rfl, rfl, rfl, rfl, rfl, rfl, rfl, rfl, rfl, rfl, rfl, rfl⟩

theorem SameButMem.trans {s t u : State} (h : SameButMem s t) (k : SameButMem t u) : SameButMem s u :=
  ⟨k.agenda.trans h.agenda, k.curTile.trans h.curTile, k.curCore.trans h.curCore, k.seiche.trans h.seiche, k.tiles.trans h.tiles,
   k.dies.trans h.dies, k.parts.trans h.parts, k.hub.trans h.hub, k.host.trans h.host, k.peers.trans h.peers,
   k.posted.trans h.posted, k.dsets.trans h.dsets⟩

theorem SameButMem.tile {s t : State} (h : SameButMem s t) (k : Nat) : t.tile k = s.tile k := by simp [State.tile, h.tiles]

theorem SameButMem.core {s t : State} (h : SameButMem s t) : t.core = s.core := by
  simp [State.core, State.me, h.tile, h.curTile, h.curCore]

theorem SameButMem.g {s t : State} (h : SameButMem s t) (r : Reg) : t.g r = s.g r := by simp [State.g, h.core]

theorem sameButMem_writeMem (s : State) (pa : Nat) (l : List Byte) : SameButMem s (s.writeMem pa l) :=
  ⟨rfl, rfl, rfl, rfl, rfl, rfl, rfl, rfl, rfl, rfl, rfl, rfl⟩

theorem sameButMem_draw (s : State) : SameButMem s s.draw := ⟨rfl, rfl, rfl, rfl, rfl, rfl, rfl, rfl, rfl, rfl, rfl, rfl⟩

/-- All that the end of a walk at a leaf can do: write the companion word of the leaf. -/
theorem leafEnd_state (s : State) (d part : Nat) (r : Root) (va : Nat) (acc : Access) (lvl table e frame : Nat) :
    (leafEnd s d part r va acc lvl table e frame).2.2 = s ∨
      ∃ pa, (leafEnd s d part r va acc lvl table e frame).2.2 = s.markLeaf d acc pa := by
  unfold leafEnd
  split
  · exact .inl rfl
  · split
    · split <;> exact .inl rfl
    · exact .inr ⟨_, rfl⟩

/-- The choice of a governing entry draws at most one free value. -/
theorem governing_state (s : State) (table va e : Nat) : (governing s table va e).2 = s ∨ (governing s table va e).2 = s.draw := by
  unfold governing
  dsimp only
  split
  · exact .inr rfl
  · exact .inl rfl

/-- All that a walk can do: draw a free value, and write the companion word of its leaf. -/
theorem walk_state (s : State) (d part : Nat) (r : Root) (va : Nat) (acc : Access) :
    ∃ u, (u = s ∨ u = s.draw) ∧ ((walk s d part r va acc).2.2 = u ∨ ∃ pa, (walk s d part r va acc).2.2 = u.markLeaf d acc pa) := by
  unfold walk
  split
  · exact ⟨s, .inl rfl, .inl rfl⟩
  · split
    · exact ⟨s, .inl rfl, .inl rfl⟩
    · exact ⟨s, .inl rfl, .inl rfl⟩
    · exact ⟨s, .inl rfl, leafEnd_state ..⟩
    · rename_i table e _
      refine ⟨(governing s table va e).2, governing_state .., ?_⟩
      obtain ⟨⟨x, y⟩, u⟩ := governing s table va e
      dsimp only
      split
      · exact .inl rfl
      · split
        · exact .inl rfl
        · exact leafEnd_state ..

theorem walk_same (s : State) (d part : Nat) (r : Root) (va : Nat) (acc : Access) : SameButMem s (walk s d part r va acc).2.2 := by
  obtain ⟨u, hu, h⟩ := walk_state s d part r va acc
  have k : SameButMem s u := by
    rcases hu with rfl | rfl
    · exact .refl _
    · exact sameButMem_draw _
  rcases h with h | ⟨pa, h⟩ <;> rw [h]
  · exact k
  · exact k.trans (sameButMem_writeMem _ _ _)

theorem walk_wf (s : State) (d part : Nat) (r : Root) (va : Nat) (acc : Access) (w : s.mem.wf = true) :
    (walk s d part r va acc).2.2.mem.wf = true := by
  obtain ⟨u, hu, h⟩ := walk_state s d part r va acc
  have k : u.mem.wf = true := by rcases hu with rfl | rfl <;> exact w
  rcases h with h | ⟨pa, h⟩ <;> rw [h]
  · exact k
  · exact State.writeMem_wf _ _ _ k

theorem translate_same (s : State) (d part : Nat) (r : Root) (va : Nat) (acc : Access) :
    SameButMem s (translate s d part r va acc).2 := by
  unfold translate
  split
  · exact sameButMem_writeMem _ _ _
  · exact walk_same ..

theorem translate_wf (s : State) (d part : Nat) (r : Root) (va : Nat) (acc : Access) (w : s.mem.wf = true) :
    (translate s d part r va acc).2.mem.wf = true := by
  unfold translate
  split
  · exact State.writeMem_wf _ _ _ w
  · exact walk_wf _ _ _ _ _ _ w

/-- An access of a node leaves what its translation leaves. -/
theorem nodeTranslate_state (s : State) (d part va : Nat) (acc : Access) :
    (nodeTranslate s d part va acc).2 = (translate s d part .own va acc).2 := by
  unfold nodeTranslate
  split
  · rename_i h; split <;> simp [h, Res.stop]
  · rename_i h; simp [h]
  · rename_i h; split <;> simp [h, Res.stop]

theorem nodeTranslate_same (s : State) (d part va : Nat) (acc : Access) : SameButMem s (nodeTranslate s d part va acc).2 := by
  rw [nodeTranslate_state]; exact translate_same ..

/-- A translation gives addresses of HBM only (19 R435). -/
theorem nodeTranslate_hbm {s u : State} {d part va a : Nat} {acc : Access}
    (h : nodeTranslate s d part va acc = (.ok (some a), u)) : a < hbmEnd := by
  unfold nodeTranslate at h
  split at h
  · split at h
    · simp [Res.stop] at h
    · simp only [Prod.mk.injEq, Except.ok.injEq, Option.some.injEq] at h; omega
  · simp at h
  · split at h <;> simp [Res.stop] at h

/-- A read of a node gives the bytes of an unpoisoned place of HBM, or zeros, as its translation left them. -/
theorem nodeRead_same (s : State) (d part va n : Nat) (acc : Access) : SameButMem s (nodeRead s d part va n acc).2 := by
  have h := nodeTranslate_same s d part va acc
  unfold nodeRead Res.bind
  split
  · rename_i k; rw [k] at h; exact h
  · rename_i k
    rw [k] at h
    dsimp only
    split
    · exact h
    · split <;> exact h

theorem nodeRead_wf (s : State) (d part va n : Nat) (acc : Access) (w : s.mem.wf = true) :
    (nodeRead s d part va n acc).2.mem.wf = true := by
  have h := translate_wf s d part .own va acc w
  rw [← nodeTranslate_state] at h
  unfold nodeRead Res.bind
  split
  · rename_i k; rw [k] at h; exact h
  · rename_i k
    rw [k] at h
    dsimp only
    split
    · exact h
    · split <;> exact h

theorem nodeWrite_same (s : State) (d part va : Nat) (l : List Byte) : SameButMem s (nodeWrite s d part va l).2 := by
  have h := nodeTranslate_same s d part va .write
  unfold nodeWrite Res.bind
  split
  · rename_i k; rw [k] at h; exact h
  · rename_i k
    rw [k] at h
    dsimp only
    split
    · exact h
    · exact h.trans (sameButMem_writeMem _ _ _)

theorem nodeWrite_wf (s : State) (d part va : Nat) (l : List Byte) (w : s.mem.wf = true) :
    (nodeWrite s d part va l).2.mem.wf = true := by
  have h := translate_wf s d part .own va .write w
  rw [← nodeTranslate_state] at h
  unfold nodeWrite Res.bind
  split
  · rename_i k; rw [k] at h; exact h
  · rename_i k
    rw [k] at h
    dsimp only
    split
    · exact h
    · exact State.writeMem_wf _ _ _ h

end Sys2Proof.Machine
end

