-- ==== Sys2Proof/Laws/Group.lean ====
section
/-! SUPPORT. The member bits of an address group: the list that GROUP_SET stores is the list that the group reads back. -/
namespace Sys2Proof.Machine

/-- One member more stands above the earlier ones. -/
theorem memberBits_snoc (l : List Nat) (a : Nat) :
    memberBits (l ++ [a]) = memberBits l + a % 1024 * 2 ^ (10 * l.length) := by
  unfold memberBits
  rw [List.length_append, List.length_singleton, List.range_succ, List.map_append, List.sum_append]
  congr 1
  · congr 1
    refine List.map_congr_left fun k hk => ?_
    rw [List.getD_append _ _ _ _ (List.mem_range.mp hk)]
  · simp

theorem memberBits_lt (l : List Nat) : memberBits l < 2 ^ (10 * l.length) := by
  induction l using List.reverseRecOn with
  | nil => decide
  | append_singleton l a ih =>
    rw [memberBits_snoc, List.length_append, List.length_singleton, show 10 * (l.length + 1) = 10 + 10 * l.length by omega, pow_add]
    have : a % 1024 < 1024 := Nat.mod_lt _ (by decide)
    nlinarith

/-- Each member is found in its ten bits. -/
theorem field_memberBits (l : List Nat) (k : Nat) (h : k < l.length) : field (memberBits l) (10 * k) 10 = l.getD k 0 % 1024 := by
  induction l using List.reverseRecOn with
  | nil => simp at h
  | append_singleton l a ih =>
    rw [memberBits_snoc]
    unfold field at *
    by_cases hk : k < l.length
    · rw [List.getD_append _ _ _ _ hk, ← ih hk, show 10 * l.length = 10 * k + (10 + 10 * (l.length - k - 1)) by omega, pow_add, pow_add,
        show a % 1024 * (2 ^ (10 * k) * (2 ^ 10 * 2 ^ (10 * (l.length - k - 1)))) =
          2 ^ (10 * k) * (2 ^ 10 * (a % 1024 * 2 ^ (10 * (l.length - k - 1)))) by ring,
        Nat.add_mul_div_left _ _ (by positivity), Nat.add_mul_mod_self_left]
    · have e : k = l.length := by simp at h; omega
      subst e
      rw [Nat.add_mul_div_right _ _ (by positivity), Nat.div_eq_of_lt (memberBits_lt l)]
      simp

/-- A group of two modules or more whose numbers fit ten bits has the members it was set to, in their order (19 R449). -/
theorem Group.members_set (l : List Nat) (bound : Nat) (h2 : 2 ≤ l.length) (hl : ∀ a ∈ l, a < 1024) :
    Group.members { gm1 := l.length - 1, bound := bound, bits := memberBits l } = l := by
  unfold Group.members
  rw [if_neg (by dsimp only; omega)]
  refine List.ext_getElem (by simp; omega) fun k _ hk' => ?_
  simp only [List.getElem_map, List.getElem_range]
  rw [field_memberBits l k hk', List.getD_eq_getElem _ _ hk', Nat.mod_eq_of_lt (hl _ (List.getElem_mem hk'))]

end Sys2Proof.Machine
end

