-- ==== Sys2Proof/Laws/PerInstr.lean ====
section
/-! SUPPORT. The family Fits: the encoder gives every instruction the unit that 08 R183 and R195 give it, in words of 32 bits;
one lemma per constructor. -/
namespace Sys2Proof.Laws.Fits

/-- The constructor has no unit (an event), or its unit is the words its first word announces, each below 2^32. -/
def Statement (i : Instr) : Prop :=
  encode i = [] ∨ ∃ w ws, encode i = w :: ws ∧ unitWords w = ws.length + 1 ∧ ∀ x ∈ w :: ws, x < 2 ^ 32

/-- A word whose major opcode is none of those with longer units is a unit of its own. -/
theorem single {i : Instr} (op r : Nat) (he : encode i = [op * 2 ^ 26 + r]) (hr : r < 2 ^ 26) (hop : op < 64)
    (h : op ≠ 0x3D ∧ op ≠ 0x3E ∧ op ≠ 0x28) : Statement i := by
  refine .inr ⟨_, [], he, ?_, ?_⟩
  · have hf : field (op * 2 ^ 26 + r) 26 6 = op := by unfold field; omega
    rw [unitWords, hf, if_neg h.1, if_neg h.2.1, if_neg h.2.2]; rfl
  · simp only [List.mem_singleton, forall_eq]; omega

theorem encT_fits {i : Instr} {op func : Nat} (gd ga gb : Reg) (he : encode i = encT op gd.val ga.val gb.val func)
    (hop : op < 64) (hf : func < 2 ^ 11) (h : op ≠ 0x3D ∧ op ≠ 0x3E ∧ op ≠ 0x28) : Statement i :=
  single op (gd.val * 2 ^ 21 + ga.val * 2 ^ 16 + gb.val * 2 ^ 11 + func) (he.trans (by simp only [encT, Nat.add_assoc]))
    (by have := gd.isLt; have := ga.isLt; have := gb.isLt; omega) hop h

theorem encI_fits {i : Instr} {op imm : Nat} (gd ga : Reg) (he : encode i = encI op gd.val ga.val imm)
    (hop : op < 64) (hf : imm < 2 ^ 16) (h : op ≠ 0x3D ∧ op ≠ 0x3E ∧ op ≠ 0x28) : Statement i :=
  single op (gd.val * 2 ^ 21 + ga.val * 2 ^ 16 + imm) (he.trans (by simp only [encI, Nat.add_assoc]))
    (by have := gd.isLt; have := ga.isLt; omega) hop h

theorem b2n_lt (b : Bool) : b2n b < 2 := by cases b <;> decide

theorem encM_fits {i : Instr} {op disp : Nat} (sz : Size) (sx : Bool) (gd ga : Reg)
    (he : encode i = encM op sz sx gd.val ga.val disp) (hop : op < 64) (hf : disp < 2 ^ 13)
    (h : op ≠ 0x3D ∧ op ≠ 0x3E ∧ op ≠ 0x28) : Statement i :=
  single op (gd.val * 2 ^ 21 + ga.val * 2 ^ 16 + sz.code * 2 ^ 14 + b2n sx * 2 ^ 13 + disp)
    (he.trans (by simp only [encM, Nat.add_assoc]))
    (by have := gd.isLt; have := ga.isLt; have := b2n_lt sx; cases sz <;> simp only [Size.code] <;> omega) hop h

theorem encW_fits {i : Instr} {op imm : Nat} (gd : Reg) (he : encode i = encW op gd.val imm)
    (hop : op < 64) (hf : imm < 2 ^ 21) (h : op ≠ 0x3D ∧ op ≠ 0x3E ∧ op ≠ 0x28) : Statement i :=
  single op (gd.val * 2 ^ 21 + imm) (he.trans (by simp only [encW, Nat.add_assoc])) (by have := gd.isLt; omega) hop h

theorem encQ_fits {i : Instr} {func : Nat} (gx gy : Reg) (q : Fin 16) (he : encode i = encQ gx.val gy.val q.val func)
    (hf : func < 16) : Statement i :=
  single 0x2C (gx.val * 2 ^ 21 + gy.val * 2 ^ 16 + q.val * 2 ^ 12 + func * 2 ^ 8) (he.trans (by simp only [encQ, Nat.add_assoc]))
    (by have := gx.isLt; have := gy.isLt; have := q.isLt; omega) (by decide) (by decide)

theorem encV_fits {i : Instr} {vop : Nat} (f : VFields) (he : encode i = encV vop f) (hv : vop < 128) : Statement i := by
  have h1 := f.km.isLt; have h2 := f.rm.isLt
  have d1 := f.vd.p.isLt; have d2 := f.vd.dir.isLt; have d3 := f.vd.idx.isLt
  have a1 := f.va.p.isLt; have a2 := f.va.dir.isLt; have a3 := f.va.idx.isLt
  have b1 := f.vb.p.isLt; have b2 := f.vb.dir.isLt; have b3 := f.vb.idx.isLt
  have c1 := f.vc.p.isLt; have c2 := f.vc.dir.isLt; have c3 := f.vc.idx.isLt
  refine .inr ⟨_, _, he, ?_, ?_⟩
  · have hf : field (0x3E * 2 ^ 26 + vop * 2 ^ 19 + f.km.val * 2 ^ 16 + f.vd.p.val * 2 ^ 11 + f.vd.dir.val * 2 ^ 9 +
        f.vd.idx.val * 2 ^ 5 + f.va.p.val) 26 6 = 0x3E := by unfold field; omega
    rw [unitWords, hf]; rfl
  · simp only [List.mem_cons, List.not_mem_nil, or_false, forall_eq_or_imp, forall_eq]; omega

theorem encStrides_fits (q : Quad (BitVec 24)) : ∀ x ∈ encStrides q, x < 2 ^ 32 := by
  have h0 := q.q0.isLt; have h1 := q.q1.isLt; have h2 := q.q2.isLt; have h3 := q.q3.isLt
  simp only [encStrides, List.mem_cons, List.not_mem_nil, or_false, forall_eq_or_imp, forall_eq]; omega

theorem encK_fits {i : Instr} {opc : Nat} (r : Rec) (he : encode i = encK opc r) (ho : opc < 64) : Statement i := by
  have h1 := r.prio.isLt; have h2 := r.cq.isLt; have h3 := r.tok.isLt; have h4 := r.prof.isLt
  have t0 := r.trip.q0.isLt; have t1 := r.trip.q1.isLt; have t2 := r.trip.q2.isLt; have t3 := r.trip.q3.isLt
  have c1 := r.hb.isLt; have c2 := r.ha.isLt; have c3 := r.fd.isLt; have c4 := r.fb.isLt; have c5 := r.fa.isLt
  have c6 := r.hd.isLt; have c7 := r.w14.isLt; have c8 := r.rm.isLt; have c9 := r.cpay.isLt
  have e1 := b2n_lt r.detach; have e2 := b2n_lt r.det; have e3 := b2n_lt r.stamp; have e4 := b2n_lt r.epi
  have e5 := b2n_lt r.chain; have e6 := b2n_lt r.accsat
  have f1 := b2n_lt r.rsv13; have f2 := b2n_lt r.ed; have f3 := b2n_lt r.eb; have f4 := b2n_lt r.ea
  refine .inr ⟨_, _, he, ?_, ?_⟩
  · have hf : field (0x3D * 2 ^ 26 + opc * 2 ^ 20 + r.prio.toNat * 2 ^ 16 + b2n r.detach * 2 ^ 15 + b2n r.det * 2 ^ 14 +
        b2n r.stamp * 2 ^ 13 + r.cq.toNat * 2 ^ 8 + r.tok.toNat * 2 ^ 5 + b2n r.epi * 2 ^ 4 + b2n r.chain * 2 ^ 3 +
        b2n r.accsat * 2 ^ 2 + r.prof.toNat) 26 6 = 0x3D := by unfold field; omega
    rw [unitWords, hf]; rfl
  · change ∀ x ∈ encK opc r, x < 2 ^ 32
    intro x hx
    simp only [encK, List.cons_append, List.nil_append, List.mem_cons, List.mem_append, List.not_mem_nil, or_false] at hx
    rcases hx with h | h | h | h | h | h | h | h | h | h
    · omega
    · omega
    · omega
    · exact encStrides_fits _ _ h
    · exact encStrides_fits _ _ h
    · exact encStrides_fits _ _ h
    all_goals omega


theorem add (gd ga gb : Reg) : Statement (.add gd ga gb) := encT_fits gd ga gb rfl (by decide) (by decide) (by decide)
theorem sub (gd ga gb : Reg) : Statement (.sub gd ga gb) := encT_fits gd ga gb rfl (by decide) (by decide) (by decide)
theorem mul (gd ga gb : Reg) : Statement (.mul gd ga gb) := encT_fits gd ga gb rfl (by decide) (by decide) (by decide)
theorem mulh (gd ga gb : Reg) : Statement (.mulh gd ga gb) := encT_fits gd ga gb rfl (by decide) (by decide) (by decide)
theorem mulhn (gd ga gb : Reg) : Statement (.mulhn gd ga gb) := encT_fits gd ga gb rfl (by decide) (by decide) (by decide)
theorem div (gd ga gb : Reg) : Statement (.div gd ga gb) := encT_fits gd ga gb rfl (by decide) (by decide) (by decide)
theorem divn (gd ga gb : Reg) : Statement (.divn gd ga gb) := encT_fits gd ga gb rfl (by decide) (by decide) (by decide)
theorem rem (gd ga gb : Reg) : Statement (.rem gd ga gb) := encT_fits gd ga gb rfl (by decide) (by decide) (by decide)
theorem remn (gd ga gb : Reg) : Statement (.remn gd ga gb) := encT_fits gd ga gb rfl (by decide) (by decide) (by decide)
theorem and (gd ga gb : Reg) : Statement (.and gd ga gb) := encT_fits gd ga gb rfl (by decide) (by decide) (by decide)
theorem or (gd ga gb : Reg) : Statement (.or gd ga gb) := encT_fits gd ga gb rfl (by decide) (by decide) (by decide)
theorem xor (gd ga gb : Reg) : Statement (.xor gd ga gb) := encT_fits gd ga gb rfl (by decide) (by decide) (by decide)
theorem andn (gd ga gb : Reg) : Statement (.andn gd ga gb) := encT_fits gd ga gb rfl (by decide) (by decide) (by decide)
theorem shl (gd ga gb : Reg) : Statement (.shl gd ga gb) := encT_fits gd ga gb rfl (by decide) (by decide) (by decide)
theorem shr (gd ga gb : Reg) : Statement (.shr gd ga gb) := encT_fits gd ga gb rfl (by decide) (by decide) (by decide)
theorem sra (gd ga gb : Reg) : Statement (.sra gd ga gb) := encT_fits gd ga gb rfl (by decide) (by decide) (by decide)
theorem rotl (gd ga gb : Reg) : Statement (.rotl gd ga gb) := encT_fits gd ga gb rfl (by decide) (by decide) (by decide)
theorem min (gd ga gb : Reg) : Statement (.min gd ga gb) := encT_fits gd ga gb rfl (by decide) (by decide) (by decide)
theorem max (gd ga gb : Reg) : Statement (.max gd ga gb) := encT_fits gd ga gb rfl (by decide) (by decide) (by decide)
theorem minn (gd ga gb : Reg) : Statement (.minn gd ga gb) := encT_fits gd ga gb rfl (by decide) (by decide) (by decide)
theorem maxn (gd ga gb : Reg) : Statement (.maxn gd ga gb) := encT_fits gd ga gb rfl (by decide) (by decide) (by decide)
theorem slt (gd ga gb : Reg) : Statement (.slt gd ga gb) := encT_fits gd ga gb rfl (by decide) (by decide) (by decide)
theorem sltn (gd ga gb : Reg) : Statement (.sltn gd ga gb) := encT_fits gd ga gb rfl (by decide) (by decide) (by decide)
theorem seq (gd ga gb : Reg) : Statement (.seq gd ga gb) := encT_fits gd ga gb rfl (by decide) (by decide) (by decide)
theorem clz (gd ga : Reg) : Statement (.clz gd ga) := encT_fits gd ga (0 : Reg) rfl (by decide) (by decide) (by decide)
theorem ctz (gd ga : Reg) : Statement (.ctz gd ga) := encT_fits gd ga (0 : Reg) rfl (by decide) (by decide) (by decide)
theorem popc (gd ga : Reg) : Statement (.popc gd ga) := encT_fits gd ga (0 : Reg) rfl (by decide) (by decide) (by decide)
theorem addi (gd ga : Reg) (imm : BitVec 16) : Statement (.addi gd ga imm) :=
  encI_fits gd ga rfl (by decide) (by have := imm.isLt; omega) (by decide)
theorem andi (gd ga : Reg) (imm : BitVec 16) : Statement (.andi gd ga imm) :=
  encI_fits gd ga rfl (by decide) (by have := imm.isLt; omega) (by decide)
theorem ori (gd ga : Reg) (imm : BitVec 16) : Statement (.ori gd ga imm) :=
  encI_fits gd ga rfl (by decide) (by have := imm.isLt; omega) (by decide)
theorem xori (gd ga : Reg) (imm : BitVec 16) : Statement (.xori gd ga imm) :=
  encI_fits gd ga rfl (by decide) (by have := imm.isLt; omega) (by decide)
theorem shli (gd ga : Reg) (imm : BitVec 6) : Statement (.shli gd ga imm) :=
  encI_fits gd ga rfl (by decide) (by have := imm.isLt; omega) (by decide)
theorem shri (gd ga : Reg) (imm : BitVec 6) : Statement (.shri gd ga imm) :=
  encI_fits gd ga rfl (by decide) (by have := imm.isLt; omega) (by decide)
theorem srai (gd ga : Reg) (imm : BitVec 6) : Statement (.srai gd ga imm) :=
  encI_fits gd ga rfl (by decide) (by have := imm.isLt; omega) (by decide)
theorem slti (gd ga : Reg) (imm : BitVec 16) : Statement (.slti gd ga imm) :=
  encI_fits gd ga rfl (by decide) (by have := imm.isLt; omega) (by decide)
theorem li (gd : Reg) (imm : BitVec 21) : Statement (.li gd imm) :=
  encW_fits gd rfl (by decide) (by have := imm.isLt; omega) (by decide)
theorem lih (gd : Reg) (imm : BitVec 21) : Statement (.lih gd imm) :=
  encW_fits gd rfl (by decide) (by have := imm.isLt; omega) (by decide)
theorem madd (gd ga gb gc : Reg) : Statement (.madd gd ga gb gc) :=
  encT_fits gd ga gb rfl (by decide) (by have := gc.isLt; omega) (by decide)
theorem bext (gd ga : Reg) (pos : BitVec 6) (lenM1 : BitVec 6) : Statement (.bext gd ga pos lenM1) :=
  encI_fits gd ga rfl (by decide) (by have := pos.isLt; have := lenM1.isLt; omega) (by decide)
theorem bins (gd ga : Reg) (pos : BitVec 6) (lenM1 : BitVec 6) : Statement (.bins gd ga pos lenM1) :=
  encI_fits gd ga rfl (by decide) (by have := pos.isLt; have := lenM1.isLt; omega) (by decide)
theorem sext (gd ga : Reg) (lenM1 : BitVec 6) : Statement (.sext gd ga lenM1) :=
  encI_fits gd ga rfl (by decide) (by have := lenM1.isLt; omega) (by decide)
theorem zext (gd ga : Reg) (lenM1 : BitVec 6) : Statement (.zext gd ga lenM1) :=
  encI_fits gd ga rfl (by decide) (by have := lenM1.isLt; omega) (by decide)
theorem beq (ga gb : Reg) (disp : BitVec 16) : Statement (.beq ga gb disp) :=
  encI_fits ga gb rfl (by decide) (by have := disp.isLt; omega) (by decide)
theorem bne (ga gb : Reg) (disp : BitVec 16) : Statement (.bne ga gb disp) :=
  encI_fits ga gb rfl (by decide) (by have := disp.isLt; omega) (by decide)
theorem blt (ga gb : Reg) (disp : BitVec 16) : Statement (.blt ga gb disp) :=
  encI_fits ga gb rfl (by decide) (by have := disp.isLt; omega) (by decide)
theorem bge (ga gb : Reg) (disp : BitVec 16) : Statement (.bge ga gb disp) :=
  encI_fits ga gb rfl (by decide) (by have := disp.isLt; omega) (by decide)
theorem bltn (ga gb : Reg) (disp : BitVec 16) : Statement (.bltn ga gb disp) :=
  encI_fits ga gb rfl (by decide) (by have := disp.isLt; omega) (by decide)
theorem bgen (ga gb : Reg) (disp : BitVec 16) : Statement (.bgen ga gb disp) :=
  encI_fits ga gb rfl (by decide) (by have := disp.isLt; omega) (by decide)
theorem loop (ga : Reg) (disp : BitVec 16) : Statement (.loop ga disp) :=
  encI_fits ga (0 : Reg) rfl (by decide) (by have := disp.isLt; omega) (by decide)
theorem jr (ga : Reg) : Statement (.jr ga) := encI_fits ga (1 : Reg) rfl (by decide) (by decide) (by decide)
theorem ret : Statement (.ret) := encI_fits (0 : Reg) (2 : Reg) rfl (by decide) (by decide) (by decide)
theorem call (frame : Fin 21) (disp : BitVec 21) : Statement (.call frame disp) :=
  encW_fits (Fin.castLE (by decide) frame : Reg) rfl (by decide) (by have := disp.isLt; omega) (by decide)
theorem b (disp : BitVec 21) : Statement (.b disp) :=
  encW_fits (31 : Reg) rfl (by decide) (by have := disp.isLt; omega) (by decide)
theorem ld (sz : Size) (sx : Bool) (gd ga : Reg) (disp : BitVec 13) : Statement (.ld sz sx gd ga disp) :=
  encM_fits sz sx gd ga rfl (by decide) (by have := disp.isLt; omega) (by decide)
theorem st (sz : Size) (gd ga : Reg) (disp : BitVec 13) : Statement (.st sz gd ga disp) :=
  encM_fits sz false gd ga rfl (by decide) (by have := disp.isLt; omega) (by decide)
theorem ldx (sz : Size) (sx : Bool) (gd ga : Reg) (disp : BitVec 13) : Statement (.ldx sz sx gd ga disp) :=
  encM_fits sz sx gd ga rfl (by decide) (by have := disp.isLt; omega) (by decide)
theorem stx (sz : Size) (gd ga : Reg) (disp : BitVec 13) : Statement (.stx sz gd ga disp) :=
  encM_fits sz false gd ga rfl (by decide) (by have := disp.isLt; omega) (by decide)
theorem ldt (sz : Size) (sx : Bool) (gd ga : Reg) (desc : BitVec 12) : Statement (.ldt sz sx gd ga desc) :=
  encM_fits sz sx gd ga rfl (by decide) (by have := desc.isLt; omega) (by decide)
theorem stt (sz : Size) (gd ga : Reg) (desc : BitVec 12) : Statement (.stt sz gd ga desc) :=
  encM_fits sz false gd ga rfl (by decide) (by have := desc.isLt; omega) (by decide)
theorem dset (ga : Reg) (desc : BitVec 12) : Statement (.dset ga desc) :=
  encI_fits (0 : Reg) ga rfl (by decide) (by have := desc.isLt; omega) (by decide)
theorem dget (ga : Reg) (desc : BitVec 12) : Statement (.dget ga desc) :=
  encI_fits (1 : Reg) ga rfl (by decide) (by have := desc.isLt; omega) (by decide)
theorem probe (write : Bool) (gd ga : Reg) (desc : BitVec 12) : Statement (.probe write gd ga desc) :=
  encI_fits gd ga rfl (by decide) (by have := b2n_lt write; have := desc.isLt; omega) (by decide)
theorem aadd (wide : Bool) (gd ga gb : Reg) : Statement (.aadd wide gd ga gb) :=
  encT_fits gd ga gb rfl (by decide) (by have := b2n_lt wide; omega) (by decide)
theorem amin (wide : Bool) (gd ga gb : Reg) : Statement (.amin wide gd ga gb) :=
  encT_fits gd ga gb rfl (by decide) (by have := b2n_lt wide; omega) (by decide)
theorem amax (wide : Bool) (gd ga gb : Reg) : Statement (.amax wide gd ga gb) :=
  encT_fits gd ga gb rfl (by decide) (by have := b2n_lt wide; omega) (by decide)
theorem aminn (wide : Bool) (gd ga gb : Reg) : Statement (.aminn wide gd ga gb) :=
  encT_fits gd ga gb rfl (by decide) (by have := b2n_lt wide; omega) (by decide)
theorem amaxn (wide : Bool) (gd ga gb : Reg) : Statement (.amaxn wide gd ga gb) :=
  encT_fits gd ga gb rfl (by decide) (by have := b2n_lt wide; omega) (by decide)
theorem aand (wide : Bool) (gd ga gb : Reg) : Statement (.aand wide gd ga gb) :=
  encT_fits gd ga gb rfl (by decide) (by have := b2n_lt wide; omega) (by decide)
theorem aor (wide : Bool) (gd ga gb : Reg) : Statement (.aor wide gd ga gb) :=
  encT_fits gd ga gb rfl (by decide) (by have := b2n_lt wide; omega) (by decide)
theorem axor (wide : Bool) (gd ga gb : Reg) : Statement (.axor wide gd ga gb) :=
  encT_fits gd ga gb rfl (by decide) (by have := b2n_lt wide; omega) (by decide)
theorem axchg (wide : Bool) (gd ga gb : Reg) : Statement (.axchg wide gd ga gb) :=
  encT_fits gd ga gb rfl (by decide) (by have := b2n_lt wide; omega) (by decide)
theorem acas (wide : Bool) (gd ga gb : Reg) : Statement (.acas wide gd ga gb) :=
  encT_fits gd ga gb rfl (by decide) (by have := b2n_lt wide; omega) (by decide)
theorem aaddRemote (wide : Bool) (gd ga gb : Reg) : Statement (.aaddRemote wide gd ga gb) :=
  encT_fits gd ga gb rfl (by decide) (by have := b2n_lt wide; omega) (by decide)
theorem aminRemote (wide : Bool) (gd ga gb : Reg) : Statement (.aminRemote wide gd ga gb) :=
  encT_fits gd ga gb rfl (by decide) (by have := b2n_lt wide; omega) (by decide)
theorem amaxRemote (wide : Bool) (gd ga gb : Reg) : Statement (.amaxRemote wide gd ga gb) :=
  encT_fits gd ga gb rfl (by decide) (by have := b2n_lt wide; omega) (by decide)
theorem aminnRemote (wide : Bool) (gd ga gb : Reg) : Statement (.aminnRemote wide gd ga gb) :=
  encT_fits gd ga gb rfl (by decide) (by have := b2n_lt wide; omega) (by decide)
theorem amaxnRemote (wide : Bool) (gd ga gb : Reg) : Statement (.amaxnRemote wide gd ga gb) :=
  encT_fits gd ga gb rfl (by decide) (by have := b2n_lt wide; omega) (by decide)
theorem aandRemote (wide : Bool) (gd ga gb : Reg) : Statement (.aandRemote wide gd ga gb) :=
  encT_fits gd ga gb rfl (by decide) (by have := b2n_lt wide; omega) (by decide)
theorem aorRemote (wide : Bool) (gd ga gb : Reg) : Statement (.aorRemote wide gd ga gb) :=
  encT_fits gd ga gb rfl (by decide) (by have := b2n_lt wide; omega) (by decide)
theorem axorRemote (wide : Bool) (gd ga gb : Reg) : Statement (.axorRemote wide gd ga gb) :=
  encT_fits gd ga gb rfl (by decide) (by have := b2n_lt wide; omega) (by decide)
theorem axchgRemote (wide : Bool) (gd ga gb : Reg) : Statement (.axchgRemote wide gd ga gb) :=
  encT_fits gd ga gb rfl (by decide) (by have := b2n_lt wide; omega) (by decide)
theorem acasRemote (wide : Bool) (gd ga gb : Reg) : Statement (.acasRemote wide gd ga gb) :=
  encT_fits gd ga gb rfl (by decide) (by have := b2n_lt wide; omega) (by decide)
theorem aaddTensor (wide : Bool) (gd ga gb : Reg) (desc : BitVec 7) : Statement (.aaddTensor wide gd ga gb desc) :=
  encT_fits gd ga gb rfl (by cases wide <;> decide) (by have := desc.isLt; omega) (by cases wide <;> decide)
theorem aminTensor (wide : Bool) (gd ga gb : Reg) (desc : BitVec 7) : Statement (.aminTensor wide gd ga gb desc) :=
  encT_fits gd ga gb rfl (by cases wide <;> decide) (by have := desc.isLt; omega) (by cases wide <;> decide)
theorem amaxTensor (wide : Bool) (gd ga gb : Reg) (desc : BitVec 7) : Statement (.amaxTensor wide gd ga gb desc) :=
  encT_fits gd ga gb rfl (by cases wide <;> decide) (by have := desc.isLt; omega) (by cases wide <;> decide)
theorem aminnTensor (wide : Bool) (gd ga gb : Reg) (desc : BitVec 7) : Statement (.aminnTensor wide gd ga gb desc) :=
  encT_fits gd ga gb rfl (by cases wide <;> decide) (by have := desc.isLt; omega) (by cases wide <;> decide)
theorem amaxnTensor (wide : Bool) (gd ga gb : Reg) (desc : BitVec 7) : Statement (.amaxnTensor wide gd ga gb desc) :=
  encT_fits gd ga gb rfl (by cases wide <;> decide) (by have := desc.isLt; omega) (by cases wide <;> decide)
theorem aandTensor (wide : Bool) (gd ga gb : Reg) (desc : BitVec 7) : Statement (.aandTensor wide gd ga gb desc) :=
  encT_fits gd ga gb rfl (by cases wide <;> decide) (by have := desc.isLt; omega) (by cases wide <;> decide)
theorem aorTensor (wide : Bool) (gd ga gb : Reg) (desc : BitVec 7) : Statement (.aorTensor wide gd ga gb desc) :=
  encT_fits gd ga gb rfl (by cases wide <;> decide) (by have := desc.isLt; omega) (by cases wide <;> decide)
theorem axorTensor (wide : Bool) (gd ga gb : Reg) (desc : BitVec 7) : Statement (.axorTensor wide gd ga gb desc) :=
  encT_fits gd ga gb rfl (by cases wide <;> decide) (by have := desc.isLt; omega) (by cases wide <;> decide)
theorem axchgTensor (wide : Bool) (gd ga gb : Reg) (desc : BitVec 7) : Statement (.axchgTensor wide gd ga gb desc) :=
  encT_fits gd ga gb rfl (by cases wide <;> decide) (by have := desc.isLt; omega) (by cases wide <;> decide)
theorem acasTensor (wide : Bool) (gd ga gb : Reg) (desc : BitVec 7) : Statement (.acasTensor wide gd ga gb desc) :=
  encT_fits gd ga gb rfl (by cases wide <;> decide) (by have := desc.isLt; omega) (by cases wide <;> decide)
theorem pfx (m : Modifier) (second : W32) : Statement (.pfx m second) := by
  have hm : m.code < 2 ^ 21 := by
    have h := m.chint.isLt
    unfold Modifier.code
    cases m.order <;> cases m.scope <;> simp only [Order.code, Scope.code] <;> omega
  refine .inr ⟨_, [second.toNat], rfl, ?_, ?_⟩
  · have hf : field (0x28 * 2 ^ 26 + 0 * 2 ^ 21 + m.code) 26 6 = 0x28 := by unfold field; omega
    rw [unitWords, hf]; rfl
  · have h := second.isLt
    simp only [List.mem_cons, List.not_mem_nil, or_false, forall_eq_or_imp, forall_eq]; omega
theorem fence (scope : Scope) : Statement (.fence scope) :=
  encT_fits (0 : Reg) (0 : Reg) (0 : Reg) rfl (by decide) (by cases scope <;> decide) (by decide)
theorem acqx (ga : Reg) : Statement (.acqx ga) := encT_fits (0 : Reg) ga (0 : Reg) rfl (by decide) (by decide) (by decide)
theorem acqs (ga : Reg) : Statement (.acqs ga) := encT_fits (0 : Reg) ga (0 : Reg) rfl (by decide) (by decide) (by decide)
theorem rel (ga : Reg) : Statement (.rel ga) := encT_fits (0 : Reg) ga (0 : Reg) rfl (by decide) (by decide) (by decide)
theorem bind (ga gb : Reg) : Statement (.bind ga gb) := encT_fits (0 : Reg) ga gb rfl (by decide) (by decide) (by decide)
theorem unbind (ga gb : Reg) : Statement (.unbind ga gb) :=
  encT_fits (0 : Reg) ga gb rfl (by decide) (by decide) (by decide)
theorem sigwait (gd ga gb : Reg) : Statement (.sigwait gd ga gb) :=
  encT_fits gd ga gb rfl (by decide) (by decide) (by decide)
theorem qpush (q : Fin 16) (gs : Reg) : Statement (.qpush q gs) := encQ_fits gs (0 : Reg) q rfl (by decide)
theorem qpop (gd : Reg) (q : Fin 16) : Statement (.qpop gd q) := encQ_fits gd (0 : Reg) q rfl (by decide)
theorem qtry (gd : Reg) (q : Fin 16) : Statement (.qtry gd q) := encQ_fits gd (0 : Reg) q rfl (by decide)
theorem qpeek (gd : Reg) (q : Fin 16) : Statement (.qpeek gd q) := encQ_fits gd (0 : Reg) q rfl (by decide)
theorem qcnt (gd : Reg) (q : Fin 16) : Statement (.qcnt gd q) := encQ_fits gd (0 : Reg) q rfl (by decide)
theorem qpushx (gs : Reg) (q : Fin 16) (gr : Reg) : Statement (.qpushx gs q gr) := encQ_fits gs gr q rfl (by decide)
theorem barset (bar : Fin 24) (ga : Reg) : Statement (.barset bar ga) :=
  encT_fits (0 : Reg) ga (0 : Reg) rfl (by decide) (by have := bar.isLt; omega) (by decide)
theorem barv (bar : Fin 24) : Statement (.barv bar) :=
  encT_fits (0 : Reg) (0 : Reg) (0 : Reg) rfl (by decide) (by have := bar.isLt; omega) (by decide)
theorem barw (bar : Fin 24) : Statement (.barw bar) :=
  encT_fits (0 : Reg) (0 : Reg) (0 : Reg) rfl (by decide) (by have := bar.isLt; omega) (by decide)
theorem bart (gd : Reg) (bar : Fin 24) : Statement (.bart gd bar) :=
  encT_fits gd (0 : Reg) (0 : Reg) rfl (by decide) (by have := bar.isLt; omega) (by decide)
theorem barws (gd : Reg) (bar : Fin 24) (ga : Reg) : Statement (.barws gd bar ga) :=
  encT_fits gd ga (0 : Reg) rfl (by decide) (by have := bar.isLt; omega) (by decide)
theorem opwait (gd ga : Reg) : Statement (.opwait gd ga) :=
  encT_fits gd ga (0 : Reg) rfl (by decide) (by decide) (by decide)
theorem opcancel (ga : Reg) : Statement (.opcancel ga) :=
  encT_fits (0 : Reg) ga (0 : Reg) rfl (by decide) (by decide) (by decide)
theorem optest (gd ga : Reg) : Statement (.optest gd ga) :=
  encT_fits gd ga (0 : Reg) rfl (by decide) (by decide) (by decide)
theorem opprio (ga gb : Reg) : Statement (.opprio ga gb) :=
  encT_fits (0 : Reg) ga gb rfl (by decide) (by decide) (by decide)
theorem opdetach (ga : Reg) : Statement (.opdetach ga) :=
  encT_fits (0 : Reg) ga (0 : Reg) rfl (by decide) (by decide) (by decide)
theorem launch (ga : Reg) : Statement (.launch ga) :=
  encT_fits (0 : Reg) ga (0 : Reg) rfl (by decide) (by decide) (by decide)
theorem exit : Statement (.exit) := encT_fits (0 : Reg) (0 : Reg) (0 : Reg) rfl (by decide) (by decide) (by decide)
theorem brk : Statement (.brk) := encT_fits (0 : Reg) (0 : Reg) (0 : Reg) rfl (by decide) (by decide) (by decide)
theorem publish : Statement (.publish) := encT_fits (0 : Reg) (0 : Reg) (0 : Reg) rfl (by decide) (by decide) (by decide)
theorem fmtset (f : Fin 16) (ga : Reg) : Statement (.fmtset f ga) :=
  encT_fits (0 : Reg) ga (0 : Reg) rfl (by decide) (by have := f.isLt; omega) (by decide)
theorem fmtget (gd : Reg) (f : Fin 16) : Statement (.fmtget gd f) :=
  encT_fits gd (0 : Reg) (0 : Reg) rfl (by decide) (by have := f.isLt; omega) (by decide)
theorem rdsc (gd : Reg) : Statement (.rdsc gd) := encT_fits gd (0 : Reg) (0 : Reg) rfl (by decide) (by decide) (by decide)
theorem rndkLo (gd ga gb : Reg) : Statement (.rndkLo gd ga gb) := encT_fits gd ga gb rfl (by decide) (by decide) (by decide)
theorem rndkHi (gd ga gb : Reg) : Statement (.rndkHi gd ga gb) := encT_fits gd ga gb rfl (by decide) (by decide) (by decide)
theorem trap (n : Fin 16) : Statement (.trap n) :=
  encT_fits (0 : Reg) (0 : Reg) (0 : Reg) rfl (by decide) (by have := n.isLt; omega) (by decide)
theorem ctlrd (gd : Reg) (index : BitVec 12) : Statement (.ctlrd gd index) :=
  encI_fits gd (0 : Reg) rfl (by decide) (by have := index.isLt; omega) (by decide)
theorem ctlwr (index : BitVec 12) (ga : Reg) : Statement (.ctlwr index ga) :=
  encI_fits (0 : Reg) ga rfl (by decide) (by have := index.isLt; omega) (by decide)
theorem pondWrite (p : Fin 16) (ga : Reg) : Statement (.pondWrite p ga) := .inl rfl
theorem spillWrite (ga : Reg) : Statement (.spillWrite ga) := .inl rfl
theorem perfClear (ga : Reg) : Statement (.perfClear ga) := .inl rfl
theorem perfFreeze (ga : Reg) : Statement (.perfFreeze ga) := .inl rfl
theorem yield (disp : BitVec 21) : Statement (.yield disp) :=
  encW_fits (0 : Reg) rfl (by decide) (by have := disp.isLt; omega) (by decide)
theorem illegalInstructionWord (w0 : W32) (w1 : Option W32) : Statement (.illegalInstructionWord w0 w1) := .inl rfl
theorem instructionFetchFault (page : VAddr) (straddle : Bool) (absent : Bool) : Statement (.instructionFetchFault page straddle absent) := .inl rfl
theorem vadd (f : VFields) : Statement (.vadd f) := encV_fits f rfl (by decide)
theorem vsub (f : VFields) : Statement (.vsub f) := encV_fits f rfl (by decide)
theorem vmul (f : VFields) : Statement (.vmul f) := encV_fits f rfl (by decide)
theorem vfma (f : VFields) : Statement (.vfma f) := encV_fits f rfl (by decide)
theorem vfms (f : VFields) : Statement (.vfms f) := encV_fits f rfl (by decide)
theorem vfnma (f : VFields) : Statement (.vfnma f) := encV_fits f rfl (by decide)
theorem vmin (f : VFields) : Statement (.vmin f) := encV_fits f rfl (by decide)
theorem vmax (f : VFields) : Statement (.vmax f) := encV_fits f rfl (by decide)
theorem vabs (f : VFields) : Statement (.vabs f) := encV_fits f rfl (by decide)
theorem vneg (f : VFields) : Statement (.vneg f) := encV_fits f rfl (by decide)
theorem vrcp (f : VFields) : Statement (.vrcp f) := encV_fits f rfl (by decide)
theorem vrsq (f : VFields) : Statement (.vrsq f) := encV_fits f rfl (by decide)
theorem vsqrt (f : VFields) : Statement (.vsqrt f) := encV_fits f rfl (by decide)
theorem vdiv (f : VFields) : Statement (.vdiv f) := encV_fits f rfl (by decide)
theorem vexp2 (f : VFields) : Statement (.vexp2 f) := encV_fits f rfl (by decide)
theorem vlog2 (f : VFields) : Statement (.vlog2 f) := encV_fits f rfl (by decide)
theorem vcmp (f : VFields) : Statement (.vcmp f) := encV_fits f rfl (by decide)
theorem vsel (f : VFields) : Statement (.vsel f) := encV_fits f rfl (by decide)
theorem vand (f : VFields) : Statement (.vand f) := encV_fits f rfl (by decide)
theorem vor (f : VFields) : Statement (.vor f) := encV_fits f rfl (by decide)
theorem vxor (f : VFields) : Statement (.vxor f) := encV_fits f rfl (by decide)
theorem vshl (f : VFields) : Statement (.vshl f) := encV_fits f rfl (by decide)
theorem vshr (f : VFields) : Statement (.vshr f) := encV_fits f rfl (by decide)
theorem vsra (f : VFields) : Statement (.vsra f) := encV_fits f rfl (by decide)
theorem viadd (f : VFields) : Statement (.viadd f) := encV_fits f rfl (by decide)
theorem visub (f : VFields) : Statement (.visub f) := encV_fits f rfl (by decide)
theorem vimul (f : VFields) : Statement (.vimul f) := encV_fits f rfl (by decide)
theorem vcvt (f : VFields) : Statement (.vcvt f) := encV_fits f rfl (by decide)
theorem vbcast (f : VFields) : Statement (.vbcast f) := encV_fits f rfl (by decide)
theorem vbcastRows (f : VFields) : Statement (.vbcastRows f) := encV_fits f rfl (by decide)
theorem vbcastCols (f : VFields) : Statement (.vbcastCols f) := encV_fits f rfl (by decide)
theorem vmov (f : VFields) : Statement (.vmov f) := encV_fits f rfl (by decide)
theorem vmovToG (f : VFields) : Statement (.vmovToG f) := encV_fits f rfl (by decide)
theorem vmovFromG (f : VFields) : Statement (.vmovFromG f) := encV_fits f rfl (by decide)
theorem vld (f : VFields) : Statement (.vld f) := encV_fits f rfl (by decide)
theorem vst (f : VFields) : Statement (.vst f) := encV_fits f rfl (by decide)
theorem vred (f : VFields) : Statement (.vred f) := encV_fits f rfl (by decide)
theorem vscan (f : VFields) : Statement (.vscan f) := encV_fits f rfl (by decide)
theorem vperm (f : VFields) : Statement (.vperm f) := encV_fits f rfl (by decide)
theorem vtrans (f : VFields) : Statement (.vtrans f) := encV_fits f rfl (by decide)
theorem vrng (f : VFields) : Statement (.vrng f) := encV_fits f rfl (by decide)
theorem vidx (f : VFields) : Statement (.vidx f) := encV_fits f rfl (by decide)
theorem kand (f : VFields) : Statement (.kand f) := encV_fits f rfl (by decide)
theorem kor (f : VFields) : Statement (.kor f) := encV_fits f rfl (by decide)
theorem knot (f : VFields) : Statement (.knot f) := encV_fits f rfl (by decide)
theorem kpop (f : VFields) : Statement (.kpop f) := encV_fits f rfl (by decide)
theorem tload (r : Rec) : Statement (.tload r) := encK_fits r rfl (by decide)
theorem tgather (r : Rec) : Statement (.tgather r) := encK_fits r rfl (by decide)
theorem sload (r : Rec) : Statement (.sload r) := encK_fits r rfl (by decide)
theorem xpull (r : Rec) : Statement (.xpull r) := encK_fits r rfl (by decide)
theorem fill (r : Rec) : Statement (.fill r) := encK_fits r rfl (by decide)
theorem mcred (r : Rec) : Statement (.mcred r) := encK_fits r rfl (by decide)
theorem rload (r : Rec) : Statement (.rload r) := encK_fits r rfl (by decide)
theorem wload (r : Rec) : Statement (.wload r) := encK_fits r rfl (by decide)
theorem wswap (r : Rec) : Statement (.wswap r) := encK_fits r rfl (by decide)
theorem mma (r : Rec) : Statement (.mma r) := encK_fits r rfl (by decide)
theorem mmas (r : Rec) : Statement (.mmas r) := encK_fits r rfl (by decide)
theorem mdrain (r : Rec) : Statement (.mdrain r) := encK_fits r rfl (by decide)
theorem mdrainDirect (r : Rec) : Statement (.mdrainDirect r) := encK_fits r rfl (by decide)
theorem mzero (r : Rec) : Statement (.mzero r) := encK_fits r rfl (by decide)
theorem mchain (r : Rec) : Statement (.mchain r) := encK_fits r rfl (by decide)
theorem mcopy (r : Rec) : Statement (.mcopy r) := encK_fits r rfl (by decide)
theorem tstore (r : Rec) : Statement (.tstore r) := encK_fits r rfl (by decide)
theorem tscatter (r : Rec) : Statement (.tscatter r) := encK_fits r rfl (by decide)
theorem tred (r : Rec) : Statement (.tred r) := encK_fits r rfl (by decide)
theorem rstore (r : Rec) : Statement (.rstore r) := encK_fits r rfl (by decide)
theorem rsig (r : Rec) : Statement (.rsig r) := encK_fits r rfl (by decide)
theorem xpush (r : Rec) : Statement (.xpush r) := encK_fits r rfl (by decide)
theorem recordAccept (t : TileId) (c : CoreId) : Statement (.recordAccept t c) := .inl rfl
theorem blockedInstructionRetry (t : TileId) (c : CoreId) : Statement (.blockedInstructionRetry t c) := .inl rfl
theorem operationStart (t : TileId) (e : Engine) : Statement (.operationStart t e) := .inl rfl
theorem engineIteration (t : TileId) (e : Engine) : Statement (.engineIteration t e) := .inl rfl
theorem tokenPendingAppend (t : TileId) (e : Engine) : Statement (.tokenPendingAppend t e) := .inl rfl
theorem queuedCancelComplete (t : TileId) (e : Engine) : Statement (.queuedCancelComplete t e) := .inl rfl
theorem stampExpiry (t : TileId) (e : Engine) : Statement (.stampExpiry t e) := .inl rfl
theorem mchainRendezvous (t : TileId) : Statement (.mchainRendezvous t) := .inl rfl
theorem gangTokenAccept (t : TileId) (q : Fin 16) : Statement (.gangTokenAccept t q) := .inl rfl
theorem barrierArrival (t : TileId) (bar : Fin 24) : Statement (.barrierArrival t bar) := .inl rfl
theorem barwWake (t : TileId) (c : CoreId) : Statement (.barwWake t c) := .inl rfl
theorem sigwaitTimeout (t : TileId) (c : CoreId) : Statement (.sigwaitTimeout t c) := .inl rfl
theorem localDeadlock (t : TileId) : Statement (.localDeadlock t) := .inl rfl
theorem gangDeadlock (p : PartId) (node : VAddr) : Statement (.gangDeadlock p node) := .inl rfl
theorem preemptRequest (t : TileId) : Statement (.preemptRequest t) := .inl rfl
theorem preemptDeadline (t : TileId) : Statement (.preemptDeadline t) := .inl rfl
theorem tileSave (t : TileId) : Statement (.tileSave t) := .inl rfl
theorem saveComplete (t : TileId) : Statement (.saveComplete t) := .inl rfl
theorem saveLimitExpiry (t : TileId) : Statement (.saveLimitExpiry t) := .inl rfl
theorem tileFreeze (t : TileId) : Statement (.tileFreeze t) := .inl rfl
theorem firmwareResolve (t : TileId) : Statement (.firmwareResolve t) := .inl rfl
theorem tileResume (t : TileId) : Statement (.tileResume t) := .inl rfl
theorem gangRestore (t : TileId) : Statement (.gangRestore t) := .inl rfl
theorem tileWakeBegin (t : TileId) : Statement (.tileWakeBegin t) := .inl rfl
theorem tileWakeComplete (t : TileId) : Statement (.tileWakeComplete t) := .inl rfl
theorem gangRelease (p : PartId) (node : VAddr) : Statement (.gangRelease p node) := .inl rfl
theorem tileClockGate (t : TileId) : Statement (.tileClockGate t) := .inl rfl
theorem fabricResponse (t : TileId) (u : FabUnit) (ans : FabAnswer) : Statement (.fabricResponse t u ans) := .inl rfl
theorem fabricTimeout (t : TileId) (u : FabUnit) : Statement (.fabricTimeout t u) := .inl rfl
theorem postedFailure (t : TileId) (module : BitVec 10) (f : FabFault) : Statement (.postedFailure t module f) := .inl rfl
theorem fabricRequestArrival (die : DieId) (tag : BitVec 16) (offset : BitVec 46) (req : FabReq) : Statement (.fabricRequestArrival die tag offset req) := .inl rfl
theorem signalPerform (t : TileId) (module : BitVec 10) : Statement (.signalPerform t module) := .inl rfl
theorem remoteScratchAccess (t : TileId) (c : CoreId) : Statement (.remoteScratchAccess t c) := .inl rfl
theorem pageWalk (die : DieId) (p : PartId) (root : Root) (va : VAddr) (acc : Access) : Statement (.pageWalk die p root va acc) := .inl rfl
theorem shootDown (p : PartId) (root : Root) (va : VAddr) (len : Nat) (dies : BitVec 4) : Statement (.shootDown p root va len dies) := .inl rfl
theorem nodeRetirement (p : PartId) (node : VAddr) : Statement (.nodeRetirement p node) := .inl rfl
theorem nodeFiring (p : PartId) (node : VAddr) : Statement (.nodeFiring p node) := .inl rfl
theorem faultReport (t : TileId) : Statement (.faultReport t) := .inl rfl
theorem attemptEnd (p : PartId) (node : VAddr) : Statement (.attemptEnd p node) := .inl rfl
theorem preemptionDecision (p : PartId) : Statement (.preemptionDecision p) := .inl rfl
theorem placement (p : PartId) (node : VAddr) (picks : List Nat) : Statement (.placement p node picks) := .inl rfl
theorem reservationReply (p : PartId) (node : VAddr) (refused : BitVec 4) : Statement (.reservationReply p node refused) := .inl rfl
theorem coneWalkStep (p : PartId) : Statement (.coneWalkStep p) := .inl rfl
theorem nodeAgeing (p : PartId) (node : VAddr) : Statement (.nodeAgeing p node) := .inl rfl
theorem backfillLimit (p : PartId) : Statement (.backfillLimit p) := .inl rfl
theorem ringDoorbell (r : RingId) (w : Word) : Statement (.ringDoorbell r w) := .inl rfl
theorem ringStart (r : RingId) : Statement (.ringStart r) := .inl rfl
theorem ringResume (r : RingId) : Statement (.ringResume r) := .inl rfl
theorem ringStop (r : RingId) : Statement (.ringStop r) := .inl rfl
theorem packetAccept (r : RingId) : Statement (.packetAccept r) := .inl rfl
theorem packetReread (r : RingId) : Statement (.packetReread r) := .inl rfl
theorem packetStart (r : RingId) : Statement (.packetStart r) := .inl rfl
theorem nop (p : PartId) (k : PktCtx) : Statement (.nop p k) := .inl rfl
theorem submitNode (p : PartId) (k : PktCtx) (node : Word) : Statement (.submitNode p k node) := .inl rfl
theorem submitGraph (p : PartId) (k : PktCtx) (graph : Word) : Statement (.submitGraph p k graph) := .inl rfl
theorem cancelNode (p : PartId) (k : PktCtx) (node : Word) : Statement (.cancelNode p k node) := .inl rfl
theorem abortGraph (p : PartId) (k : PktCtx) (graph : Word) : Statement (.abortGraph p k graph) := .inl rfl
theorem map (p : PartId) (k : PktCtx) (addr len frame flags : Word) : Statement (.map p k addr len frame flags) := .inl rfl
theorem unmap (p : PartId) (k : PktCtx) (addr len : Word) : Statement (.unmap p k addr len) := .inl rfl
theorem discard (p : PartId) (k : PktCtx) (addr len : Word) : Statement (.discard p k addr len) := .inl rfl
theorem groupSet (p : PartId) (k : PktCtx) (group g list : Word) : Statement (.groupSet p k group g list) := .inl rfl
theorem groupBind (p : PartId) (k : PktCtx) (group : Word) : Statement (.groupBind p k group) := .inl rfl
theorem groupUnbind (p : PartId) (k : PktCtx) (group : Word) : Statement (.groupUnbind p k group) := .inl rfl
theorem exportPages (p : PartId) (k : PktCtx) (offset len addr flags : Word) : Statement (.exportPages p k offset len addr flags) := .inl rfl
theorem unexportPages (p : PartId) (k : PktCtx) (offset len : Word) : Statement (.unexportPages p k offset len) := .inl rfl
theorem partCreate (k : PktCtx) (p clusters base len tag : Word) : Statement (.partCreate k p clusters base len tag) := .inl rfl
theorem partReset (k : PktCtx) (p : Word) : Statement (.partReset k p) := .inl rfl
theorem partDestroy (k : PktCtx) (p : Word) : Statement (.partDestroy k p) := .inl rfl
theorem loadImage (k : PktCtx) (addr len : Word) : Statement (.loadImage k addr len) := .inl rfl
theorem eventHeadWrite (p : Option PartId) (head : Word) : Statement (.eventHeadWrite p head) := .inl rfl
theorem apertureRead (p : PartId) (addr : VAddr) (len : Nat) : Statement (.apertureRead p addr len) := .inl rfl
theorem apertureWrite (p : PartId) (addr : VAddr) (bytes : List Byte) : Statement (.apertureWrite p addr bytes) := .inl rfl
theorem hostReadTimeout (t : TileId) (u : Unit6) : Statement (.hostReadTimeout t u) := .inl rfl
theorem linkPortFailure (port : Fin 2) : Statement (.linkPortFailure port) := .inl rfl
theorem linkPortRecovery (port : Fin 2) : Statement (.linkPortRecovery port) := .inl rfl
theorem powerClamp : Statement (.powerClamp) := .inl rfl
theorem fabidWrite (v : Word) : Statement (.fabidWrite v) := .inl rfl
theorem powerOnReset : Statement (.powerOnReset) := .inl rfl
theorem fabricTraining : Statement (.fabricTraining) := .inl rfl
theorem scrub (t : TileId) (off : Nat) : Statement (.scrub t off) := .inl rfl
theorem bankRetirement (t : TileId) (bank : Fin 32) : Statement (.bankRetirement t bank) := .inl rfl
theorem registerWrite (who : RegWriter) (pa : BitVec 40) (v : Word) : Statement (.registerWrite who pa v) := .inl rfl
theorem getVersion : Statement (.getVersion) := .inl rfl
theorem getCapabilities : Statement (.getCapabilities) := .inl rfl
theorem negotiateAlgorithms (asym hash : W32) : Statement (.negotiateAlgorithms asym hash) := .inl rfl
theorem getDigests : Statement (.getDigests) := .inl rfl
theorem getCertificate (slot : Byte) (offset len : BitVec 16) : Statement (.getCertificate slot offset len) := .inl rfl
theorem challenge (slot : Byte) (nonce : List Byte) : Statement (.challenge slot nonce) := .inl rfl
theorem getMeasurements (index : Byte) (nonce : List Byte) : Statement (.getMeasurements index nonce) := .inl rfl
theorem spdmUnsupportedRequest (code : Byte) : Statement (.spdmUnsupportedRequest code) := .inl rfl
theorem debugStop (p : PartId) (markq : Fin 32) (cutid : BitVec 28) : Statement (.debugStop p markq cutid) := .inl rfl
theorem debugResume (p : PartId) : Statement (.debugResume p) := .inl rfl
theorem debugRelease (p : PartId) : Statement (.debugRelease p) := .inl rfl
theorem debugStopComplete (p : PartId) (node : VAddr) : Statement (.debugStopComplete p node) := .inl rfl
theorem hashRequest (p : PartId) : Statement (.hashRequest p) := .inl rfl
theorem hashUpdate (p : PartId) : Statement (.hashUpdate p) := .inl rfl
theorem traceMarker (t : TileId) : Statement (.traceMarker t) := .inl rfl
theorem traceHeadPoll (t : TileId) : Statement (.traceHeadPoll t) := .inl rfl
theorem seicheTick : Statement (.seicheTick) := .inl rfl
theorem countedCycle (t : TileId) (leaves : CycleLeaves) : Statement (.countedCycle t leaves) := .inl rfl
theorem thermalLimit (mhz : BitVec 12) : Statement (.thermalLimit mhz) := .inl rfl
theorem softError (t : TileId) (where_ : EccArray) (correctable : Bool) : Statement (.softError t where_ correctable) := .inl rfl
theorem fabricRouteLoss (module : BitVec 10) (why : PeerLoss) : Statement (.fabricRouteLoss module why) := .inl rfl
theorem hostWindowReadCompletion (t : TileId) (u : Unit6) : Statement (.hostWindowReadCompletion t u) := .inl rfl

end Sys2Proof.Laws.Fits
end

