-- ==== Sys2Proof/Laws/Plane.lean ====
section
/-! SUPPORT. The weight planes: what writing a row of the shadow plane does to its maps, and what it leaves alone. -/
namespace Sys2Proof.Machine

/-- A fold of writes at `base + j` for the first `m` places, read back. -/
theorem SMap.get_foldl_set {w : Nat} (v : Nat → Nat) (base a m : Nat) (c : SMap (BitVec w)) :
    SMap.get 0 ((List.range m).foldl (fun c n => SMap.set 0 c (base + n) (BitVec.ofNat w (v n))) c) a =
      if base ≤ a ∧ a < base + m then BitVec.ofNat w (v (a - base)) else SMap.get 0 c a := by
  induction m with
  | zero => simp
  | succ m ih =>
    rw [List.range_succ, List.foldl_append, List.foldl_cons, List.foldl_nil]
    by_cases h : a = base + m
    · subst h; simp
    · rw [SMap.get_set_other _ _ _ h, ih]
      have : (base ≤ a ∧ a < base + m) ↔ (base ≤ a ∧ a < base + (m + 1)) := by omega
      simp only [this]

/-- Row `k` of a plane's map reads back column by column, and every other row as before. -/
theorem setPlaneRow_get {w : Nat} (c : SMap (BitVec w)) (k : Nat) (v : Nat → Nat) (j n : Nat) (hn : n < 128) :
    SMap.get 0 (setPlaneRow c k v) (128 * j + n) = if j = k then BitVec.ofNat w (v n) else SMap.get 0 c (128 * j + n) := by
  rw [setPlaneRow, SMap.get_foldl_set]
  by_cases h : j = k
  · subst h; simp [hn]
  · rw [if_neg (by omega), if_neg h]

@[simp] theorem TileMem.writeShadow_act (m : TileMem) (fmt : SMap Word) (f k : Nat) (ent : Nat → Nat) (row : Nat) :
    (m.writeShadow fmt f k ent row).act = m.act := rfl
@[simp] theorem TileMem.writeShadow_acc (m : TileMem) (fmt : SMap Word) (f k : Nat) (ent : Nat → Nat) (row : Nat) :
    (m.writeShadow fmt f k ent row).acc = m.acc := rfl
@[simp] theorem TileMem.writeShadow_scratch (m : TileMem) (fmt : SMap Word) (f k : Nat) (ent : Nat → Nat) (row : Nat) :
    (m.writeShadow fmt f k ent row).scratch = m.scratch := rfl
@[simp] theorem TileMem.writeShadow_shd_fmt (m : TileMem) (fmt : SMap Word) (f k : Nat) (ent : Nat → Nat) (row : Nat) :
    (m.writeShadow fmt f k ent row).shd.fmt = m.shd.fmt := rfl
@[simp] theorem TileMem.writeShadow_shd_scale (m : TileMem) (fmt : SMap Word) (f k : Nat) (ent : Nat → Nat) (row : Nat) :
    (m.writeShadow fmt f k ent row).shd.scale = m.shd.scale := rfl

/-- The codes of the shadow plane after one of its rows is written. -/
theorem TileMem.writeShadow_code (m : TileMem) (fmt : SMap Word) (f k : Nat) (ent : Nat → Nat) (row j n : Nat) (hn : n < 128) :
    (m.writeShadow fmt f k ent row).shd.code j n =
      if j = k then codeAt row (Ent.width f) n % 2 ^ 32 else m.shd.code j n := by
  simp only [Plane.code, TileMem.writeShadow, setPlaneRow_get _ _ _ _ _ hn]
  split <;> simp

end Sys2Proof.Machine
end

