-- ==== Sys2Proof/Tests/Slice0.lean ====
section
/-! SUPPORT. Tests: words written out from the spec's encodings, ill-formed instructions refused, a few single steps worked
out by hand, and for every statement with hypotheses a state that meets them. -/
open Sys2Proof Sys2Proof.Machine Sys2Proof.Claims

namespace Sys2Proof.Tests

set_option Elab.async false

/-! ## States to test on -/

/-- A layout record of rank 1: 4,096 elements of format entry 0 at address 0x200 of a space. -/
def layoutRec (space : Nat) : Nat := 0x200 + 2 ^ 60 + 2 ^ 63 + space * 2 ^ 64 + 0x1000 * 2 ^ 128 + 2 ^ 288

/-- Tables of four levels that map page 0 to the frame at 0x20A000 with every permission, and layout record 0 there. -/
def pages (rec0 : Nat) : Memory :=
  [(0x200000, 0x400001, 8), (0x400000, 0x402001, 8), (0x402000, 0x404001, 8), (0x404000, 0x20A01F, 8),
   (0x20A000, rec0, 64)].foldl (fun m (a, v, n) => Memory.writeLE m a n v) []

/-- A running core with the registers `g`. -/
def runs (g : List (Nat × Word)) : Core := { run := .running, pc := 0x800, g := g, spillLimit := 0x1000 }

/-- A running tile of a rank of the node at 0x10000, its cores with the registers `g`, format entry 0 an 8-bit integer. -/
def tile (rank : Nat) (g : List (Nat × Word)) : Tile :=
  { life := { phase := .running, seat := some { part := 0, node := 0x10000, rank := rank, attempt := 1 } }
    cl := runs g, cx := runs g, cw := runs g, ctl := { fmt := [(0, 0xB400001800000000)] } }

/-- The machine with tile 0 as given: its L-core is the running core, and page 0 is mapped. -/
def withTile (x : Tile) : State :=
  { State.reset with mem := pages (layoutRec 0), dies := [(0, { xlt := [(0, { en := true, root := 1 })] })], tiles := [(0, x)] }

/-- Tile 0 runs with the registers `g`. -/
def bench (g : List (Nat × Word)) : State := withTile (tile 0 g)

/-- Tile 0 runs, its L-core as given. -/
def withCore (k : Core) : State := withTile { tile 0 [] with cl := k }

/-- The same with layout record 0 in another space. -/
def benchIn (space : Nat) (g : List (Nat × Word)) : State := { bench g with mem := pages (layoutRec space) }

/-- Tile 0 with a word of its scratchpad in which an error lies latent. -/
def latent (g : List (Nat × Word)) : State := withTile { tile 0 g with mem := { scratchLatent := [0x1FFFF8] } }

/-- Tiles 0 and 1 run ranks of one node. -/
def pair (g : List (Nat × Word)) : State := { bench g with tiles := [(0, tile 0 g), (1, tile 1 g)] }

/-- Whether an access gives `a`. -/
def gives {α : Type} [DecidableEq α] (r : Res α) (a : α) : Bool :=
  match r.1 with
  | .ok b => decide (b = a)
  | .error _ => false

theorem eq_of_gives {α : Type} [DecidableEq α] {r : Res α} {a : α} (h : gives r a = true) : r = (.ok a, r.2) := by
  obtain ⟨e, s⟩ := r
  cases e with
  | error e => cases h
  | ok b => simp only [gives, decide_eq_true_eq] at h; rw [h]

/-- Whether a result is a value. -/
def isOk {ε α : Type} [DecidableEq α] (r : Except ε α) (a : α) : Bool :=
  match r with
  | .ok b => decide (b = a)
  | .error _ => false

theorem eq_of_isOk {ε α : Type} [DecidableEq α] {r : Except ε α} {a : α} (h : isOk r a = true) : r = .ok a := by
  cases r with
  | error e => cases h
  | ok b => simp only [isOk, decide_eq_true_eq] at h; rw [h]

theorem eq_of_fst {α β : Type} {p : α × β} {a : α} (h : p.1 = a) : p = (a, p.2) := by rw [← h]

/-- The state after a step that goes on. -/
def after : Out → State
  | .next t => t
  | _ => State.reset

/-- Whether an answer is a next state. -/
def nexts : Out → Bool
  | .next _ => true
  | _ => false

theorem eq_of_nexts {o : Out} (h : nexts o = true) : o = .next (after o) := by
  cases o <;> first | rfl | cases h

/-- What layout record 0 says. -/
def layout0 (space : Nat) : Layout := { base := 0x200, fidx := 0, rank := 1, space := space, modnum := 0, chint := 0, perm := 0, ext := [0x1000], str := [1] }

/-- Whether an access gives `a` and leaves the machine as `s`. -/
def yields {α : Type} [DecidableEq α] (r : Res α) (a : α) (s : State) : Bool := gives r a && decide (r.2 = s)

theorem eq_of_yields {α : Type} [DecidableEq α] {r : Res α} {a : α} {s : State} (h : yields r a s = true) : r = (.ok a, s) := by
  simp only [yields, Bool.and_eq_true, decide_eq_true_eq] at h
  rw [eq_of_gives h.1, h.2]

/-- What an access gives, and a default where it stops. -/
def got {α : Type} (r : Res α) (d : α) : α :=
  match r.1 with
  | .ok a => a
  | .error _ => d

/-- Whether an access faults, and does not wait. -/
def stops {α : Type} (r : Res α) : Bool :=
  match r.1 with
  | .ok _ => false
  | .error x => decide (x = { f := x.f })

theorem exists_of_stops {α : Type} {r : Res α} (h : stops r = true) : ∃ f, r.1 = .error { f := f } := by
  obtain ⟨e, s⟩ := r
  cases e with
  | ok a => cases h
  | error x => exact ⟨x.f, congrArg _ (by simpa [stops] using h)⟩

/-- Whether an access gives nothing. -/
def fails {α : Type} (r : Res α) : Bool :=
  match r.1 with
  | .ok _ => false
  | .error _ => true

theorem exists_of_fails {α : Type} {r : Res α} (h : fails r = true) : ∃ e s, r = (.error e, s) := by
  obtain ⟨e, s⟩ := r
  cases e with
  | ok a => cases h
  | error x => exact ⟨x, s, rfl⟩

/-- Whether an access gives something and leaves the machine as `s`. -/
def works {α : Type} (r : Res α) (s : State) : Bool := !fails r && decide (r.2 = s)

theorem eq_of_works {α : Type} {r : Res α} {s : State} {d : α} (h : works r s = true) : r = (.ok (got r d), s) := by
  obtain ⟨e, u⟩ := r
  cases e with
  | ok a => simp only [works, Bool.and_eq_true, decide_eq_true_eq] at h; rw [show u = s from h.2]; rfl
  | error x => cases h

/-! ## States that meet the hypotheses of the statements -/

theorem test_meets_ArithmeticAndLogicResults : clean (bench [(1, 6), (2, 3)]) [1, 2] := by unfold clean; decide +kernel

/-- A divisor of zero, the signed overflow, and a plain division. -/
theorem test_meets_DivisionResults :
    (clean (bench [(1, 6)]) [1, 2] ∧ (bench [(1, 6)]).g 2 = 0) ∧
    (let s := bench [(1, 0x8000000000000000), (2, 0xFFFFFFFFFFFFFFFF)]
     clean s [1, 2] ∧ s.g 2 ≠ 0 ∧ (s.g 1).toInt = -2 ^ 63 ∧ (s.g 2).toInt = -1) ∧
    (let s := bench [(1, 0xFFFFFFFFFFFFFFF9), (2, 2)]
     clean s [1, 2] ∧ s.g 2 ≠ 0 ∧ ¬ ((s.g 1).toInt = -2 ^ 63 ∧ (s.g 2).toInt = -1)) := by
  unfold clean; decide +kernel

theorem test_meets_ShiftCompareAndImmediateResults :
    let s := bench [(1, 6), (2, 64), (3, 1)]
    clean s [1, 2] ∧ clean s [1] ∧ clean s [1, 2, 3] := by unfold clean; decide +kernel

/-- A field that ends at bit 63. -/
theorem test_meets_BitFieldAndCountResults :
    let s := bench [(1, 6), (2, 64)]
    clean s [1] ∧ clean s [2, 1] ∧ (60 : BitVec 6).toNat + (3 : BitVec 6).toNat + 1 ≤ 64 := by unfold clean; decide +kernel

theorem test_meets_BranchTargets :
    let s := bench [(1, 1), (2, 0x00FFFFFFFFFFFFFC), (3, 0x0100000000000000)]
    clean s [1, 2] ∧ (1 : Reg) ≠ 0 ∧ clean s [1] ∧ clean s [2] ∧ clean s [3] := by unfold clean; decide +kernel

/-- A core with five frames of 20 registers, which the next `call` of 20 spills one of, after a `fence`; one with nothing hidden. -/
def fiveFrames : State :=
  withCore { runs [] with fenced := true, frames := List.replicate 5 { size := 20, ret := 0x40, hidden := List.replicate 20 1, bad := [] } }

theorem test_meets_CallSlidesAndSpills :
    (∃ (s : State) (f : Fin 21) (fs : List Frame), f.val = 20 ∧
      fs = s.core.frames ++ [{ size := f.val, ret := s.core.pc + 4, hidden := s.core.regRange 12 f.val
                               bad := s.core.badWindow.filter (· < 2 * f.val)
                               ce := (inWindow s.core.gCe).filter (· < 2 * f.val) }] ∧
      Resident (fs.drop 0) ∧ s.core.depth < 65535) ∧
    (∃ (s : State) (f : Fin 21) (fs : List Frame),
      fs = s.core.frames ++ [{ size := f.val, ret := s.core.pc + 4, hidden := s.core.regRange 12 f.val
                               bad := s.core.badWindow.filter (· < 2 * f.val)
                               ce := (inWindow s.core.gCe).filter (· < 2 * f.val) }] ∧
      Resident (fs.drop 1) ∧ (∀ m, m < 1 → ¬ Resident (fs.drop m)) ∧ s.core.depth < 65535 ∧
      s.core.sptr + spillSize (fs.take 1) ≤ s.core.spillLimit ∧ s.me.retiredHit s.core.sptr (spillSize (fs.take 1)) = none ∧
      (∀ g ∈ fs.take 1, g.bad = [] ∧ g.hidden.length = g.size) ∧ s.core.fenced = true) ∧
    (withCore { runs [] with spilled := 65535 }).core.depth = 65535 ∧
    (let s := withCore { runs [] with frames := List.replicate 32 { size := 0, ret := 0, hidden := [], bad := [] }, sptr := 0x1000 }
     s.core.frames.length = 32 ∧ s.core.spillLimit ≤ s.core.sptr) ∧
    (bench []).core.depth = 0 :=
  ⟨⟨bench [], 20, _, rfl, rfl, by unfold Resident; decide +kernel, by decide +kernel⟩,
   ⟨fiveFrames, 20, _, rfl, by unfold Resident; decide +kernel, by unfold Resident; decide +kernel, by decide +kernel,
    by decide +kernel, by decide +kernel, by decide +kernel, by decide +kernel⟩,
   by decide +kernel, by decide +kernel, by decide +kernel⟩

/-- The same core, the first frame with a poisoned register. -/
def poisonedFrame : State :=
  withCore { runs [] with frames := ⟨20, 0x40, List.replicate 20 1, [3], []⟩ :: List.replicate 4 ⟨20, 0x40, List.replicate 20 1, [], []⟩ }

/-- A spill into a retired bank, and one of a frame with a poisoned register. -/
theorem test_meets_CallSlidesAndSpills2 :
    (∃ (s : State) (fs : List Frame),
      fs = s.core.frames ++ [{ size := (20 : Fin 21).val, ret := s.core.pc + 4, hidden := s.core.regRange 12 20
                               bad := s.core.badWindow.filter (· < 40)
                               ce := (inWindow s.core.gCe).filter (· < 40) }] ∧
      Resident (fs.drop 1) ∧ (∀ m, m < 1 → ¬ Resident (fs.drop m)) ∧ s.core.depth < 65535 ∧
      s.core.sptr + spillSize (fs.take 1) ≤ s.core.spillLimit ∧ (∀ g ∈ fs.take 1, g.hidden.length = g.size ∧ g.ce = []) ∧
      (∀ g ∈ fs.take 1, g.bad = []) ∧ s.me.retiredHit s.core.sptr (spillSize (fs.take 1)) = some 0) ∧
    (∃ (s : State) (fs : List Frame),
      fs = s.core.frames ++ [{ size := (20 : Fin 21).val, ret := s.core.pc + 4, hidden := s.core.regRange 12 20
                               bad := s.core.badWindow.filter (· < 40)
                               ce := (inWindow s.core.gCe).filter (· < 40) }] ∧
      Resident (fs.drop 1) ∧ (∀ m, m < 1 → ¬ Resident (fs.drop m)) ∧ s.core.depth < 65535 ∧
      s.core.sptr + spillSize (fs.take 1) ≤ s.core.spillLimit ∧ (∀ g ∈ fs.take 1, g.hidden.length = g.size ∧ g.ce = []) ∧
      ∃ g ∈ fs.take 1, (∀ h ∈ fs.take 1, h.bad = [] ∨ h = g) ∧ g.bad = [3]) :=
  ⟨⟨withTile { tile 0 [] with cl := fiveFrames.core, prv := { retired := 1 } }, _, rfl, by unfold Resident; decide +kernel,
    by unfold Resident; decide +kernel, by decide +kernel, by decide +kernel, by decide +kernel, by decide +kernel,
    by decide +kernel⟩,
   ⟨poisonedFrame, _, rfl,
    by unfold Resident; decide +kernel, by unfold Resident; decide +kernel, by decide +kernel, by decide +kernel,
    by decide +kernel, by decide +kernel⟩⟩

theorem test_meets_RetUndoesCall :
    let s := bench [(12, 5), (30, 9)]
    s.core.depth < 65535 ∧ hiddenCount s.core.frames + (7 : Fin 21).val ≤ 108 ∧ s.core.frames.length < 32 ∧
      ∃ t, exec (.call 7 3) s = .next t :=
  ⟨by decide +kernel, by decide +kernel, by decide +kernel, _, eq_of_nexts (by decide +kernel)⟩

theorem test_meets_RetFillsSpilledFrame :
    let s := withTile { tile 0 [] with
      cl := { runs [] with spilled := 1, sptr := 24 }, mem := { scratch := Memory.writeLE [] 16 8 (2 * 2 ^ 59 + 0x104) } }
    s.core.frames = [] ∧ 0 < s.core.spilled ∧ s.core.sptr = 0 + 8 * 2 + 8 ∧ noLatent s s.curTile.val 0 (8 * 2 + 8) ∧ s.me.readFails (0 + 8 * 2) 8 = none ∧
      s.me.readFails 0 (8 * 2) = none ∧ (0x104 : VAddr).toNat % 4 = 0 ∧
      s.me.mem.scratch.readLE (0 + 8 * 2) 8 = 2 * 2 ^ 59 + (0x104 : VAddr).toNat := by unfold noLatent; decide +kernel

/-- The last doubleword of the scratchpad, the first offset beyond, and an odd offset. -/
theorem test_meets_ScratchpadLoadAndStore :
    let s := bench [(1, 0x1FFFF8), (2, 1)]
    clean s [1] ∧ clean s [2, 1] ∧
    (scratchOff (s.g 1) 0 + Size.d.bytes ≤ 0x200000 ∧ scratchOff (s.g 1) 0 % Size.d.bytes = 0 ∧
      noLatent s s.curTile.val (scratchOff (s.g 1) 0) Size.d.bytes ∧
      s.me.readFails (scratchOff (s.g 1) 0) Size.d.bytes = none ∧ s.me.retiredHit (scratchOff (s.g 1) 0) Size.d.bytes = none) ∧
    0x200000 < scratchOff (s.g 1) 8 + Size.d.bytes ∧
    (scratchOff (s.g 1) 1 + Size.h.bytes ≤ 0x200000 ∧ scratchOff (s.g 1) 1 % Size.h.bytes ≠ 0) := by unfold clean noLatent; decide +kernel

/-- A poisoned doubleword at the end of the scratchpad, and the same in a retired bank. -/
theorem test_meets_ScratchpadLoadAndStore2 :
    (let s := withTile { tile 0 [(1, 0x1FFFF8), (2, 1)] with mem := { scratchBad := [0x1FFFF8] } }
     clean s [1] ∧ noLatent s s.curTile.val 0x1FFFF8 8 ∧ s.me.retiredHit 0x1FFFF8 8 = none ∧
     badWord s.me.mem.scratchBad 0x1FFFF8 8 = some 0x1FFFF8) ∧
    (let s := withTile { tile 0 [(1, 0x1FFFF8), (2, 1)] with prv := { retired := 0x80000000 } }
     clean s [1] ∧ clean s [2, 1] ∧ noLatent s s.curTile.val 0x1FFFF8 8 ∧ (s.me.retiredHit 0x1FFFF8 8).isSome = true) := by
  unfold clean noLatent; decide +kernel

theorem test_meets_StoreThenLoad :
    let s := bench [(1, 0x1FFFF8), (2, 0x55)]
    clean s [2, 1] ∧ 0x1FFFF8 = scratchOff (s.g 1) 0 ∧ 0x1FFFF8 + Size.d.bytes ≤ 0x200000 ∧ 0x1FFFF8 % Size.d.bytes = 0 ∧
      s.me.retiredHit 0x1FFFF8 Size.d.bytes = none ∧ noLatent s s.curTile.val 0x1FFFF8 Size.d.bytes ∧ badWord s.me.mem.scratchBad 0x1FFFF8 Size.d.bytes = none ∧
      s.core.remote = [] ∧ (∃ t, exec (.st .d 2 1 0) s = .next t) ∧
      0x1FFFF8 = scratchOff ((s.me.core .w).read 1) 0 ∧ (s.me.core .w).badReg [1] = none ∧ (s.me.core .w).foundRegs [1] = [] :=
  ⟨by unfold clean; decide +kernel, by decide +kernel, by decide +kernel, by decide +kernel, by decide +kernel,
   by unfold noLatent; decide +kernel, by decide +kernel, by decide +kernel, ⟨_, eq_of_nexts (by decide +kernel)⟩,
   by decide +kernel, by decide +kernel, by decide +kernel⟩

/-- The last doubleword of tile 1 and the first of the own tile; cores with none, one and two stores on their way. -/
theorem test_meets_RemoteScratchpadAccess :
    (let s := pair [(1, 0x3FFFF8), (2, 8)]
     clean s [1] ∧ clean s [2, 1] ∧ clean s [1, 2] ∧
     (scratchOff (s.g 1) 0 < 2 ^ 29 ∧ 0x1FFFF8 = scratchOff (s.g 1) 0 % 2 ^ 21 ∧ 1 = scratchOff (s.g 1) 0 / 2 ^ 21 ∧
       0x1FFFF8 + Size.d.bytes ≤ 0x200000 ∧ 0x1FFFF8 % Size.d.bytes = 0 ∧ 1 / 64 = s.curTile.val / 64 ∧
       sameNode s.me (s.tile 1) = true ∧ noLatent s.flushMine 1 0x1FFFF8 Size.d.bytes ∧ (s.flushMine.tile 1).readFails 0x1FFFF8 Size.d.bytes = none ∧
       (s.tile 1).retiredHit 0x1FFFF8 Size.d.bytes = none ∧ 1 ≠ s.curTile.val) ∧
     (0 = scratchOff (s.g 2) 0 / 2 ^ 21 ∧ 0 / 64 = s.curTile.val / 64 ∧ sameNode s.me (s.tile 0) = true ∧
       s.me.retiredHit 8 Size.d.bytes = none ∧ 0 = s.curTile.val)) ∧
    ((withCore { runs [] with remote := [⟨1, 0, [5]⟩, ⟨1, 1, [6]⟩] }).coreAt (0 : TileId).val .l).remote =
      ⟨1, 0, [5]⟩ :: [⟨1, 1, [6]⟩] ∧
    (bench []).core.remote = [] ∧ (withCore { runs [] with remote := [⟨1, 0, [5]⟩] }).core.remote = [⟨1, 0, [5]⟩] := by
  unfold clean noLatent; decide +kernel

/-- An address past the remote space, one past the end of a scratchpad, a misaligned one, and one in another node's tile; a core whose
`fence` still stands. -/
theorem test_meets_RemoteScratchpadAccess2 :
    (let s := pair [(1, 0x20000000), (2, 0x3FFFFC), (3, 0x200001), (4, 0x400000)]
     clean s [2, 1] ∧ 2 ^ 29 ≤ scratchOff (s.g 1) 0 ∧ 0x200000 < scratchOff (s.g 2) 0 % 2 ^ 21 + Size.d.bytes ∧
     scratchOff (s.g 3) 0 % 2 ^ 21 % Size.d.bytes ≠ 0 ∧ sameNode s.me (s.tile 2) = false) ∧
    (withCore { runs [] with fenced := true }).core.fenced = true ∧
    (withCore { runs [] with remote := [⟨1, 0, [5]⟩, ⟨1, 1, [6]⟩] }).core.remote ≠ [] := by unfold clean; decide +kernel

/-- Element 8 of layout record 0 is the doubleword at 0x208 of its space; element 0x1000 is OUTSIDE. -/
theorem tensor_at (space : Nat) (h : space = 0 ∨ space = 1 ∨ space = 2) :
    let s := benchIn space [(1, 8), (2, 5)]
    TensorAt s 0 1 8 (layout0 space) 0x208 (readLayout s s.curTile.val s.me.ctl.fmt 0 s.core.pc.toNat).2 := by
  rcases h with rfl | rfl | rfl <;>
    exact ⟨[1], 0x1040, 0, eq_of_gives (by decide +kernel), by decide +kernel, by unfold clean; decide +kernel,
      by decide +kernel, by decide +kernel, by decide +kernel, by decide +kernel⟩

/-- The state after layout record 0 was read. -/
def seen (space : Nat) (g : List (Nat × Word)) : State :=
  (readLayout (benchIn space g) 0 (tile 0 g).ctl.fmt 0 0x800).2

/-- `ldt` and `stt` of a doubleword of module memory, of one whose granule is poisoned, of a page discarded and of one that is not mapped. -/
theorem test_meets_TensorLoadAndStore :
    (let s := benchIn 0 [(1, 8), (2, 5)]
     let s1 := seen 0 [(1, 8), (2, 5)]
     TensorAt s (0 : BitVec 12).toNat 1 Size.d.bytes (layout0 0) 0x208 s1 ∧ (layout0 0).space = 0 ∧ clean s [2] ∧
     (∃ s2, nodeTranslate s1 s1.myDie s1.myPart 0x208 .read = (.ok (some 0x20A208), s2) ∧ badGranule s2.memBad 0x20A208 8 = none) ∧
     ∃ s2, nodeTranslate (s1.beforeWrite s.core.memdef) s1.myDie s1.myPart 0x208 .write = (.ok (some 0x20A208), s2)) ∧
    (let s := { benchIn 0 [(1, 8), (2, 5)] with memBad := [0x20A200] }
     let s1 := (readLayout s 0 (tile 0 []).ctl.fmt 0 0x800).2
     TensorAt s (0 : BitVec 7).toNat 1 8 (layout0 0) 0x208 s1 ∧
     ∃ s2, nodeTranslate s1 s1.myDie s1.myPart 0x208 .read = (.ok (some 0x20A208), s2) ∧
       badGranule s2.memBad 0x20A208 8 = some 0x20A200) ∧
    (TensorAt (benchIn 2 [(1, 8), (2, 5)]) 0 1 8 (layout0 2) 0x208 (seen 2 [(1, 8), (2, 5)]) ∧ 2 ≤ (layout0 2).space) ∧
    TensorOutside (benchIn 0 [(1, 0x1000)]) (0 : BitVec 12).toNat 1 (layout0 0) (seen 0 [(1, 0x1000)]) :=
  ⟨⟨tensor_at 0 (by decide), by decide, by unfold clean; decide +kernel,
    ⟨_, eq_of_gives (by decide +kernel), by decide +kernel⟩, ⟨_, eq_of_gives (by decide +kernel)⟩⟩,
   ⟨⟨[1], 0x1040, 0, eq_of_gives (by decide +kernel), by decide +kernel,
    by unfold clean; decide +kernel, by decide +kernel, by decide +kernel, by decide +kernel, by decide +kernel⟩, _,
    eq_of_gives (by decide +kernel), by decide +kernel⟩,
   ⟨tensor_at 2 (by decide), by decide⟩,
   ⟨[1], eq_of_gives (by decide +kernel), by decide +kernel, by unfold clean; decide +kernel, by decide +kernel⟩⟩

/-- The element of layout record 0 at 0x1000, on the second page: a discarded one, and one that nothing maps. -/
theorem test_meets_TensorLoadAndStore2 :
    (let s := { benchIn 0 [(1, 0xE00), (2, 5)] with mem := Memory.writeLE (pages (layoutRec 0)) 0x404008 8 0x20B09F }
     let s1 := (readLayout s 0 (tile 0 []).ctl.fmt 0 0x800).2
     TensorAt s (0 : BitVec 7).toNat 1 8 (layout0 0) 0x1000 s1 ∧ clean s [2] ∧
     ∃ s2, nodeTranslate s1 s1.myDie s1.myPart 0x1000 .read = (.ok none, s2)) ∧
    (let s := benchIn 0 [(1, 0xE00), (2, 5)]
     let s1 := (readLayout s 0 (tile 0 []).ctl.fmt 0 0x800).2
     TensorAt s (0 : BitVec 7).toNat 1 8 (layout0 0) 0x1000 s1 ∧ clean s [2] ∧
     (∃ e s2, nodeTranslate s1 s1.myDie s1.myPart 0x1000 .read = (.error e, s2)) ∧
     ∃ e s2, nodeTranslate (s1.beforeWrite s.core.memdef) s1.myDie s1.myPart 0x1000 .write = (.error e, s2)) :=
  ⟨⟨⟨[1], 0x8000, 0, eq_of_gives (by decide +kernel), by decide +kernel, by unfold clean; decide +kernel, by decide +kernel,
     by decide +kernel, by decide +kernel, by decide +kernel⟩, by unfold clean; decide +kernel,
    _, eq_of_gives (by decide +kernel)⟩,
   ⟨⟨[1], 0x8000, 0, eq_of_gives (by decide +kernel), by decide +kernel, by unfold clean; decide +kernel, by decide +kernel,
     by decide +kernel, by decide +kernel, by decide +kernel⟩, by unfold clean; decide +kernel,
    exists_of_fails (by decide +kernel), exists_of_fails (by decide +kernel)⟩⟩

/-- A window over the offset 0x208 with the rights given, and a publication buffer. -/
def windowed (rd w : Bool) (pub : List Granule) : State :=
  { benchIn 1 [(1, 8), (2, 5)] with
    parts := [(0, { windows := [(0, { length := 0x1000, host := 0x10000, rd := rd, w := w, v := true })], pub := pub })] }

/-- The state after layout record 0 was read there. -/
def windowSeen (rd w : Bool) (pub : List Granule) : State := (readLayout (windowed rd w pub) 0 (tile 0 []).ctl.fmt 0 0x800).2

/-- The granule of the buffer at the host address of offset 0x208, every byte held. -/
def held208 : Granule := { host := 0x10200, bytes := List.replicate 64 (some 7) }

/-- No window; one without a right; one with both, whose bytes the buffer holds, or does not. -/
theorem test_meets_TensorLoadAndStore3 :
    (TensorAt (benchIn 1 [(1, 8), (2, 5)]) 0 1 8 (layout0 1) 0x208 (seen 1 [(1, 8), (2, 5)]) ∧ (layout0 1).space = 1 ∧
     ((seen 1 [(1, 8), (2, 5)]).part 0).window 0x208 = none ∧ clean (benchIn 1 [(1, 8), (2, 5)]) [2]) ∧
    (let s := windowed false false []
     TensorAt s 0 1 8 (layout0 1) 0x208 (windowSeen false false []) ∧ clean s [2] ∧ (windowSeen false false []).myPart = 0 ∧
     ∃ w, ((windowSeen false false []).part 0).window 0x208 = some w ∧ w.rd = false ∧ w.w = false) ∧
    (let s := windowed true true [held208]
     let u := (windowSeen true true [held208]).beforeWrite s.core.memdef
     TensorAt s 0 1 8 (layout0 1) 0x208 (windowSeen true true [held208]) ∧ clean s [2] ∧ u.myPart = 0 ∧
     (∃ w, ((windowSeen true true [held208]).part 0).window 0x208 = some w ∧ w.rd = true ∧ w.w = true ∧
       w.host + 0x208 - w.offset = 0x10208) ∧
     (∀ j, j < 8 → ((windowSeen true true [held208]).part 0).heldByte (0x10208 + j) = some 7) ∧
     (u.part 0).pubFull 0x10208 8 = false ∧ ∀ g ∈ (u.part 0).pub, g.bytes.length = 64) ∧
    (TensorAt (windowed true true []) 0 1 8 (layout0 1) 0x208 (windowSeen true true []) ∧
     ∃ j, j < 8 ∧ ((windowSeen true true []).part 0).heldByte (0x10208 + j) = none) :=
  ⟨⟨tensor_at 1 (by decide), by decide, by decide +kernel, by unfold clean; decide +kernel⟩,
   ⟨⟨[1], 0x1040, 0, eq_of_gives (by decide +kernel), by decide +kernel, by unfold clean; decide +kernel, by decide +kernel,
     by decide +kernel, by decide +kernel, by decide +kernel⟩, by unfold clean; decide +kernel, by decide +kernel,
    { length := 0x1000, host := 0x10000, v := true }, by decide +kernel⟩,
   ⟨⟨[1], 0x1040, 0, eq_of_gives (by decide +kernel), by decide +kernel, by unfold clean; decide +kernel, by decide +kernel,
     by decide +kernel, by decide +kernel, by decide +kernel⟩, by unfold clean; decide +kernel, by decide +kernel,
    ⟨{ length := 0x1000, host := 0x10000, rd := true, w := true, v := true }, by decide +kernel⟩, by decide +kernel,
    by decide +kernel, by decide +kernel⟩,
   ⟨⟨[1], 0x1040, 0, eq_of_gives (by decide +kernel), by decide +kernel, by unfold clean; decide +kernel, by decide +kernel,
     by decide +kernel, by decide +kernel, by decide +kernel⟩, 0, by decide +kernel, by decide +kernel⟩⟩

/-- What a layout record of rank 2 says, its base one element below the end of the address space. -/
def layoutWide : Nat := (2 ^ 56 - 1) + 2 * 2 ^ 60 + 2 ^ 63 + 0x1000 * 2 ^ 128 + 2 * 2 ^ 160 + 2 ^ 288 + 2 ^ 328

/-- Tile 0 with that record at record 0. -/
def benchWide (g : List (Nat × Word)) : State := { bench g with mem := pages layoutWide }

/-- A coordinate that begins at g31, an address beyond the space, and a misaligned one. -/
theorem test_meets_TensorLoadAndStore5 :
    (let s := benchWide [(1, 1)]
     TensorRefused s 0 31 8 (readLayout s 0 (tile 0 []).ctl.fmt 0 0x800).2 Code.descriptorInvalid 0 ∧
     TensorRefused s 0 1 8 (readLayout s 0 (tile 0 []).ctl.fmt 0 0x800).2 Code.descriptorInvalid 0) ∧
    (let s := benchIn 0 [(1, 9), (2, 5)]
     TensorRefused s 0 1 8 (readLayout s 0 (tile 0 []).ctl.fmt 0 0x800).2 Code.alignment 0x209 ∧ clean s [2]) :=
  ⟨⟨⟨layoutOf layoutWide, eq_of_gives (by decide +kernel), .inl (by decide +kernel)⟩,
    layoutOf layoutWide, eq_of_gives (by decide +kernel),
    .inr ⟨[1, 2], by decide +kernel, by unfold clean; decide +kernel, .inl (by decide +kernel)⟩⟩,
   ⟨layoutOf (layoutRec 0), eq_of_gives (by decide +kernel),
    .inr ⟨[1], by decide +kernel, by unfold clean; decide +kernel, .inr ⟨0x209 * 8, 0, by decide +kernel, by decide +kernel,
      by decide +kernel, by decide +kernel⟩⟩⟩, by unfold clean; decide +kernel⟩

/-- A buffer of 65,536 other granules has no room for a doubleword. -/
theorem test_meets_TensorLoadAndStore4 (k : Nat) (hk : k = 65536) :
    ({ pub := List.replicate k { host := 64, bytes := List.replicate 64 none } } : Part).pubFull 0 8 = true := by
  have h : ∀ g ∈ List.replicate k ({ host := 64, bytes := List.replicate 64 none } : Granule), g.host ≠ 0 := by
    intro g hg; rw [List.eq_of_mem_replicate hg]; decide
  simp only [Part.pubFull, List.length_replicate, pubCapacity]
  simp [List.range_succ]
  omega

/-- The last 64 bytes of the scratchpad and layout record 0; a `probe` in module memory and in a window. -/
theorem test_meets_LayoutCopiesAndProbe :
    (let s := bench [(1, 0x1FFFC0)]
     let ta := (s.me.ctl.dbase.toNat + 64 * (0 : BitVec 12).toNat) % 2 ^ 56
     clean s [1] ∧ (s.g 1).toNat + 64 ≤ 0x200000 ∧ (s.g 1).toNat % 64 = 0 ∧ noLatent s s.curTile.val (s.g 1).toNat 64 ∧ s.me.readFails (s.g 1).toNat 64 = none ∧
     (∃ s1, nodeTranslate (s.beforeWrite s.core.memdef) s.myDie s.myPart ta .write = (.ok (some 0x20A000), s1)) ∧
     ∃ l, nodeRead s s.myDie s.myPart ta 64 .read = (.ok l, (nodeRead s s.myDie s.myPart ta 64 .read).2) ∧ l.length = 64 ∧
       (nodeRead s s.myDie s.myPart ta 64 .read).2.me.retiredHit (s.g 1).toNat 64 = none ∧
       (nodeRead s s.myDie s.myPart ta 64 .read).2.core.remote = []) ∧
    (let s := benchIn 1 [(1, 8), (2, 5)]
     clean s [2] ∧ (layout0 1).space ≠ 0 ∧ tensorOperand s 0 1 0 = (.ok (layout0 1, [8]), (tensorOperand s 0 1 0).2)) ∧
    (let s := bench [(1, 8), (2, 5)]
     let s1 := (tensorOperand s 0 1 0).2
     clean s [2] ∧ (layout0 0).space = 0 ∧ tensorOperand s 0 1 0 = (.ok (layout0 0, [8]), s1) ∧
     ∃ s2, probeRun s1 (layout0 0) (entryOf s1.me.ctl.fmt 0) 0 .read [] (min (s1.g 2).toNat 65536) 8 none = (.ok (), s2)) :=
  ⟨⟨by unfold clean; decide +kernel, by decide +kernel, by decide +kernel, by unfold noLatent; decide +kernel, by decide +kernel,
    ⟨_, eq_of_gives (by decide +kernel)⟩, leBytes (layoutRec 0) 64, eq_of_gives (by decide +kernel), by decide +kernel,
    by decide +kernel, by decide +kernel⟩,
   ⟨by unfold clean; decide +kernel, by decide, eq_of_gives (by decide +kernel)⟩,
   ⟨by unfold clean; decide +kernel, by decide, eq_of_gives (by decide +kernel), _, eq_of_gives (by decide +kernel)⟩⟩

/-- One past the last place of a copy, and a misaligned one. -/
theorem test_meets_LayoutCopiesAndProbe2 :
    let s := bench [(1, 0x1FFFC1), (2, 8)]
    clean s [1] ∧ clean s [2] ∧ 0x200000 < (s.g 1).toNat + 64 ∧ (s.g 2).toNat + 64 ≤ 0x200000 ∧ (s.g 2).toNat % 64 ≠ 0 := by
  unfold clean; decide +kernel

/-- The last doubleword of the own scratchpad and of tile 1's. -/
theorem test_meets_ScratchpadAndRemoteAtomics :
    (let s := bench [(1, 0x1FFFF8), (2, 5)]
     (s.g 1).toNat + 8 ≤ 0x200000 ∧ (s.g 1).toNat % 8 = 0 ∧ clean s [1, 2] ∧ clean s [3] ∧
     noLatent (s.beforeWrite s.core.memdef) s.curTile.val (s.g 1).toNat 8 ∧
     (s.beforeWrite s.core.memdef).me.readFails (s.g 1).toNat 8 = none ∧ noLatent s s.curTile.val (s.g 1).toNat 8 ∧
     s.me.readFails (s.g 1).toNat 8 = none ∧ s.me.mem.scratch.readLE (s.g 1).toNat 8 = (s.g 3).toNat % 2 ^ 64 ∧
     (s.beforeWrite s.core.memdef).me.mem.scratch.readLE (s.g 1).toNat 8 = (s.g 3).toNat % 2 ^ 64 ∧
     s.me.mem.scratch.readLE (s.g 1).toNat 8 ≠ (s.g 2).toNat % 2 ^ 64) ∧
    (let s := pair [(1, 0x3FFFF8), (2, 5)]
     (s.g 1).toNat < 2 ^ 29 ∧ (s.g 1).toNat % 2 ^ 21 + 8 ≤ 0x200000 ∧ (s.g 1).toNat % 2 ^ 21 % 8 = 0 ∧
     (s.g 1).toNat / 2 ^ 21 / 64 = s.curTile.val / 64 ∧ sameNode s.me (s.tile ((s.g 1).toNat / 2 ^ 21)) = true ∧
     noLatent s.flushMine ((s.g 1).toNat / 2 ^ 21) ((s.g 1).toNat % 2 ^ 21) 8 ∧
     clean s [1, 2] ∧ clean s [3] ∧ (s.flushMine.tile ((s.g 1).toNat / 2 ^ 21)).readFails ((s.g 1).toNat % 2 ^ 21) 8 = none) := by
  unfold clean noLatent; decide +kernel

theorem test_meets_TensorAtomics :
    (let s := benchIn 0 [(1, 8), (2, 5)]
     let s1 := seen 0 [(1, 8), (2, 5)]
     clean s [2] ∧ clean s [3] ∧ TensorAt s (0 : BitVec 7).toNat 1 8 (layout0 0) 0x208 s1 ∧ (layout0 0).space = 0 ∧
     ∃ s2, nodeTranslate s1 s1.myDie s1.myPart 0x208 .atomic = (.ok (some 0x20A208), s2) ∧
       badGranule s2.memBad 0x20A208 8 = none) ∧
    (let s := { benchIn 0 [(1, 8), (2, 5)] with memBad := [0x20A200] }
     let s1 := (readLayout s 0 (tile 0 []).ctl.fmt 0 0x800).2
     clean s [2] ∧ TensorAt s (0 : BitVec 7).toNat 1 8 (layout0 0) 0x208 s1 ∧ (layout0 0).space = 0 ∧
     ∃ s2, nodeTranslate s1 s1.myDie s1.myPart 0x208 .atomic = (.ok (some 0x20A208), s2) ∧
       badGranule s2.memBad 0x20A208 8 = some 0x20A200) ∧
    (let s := benchIn 1 [(1, 8), (2, 5)]
     clean s [2] ∧ TensorAt s (0 : BitVec 7).toNat 1 8 (layout0 1) 0x208 (seen 1 [(1, 8), (2, 5)]) ∧ (layout0 1).space = 1 ∧
     (seen 1 [(1, 8), (2, 5)]).me.life.fault = none) ∧
    (let s := benchIn 0 [(1, 0x1000), (2, 5)]
     clean s [2] ∧ TensorOutside s (0 : BitVec 7).toNat 1 (layout0 0) (seen 0 [(1, 0x1000), (2, 5)])) ∧
    (let s := benchIn 2 [(1, 8), (2, 5)]
     clean s [2] ∧ TensorAt s (0 : BitVec 7).toNat 1 8 (layout0 2) 0x208 (seen 2 [(1, 8), (2, 5)]) ∧ 2 ≤ (layout0 2).space) :=
  ⟨⟨by unfold clean; decide +kernel, by unfold clean; decide +kernel, tensor_at 0 (by decide), by decide, _,
    eq_of_gives (by decide +kernel), by decide +kernel⟩,
   ⟨by unfold clean; decide +kernel, ⟨[1], 0x1040, 0, eq_of_gives (by decide +kernel), by decide +kernel,
    by unfold clean; decide +kernel, by decide +kernel, by decide +kernel, by decide +kernel, by decide +kernel⟩, by decide, _,
    eq_of_gives (by decide +kernel), by decide +kernel⟩,
   ⟨by unfold clean; decide +kernel, tensor_at 1 (by decide), by decide, by decide +kernel⟩,
   ⟨by unfold clean; decide +kernel, [1], eq_of_gives (by decide +kernel), by decide +kernel, by unfold clean; decide +kernel,
    by decide +kernel⟩, by unfold clean; decide +kernel, tensor_at 2 (by decide), by decide⟩

/-- A word that `pfx` admits, `ld.d g3, 0x1FFFF8(g1)`, and one that it does not. -/
theorem test_meets_PrefixedAndUndecodedUnits :
    let s := bench [(1, 0x1FFFF8)]
    decodeSecond 0 = none ∧ decodeSecond 0x6061C000 = some (.ld .d false 3 1 0) ∧ clean s [1] ∧
    noLatent s s.curTile.val (scratchOff (s.g 1) 0) Size.d.bytes ∧
    scratchOff (s.g 1) 0 + Size.d.bytes ≤ 0x200000 ∧ scratchOff (s.g 1) 0 % Size.d.bytes = 0 ∧
    s.me.readFails (scratchOff (s.g 1) 0) Size.d.bytes = none := by unfold clean noLatent; decide +kernel

/-- Tile 0 with tokens in queue 0, its depth given. -/
def queued (depth : Nat) (toks : List Tok) (g : List (Nat × Word)) : State :=
  withTile { tile 0 g with queue := [(0, { depth := depth, toks := toks })] }

/-- A DONE token, a SLOT token of a pond that is not defined, and the type 8 at the edge. -/
theorem test_meets_TokenInstructions :
    (let s := queued 1 [] [(1, 0x10000000), (2, 0x80000000), (3, 0x90000000)]
     clean s [1] ∧ (0 : Fin 16).val < 12 ∧ s.curCore.num = producerOf 0 ∧
     (1 ≤ (s.g 1).toNat / 2 ^ 28 % 16 ∧ (s.g 1).toNat / 2 ^ 28 % 16 ≤ 8) ∧
     (1 ≤ (s.g 2).toNat / 2 ^ 28 % 16 ∧ (s.g 2).toNat / 2 ^ 28 % 16 ≤ 8) ∧
     (s.me.queueAt 0).toks.length < (s.me.queueAt 0).depth ∧ (∀ e ∈ [Engine.load, .matrix, .store], (s.me.eng e).ops = []) ∧
     8 < (s.g 3).toNat / 2 ^ 28 % 16 ∧ (s.g 4).toNat / 2 ^ 28 % 16 = 0 ∧ s.curCore.num ≠ producerOf 2 ∧
     12 ≤ (12 : Fin 16).val ∧ s.curCore.num ≠ s.me.consumerOf 0) ∧
    (let s := { queued 1 [⟨0x30000000, false, false, false⟩] [(1, 0x10000000)] with curCore := .x }
     s.curCore.num = s.me.consumerOf 0 ∧ (s.me.queueAt 0).toks = ⟨0x30000000, false, false, false⟩ :: [] ∧ stale s.me.ctl.pond 0x30000000 = false ∧
     (s.me.queueAt 0).depth ≤ (s.me.queueAt 0).toks.length ∧ CoreId.l.num = producerOf 0) ∧
    (let s := { queued 1 [⟨0x10000000, false, false, false⟩] [] with curCore := .x }
     s.curCore.num = s.me.consumerOf 0 ∧ (s.me.queueAt 0).toks = ⟨0x10000000, false, false, false⟩ :: [] ∧ stale s.me.ctl.pond 0x10000000 = true) ∧
    (let s := { queued 1 [⟨0, true, false, false⟩] [] with curCore := .x }
     s.curCore.num = s.me.consumerOf 0 ∧ (s.me.queueAt 0).toks = ⟨0, true, false, false⟩ :: []) ∧
    (let s := { queued 1 [⟨0, true, false, true⟩] [] with curCore := .x }
     s.curCore.num = s.me.consumerOf 0 ∧ (s.me.queueAt 0).toks = ⟨0, true, false, true⟩ :: []) ∧
    (let s := { queued 1 [] [] with curCore := .x }
     s.curCore.num = s.me.consumerOf 0 ∧ (s.me.queueAt 0).toks = []) := by unfold clean; decide +kernel

/-- A DONE token, and a FREE token of a slot of pond 0. -/
theorem test_meets_TokenPassesThroughQueue :
    (let s := queued 1 [] [(1, 0x30000001)]
     clean s [1] ∧ (0 : Fin 16).val < 12 ∧ s.curCore.num = producerOf 0 ∧ ¬ (s.g 1).toNat / 2 ^ 28 % 16 ≤ 2 ∧
      (s.g 1).toNat / 2 ^ 28 % 16 ≤ 8 ∧ 0 < (s.me.queueAt 0).depth ∧ (s.me.queueAt 0).toks = [] ∧
      (∀ e ∈ [Engine.load, .matrix, .store], (s.me.eng e).ops = []) ∧
      CoreId.x.num = s.me.consumerOf 0 ∧ ∃ t, exec (.qpush 0 1) s = .next t) ∧
    (let s := withTile { tile 0 [(1, 0x20000005)] with
       queue := [(0, { depth := 1 })], ctl := { pond := [(0, 0x8000000500000000)] } }
     clean s [1] ∧ (s.g 1).toNat / 2 ^ 28 % 16 = 2 ∧ (s.g 1).toNat / 2 ^ 24 % 16 = 0 ∧ Pond.v (pondOf s.me.ctl.pond 0) = true ∧
      isFollower s.me.ctl.pond 0 = false ∧ (s.g 1).toNat / 2 ^ 21 % 8 = Pond.gen (pondOf s.me.ctl.pond 0) ∧
      (s.g 1).toNat / 2 ^ 17 % 16 < Pond.slots (pondOf s.me.ctl.pond 0) ∧
      (s.g 1).toNat % 2 ^ 17 * 64 ≤ slotBytes s.me.ctl.pond 0 ∧ (s.me.queueAt 0).toks = [] ∧ ∃ t, exec (.qpush 0 1) s = .next t) :=
  ⟨⟨by unfold clean; decide +kernel, by decide, by decide, by decide +kernel, by decide +kernel, by decide +kernel,
    by decide +kernel, by decide +kernel, by decide +kernel, _, eq_of_nexts (by decide +kernel)⟩,
   ⟨by unfold clean; decide +kernel, by decide +kernel, by decide +kernel, by decide +kernel, by decide +kernel, by decide +kernel,
    by decide +kernel, by decide +kernel, by decide +kernel, _, eq_of_nexts (by decide +kernel)⟩⟩

/-- A gang of two on tiles 0 and 1, tile 0 the rank 0; tile 1 waits to push into gang queue 12 of tile 0. -/
def gang : State :=
  let ctl (r : Nat) : TileCtl := { (tile 0 []).ctl with gang := BitVec.ofNat 64 (2 * 2 ^ 16 + r), rank := [(1, 1)] }
  { bench [] with tiles :=
      [(0, { tile 0 [(1, 0x30000001), (2, 1)] with ctl := ctl 0 }),
       (1, { tile 1 [] with ctl := ctl 1, cl := { runs [] with wait := .gangPush 12 0 0x30000002 } })] }

theorem test_meets_GangTokens :
    (clean gang [1, 2] ∧ 12 ≤ (13 : Fin 16).val ∧ (gang.g 2).toNat < 256 ∧ (gang.g 2).toNat < gang.me.gsize ∧
      1 = gang.me.rankTile (gang.g 2).toNat ∧ 1 ≤ (gang.g 1).toNat / 2 ^ 28 % 16 ∧ (gang.g 1).toNat / 2 ^ 28 % 16 ≤ 8 ∧
      1 / 8 = gang.curTile.val / 8 ∧ (gang.flushMine.tile 1).moves = true ∧
      ((gang.flushMine.tile 1).queueAt 13).full = false ∧ gang.flushMine.gangWaiters 1 13 = []) ∧
    (((gang.tile 0).queueAt 12).full = false ∧ (gang.tile 0).moves = true ∧
      firstWaiter (gang.tile 0).gsize (((gang.tile 0).queueAt 12).lastRank.getD ((gang.tile 0).gsize - 1))
        (gang.gangWaiters 0 12) = some (1, 1, .l, 0x30000002)) ∧
    ∃ a ∈ gang.gangWaiters 0 12, True :=
  ⟨by unfold clean; decide +kernel, by decide +kernel, (1, 1, .l, 0x30000002), by decide +kernel, trivial⟩

/-- A push to the tile of another cluster, one while another waits, and what no `qpushx` may name. -/
theorem test_meets_GangTokens2 :
    (let s := { gang with tiles := [(0, { tile 0 [(1, 0x30000001), (2, 1)] with
        ctl := { (tile 0 []).ctl with gang := BitVec.ofNat 64 (2 * 2 ^ 16), rank := [(1, 0x8000000000020008)] } }), (8, tile 1 [])] }
     clean s [1, 2] ∧ (s.g 2).toNat < s.me.gsize ∧ 8 = s.me.rankTile (s.g 2).toNat ∧ 8 / 8 ≠ s.curTile.val / 8 ∧
     1 ≤ (s.g 1).toNat / 2 ^ 28 % 16 ∧ (s.g 1).toNat / 2 ^ 28 % 16 ≤ 8) ∧
    (gang.flushMine.gangWaiters 0 12 ≠ [] ∧ 0 = gang.me.rankTile (gang.g 3).toNat ∧ (gang.g 3).toNat < gang.me.gsize) ∧
    (clean gang [1, 2] ∧ (11 : Fin 16).val < 12 ∧ gang.me.gsize ≤ (2 : Nat) ∧ (gang.g 3).toNat / 2 ^ 28 % 16 = 0) := by
  unfold clean; decide +kernel

/-- The node of tile 0 with barrier instance 16 as given. -/
def barred (b : BarInst) (k : Core) : State :=
  { withCore k with parts := [(0, { state := .active, sched := { nodes := [{ addr := 0x10000, state := .running, tiles := [0], bars := [(16, b)] }] } })] }

/-- A count of 65,535, the first arrival of two, the last one, a phase that is told and a phase that has moved; a count too
large, a count of zero, and an arrival where E is 0. -/
theorem test_meets_BarrierInstructions :
    (let s := barred { e := 2 } (runs [(1, 0xFFFF), (2, 0x10000)])
     clean s [1] ∧ clean s [2] ∧ s.barNear 0 16 = true ∧ 0 < (s.g 1).toNat ∧ (s.g 1).toNat < 2 ^ 16 ∧
     (s.inst 0 16).arr = 0 ∧ (s.inst 0 16).e ≠ 0 ∧ s.core.remote = [] ∧ (s.inst 0 16).arr + 1 ≠ (s.inst 0 16).e ∧
     s.core.barpend.v = false ∧ s.me.life.phase = .running ∧
     s.core.wait = .none ∧ 2 ^ 16 ≤ (s.g 2).toNat ∧ s.g 3 = 0 ∧ (s.inst 0 16).ph ≠ (s.g 1).toNat % 2 ^ 16) ∧
    (let s := barred { e := 2, arr := 1 } (runs [(1, 5)])
     (s.inst 0 16).arr + 1 = (s.inst 0 16).e ∧ s.core.remote = [] ∧ s.barNear 0 16 = true ∧ (s.inst 0 16).arr ≠ 0 ∧
     (s.inst 0 16).e ≠ 0 ∧ s.core.barpend.v = false ∧ 0 ∈ s.barTiles 0 16) ∧
    (let s := barred { e := 2, arr := 1 } { runs [] with barpend := { v := true, bar := 16, phase := 0, told := false } }
     s.core.barpend.v = true ∧ s.core.barpend.told = false ∧ s.me.life.phase = .running) ∧
    (let s := barred {} { runs [] with barpend := { v := true, bar := 16, phase := 0, told := true } }
     s.core.barpend.v = true ∧ s.core.barpend.told = true) ∧
    (let s := barred {} (runs [])
     s.barNear 0 16 = true ∧ s.core.wait = .none ∧ (s.inst 0 16).e = 0 ∧ s.core.barpend.v = false) ∧
    (let s := { barred {} (runs [(1, 5)]) with parts := [(0, { state := .active, sched := { nodes := [
        { addr := 0x10000, state := .running, tiles := [9, 0], bars := [(16, {})] }] } })] }
     s.barNear 0 16 = false ∧ clean s [1] ∧ s.core.barpend.v = false) := by
  unfold clean; decide +kernel

theorem test_meets_BarrierEvents :
    ((barred { e := 2, reqs := [.arrive 0 .l false] } (runs [])).inst 0 16).reqs = .arrive 0 .l false :: [] ∧
    ((barred { e := 2, reqs := [.set 0 .l 5] } (runs [])).inst 0 16).reqs = .set 0 .l 5 :: [] ∧
    (let s := barred {} { runs [] with wait := .barw 16 0, barpend := { v := true, bar := 16, phase := 0, told := true } }
     (s.coreAt 0 .l).wait = .barw 16 0 ∧ (s.coreAt 0 .l).barpend.told = true) ∧
    (let s := barred { e := 2, arr := 1 } { runs [] with wait := .barw 16 0, barpend := { v := true, bar := 16, phase := 0, told := false } }
     (s.coreAt 0 .l).wait = .barw 16 0 ∧ (s.coreAt 0 .l).barpend.told = false) ∧
    (let s := barred { ph := 1 } { runs [] with wait := .barws 16 0 3 }
     (s.coreAt 0 .l).wait = .barws 16 0 3 ∧ (s.inst 0 16).ph ≠ 0) := by decide +kernel

/-- A machine whose cell at element 8 holds `v`, its core's hold table as given. -/
def celled (v : Nat) (l : List Hold) : State :=
  { withCore { runs [(1, 8)] with hold := l } with mem := (pages (layoutRec 0)).writeLE 0x20A208 8 v }

/-- What the checks of the cell leave. -/
def checked (s : State) : State := (cellWord s (s.g 1) .atomic).2

/-- A free cell at the last ticket, a cell with a reader, the two ways of holding, a cell served to another, a full table. -/
theorem test_meets_SyncCells :
    (let s := celled 0xFFFFFFFF00000000 []
     clean s [1] ∧ cellWord s (s.g 1) .atomic = (.ok (0x208, 0x20A208), checked s) ∧ (checked s).core.holdOf 0x208 = none ∧
     (checked s).core.hold.length < 8 ∧ badGranule (checked s).memBad 0x20A208 8 = none ∧
     (checked s).mem.readLE 0x20A208 8 / 2 ^ 32 % 2 ^ 16 = (checked s).mem.readLE 0x20A208 8 / 2 ^ 48 ∧
     (checked s).mem.readLE 0x20A208 8 / 2 ^ 16 % 2 ^ 16 = 0) ∧
    (let s := celled 0 [{ cell := 0x208, state := .exclusive, ticket := 0 }]
     clean s [1] ∧ cellWord s (s.g 1) .atomic = (.ok (0x208, 0x20A208), checked s) ∧
     (checked s).core.holdOf 0x208 = some { cell := 0x208, state := .exclusive, ticket := 0 }) ∧
    (let s := celled 0 [{ cell := 0x208, state := .shared, ticket := 0 }]
     clean s [1] ∧ cellWord s (s.g 1) .atomic = (.ok (0x208, 0x20A208), checked s) ∧
     (checked s).core.holdOf 0x208 = some { cell := 0x208, state := .shared, ticket := 0 }) ∧
    (let s := celled 0x0001000000000000 []
     clean s [1] ∧ cellWord s (s.g 1) .atomic = (.ok (0x208, 0x20A208), checked s) ∧ (checked s).core.holdOf 0x208 = none ∧
     (checked s).core.hold.length < 8 ∧
     (checked s).mem.readLE 0x20A208 8 / 2 ^ 32 % 2 ^ 16 ≠ (checked s).mem.readLE 0x20A208 8 / 2 ^ 48) ∧
    (let s := celled 0 (List.replicate 8 { cell := 0x300, state := .shared, ticket := 0 })
     clean s [1] ∧ cellWord s (s.g 1) .atomic = (.ok (0x208, 0x20A208), checked s) ∧ (checked s).core.holdOf 0x208 = none ∧
     8 ≤ (checked s).core.hold.length) := by
  refine ⟨⟨?_, eq_of_gives ?_, ?_, ?_, ?_, ?_, ?_⟩, ⟨?_, eq_of_gives ?_, ?_⟩, ⟨?_, eq_of_gives ?_, ?_⟩,
    ⟨?_, eq_of_gives ?_, ?_, ?_, ?_⟩, ⟨?_, eq_of_gives ?_, ?_, ?_⟩⟩
  all_goals first | (unfold clean; decide +kernel) | decide +kernel

/-- A core that waits for a cell as given, with its ticket 3. -/
def waits (excl : Bool) (v : Nat) : State :=
  let s := celled v [{ cell := 0x208, state := if excl then .waitX else .waitS, ticket := 3 }]
  s.setCore { s.core with wait := .cell excl 0x208 }

/-- An `acqx` served while READERS is not 0; of cores that wait, one served, one not, one served while READERS is not 0. -/
theorem test_meets_SyncCells2 :
    (let s := celled 0x0000000000010000 []
     clean s [1] ∧ cellWord s (s.g 1) .atomic = (.ok (0x208, 0x20A208), checked s) ∧ (checked s).core.holdOf 0x208 = none ∧
     (checked s).mem.readLE 0x20A208 8 / 2 ^ 16 % 2 ^ 16 ≠ 0) ∧
    (let u := waits true 0x0004000300000000
     let s1 := (cellAt u 0x208 .atomic).2
     ((u.tile 0).life.phase = .running ∧ (u.coreAt 0 .l).wait = .cell true 0x208) ∧ cellAt u 0x208 .atomic = (.ok 0x20A208, s1) ∧
     s1.core.holdOf 0x208 = some { cell := 0x208, state := .waitX, ticket := 3 } ∧
     s1.mem.readLE 0x20A208 8 / 2 ^ 32 % 2 ^ 16 = 3 ∧ s1.mem.readLE 0x20A208 8 / 2 ^ 16 % 2 ^ 16 = 0) ∧
    (let u := waits false 0x0004000200000000
     let s1 := (cellAt u 0x208 .atomic).2
     (u.coreAt 0 .l).wait = .cell false 0x208 ∧ cellAt u 0x208 .atomic = (.ok 0x20A208, s1) ∧
     s1.core.holdOf 0x208 = some { cell := 0x208, state := .waitS, ticket := 3 } ∧ s1.mem.readLE 0x20A208 8 / 2 ^ 32 % 2 ^ 16 ≠ 3) ∧
    (let u := waits true 0x0004000300010000
     let s1 := (cellAt u 0x208 .atomic).2
     cellAt u 0x208 .atomic = (.ok 0x20A208, s1) ∧ s1.mem.readLE 0x20A208 8 / 2 ^ 32 % 2 ^ 16 = 3 ∧
     s1.mem.readLE 0x20A208 8 / 2 ^ 16 % 2 ^ 16 ≠ 0) := by
  refine ⟨⟨?_, eq_of_gives ?_, ?_, ?_⟩, ⟨?_, eq_of_gives ?_, ?_, ?_, ?_⟩, ⟨?_, eq_of_gives ?_, ?_, ?_⟩, ⟨eq_of_gives ?_, ?_, ?_⟩⟩
  all_goals first | (unfold clean; decide +kernel) | decide +kernel

/-- A region bound to another cell, up against the new one, and the new one itself; a signal word that is there, one not to
be waited for, and a `sigwait` whose limit passes this tick. -/
theorem test_meets_RegionsAndSignals :
    (let s := { bench [(1, 8)] with parts := [(0, { regions := [{ lo := 0x1200, hi := 0x1400, cell := 0x300 }] })] }
     let s1 := (bindOperands s (s.g 1) (s.g 2)).2
     clean s [1, 2] ∧ bindOperands s (s.g 1) (s.g 2) = (.ok (0x208, 0x200, 0x1200), s1) ∧
     (s1.part s1.myPart).regions.length < 256 ∧
     ∀ r ∈ (s1.part s1.myPart).regions, r.cell = 0x208 ∨ 0x1200 ≤ r.lo ∨ r.hi ≤ 0x200) ∧
    (let s := { bench [(1, 8)] with parts := [(0, { regions := [{ lo := 0x200, hi := 0x1200, cell := 0x208 }] })] }
     let s1 := (bindOperands s (s.g 1) (s.g 2)).2
     clean s [1, 2] ∧ bindOperands s (s.g 1) (s.g 2) = (.ok (0x208, 0x200, 0x1200), s1) ∧
     ({ lo := 0x200, hi := 0x1200, cell := 0x208 } : Region) ∈ (s1.part s1.myPart).regions) ∧
    (let s := bench [(1, 8), (3, 1)]
     let s1 := (resolveWord s (s.g 1) 0).2
     let s2 := (nodeRead s1 s1.myDie s1.myPart 0x208 8 .read).2
     clean s [1, 2, 3] ∧ clean s [1, 3, 2] ∧ resolveWord s (s.g 1) 0 = (.ok (0, 0x208), s1) ∧
     nodeRead s1 s1.myDie s1.myPart 0x208 8 .read = (.ok (List.replicate 8 0), s2) ∧
     (s2.g 2).toNat ≤ leNat (List.replicate 8 0) ∧ s2.g 2 = 0) ∧
    (let s := { withCore { runs [(3, 7)] with wait := .sigwait 3 0x208 3 4 0 } with seiche := 10 }
     let s1 := { s with curTile := 0, curCore := .l }
     (s.coreAt 0 .l).wait = .sigwait 3 0x208 3 4 0 ∧ s1.g 3 ≠ BitVec.allOnes 64 ∧ (s1.g 3).toNat ≤ s.seiche - 3 ∧
     nodeRead s1 s1.myDie s1.myPart 0x208 8 .read = (.ok (List.replicate 8 0), (nodeRead s1 s1.myDie s1.myPart 0x208 8 .read).2)) ∧
    (let s := { withCore { runs [(3, 7)] with wait := .sigwait 3 0x208 3 4 0 } with seiche := 10 }
     let s1 := { s with curTile := 0, curCore := .l }
     (s.tile 0).life.phase = .running ∧
     nodeRead s1 s1.myDie s1.myPart 0x208 8 .read = (.ok (List.replicate 8 0), (nodeRead s1 s1.myDie s1.myPart 0x208 8 .read).2) ∧
     0 ≤ leNat (List.replicate 8 0)) ∧
    (let s := bench [(1, 8), (2, 5), (3, 1)]
     let s1 := (resolveWord s (s.g 1) 0).2
     let s2 := (nodeRead s1 s1.myDie s1.myPart 0x208 8 .read).2
     clean s [1, 2, 3] ∧ resolveWord s (s.g 1) 0 = (.ok (0, 0x208), s1) ∧
     nodeRead s1 s1.myDie s1.myPart 0x208 8 .read = (.ok (List.replicate 8 0), s2) ∧
     leNat (List.replicate 8 0) < (s1.g 2).toNat ∧ s2.seiche - s1.seiche < (s2.g 3).toNat) := by
  refine ⟨⟨?_, eq_of_gives ?_, ?_, ?_⟩, ⟨?_, eq_of_gives ?_, ?_⟩, ⟨?_, ?_, eq_of_gives ?_, eq_of_gives ?_, ?_, ?_⟩,
    ⟨?_, ?_, ?_, eq_of_gives ?_⟩, ⟨?_, eq_of_gives ?_, ?_⟩, ⟨?_, eq_of_gives ?_, eq_of_gives ?_, ?_, ?_⟩⟩
  all_goals first | (unfold clean; decide +kernel) | decide +kernel

/-- A record whose fields are zero but for four trip counts of 1 and no completion queue. -/
def rec0 : Rec :=
  { prio := 0, detach := false, det := false, stamp := false, cq := 31, tok := 0, epi := false, chain := false, accsat := false
    prof := 0, trip := ⟨1, 1, 1, 1⟩, sa := ⟨0, 0, 0, 0⟩, sb := ⟨0, 0, 0, 0⟩, sd := ⟨0, 0, 0, 0⟩, ha := 0, hb := 0, rsv13 := false
    ed := false, eb := false, ea := false, fd := 0, fb := 0, fa := 0, hd := 0, w14 := 0, rm := 0, cpay := 0 }

/-- An attached queued operation of a kind, by its sequence number. -/
def op (k : RecKind) (seq : Nat) : Op := { seq := seq, kind := k, rcd := rec0, owner := k.engine.owner, attached := true, prio := 8, latch := {} }

/-- A queue whose next token an engine owes. -/
theorem test_meets_TokenInstructions2 :
    let s := withTile { tile 0 [(1, 0x10000000)] with
      queue := [(0, { depth := 1 })], el := { ops := [{ op .tload 1 with rcd := { rec0 with cq := 0 }, token := some 0x10000000 }] } }
    clean s [1] ∧ s.curCore.num = producerOf 0 ∧ (s.g 1).toNat / 2 ^ 28 % 16 = 1 ∧
      ∃ o ∈ (s.me.eng .load).ops, o.token.isSome = true ∧ o.rcd.cq.toNat = (0 : Fin 16).val := by unfold clean; decide +kernel

/-- The last handle that names an engine and the first number that is none; an operation that has ended and one that has not. -/
theorem test_meets_HandleInstructions :
    let s := withTile { tile 0 [(1, 0x2FFFFFFFF), (2, 0x300000000), (3, 1)] with el := { last := 1, ops := [op .tload 1] } }
    clean s [1, 3] ∧ clean s [2, 3] ∧ clean s [3, 1] ∧ (s.g 1).toNat < 3 * 2 ^ 32 ∧ 3 * 2 ^ 32 ≤ (s.g 2).toNat ∧
    2 ≤ (s.me.eng (Engine.ofNum ((s.g 1).toNat / 2 ^ 32))).stateCode ((s.g 1).toNat % 2 ^ 32) ∧
    (s.me.eng (Engine.ofNum ((s.g 3).toNat / 2 ^ 32))).stateCode ((s.g 3).toNat % 2 ^ 32) < 2 := by unfold clean; decide +kernel

/-- A core that may exit, one with an attached operation, one with a hold; a `yield` with a request latched and without;
a partition with no debugger; a port up and both down. -/
theorem test_meets_StreamInstructions :
    (let s := bench []
     s.core.hold = [] ∧ s.me.attachedOf s.curCore = false ∧ s.core.remote = [] ∧ (1 : BitVec 21) ≠ 0 ∧ s.me.life.latched = none ∧
     (s.part s.myPart).dbg.attach = false ∧ s.me.life.fault = none ∧ s.linkUp = true) ∧
    (let s := withTile { tile 0 [] with el := { last := 1, ops := [op .tload 1] } }
     s.core.hold = [] ∧ s.me.attachedOf s.curCore = true) ∧
    (celled 0 [{ cell := 0x208, state := .shared, ticket := 0 }]).core.hold ≠ [] ∧
    (let s := withTile { tile 0 [] with life := { (tile 0 []).life with latched := some 5 } }
     let r := fetchSpan s (s.oldsOf s.curTile.val) s.myDie s.myPart (s.core.pc + BitVec.ofInt 56 (4 * (1 : BitVec 21).toInt)).toNat 16
     s.me.life.latched.isSome ∧ r.2.core.remote = [] ∧ r = (.unit (List.replicate 16 0), r.2)) ∧
    (({ bench [] with parts := [(0, { dbg := { attach := true } })] } : State).part 0).dbg.attach = true ∧
    (∀ b ∈ [false, true], let f : FaultRec := { code := Code.breakpoint, attached := b }
     let s := withTile { tile 0 [] with life := { (tile 0 []).life with phase := .frozen, fault := some f, rest := some .debug } }
     (s.tile 0).life.fault = some f ∧ s.endingFault ({ addr := 0 } : Node) 0 = if b then none else some f) ∧
    ({ bench [] with hub := { ports := [(0, false), (1, false)] } } : State).linkUp = false := by
  refine ⟨by decide +kernel, by decide +kernel, by decide +kernel, ⟨by decide +kernel, by decide +kernel, eq_of_fst (by decide +kernel)⟩, by decide +kernel, by decide +kernel,
    by decide +kernel⟩

/-- Two held granules that a grant covers with the version counter's doubleword, over a link that is up. -/
def publishing : State :=
  { bench [] with
    hub := { card := { grants := [(0, { v := true, base := 0x10000, length := 0x1000, w := true, src := 1 })] } }
    parts := [(0, { pubctr := 0x2100, pub := [{ host := 0x10000, bytes := List.replicate 64 (some 7) },
      { host := 0x10040, bytes := List.replicate 64 none }] })] }

theorem test_meets_StreamInstructions2 :
    let s := publishing
    let u := s.flushMine
    let p := u.part s.myPart
    s.linkUp = true ∧ (∀ g ∈ p.pub, g.host % 64 = 0 ∧ g.bytes.length = 64 ∧ u.granted s.myPart g.host 64 true = true) ∧
    p.pub.Pairwise (fun g h => g.host ≠ h.host) ∧ p.pubctr * 8 ≠ 0 ∧ u.granted s.myPart (p.pubctr * 8) 8 true = true ∧
    (after (exec .publish s)).host.byte 0x10000 = 7 ∧ (after (exec .publish s)).host.byte 0x10040 = 0 := by decide +kernel

/-- An entry that is legal, one without V, and one that is not legal; pond 15 at the end of its bank, the whole scratchpad as
spill area. -/
theorem test_meets_TableGeneratorAndRegisterSteps :
    let s := bench [(1, 0xB400001800000000), (2, 0), (3, 0xB400001800000001), (4, 0x8000F04000000000), (5, 0x0020000000000000), (6, 2)]
    clean s [1] ∧ Ent.v (s.g 1).toNat = true ∧ Ent.legal (s.g 1).toNat = true ∧ Ent.v (s.g 2).toNat = false ∧
    Ent.v (s.g 3).toNat = true ∧ Ent.legal (s.g 3).toNat = false ∧ (6 : Reg).val = (5 : Reg).val + 1 ∧ clean s [1, 5, 6] ∧
    (let v := (s.g 4).toNat
     v / 2 ^ 63 = 1 ∧ v / 2 ^ 32 % 2 ^ 11 ≠ 0 ∧ v / 2 ^ 32 % 2 ^ 11 ≤ 1024 ∧
     v / 2 ^ 22 % 2 ^ 10 + (v / 2 ^ 44 % 2 ^ 4 + 1) * (v / 2 ^ 32 % 2 ^ 11) = 1024 ∧ (15 : Fin 16).val + 2 ^ (v / 2 ^ 58 % 4) = 16) ∧
    (let v := (s.g 5).toNat
     v % 2 ^ 21 % 8 = 0 ∧ v / 2 ^ 32 % 2 ^ 22 = 0x200000 ∧ v % 2 ^ 21 ≤ v / 2 ^ 32 % 2 ^ 22 ∧ s.core.sptr = s.core.spillBase) ∧
    (s.g 6).toNat / 2 % 2 = 1 ∧ (s.g 2).toNat / 2 % 2 = 0 := by unfold clean; decide +kernel

/-- Indexes at the edges of the clauses: 0x7FF is not assigned, 0x800 is privileged, 0x021 reads; the last good and the first
refused value of `ctl.round`, of `ctl.profile` and of each checked field of `ctl.memdef`. -/
theorem test_meets_ControlRegisters :
    let s := bench [(1, 0xFFFFFFFFFFFFF3F4), (2, 0xFFFFFFFFFFFFFFF2), (3, 0xFFFFFFFFFFFFF3F5), (4, 0x400), (5, 6), (6, 3)]
    clean s [1] ∧ clean s [2] ∧ clean s [3] ∧ clean s [4] ∧ clean s [5] ∧ clean s [6] ∧
    0x800 ≤ (0x800 : BitVec 12).toNat ∧ (0x7FF : BitVec 12).toNat < 0x800 ∧ readCtl s 0x7FF = none ∧
    readCtl s 0x021 = some 0 ∧ (s.g 1).toNat % 8 < 5 ∧ 5 ≤ (s.g 3).toNat % 8 ∧ (s.g 2).toNat % 4 < 3 ∧ (s.g 6).toNat % 4 = 3 ∧
    ((s.g 3).toNat / 256 % 16 ≤ 3 ∧ (s.g 3).toNat % 8 ≤ 5) ∧ 3 < (s.g 4).toNat / 256 % 16 ∧ 5 < (s.g 5).toNat % 8 ∧
    0x40 ≤ (0x5F : BitVec 12).toNat ∧ (0x5F : BitVec 12).toNat < 0x60 ∧ readCtl s 0x201 ≠ none ∧ readCtl s 0x010 ≠ none ∧
    perfOwn s = false ∧ (0x200 ≤ (0x2FF : BitVec 12).toNat ∧ (0x2FF : BitVec 12).toNat < 0x300) ∧
    perfOwn (withTile { tile 0 [] with perf := { next := some { cores := [.l], freeze := true, clear := false } } }) = true := by
  unfold clean; decide +kernel

/-! ### Vector instructions -/

/-- Zero fields but for VC.P: 16 lanes of row 0 of panel 0 everywhere, under k0. -/
def rows (vcp : Fin 32) : VFields := { km := 0, vd := ⟨0, 0, 0⟩, va := ⟨0, 0, 0⟩, vb := ⟨0, 0, 0⟩, vc := ⟨vcp, 0, 0⟩, rm := 0 }

/-- The same with VD a whole panel; and with VA too. -/
def panelOf (vcp : Fin 32) : VFields := { rows vcp with vd := ⟨1, 3, 0⟩ }
def panels : VFields := { rows 0 with vd := ⟨1, 3, 0⟩, va := ⟨0, 3, 0⟩ }

/-- The X-core of tile 0 is the running core. -/
def xbench (g : List (Nat × Word)) : State := { bench g with curCore := .x }

theorem test_meets_LanesWrittenUnderTheMask : (⟨31, 3, 0⟩ : VOpnd).panel = true := by decide

theorem test_meets_VectorRoundingInstructions :
    let s := xbench []
    let f := rows 0
    let ls := activeLanes s f.km.val f.vd.lanes
    s.curCore = .x ∧ (0, false) = roundingOf s f.rm.val ∧ ls.length = 16 ∧ readable s [f.km.val] (ls.map f.va.key) ∧
    readable s [f.km.val] (ls.flatMap fun l => [f.va.key l, f.vb.key l]) ∧
    readable s [f.km.val] (ls.flatMap fun l => [f.va.key l, f.vb.key l, f.vc.key l]) ∧
    (Instr.vrcp f).wellFormed = true ∧ (Instr.vrsq f).wellFormed = true ∧ (Instr.vsqrt f).wellFormed = true ∧
    (Instr.vexp2 f).wellFormed = true ∧ (Instr.vlog2 f).wellFormed = true ∧ (Instr.vadd f).wellFormed = true ∧
    (Instr.vsub f).wellFormed = true ∧ (Instr.vmul f).wellFormed = true ∧ (Instr.vdiv f).wellFormed = true ∧
    (Instr.vfma f).wellFormed = true ∧ (Instr.vfms f).wellFormed = true ∧ (Instr.vfnma f).wellFormed = true := by
  unfold readable; decide +kernel

theorem test_meets_VectorIntegerAndLogic :
    let s := xbench []
    let f := rows 0
    let ls := activeLanes s f.km.val f.vd.lanes
    s.curCore = .x ∧ readable s [f.km.val] (ls.map f.va.key) ∧
    readable s [f.km.val] (ls.flatMap fun l => [f.va.key l, f.vb.key l]) ∧
    (Instr.vabs f).wellFormed = true ∧ (Instr.vneg f).wellFormed = true ∧ (Instr.vmin f).wellFormed = true ∧
    (Instr.vmax f).wellFormed = true ∧ (Instr.vand f).wellFormed = true ∧ (Instr.vor f).wellFormed = true ∧
    (Instr.vxor f).wellFormed = true ∧ (Instr.vshl f).wellFormed = true ∧ (Instr.vshr f).wellFormed = true ∧
    (Instr.vsra f).wellFormed = true ∧ (Instr.viadd f).wellFormed = true ∧ (Instr.visub f).wellFormed = true ∧
    (Instr.vimul f).wellFormed = true := by unfold readable; decide +kernel

/-- Legal entries of KIND 0 under every policy and of KIND 1 (03 Table 3.4), and conversions that 03 R74 works out. -/
theorem test_meets_VectorMovesAndConversions2 :
    (∀ f ∈ resetFormats.take 9, Ent.legal f = true ∧ Ent.kind f = 0) ∧ Ent.policy (resetFormats.getD 8 0) = 4 ∧
    (Ent.legal entInt32 = true ∧ Ent.kind entInt32 = 1) ∧ entInt32 ≠ entFp32 ∧
    round (resetFormats.getD 2 0) (.fin false 65520 0) 0 0 false = 0x7C00 ∧
    round (resetFormats.getD 2 0) (.fin false 65520 0) 0 0 true = 0x7BFF ∧
    round (resetFormats.getD 3 0) (.fin false 464 0) 0 0 false = 0x7E ∧
    round (resetFormats.getD 11 0) (.fin false 255 (-1)) 0 0 false = 0x7F := by decide +kernel

theorem test_meets_VectorMovesAndConversions :
    let s := xbench [(1, 5)]
    (let f := rows 0
     let ls := activeLanes s f.km.val f.vd.lanes
     s.curCore = .x ∧ (Instr.vcmp f).wellFormed = true ∧
     readable s [f.km.val] ((activeLanes s f.km.val f.va.lanes).flatMap fun l => [f.va.key l, f.vb.key l]) ∧
     (Instr.vsel f).wellFormed = true ∧ readable s [f.vc.p.val] [] ∧
     readable s [f.km.val] (ls.flatMap fun l => [f.va.key l, f.vb.key l]) ∧
     (Instr.vcvt f).wellFormed = true ∧ readable s [f.km.val] (ls.map f.va.key) ∧ useEntry s.me.ctl.fmt f.vb.p.val [0, 1] = none ∧
     useEntry s.me.ctl.fmt f.vc.p.val [0, 1] = none ∧ clean s [f.va.reg] ∧ readable s [f.km.val] [] ∧
     (Instr.vbcast f).wellFormed = true ∧ (Instr.vidx f).wellFormed = true ∧ clean s [f.va.reg, f.vb.reg, f.vc.reg] ∧
     (Instr.vrng f).wellFormed = true ∧ (Instr.vmov f).wellFormed = true ∧ (Instr.vperm f).wellFormed = true ∧
     readable s [f.km.val] (ls.map f.vb.key) ∧ readable s [f.km.val] (ls.map fun l => f.va.key (laneOf s f.vb l % f.vd.lanes)) ∧
     (Instr.vmovToG (rows 1)).wellFormed = true ∧ readable s [] [f.va.key 0] ∧ (Instr.vmovFromG (rows 2)).wellFormed = true) ∧
    (let f := panelOf 1
     let ls := activeLanes s f.km.val f.vd.lanes
     (Instr.vbcastRows f).wellFormed = true ∧ readable s [f.km.val] (ls.map fun l => f.va.key (l % 16)) ∧
     (Instr.vbcastCols (panelOf 2)).wellFormed = true ∧ readable s [f.km.val] (ls.map fun l => f.va.key (l / 16))) ∧
    (Instr.vtrans panels).wellFormed = true ∧
    readable s [panels.km.val] ((activeLanes s 0 256).map fun l => panels.va.key (l % 16 * 16 + l / 16)) := by
  unfold readable clean
  refine ⟨?_, ?_, ?_⟩
  · dsimp only
    constructorm* _ ∧ _ <;> decide +kernel
  all_goals decide +kernel

/-- Sixteen words of the scratchpad, the last at its end; the last lane at the first offset beyond; every lane misaligned; two
lanes out of bounds. -/
theorem test_meets_VectorLoadAndStore :
    let f := { rows 0 with va := ⟨1, 0, 0⟩, vb := ⟨2, 0, 0⟩ }
    let at_ (s : State) (l : Nat) := (s.g f.va.reg + BitVec.ofNat 64 l * s.g f.vb.reg).toNat
    (let s := xbench [(1, 0x1FFFC0), (2, 4)]
     s.curCore = .x ∧ clean s [f.va.reg, f.vb.reg] ∧ readable s [f.km.val] [] ∧ f.vd.lanes = 16 ∧
     (∀ l ∈ activeLanes s f.km.val f.vd.lanes, at_ s l + 4 ≤ 0x200000 ∧ at_ s l % 4 = 0) ∧ (Instr.vld f).wellFormed = true ∧
     (∀ l ∈ activeLanes s f.km.val f.vd.lanes, noLatent s s.curTile.val (at_ s l) 4 ∧ s.me.readFails (at_ s l) 4 = none) ∧
     (Instr.vst f).wellFormed = true ∧
     (∀ l ∈ activeLanes s f.km.val f.vd.lanes, s.me.retiredHit (at_ s l) 4 = none) ∧
     readable s [] ((activeLanes s f.km.val f.vd.lanes).map f.vd.key)) ∧
    (let s := xbench [(1, 0x1FFFC4), (2, 4)]
     clean s [f.va.reg, f.vb.reg] ∧ readable s [f.km.val] [] ∧ ∃ l ∈ activeLanes s f.km.val f.vd.lanes, 0x200000 < at_ s l + 4 ∧
       ∀ j ∈ activeLanes s f.km.val f.vd.lanes, j < l → at_ s j + 4 ≤ 0x200000) ∧
    (let s := xbench [(1, 0x1FFF82), (2, 8)]
     let ls := activeLanes s f.km.val f.vd.lanes
     clean s [f.va.reg, f.vb.reg] ∧ readable s [f.km.val] [] ∧
       ∃ l ∈ ls, (∀ j ∈ ls, at_ s j + 4 ≤ 0x200000) ∧ at_ s l % 4 ≠ 0 ∧ ∀ j ∈ ls, j < l → at_ s j % 4 = 0) ∧
    (let s := xbench [(1, 0x1FFFC8), (2, 4)]
     let ls := activeLanes s f.km.val f.vd.lanes
     clean s [f.va.reg, f.vb.reg] ∧ (∃ l ∈ ls, 0x200000 < at_ s l + 4 ∧ ∀ j ∈ ls, j < l → at_ s j + 4 ≤ 0x200000) ∧
       1 < (ls.filter fun l => decide (0x200000 < at_ s l + 4)).length) := by
  unfold readable clean noLatent
  refine ⟨?_, ?_, ?_, ?_⟩ <;> decide +kernel

theorem test_meets_VectorReductionsAndMasks :
    (let s := xbench []
     let f := rows 3
     s.curCore = .x ∧ (0, false) = roundingOf s f.rm.val ∧
     readable s [f.km.val] ((activeLanes s f.km.val f.va.lanes).map f.va.key) ∧ (Instr.vred f).wellFormed = true ∧
     (Instr.vscan f).wellFormed = true ∧ readable s [(rows 0).va.p.val, (rows 0).vb.p.val] [] ∧ readable s [(rows 0).va.p.val] [] ∧
     (Instr.kand (rows 0)).wellFormed = true ∧ (Instr.kor (rows 0)).wellFormed = true ∧ (Instr.knot (rows 0)).wellFormed = true ∧
     (Instr.kpop (rows 0)).wellFormed = true) ∧
    (let s := { withTile { tile 0 [] with ctl := { (tile 0 []).ctl with round := 4 } } with curCore := .x }
     let f := { rows 3 with rm := 15 }
     s.curCore = .x ∧ (4, false) = roundingOf s f.rm.val ∧ (Instr.vred f).wellFormed = true ∧ (Instr.vscan f).wellFormed = true) ∧
    (bench []).curCore ≠ .x ∧ (List.replicate 16 (some 1) : List (Option Nat)).length = 16 ∧
    (let s := { withTile { tile 0 [] with mem := { maskBad := [8 + 7] } } with curCore := .x }
     let f : VFields := { rows 0 with va := ⟨1, 0, 0⟩ }
     s.curCore = .x ∧ (s.me.mem.vecPoison [f.va.p.val, f.vb.p.val] []).isSome = true ∧ (Instr.kand f).wellFormed = true ∧
     (∀ i ∈ s.me.mem.maskCe, i / 8 ∉ [f.va.p.val, f.vb.p.val]) ∧ (Instr.kor f).wellFormed = true ∧
     s.me.mem.vecPoison [f.va.p.val] [] = some (0x8000 + 4 * 15) ∧ (Instr.knot f).wellFormed = true ∧ (Instr.kpop f).wellFormed = true) := by
  unfold readable; decide +kernel

/-! ### Records -/

/-- A record of each kind that passes every check on the tile of `issuing`. -/
def recFor : RecKind → Rec
  | .fill => { rec0 with hb := 1 }
  | .mcopy => { rec0 with hb := 4096 }
  | .mdrainDirect => { rec0 with chain := true, ed := true }
  | _ => rec0

/-- Tile 0 with pond 0 defined and, for `mmas`, a sparse plane loaded; the owner of the kind's engine is the running core. -/
def issuing (k : RecKind) : State :=
  let x := tile 0 []
  { withTile { x with
      ctl := { x.ctl with pond := [(0, 0x8000000100000000)] }
      mem := if k = .mmas then { act := { loaded := true, sp := 1, fmt := 0xB400001800000000 } } else {} } with
    curCore := k.engine.owner }

/-- A record of every kind is admitted. -/
theorem admitted (k : RecKind) :
    (issuing k).curCore = k.engine.owner ∧ (issuing k).me.hasRoom k.engine = true ∧
      Admitted (issuing k) k (recFor k) ((issuing k).me.issueCtx false) := by
  cases k <;> (unfold Admitted IssueReads noLatent; decide +kernel)

theorem test_meets_RecordsAreAccepted (k : RecKind) :
    (∃ s c, s.curCore = k.engine.owner ∧ s.me.hasRoom k.engine = true ∧ Admitted s k (recFor k) c) ∧
    ∃ (u : State) (t : TileId) (d : CoreId) (c : IssueCtx), (u.coreAt t.val d).wait = .engineRoom k (recFor k) ∧
      (u.tile t.val).hasRoom k.engine = true ∧ Admitted ({ u with curTile := t, curCore := d } : State).unblock k (recFor k) c := by
  refine ⟨⟨issuing k, _, admitted k⟩, (issuing k).block (.engineRoom k (recFor k)), 0, k.engine.owner, (issuing k).me.issueCtx false, ?_⟩
  cases k <;> (unfold Admitted IssueReads noLatent; decide +kernel)

/-- Tile 0 with pond 0 defined, the operations of its engines, bit 58 of the node word, and the tick. -/
def issuingWith (l m e : List Op) (detect : Bool) (now : Nat) : State :=
  let x := tile 0 []
  { withTile { x with
      ctl := { x.ctl with pond := [(0, 0x8000000100000000)], node := if detect then 2 ^ 58 else 0 }
      el := { ops := l }, em := { ops := m }, es := { ops := e } } with seiche := now }

/-- Each refusal: a full engine, a trip count of 0, an undefined pond, an invalid entry, a permuted row of one unit, a chain
over a tile of no node, an operation in the way, a stamp one tick ago. -/
theorem test_meets_RecordRefusals :
    (issuingWith [] [] [] false 0).curCore ≠ RecKind.mma.engine.owner ∧
    (let s := issuingWith (List.replicate 16 (op .tload 1)) [] [] false 0
     s.curCore = RecKind.tload.engine.owner ∧ 16 ≤ (s.me.eng RecKind.tload.engine).ops.length) ∧
    (let s := issuingWith (List.replicate 15 (op .tload 1)) [] [] false 0
     let r := { rec0 with trip := ⟨1, 0, 1, 1⟩ }
     s.curCore = RecKind.tload.engine.owner ∧ (s.me.eng RecKind.tload.engine).ops.length < 16 ∧
     IssueReads s .tload r (s.me.issueCtx false) ∧ fieldWords .tload (s.me.issueCtx false) (tileTic s.curTile.val) r = 1 :: []) ∧
    (let s := issuingWith [] [] [] false 0
     let r := { rec0 with hd := 0x1000 }
     IssueReads s .tload r (s.me.issueCtx false) ∧ fieldWords .tload (s.me.issueCtx false) (tileTic s.curTile.val) r = [] ∧
     pondStepWords .tload (s.me.issueCtx false) r = 13 :: []) ∧
    (let s := issuingWith [] [] [] false 0
     let r := { rec0 with ed := true, fd := 1 }
     IssueReads s .tload r (s.me.issueCtx false) ∧ fieldWords .tload (s.me.issueCtx false) (tileTic s.curTile.val) r = [] ∧
     pondStepWords .tload (s.me.issueCtx false) r = [] ∧ formatStep .tload (s.me.issueCtx false) r = some 17) ∧
    (let s := { issuingWith [] [] [] false 0 with curCore := .x }
     let r := { rec0 with ha := 0x81, hb := 64 }
     s.curCore = RecKind.mcopy.engine.owner ∧ IssueReads s .mcopy r (s.me.issueCtx false) ∧
     fieldWords .mcopy (s.me.issueCtx false) (tileTic s.curTile.val) r = [] ∧ pondStepWords .mcopy (s.me.issueCtx false) r = [] ∧
     formatStep .mcopy (s.me.issueCtx false) r = none ∧ lateWords .mcopy (s.me.issueCtx false) r = 12 :: []) ∧
    (let s := { issuingWith [] [] [] false 0 with curCore := .x }
     let r := { rec0 with ha := 1 }
     IssueReads s .mchain r (s.me.issueCtx false) ∧ fieldWords .mchain (s.me.issueCtx false) (tileTic s.curTile.val) r = [] ∧
     pondStepWords .mchain (s.me.issueCtx false) r = [] ∧ formatStep .mchain (s.me.issueCtx false) r = none ∧
     lateWords .mchain (s.me.issueCtx false) r = [] ∧ ∃ t ∈ chainTiles s.curTile.val r, sameNode s.me (s.tile t) = false) ∧
    (let s := issuingWith [] [] [{ op .tstore 7 with latch := { ponds := [(0, 0x8000000100000000)] } }] true 0
     IssueReads s .tload rec0 (s.me.issueCtx false) ∧ fieldWords .tload (s.me.issueCtx false) (tileTic s.curTile.val) rec0 = [] ∧
     pondStepWords .tload (s.me.issueCtx false) rec0 = [] ∧ formatStep .tload (s.me.issueCtx false) rec0 = none ∧
     lateWords .tload (s.me.issueCtx false) rec0 = [] ∧ RecKind.tload ≠ .mchain ∧ bit s.me.ctl.node.toNat 58 = true ∧
     overlapWith s.me (newOp s .tload (s.me.issueCtx false) rec0) = some (2 * 2 ^ 32 + 7)) ∧
    (let s := issuingWith [] [] [] false 100
     let r := { rec0 with stamp := true, w14 := 99 }
     IssueReads s .tload r (s.me.issueCtx false) ∧ fieldWords .tload (s.me.issueCtx false) (tileTic s.curTile.val) r = [] ∧
     pondStepWords .tload (s.me.issueCtx false) r = [] ∧ formatStep .tload (s.me.issueCtx false) r = none ∧
     lateWords .tload (s.me.issueCtx false) r = [] ∧ bit s.me.ctl.node.toNat 58 = false ∧ r.stamp = true ∧
     stampTick s.seiche r.w14.toNat < s.seiche) := by
  refine ⟨?_, ?_, ?_, ?_, ?_, ?_, ?_, ?_, ?_⟩ <;> first | decide +kernel | (unfold IssueReads noLatent; decide +kernel)

/-- The transfer block of a store out of bounds, at the end of the scratchpad, and poisoned; a stamped record a tick late under DET 1,
and a stamped `mchain` over one tile. -/
theorem test_meets_RecordRefusals2 :
    (let s := issuingWith [] [] [] false 0
     let r := { rec0 with hd := 0x8000 }
     s.curCore = RecKind.tload.engine.owner ∧ RecKind.tstore.mayDrain = true ∧ 0x200000 < 64 * r.h .d + 64) ∧
    (let x := tile 0 []
     let s := { withTile { x with mem := { scratchBad := [0x1FFFC8] } } with curCore := RecKind.tstore.engine.owner }
     let r := { rec0 with hd := 0x7FFF }
     s.curCore = RecKind.tstore.engine.owner ∧ (s.me.eng RecKind.tstore.engine).ops.length < 16 ∧ 64 * r.h .d + 64 ≤ 0x200000 ∧
     noLatent s s.curTile.val (64 * r.h .d + 8) 8 ∧ s.me.readFails (64 * r.h .d + 8) 8 = some 0x1FFFC8) ∧
    (let s := issuingWith [] [] [] true 100
     let r := { rec0 with stamp := true, w14 := 99 }
     IssueReads s .tload r (s.me.issueCtx false) ∧ fieldWords .tload (s.me.issueCtx false) (tileTic s.curTile.val) r = [] ∧
     pondStepWords .tload (s.me.issueCtx false) r = [] ∧ formatStep .tload (s.me.issueCtx false) r = none ∧
     lateWords .tload (s.me.issueCtx false) r = [] ∧ bit s.me.ctl.node.toNat 58 = true ∧
     overlapWith s.me (newOp s .tload (s.me.issueCtx false) r) = none ∧ r.stamp = true ∧ stampTick s.seiche r.w14.toNat < s.seiche) ∧
    (let s := { issuingWith [] [] [] false 100 with curCore := .x }
     let r := { rec0 with stamp := true, w14 := 99 }
     IssueReads s .mchain r (s.me.issueCtx false) ∧ fieldWords .mchain (s.me.issueCtx false) (tileTic s.curTile.val) r = [] ∧
     pondStepWords .mchain (s.me.issueCtx false) r = [] ∧ formatStep .mchain (s.me.issueCtx false) r = none ∧
     lateWords .mchain (s.me.issueCtx false) r = [] ∧ (∀ t ∈ chainTiles s.curTile.val r, sameNode s.me (s.tile t) = true) ∧
     r.stamp = true ∧ stampTick s.seiche r.w14.toNat < s.seiche) := by
  unfold IssueReads noLatent
  refine ⟨?_, ?_, ⟨?_, ?_, ?_, ?_, ?_, ?_, ?_, ?_, ?_⟩, ⟨?_, ?_, ?_, ?_, ?_, ?_, ?_, ?_⟩⟩ <;> decide +kernel

/-! ### Engines -/

/-- What iterations run on: tile 0 and tile 1 of a node, pond 0 with 1,024 units, format entry 1 an FP8 number; layout record 0 in a space. -/
def mill (space : Nat) : State :=
  { benchIn space [] with
    tiles := [(0, { tile 0 [] with mem := { act := { loaded := true, fmt := 0x948301C800000000 } } }), (1, tile 1 [])] }

/-- A record on it. -/
def mop (k : RecKind) (r : Rec) (st : Started) : Op :=
  { op k 1 with rcd := r, state := .running, started := st, latch := { ponds := [(0, 0x8000040000000000)]
                                                                       fmt := [(0, 0xB400001800000000), (1, 0x948301C800000000),
                                                                               (2, 0x99171FC000000000), (3, 0xD48301CB00000000)] } }

/-- A transfer of `n` elements, or units, from the first on. -/
def xfer (n : Nat) : Transfer :=
  { arg := 2 ^ 21, len := n, didx := 0, rop := 0, poison := false, drain := false, set := false, agrp := 0, coord := [0, 0, 0, 0, 0] }

/-- The machine of `mill` with another active plane. -/
def milling (p : Plane) : State := { mill 0 with tiles := [(0, { tile 0 [] with mem := { act := p } }), (1, tile 1 [])] }

/-- A row of each matrix record: `wload` of a dense plane, of a sparse one and of a KIND 2 one with its scales; the last row of the
accumulators; a drain through an epilogue block; a copy. -/
theorem test_meets_MatrixIterations :
    let s := mill 0
    let row (o : Op) (x : Opd) (n : Nat) := got (o.row x (o.stride x) n s) []
    (let o := mop .wload rec0 {}
     let f := o.latch.fmtOf o.rcd .a
     spOf o.rcd = 0 ∧ Ent.kind f ≠ 2 ∧ o.row .a (o.stride .a) (planeRowBytes f) s = (.ok (row o .a (planeRowBytes f)), s) ∧
     readRow 0 (row o .a (planeRowBytes f)) (planeRowBytes f) s = (.ok (List.replicate 128 0), s)) ∧
    (let o := mop .wload { rec0 with hd := 1, hb := 8 } {}
     let f := o.latch.fmtOf o.rcd .a
     let nb := 8 * 128 * spGroups (spOf o.rcd)
     o.t = 0 ∧ spOf o.rcd ≠ 0 ∧ nb ≠ 0 ∧ o.row .a (o.stride .a) (planeRowBytes f) s = (.ok (row o .a (planeRowBytes f)), s) ∧
     readRow 0 (row o .a (planeRowBytes f)) (planeRowBytes f) s = (.ok (List.replicate 128 0), s) ∧
     o.row .b 0 nb s = (.ok (got (o.row .b 0 nb s) []), s) ∧
     readRow 0 (got (o.row .b 0 nb s) []) nb s = (.ok (got (readRow 0 (got (o.row .b 0 nb s) []) nb s) []), s)) ∧
    (let o := mop .wload { rec0 with ea := true, fa := 3, hb := 8 } {}
     let f := o.latch.fmtOf o.rcd .a
     let nb := 128 * 128 / Ent.block f
     o.t = 0 ∧ Ent.kind f = 2 ∧ nb ≠ 0 ∧ o.row .b 0 nb s = (.ok (got (o.row .b 0 nb s) []), s) ∧
     readRow 0 (got (o.row .b 0 nb s) []) nb s = (.ok (got (readRow 0 (got (o.row .b 0 nb s) []) nb s) []), s)) ∧
    (let o := mop .mzero { rec0 with hd := 0xFFFF } {}
     0 ≤ (o.rcd.h .d : Int) + o.stride .d ∧ (o.rcd.h .d : Int) + o.stride .d ≤ 65535) ∧
    (let o := mop .mdrain { rec0 with ha := 0xFF80, epi := true } { epilogue := [(0, 0x40000000), (258, 7)] }
     let f := o.latch.fmtOf o.rcd .d
     0 ≤ (o.rcd.h .a : Int) + o.stride .a ∧ (o.rcd.h .a : Int) + o.stride .a ≤ 65535 ∧ passClean s 0 511 ∧
     (∀ i ∈ (s.tile 0).mem.accCe, i / 128 ≠ 511) ∧
     o.row .d (o.stride .d) (planeRowBytes f) s = (.ok (row o .d (planeRowBytes f)), s) ∧
     rowWritable 0 (row o .d (planeRowBytes f)) s = (.ok (), s)) ∧
    (let o := mop .mcopy { rec0 with hb := 100, ed := true, fd := 1, sd := ⟨4, 0, 0, 0⟩ } {}
     let n := o.rcd.h .b
     let f := o.latch.fmtOf o.rcd .a
     let g := o.latch.fmtOf o.rcd .d
     o.row .a (o.stride .a) (rowBytes n f) s = (.ok (row o .a (rowBytes n f)), s) ∧
     o.row .d (o.stride .d) (rowBytes n g) s = (.ok (row o .d (rowBytes n g)), s) ∧
     readRow 0 (row o .a (rowBytes n f)) (rowBytes n f) s = (.ok (List.replicate 100 0), s) ∧
     rowWritable 0 (row o .d (rowBytes n g)) s = (.ok (), s)) := by
  unfold passClean
  refine ⟨⟨?_, ?_, eq_of_yields ?_, eq_of_yields ?_⟩, ⟨?_, ?_, ?_, eq_of_yields ?_, eq_of_yields ?_, eq_of_works ?_, eq_of_works ?_⟩,
    ⟨?_, ?_, ?_, eq_of_works ?_, eq_of_works ?_⟩, ⟨?_, ?_⟩, ⟨?_, ?_, ?_, ?_, eq_of_yields ?_, eq_of_yields ?_⟩,
    ⟨eq_of_yields ?_, eq_of_yields ?_, eq_of_yields ?_, eq_of_yields ?_⟩⟩
  all_goals decide +kernel

/-- The epilogue block of a drain, at the end of the scratchpad and past it, with a reserved bit and without; a direct drain whose rows
are all there, and one with a row too many. -/
theorem test_meets_MatrixStarts :
    (let s := mill 0
     let o := mop .mdrain { rec0 with epi := true, hb := 0x7FEF } {}
     64 * o.rcd.h .b + 1036 ≤ 0x200000 ∧ noLatent s 0 (64 * o.rcd.h .b) 1036 ∧ (s.tile 0).readFails (64 * o.rcd.h .b) 1036 = none ∧
     (s.tile 0).mem.scratch.readLE (64 * o.rcd.h .b + 4 * 258) 4 < 8) ∧
    (let s := { mill 0 with tiles := [(0, { tile 0 [] with mem := { scratch := [(1032, 8)] } })] }
     (s.tile 0).mem.scratch.readLE (4 * 258) 4 = 8 ∧ noLatent s 0 0 1036 ∧ (s.tile 0).readFails 0 1036 = none) ∧
    0x200000 < 64 * (mop .mdrain { rec0 with epi := true, hb := 0x7FF0 } {}).rcd.h .b + 1036 ∧
    (let o := mop .mdrainDirect { rec0 with ha := 0xFF80 } {}
     o.rcd.epi = false ∧ ∀ a ∈ o.rowsOf .a, 0 ≤ a ∧ a ≤ 65535) ∧
    (let o := mop .mdrainDirect { rec0 with ha := 0xFF80, trip := ⟨2, 1, 1, 1⟩, sa := ⟨128, 0, 0, 0⟩ } {}
     (o.rowsOf .a).find? (fun a => decide (a < 0 ∨ 65535 < a)) = some 65536) := by
  unfold noLatent; decide +kernel

/-- Passes of the last accumulator row: over an FP8, an integer, a KIND 2 and a KIND 3 plane, a sparse FP8 and a sparse integer one, and
unloaded ones. -/
theorem test_meets_PassIterations :
    let r := { rec0 with hd := 0xFF80 }
    let rf := { r with ea := true, fa := 1, hb := 4 }
    let reads (k : RecKind) (r : Rec) (p : Plane) (a pk : Nat) :=
      let o := mop k r {}
      let s := milling p
      let f := o.latch.fmtOf o.rcd .a
      let ua := got (o.row .a (o.stride .a) (rowBytes (kPositions p.sp) f) s) []
      (∃ l, PassReads s s 0 o p f 511 l ua) ∧ Ent.kind f = a ∧ Ent.kind p.fmt.toNat = pk
    (reads .mma rf { loaded := true, fmt := 0x948301C800000000 } 0 0) ∧
    (reads .mma r { loaded := true, fmt := 0xB400001800000000 } 1 1) ∧
    (reads .mma rf { loaded := true, fmt := 0xD48301CB00000000 } 0 2) ∧
    (reads .mma r { loaded := true, fmt := 0xF400001A40000000 } 1 3 ∧ (60 : Int) = ((mop .mma { r with hb := 60 } {}).rcd.h .b : Int) +
      (mop .mma { r with hb := 60 } {}).stride .b ∧ 60 + 128 / Ent.block 0xF400001A40000000 = 64 ∧
      ∀ i ∈ ((milling {}).tile 0).mem.scaleBad, i < 512 * 60 ∨ 512 * (60 + 128 / Ent.block 0xF400001A40000000) ≤ i) ∧
    (reads .mmas rf { loaded := true, sp := 1, fmt := 0x948301C800000000 } 0 0) ∧
    (reads .mmas r { loaded := true, sp := 3, fmt := 0xB400001800000000 } 1 1) ∧
    (reads .mma r {} 1 0) ∧ (reads .mma rf {} 0 0) := by
  dsimp only
  unfold PassReads passClean
  refine ⟨⟨⟨_, ?_, ?_, ?_, rfl, rfl, eq_of_works ?_, eq_of_works (d := []) ?_, ?_, ?_, ?_, ?_, ?_⟩, ?_, ?_⟩,
    ⟨⟨_, ?_, ?_, ?_, rfl, rfl, eq_of_works ?_, eq_of_works (d := []) ?_, ?_, ?_, ?_, ?_, ?_⟩, ?_, ?_⟩,
    ⟨⟨_, ?_, ?_, ?_, rfl, rfl, eq_of_works ?_, eq_of_works (d := []) ?_, ?_, ?_, ?_, ?_, ?_⟩, ?_, ?_⟩,
    ⟨⟨⟨_, ?_, ?_, ?_, rfl, rfl, eq_of_works ?_, eq_of_works (d := []) ?_, ?_, ?_, ?_, ?_, ?_⟩, ?_, ?_⟩, ?_, ?_, ?_⟩,
    ⟨⟨_, ?_, ?_, ?_, rfl, rfl, eq_of_works ?_, eq_of_works (d := []) ?_, ?_, ?_, ?_, ?_, ?_⟩, ?_, ?_⟩,
    ⟨⟨_, ?_, ?_, ?_, rfl, rfl, eq_of_works ?_, eq_of_works (d := []) ?_, ?_, ?_, ?_, ?_, ?_⟩, ?_, ?_⟩,
    ⟨⟨_, ?_, ?_, ?_, rfl, rfl, eq_of_works ?_, eq_of_works (d := []) ?_, ?_, ?_, ?_, ?_, ?_⟩, ?_, ?_⟩,
    ⟨⟨_, ?_, ?_, ?_, rfl, rfl, eq_of_works ?_, eq_of_works (d := []) ?_, ?_, ?_, ?_, ?_, ?_⟩, ?_, ?_⟩⟩
  all_goals decide +kernel

/-- A pass that preloads the first row of a KIND 2 plane with its scales, and one that preloads the last 32 rows of an integer plane. -/
theorem test_meets_PassIterations2 :
    (let o := mop .mma { rec0 with epi := true, ea := true, fa := 1, eb := true, fb := 3, hb := 4, trip := ⟨2, 1, 1, 1⟩ } {}
     let s := milling { loaded := true, fmt := 0x948301C800000000 }
     let fb := o.latch.fmtOf o.rcd .b
     let ub := got (o.row .b ((0 * unitsOf (planeRowBytes fb) : Nat) : Int) (planeRowBytes fb) s) []
     let us := got (o.row .b ((128 * unitsOf (planeRowBytes fb) : Nat) : Int) (planeScaleBytes fb) s) []
     o.rcd.epi = true ∧ Ent.kind fb = 2 ∧ o.t = 0 ∧ o.rcd.total = 2 ∧
     (∀ i ∈ (s.tile 0).mem.accCe, i / 128 ≠ 0) ∧ (∀ i ∈ (s.tile 0).mem.planeCe, (s.tile 0).mem.act.reads i = false) ∧
     o.row .b ((0 * unitsOf (planeRowBytes fb) : Nat) : Int) (planeRowBytes fb) s = (.ok ub, s) ∧
     readRow 0 ub (planeRowBytes fb) s = (.ok (List.replicate 128 0), s) ∧
     o.row .b ((128 * unitsOf (planeRowBytes fb) : Nat) : Int) (planeScaleBytes fb) s = (.ok us, s) ∧
     readRow 0 us (planeScaleBytes fb) s = (.ok (List.replicate 512 0), s) ∧ planeScaleBytes fb ≠ 0) ∧
    (let o := { mop .mma { rec0 with epi := true, hb := 4, trip := ⟨97, 1, 1, 1⟩ } {} with t := 96 }
     let s := milling { loaded := true, fmt := 0xB400001800000000 }
     let fb := o.latch.fmtOf o.rcd .b
     let ub := fun k : Nat => got (o.row .b ((k * unitsOf (planeRowBytes fb) : Nat) : Int) (planeRowBytes fb) s) []
     o.t + 1 = o.rcd.total ∧ Ent.kind fb ≠ 2 ∧ ∀ k ∈ (List.range 32).map (96 + ·),
       o.row .b ((k * unitsOf (planeRowBytes fb) : Nat) : Int) (planeRowBytes fb) s = (.ok (ub k), s) ∧
       readRow 0 (ub k) (planeRowBytes fb) s = (.ok (List.replicate 128 0), s)) := by
  refine ⟨⟨?_, ?_, ?_, ?_, ?_, ?_, eq_of_yields ?_, eq_of_yields ?_, eq_of_yields ?_, eq_of_yields ?_, ?_⟩, ?_, ?_, ?_⟩
  all_goals decide +kernel

/-- Two units of a pond, written with 128 bytes. -/
theorem test_meets_RowsWritten :
    let us : List UnitAt := [{ off := 0x1FFF80, pond := 0 }, { off := 0x1FFFC0, pond := 0 }]
    (List.replicate 128 (7 : Byte)).length = 64 * us.length ∧ (∀ u ∈ us, u.off % 64 = 0) ∧ us.Pairwise (fun u v => u.off ≠ v.off) := by
  decide +kernel

/-- A row of each load record: from module memory, through an index, from another module after its answer, into the last scale
group; a fold before and after the answer. -/
theorem test_meets_LoadIterations :
    let s := mill 0
    let d := layout0 0
    let ps (o : Op) (x : Opd) (n : Nat) := got (o.places x d (xfer n) 0 s) []
    let fs (o : Op) := entryOf o.latch.fmt d.fidx
    (let o := mop .fill { rec0 with hb := 1024 } { pattern := List.replicate 64 7 }
     o.rawRow .d (o.rcd.h .b) s = (.ok (got (o.rawRow .d (o.rcd.h .b) s) []), s) ∧
     rowWritable 0 (got (o.rawRow .d (o.rcd.h .b) s) []) s = (.ok (), s)) ∧
    (let o := mop .xpull rec0 { transfer := some (xfer 2) }
     let us := got (o.rawRow .d 2 s) []
     o.rawRow .d (xfer 2).len s = (.ok us, s) ∧ o.remoteOff .a (xfer 2) s = (.ok 0, s) ∧
     readRow ((xfer 2).arg / 2 ^ 21 % 2 ^ 8) ((List.range (xfer 2).len).map fun i => { off := 0 + 64 * i, pond := 0 }) (64 * (xfer 2).len) s =
       (.ok (List.replicate 128 0), s) ∧ rowWritable 0 us s = (.ok (), s)) ∧
    (let o := mop .tload rec0 { layout := some d, transfer := some (xfer 4) }
     let us := got (o.loadRow s) []
     let q := readPlaces 0 d false (placeBytes (fs o) (ps o .a 4)) s
     o.loadRow s = (.ok us, s) ∧ o.index 0 s = (.ok 0, s) ∧ o.places .a d (xfer 4) 0 s = (.ok (ps o .a 4), s) ∧
     q = (.ok (List.replicate 4 0), q.2) ∧ rowWritable 0 us q.2 = (.ok (), q.2) ∧ Ent.kind (fs o) ≠ 2 ∧ Ent.kind o.pondFmt ≠ 2) ∧
    (let o := mop .tgather rec0 { layout := some d, transfer := some (xfer 4) }
     o.loadRow s = (.ok (got (o.loadRow s) []), s) ∧ o.index 0 s = (.ok 0, s) ∧ o.places .a d (xfer 4) 0 s = (.ok (ps o .a 4), s)) ∧
    (let o := mop .rload rec0 { layout := some { d with space := 2, modnum := 1 }, transfer := some (xfer 4) }
     let s := { s with hub := { fabricUp := true } }
     let q := readPlaces 0 { d with space := 2, modnum := 1 } true (placeBytes (fs o) (ps o .a 4)) s
     q = (.ok (List.replicate 4 0), q.2)) ∧
    (let o := mop .sload { rec0 with hd := 63 } { layout := some d, transfer := some (xfer 4) }
     let q := readPlaces 0 d false (placeBytes (fs o) (ps o .a 4)) s
     0 ≤ (o.rcd.h .d : Int) + o.stride .d ∧ (o.rcd.h .d : Int) + o.stride .d ≤ 63 ∧ o.places .a d (xfer 4) 0 s = (.ok (ps o .a 4), s) ∧
     q = (.ok (List.replicate 4 0), q.2)) ∧
    (let o := mop .mcred rec0 { layout := some { d with space := 3 }, transfer := some (xfer 4), members := [1, 2] }
     let s := { s with hub := { fabricUp := true } }
     let us := got (o.loadRow s) []
     let q := readMembers (tileDie 0) (s.tile 0).partNo (fs o) (ps o .a 4) o.started.members s
     o.loadRow s = (.ok us, s) ∧ o.places .a d (xfer 4) 0 s = (.ok (ps o .a 4), s) ∧ (ps o .a 4).any (·.isSome) = true ∧
     absent (tileDie 0) o.started.members s = none ∧ q = (.ok [[0, 0, 0, 0], [0, 0, 0, 0]], q.2) ∧ rowWritable 0 us q.2 = (.ok (), q.2)) := by
  refine ⟨⟨eq_of_yields ?_, eq_of_yields ?_⟩, ⟨eq_of_yields ?_, eq_of_yields ?_, eq_of_yields ?_, eq_of_yields ?_⟩,
    ⟨eq_of_yields ?_, eq_of_yields ?_, eq_of_yields ?_, eq_of_gives ?_, eq_of_yields ?_, ?_, ?_⟩,
    ⟨eq_of_yields ?_, eq_of_yields ?_, eq_of_yields ?_⟩, eq_of_gives ?_, ⟨?_, ?_, eq_of_yields ?_, eq_of_gives ?_⟩,
    ⟨eq_of_yields ?_, eq_of_yields ?_, ?_, ?_, eq_of_gives ?_, eq_of_yields ?_⟩⟩
  all_goals decide +kernel

/-- A row of each store record: into another scratchpad, module memory and another module; a reduction; a signal. -/
theorem test_meets_StoreIterations :
    let s := mill 0
    let up : State := { s with hub := { fabricUp := true } }
    let d := layout0 0
    let far := { d with space := 2, modnum := 1 }
    let ps (o : Op) (n : Nat) := got (o.places .d d (xfer n) 0 s) []
    let fs (o : Op) := entryOf o.latch.fmt d.fidx
    (let o := mop .xpush rec0 { transfer := some (xfer 2) }
     let us := got (o.rawRow .a 2 s) []
     o.rawRow .a (xfer 2).len s = (.ok us, s) ∧ o.remoteOff .d (xfer 2) s = (.ok 0, s) ∧
     rowWritable ((xfer 2).arg / 2 ^ 21 % 2 ^ 8) ((List.range (xfer 2).len).map fun i => { off := 0 + 64 * i, pond := 0 }) s = (.ok (), s) ∧
     readRow 0 us (64 * (xfer 2).len) s = (.ok (List.replicate 128 0), s)) ∧
    (let o := mop .tstore rec0 { layout := some d, transfer := some (xfer 4) }
     let us := got (o.storeUnits d (xfer 4) s) []
     let m := pageMap (tileDie 0) (s.tile 0).partNo .write (placeBytes (fs o) (ps o 4)) [] s
     o.storeUnits d (xfer 4) s = (.ok us, s) ∧ o.index 0 s = (.ok 0, s) ∧ o.places .d d (xfer 4) 0 s = (.ok (ps o 4), s) ∧
     m = (.ok [(0, some 0x20A000)], m.2) ∧
     o.storeCodes 0 (xfer 4) (fs o) us m.2 = (.ok ([0, 0, 0, 0], []), m.2)) ∧
    (let o := mop .rstore rec0 { layout := some far, transfer := some (xfer 4) }
     let us := got (o.storeUnits far (xfer 4) up) []
     o.storeUnits far (xfer 4) up = (.ok us, up) ∧ o.index 0 up = (.ok 0, up) ∧ o.places .d far (xfer 4) 0 up = (.ok (ps o 4), up) ∧
     2 ≤ far.space ∧ absent (tileDie 0) [far.modnum] up = none ∧
     o.storeCodes 0 (xfer 4) (fs o) us up = (.ok ([0, 0, 0, 0], []), up) ∧ (SMap.get {} (up.tile 0).es.failed far.modnum).code = 0) ∧
    (let e := { d with fidx := 2 }
     let o := mop .tred { rec0 with ea := true, fa := 2 } { layout := some e, transfer := some (xfer 4) }
     let us := got (o.storeUnits e (xfer 4) s) []
     let p := got (o.places .d e (xfer 4) 0 s) []
     let f := entryOf o.latch.fmt e.fidx
     let m := pageMap (tileDie 0) (s.tile 0).partNo .atomic (placeBytes f p) [] s
     o.storeUnits e (xfer 4) s = (.ok us, s) ∧ o.places .d e (xfer 4) 0 s = (.ok p, s) ∧ m = (.ok [(0, some 0x20A000)], m.2) ∧
     memPoison [(0, some 0x20A000)] .atomic (placeBytes f p) m.2 = (.ok (), m.2) ∧
     o.storeCodes 0 (xfer 4) f us m.2 = (.ok ([0, 0, 0, 0], []), m.2)) ∧
    (let o := mop .rsig rec0 { layout := some far, transfer := some (xfer 1) }
     absent (tileDie 0) [far.modnum] up = none ∧ addressOf far (fs o) ((xfer 1).coord.take far.rank) = .at_ (8 * 0x200) 0 ∧
     (SMap.get {} (up.tile 0).es.failed far.modnum).code = 0) := by
  refine ⟨⟨eq_of_yields ?_, eq_of_yields ?_, eq_of_yields ?_, eq_of_yields ?_⟩,
    ⟨eq_of_yields ?_, eq_of_yields ?_, eq_of_yields ?_, eq_of_gives ?_, eq_of_yields ?_⟩,
    ⟨eq_of_yields ?_, eq_of_yields ?_, eq_of_yields ?_, ?_, ?_, eq_of_yields ?_, ?_⟩,
    ⟨eq_of_yields ?_, eq_of_yields ?_, eq_of_gives ?_, eq_of_yields ?_, eq_of_yields ?_⟩, ⟨?_, ?_, ?_⟩⟩
  all_goals decide +kernel

/-- Tile 0 with one operation in its matrix engine, at a tick. -/
def engined (o : Op) (now : Nat) : State := issuingWith [] [o] [] false now

/-- A queued `mzero`, one stamped for this tick, one that is not ready, a running one, a cancelled one. -/
theorem test_meets_EnginesRunOperations :
    (let o := op .mzero 1
     let s := engined o 0
     ((s.tile 0).eng .matrix).ops = o :: [] ∧ (s.tile 0).life.phase = .running ∧ o.token = none ∧ o.wait = .none ∧
     o.state = .queued ∧ o.cancel = false ∧ (s.tile 0).opReady o = true ∧ (s.tile 0).traceStall (3 + Engine.matrix.num) = false ∧
     s.hub.power.hold = false ∧ o.stamp = none ∧ (o.recBad = [] ∧ o.recCe = []) ∧ startOp 0 o s = (.ok o, (startOp 0 o s).2)) ∧
    (let o := { op .mzero 1 with stamp := some 9 }
     let s := issuingWith [] [o] [] true 10
     ((s.tile 0).eng .matrix).ops = o :: [] ∧ o.state = .queued ∧ (s.tile 0).opReady o = true ∧ o.stamp = some 9 ∧ 9 ≤ s.seiche ∧
     bit (s.tile 0).ctl.node.toNat 58 = true ∧ s.seiche < 9 + 2 ∧ o.atStart = false ∧ startOp 0 o s = (.ok o, (startOp 0 o s).2)) ∧
    (let o := { op .mzero 1 with stamp := some 9 }
     let s := issuingWith [] [o] [] true 11
     ((s.tile 0).eng .matrix).ops = o :: [] ∧ o.stamp = some 9 ∧ bit (s.tile 0).ctl.node.toNat 58 = true ∧ 9 + 2 ≤ s.seiche) ∧
    (let o := { op .mzero 1 with stamp := some 9, preds := [(0, 4)] }
     let s := issuingWith [op .tload 4] [o] [] false 9
     ((s.tile 0).eng .matrix).ops = o :: [] ∧ o.stamp = some 9 ∧ 9 ≤ s.seiche ∧ (s.tile 0).opReady o = false) ∧
    (let o := { op .mzero 1 with state := .running }
     let s := engined o 0
     ((s.tile 0).eng .matrix).ops = o :: [] ∧ o.state = .running ∧ o.suspended = false ∧ o.cancel = false ∧ o.atRendezvous = false ∧
     iterOp 0 o false s = (.ok (), (iterOp 0 o false s).2)) ∧
    (let o := { op .mzero 1 with state := .running, cancel := true }
     ((engined o 0).tile 0).em.ops = o :: [] ∧ o.suspended = false ∧ o.cancel = true) ∧
    (let o := { op .mzero 1 with cancel := true }
     ((engined o 0).tile 0).em.ops = o :: [] ∧ o.state = .queued ∧ o.cancel = true) := by
  refine ⟨⟨?_, ?_, ?_, ?_, ?_, ?_, ?_, ?_, ?_, ?_, ?_, eq_of_gives ?_⟩, ⟨?_, ?_, ?_, ?_, ?_, ?_, ?_, ?_, eq_of_gives ?_⟩, ?_, ?_,
    ⟨?_, ?_, ?_, ?_, ?_, eq_of_gives ?_⟩, ?_, ?_⟩
  all_goals decide +kernel

/-- A start that faults; a second operation whose tick has come behind a head that is not stamped; a cancel with an iteration in
progress; an iteration that runs past the accumulators. -/
theorem test_meets_EnginesRunOperations2 :
    (let o := { op .tload 1 with rcd := { rec0 with hb := 0xFFFF } }
     let s := issuingWith [o] [] [] false 0
     ((s.tile 0).eng .load).ops = o :: [] ∧ o.token = none ∧ o.wait = .none ∧ o.state = .queued ∧ o.cancel = false ∧
     (s.tile 0).opReady o = true ∧ o.stamp = none ∧ (∃ f, (startOp 0 o s).1 = .error { f := f })) ∧
    (let o := op .mzero 1
     let o2 := { op .mzero 2 with stamp := some 9 }
     let s := issuingWith [] [o, o2] [] false 9
     ((s.tile 0).eng .matrix).ops = o :: [o2] ∧ (s.tile 0).traceStall (3 + Engine.matrix.num) = false ∧ s.hub.power.hold = false ∧
     o.stampDue s.seiche false = false ∧ [o2].find? (·.stampDue s.seiche false) = some o2 ∧ o2.seq ≠ o.seq) ∧
    (let o := { op .mzero 1 with state := .running, cancel := true, inIter := true }
     let s := engined o 0
     o.cancel = false ∨ o.inIter = true ∧ o.atStart = false ∧ o.atRendezvous = false ∧ (iterOp 0 o false s).1 = .ok ()) ∧
    (let o := { op .mzero 1 with state := .running, rcd := { rec0 with hd := 0xFFFF, sd := ⟨1, 0, 0, 0⟩, trip := ⟨2, 1, 1, 1⟩ }, t := 1 }
     let s := engined o 0
     o.suspended = false ∧ o.cancel = false ∧ o.atRendezvous = false ∧
     ∃ f, (iterOp 0 o false s).1 = .error { f := f }) := by
  refine ⟨⟨?_, ?_, ?_, ?_, ?_, ?_, ?_, exists_of_stops ?_⟩, ?_, .inr ⟨?_, ?_, ?_, ?_⟩, ⟨?_, ?_, ?_, exists_of_stops ?_⟩⟩
  all_goals decide +kernel

/-- An operation with completion queue 6, room there and none; a token that waits; cores that retry. -/
theorem test_meets_TokensOfOperations :
    (let o := { op .mzero 1 with rcd := { rec0 with cq := 6, tok := 3 } }
     let s := engined o 0
     (s.tile 0).life.phase = .running ∧ o.endToken .matrix .retired = some 0x34000001 ∧
     ({ o with started := { pin := some 3 } } : Op).started.pin = some 3 ∧
     ((s.tile 0).queueAt o.rcd.cq.toNat).full = false ∧ seqDist o.seq ((s.tile 0).eng .matrix).last < 2 ^ 32) ∧
    (let o := { op .mzero 1 with rcd := { rec0 with cq := 6, tok := 3 }, state := .running, token := some 0x34000001 }
     let s := { bench [] with tiles := [(0, { tile 0 [] with em := { last := 1, ops := [o] }, queue := [(6, { depth := 0 })] })] }
     ((s.tile 0).queueAt o.rcd.cq.toNat).full = true ∧ (s.tile 0).life.rest ≠ some .ending ∧
     seqDist o.seq ((s.tile 0).eng .matrix).last < 2 ^ 31) ∧
    (let o := { op .mzero 1 with rcd := { rec0 with cq := 6, tok := 3 }, state := .running, token := some 0x34000001 }
     let s := engined o 0
     ((s.tile 0).eng .matrix).ops.find? (fun p => p.token.isSome) = some o ∧ ((s.tile 0).queueAt o.rcd.cq.toNat).full = false) ∧
    ((withCore { runs [] with wait := .pop 4 }).coreAt 0 .l).wait.retries = true ∧
    ((withCore { runs [] with wait := .launch }).coreAt 0 .l).wait.retries = true := by decide +kernel

/-- A `wswap` that heads its engine, ready, without a stamp, at its stamp's tick, and running. -/
theorem test_meets_TokensOfOperations2 :
    (let o := op .wswap 1
     let s := engined o 0
     ((s.tile 0).eng .matrix).ops = o :: [] ∧ (s.tile 0).life.phase = .running ∧ o.token = none ∧ o.wait = .none ∧ o.state = .queued ∧
     o.cancel = false ∧ (s.tile 0).opReady o = true ∧ o.t < o.rcd.total ∧ o.recBad = [] ∧ o.recCe = [] ∧
     (s.tile 0).traceStall 4 = false ∧ s.hub.power.hold = false ∧ o.stamp = none) ∧
    (let o := { op .wswap 1 with stamp := some 9 }
     ((engined o 9).tile 0).em.ops = o :: [] ∧ ((engined o 9).tile 0).opReady o = true ∧ o.atStart = false ∧ 9 ≤ (engined o 9).seiche ∧
     (engined o 9).seiche < 9 + 2) ∧
    (let o := { op .wswap 1 with state := .running }
     ((engined o 0).tile 0).em.ops = o :: [] ∧ o.suspended = false ∧ o.cancel = false ∧ o.atStart = false) := by decide +kernel

/-- A pass in the middle of a chain of two that takes its row from the west. -/
theorem test_meets_ChainsAndDeadlock2 :
    let o := { mop .mma { rec0 with chain := true, ea := true, fa := 1, hb := 4 } {} with west := true }
    let s := { mill 0 with
      tiles := [(0, { tile 0 [] with mem := { act := { loaded := true, fmt := 0x948301C800000000 }, chainLen := 3, chainPos := 1,
                                              chainIn := [List.replicate 128 0] } }),
                (1, { tile 1 [] with mem := { chainLen := 3, chainPos := 2 } })] }
    o.rcd.chain = true ∧ o.west = true ∧ o.rcd.epi = false ∧ s.chainReady 0 o = true ∧
    (s.tile 0).mem.chainPos + 1 < (s.tile 0).mem.chainLen ∧ passClean s 0 0 := by unfold passClean; decide +kernel

/-- An `mchain` of a chain of so many tiles, at its place, and the machine where tiles 0 to 2 hold some. -/
def chainRec (len pos : Nat) (st : OpState) : Op := { op .mchain 1 with state := st, rcd := { rec0 with ha := BitVec.ofNat 16 (len - 1 + 8 * pos) } }
def chaining (l : List Op) : State :=
  { bench [] with tiles := (List.range 3).map fun u => (u, { tile u [] with em := { ops := (l.drop u).take 1 } }) }

/-- A chain of one that starts, one of three that starts alone, one that meets another of two. -/
theorem test_meets_ChainsAndDeadlock3 :
    (∀ n ∈ [1, 3], let o := chainRec n 0 .queued
     let s := chaining [o]
     let v := s.setOp 0 .matrix { o with state := .running, atStart := false }
     (s.tile 0).em.ops = o :: [] ∧ o.kind = .mchain ∧ o.cancel = false ∧ o.token = none ∧ o.wait = .none ∧ o.stamp = none ∧
     (s.tile 0).opReady o = true ∧ o.t < o.rcd.total ∧ (s.tile 0).life.phase = .running ∧ o.recBad = [] ∧ o.recCe = [] ∧
     (s.tile 0).traceStall 4 = false ∧ s.hub.power.hold = false ∧ (∀ u ∈ List.range 8, u ≠ 0 → v.chainSeen u = none) ∧
     chainLenOf o.rcd = n) ∧
    (let o := chainRec 3 0 .queued
     let s := chaining [o, chainRec 2 1 .running]
     let run := { o with state := .running, atStart := false }
     let v := s.setOp 0 .matrix run
     (s.tile 0).opReady o = true ∧ v.rendezvous 0 run = [(1, chainRec 2 1 .running)] ∧ chainFits 0 o 1 (chainRec 2 1 .running) = false) := by
  decide +kernel

/-- A chain of three on tile 0 whose mate on tile 1, which fits or does not, lies frozen with a fault of its own. -/
theorem test_meets_ChainsAndDeadlock5 :
    ∀ n ∈ [2, 3], let o := chainRec 3 0 .running
     let q := chainRec n 1 .running
     let y := { tile 1 [] with em := { ops := [q] }, life := { (tile 1 []).life with phase := .frozen, fault := some (opRec Code.recordField 12 0) } }
     let s := { chaining [o, q, chainRec 3 2 .running] with tiles := [(0, { tile 0 [] with em := { ops := [o] } }), (1, y),
       (2, { tile 2 [] with em := { ops := [chainRec 3 2 .running] } })] }
     s.chainOp 0 = some o ∧ s.chainOp 1 = none ∧ s.chainSeen 1 = some q ∧ (chainFits 0 o 1 q = decide (n = 3)) ∧
     s.chainSeen 2 = some (chainRec 3 2 .running) ∧ (s.tile 1).life.fault ≠ none := by decide +kernel

/-- A chain of three whose tiles have all started, one where a tile has another length, one where a tile has not come. -/
theorem test_meets_ChainsAndDeadlock4 :
    (let o := chainRec 3 0 .running
     let s := chaining [o, chainRec 3 1 .running, chainRec 3 2 .running]
     s.chainOp 0 = some o ∧ ∀ u ∈ chainTiles 0 o.rcd, s.chainOp u = some (chainRec 3 u .running) ∧
       chainFits 0 o u (chainRec 3 u .running) = true) ∧
    (let o := chainRec 3 0 .running
     let s := chaining [o, chainRec 2 1 .running]
     s.chainOp 0 = some o ∧ 1 ∈ chainTiles 0 o.rcd ∧ s.chainSeen 1 = some (chainRec 2 1 .running) ∧
       chainFits 0 o 1 (chainRec 2 1 .running) = false ∧ s.chainMet 1 (chainRec 2 1 .running) = false) ∧
    (let o := chainRec 3 2 .running
     let s := chaining [chainRec 2 0 .running, chainRec 2 1 .running, o]
     s.chainOp 2 = some o ∧ chainTiles 2 o.rcd = [0, 1, 2] ∧ (∀ u ∈ [0, 1], s.chainSeen u = some (chainRec 2 u .running) ∧
       chainFits 2 o u (chainRec 2 u .running) = false ∧ s.chainMet u (chainRec 2 u .running) = true) ∧ s.chainSeen 2 = some o ∧
       chainFits 2 o 2 o = true ∧ (s.tile 2).torn = false) ∧
    (let o := chainRec 3 0 .running
     let s := chaining [o, chainRec 3 1 .running]
     s.chainOp 0 = some o ∧ (∀ u ∈ [0, 1], s.chainSeen u = some (chainRec 3 u .running) ∧ chainFits 0 o u (chainRec 3 u .running) = true) ∧
       s.chainSeen 2 = none ∧ chainTiles 0 o.rcd = [0, 1, 2] ∧ (s.tile 2).torn = false) := by decide +kernel

/-- A tile whose three cores wait for tokens, at 4,096 cycles and one short; a gang
of one and a gang of two whose cores wait at a barrier, and one cycle short; cores that wait for a token that is there. -/
theorem test_meets_ChainsAndDeadlock :
    (let k := { runs [] with wait := .pop 0 }
     let x := fun n => { tile 0 [] with cl := k, cx := k, cw := k, life := { (tile 0 []).life with deadCount := n } }
     (withTile (x 4096)).localDeadlock 0 = true ∧ 4096 ≤ ((withTile (x 4096)).tile 0).life.deadCount ∧
     (withTile (x 4095)).localDeadlock 0 = true ∧ ((withTile (x 4095)).tile 0).life.deadCount < 4096) ∧
    (let k := { runs [] with wait := .barw 16 0 }
     let n : Node := { addr := 0x10000, state := .running, tiles := [0], gangCount := 4096 }
     let s := { withTile { tile 0 [] with cl := k, cx := k, cw := k } with parts := [(0, { sched := { nodes := [n] } })] }
     s.findNode 0 0x10000 = some n ∧ n.tiles = [0] ∧ s.gangBlocked n = true ∧ s.localDeadlock 0 = false ∧ 4096 ≤ n.gangCount ∧
     (s.tile 0).life.fault = none) ∧
    (let k := { runs [] with wait := .barw 16 0 }
     let q := { runs [] with wait := .pop 0 }
     let n : Node := { addr := 0x10000, state := .running, tiles := [0, 1], gangCount := 4096 }
     let s := { withTile { tile 0 [] with cl := q, cx := q, cw := q } with
       parts := [(0, { sched := { nodes := [n] } })]
       tiles := [(0, { tile 0 [] with cl := q, cx := q, cw := q }), (1, { tile 1 [] with cl := k, cx := k, cw := k })] }
     let v := s.deadlock 0 false
     s.findNode 0 0x10000 = some n ∧ n.tiles.Nodup ∧ s.gangBlocked n = true ∧ s.localDeadlock 0 = true ∧ s.localDeadlock 1 = false ∧
     s.justDead 0 = false ∧ v.findNode 0 0x10000 = some n ∧ v.gangBlocked n = true ∧ v.justDead 0 = true ∧ v.justDead 1 = false) ∧
    (let k := { runs [] with wait := .barw 16 0 }
     let n : Node := { addr := 0x10000, state := .running, tiles := [0, 1], gangCount := 4096 }
     let s (n : Node) := { withTile { tile 0 [] with cl := k, cx := k, cw := k } with
       parts := [(0, { sched := { nodes := [n] } })]
       tiles := [(0, { tile 0 [] with cl := k, cx := k, cw := k }), (1, { tile 1 [] with cl := k, cx := k, cw := k })] }
     (s n).findNode 0 0x10000 = some n ∧ (s n).gangBlocked n = true ∧ (∀ u ∈ n.tiles, (s n).localDeadlock u = false) ∧ 4096 ≤ n.gangCount ∧
     (∀ k ∈ n.tiles, ((s n).tile k).life.fault = none) ∧
     (s { n with gangCount := 4095 }).findNode 0 0x10000 = some { n with gangCount := 4095 } ∧
     (s { n with gangCount := 4095 }).gangBlocked n = true ∧ ({ n with gangCount := 4095 } : Node).gangCount < 4096) ∧
    (let k := { runs [] with wait := .pop 0 }
     let s := withTile { tile 0 [] with cl := k, cx := k, cw := k, queue := [(0, { depth := 1, toks := [{ w := 0 }] })] }
     s.localDeadlock 0 = false) := by
  refine ⟨?_, ?_, ?_, ?_, ?_⟩ <;> decide +kernel
/-! ### Tiles -/

/-- Tile 0 in a phase, its life changed further. -/
def phased (ph : Phase) (f : Life → Life) : State := withTile { tile 0 [] with life := f { (tile 0 []).life with phase := ph } }

/-- A first fault and a later one of the same drain; a frozen tile whose fault is resolved. -/
theorem test_meets_FaultsDrainAndResume :
    ((bench []).fault Code.trap 5 = (bench []).fault Code.trap 5 ∧ (bench []).me.life.fault = none) ∧
    (phased .draining fun l => { l with fault := some { code := Code.trap } }).me.life.fault ≠ none ∧
    (let s := phased .frozen fun l => { l with fault := some { code := Code.trap }, resolved := true }
     (s.tile 0).life.phase = .frozen ∧ (s.tile 0).life.fault.isSome ∧ (s.tile 0).life.resolved = true ∧
     (s.tile 0).life.rest = none ∧ (s.tile 0).life.gatedClock = false ∧ (s.tile 0).mem.chainLen ≤ 1) := by
  refine ⟨⟨rfl, ?_⟩, ?_, ?_⟩ <;> decide +kernel

/-- Page 1 marked demand-zero, with a partition that has frames to give; tile 0 as given. -/
def lazyPage (x : Tile) : State :=
  { withTile x with
    mem := (pages (layoutRec 0)).writeLE 0x404008 8 (demandEntry false true true true 0)
    parts := [(0, { state := .active, frameBase := 0x400000, frameLen := 0x10000000 })] }

/-- A draining tile at rest, one of an ending attempt, a running one whose mate drains; a core and an operation that wait for
firmware, which completes page 1 and cannot complete page 2. -/
theorem test_meets_FreezingAndFirmware :
    (let s := phased .draining id
     (s.tile 0).life.phase = .draining ∧ s.atRest 0 = true ∧ (s.tile 0).torn = false ∧ (s.tile 0).life.rest ≠ some .ending) ∧
    (let s := { phased .draining fun l => { l with rest := some .ending } with
                parts := [(0, { sched := { nodes := [{ addr := 0x10000, state := .ending, ending := some .cancel, tiles := [0] }] } })] }
     s.atRest 0 = true ∧ (s.tile 0).torn = false ∧ (s.tile 0).life.rest = some .ending ∧
     (((s.freeze 0).freezeRecord 0).nodeOf 0).ending = some .cancel) ∧
    (let s := { bench [] with tiles := [(0, { tile 0 [] with mem := { chainLen := 2 } }),
                (1, { tile 1 [] with life := { (tile 1 []).life with phase := .draining } })] }
     (s.tile 0).life.phase = .running ∧ (s.tile 0).torn = false ∧
     ∃ k ∈ s.mates 0, (s.tile k).life.phase = .draining ∨ (s.tile k).life.phase = .frozen) ∧
    (let f : FaultRec := { code := Code.notPresent, vaddr := 0x1000 }
     let s := lazyPage { tile 0 [] with cl := { runs [] with wait := .firmware f 0x1000 } }
     (s.tile 0).firmwareCore = some (.l, f, 0x1000) ∧ (complete s (s.tile 0).partNo 0x1000).isSome) ∧
    (let f : FaultRec := { code := Code.notPresent, vaddr := 0x2000 }
     let s := lazyPage { tile 0 [] with cl := { runs [] with wait := .firmware f 0x2000 } }
     (s.tile 0).firmwareCore = some (.l, f, 0x2000) ∧ complete s (s.tile 0).partNo 0x2000 = none) ∧
    (let f : FaultRec := { code := Code.notPresent, vaddr := 0x1000 }
     let o := { op .tload 1 with wait := .firmware f 0x1000 }
     let s := lazyPage { tile 0 [] with el := { ops := [o] } }
     (s.tile 0).firmwareCore = none ∧ (s.tile 0).firmwareOp = some (.load, o, f, 0x1000) ∧ (complete s (s.tile 0).partNo 0x1000).isSome ∧
     complete { s with mem := [] } (s.tile 0).partNo 0x1000 = none) := by
  refine ⟨?_, ?_, ?_, ?_, ?_, ?_⟩ <;> decide +kernel

/-- A frozen tile whose fault firmware can resolve, on page 1, and one that it cannot, on page 2, of a node under RESUME. -/
theorem test_meets_FreezingAndFirmware2 :
    let n : Node := { addr := 0x10000, state := .running, tiles := [0], rcd := 2 ^ 345 }
    let k : Seat := { part := 0, node := 0x10000, rank := 0, attempt := 1 }
    let s := fun (va : Nat) =>
      let f : FaultRec := { code := Code.notPresent, vaddr := va, resolvable := true }
      { lazyPage { tile 0 [] with life := { (tile 0 []).life with phase := .frozen, fault := some f } } with
        parts := [(0, { state := .active, frameBase := 0x400000, frameLen := 0x10000000, sched := { nodes := [n] } })] }
    (∀ va ∈ [0x1000, 0x2000], ((s va).tile 0).firmwareCore = none ∧ ((s va).tile 0).firmwareOp = none ∧
      ((s va).tile 0).life.fault.isSome = true ∧ ((s va).tile 0).life.seat = some k ∧ (s va).findNode k.part k.node = some n ∧
      ((s va).tile 0).life.phase = .frozen ∧ n.state = .running ∧ Rcd.policy n.rcd = 1 ∧ ((s va).tile 0).life.resolved = false) ∧
    (complete (s 0x1000) k.part 0x1000).isSome = true ∧ complete (s 0x2000) k.part 0x2000 = none := by
  decide +kernel

/-- The node of tile 0 in partition 0, its tiles in a phase. -/
def preempting (ph : Phase) (f : Life → Life) (n : Node) (run : Run) (now : Nat) : State :=
  let k := { runs [] with run := run }
  { withTile { tile 0 [] with cl := k, cx := k, cw := k, life := f { (tile 0 []).life with phase := ph } } with
    seiche := now, parts := [(0, { state := .active, sched := { nodes := [n] } })] }

/-- A request that latches and one that waits, the tick of a deadline, a tile that has stopped, one at rest for its save, a
save within its limit and one past it, a held tile of a saved gang. -/
theorem test_meets_PreemptionOfTiles :
    let n : Node := { addr := 0x10000, state := .running, tiles := [0, 1] }
    let seat : Seat := { part := 0, node := 0x10000, rank := 0, attempt := 1 }
    (let s := preempting .running id { n with preempt := true } .running 0
     (s.tile 0).life.seat = some seat ∧ (s.nodeOf 0).preempt = true ∧ (s.tile 0).life.latched = none ∧
     (s.tile 0).life.pending = false ∧ (s.tile 0).life.phase = .running) ∧
    (let s := preempting .frozen id { n with preempt := true } .running 0
     (s.tile 0).life.seat = some seat ∧ (s.nodeOf 0).preempt = true ∧ (s.tile 0).life.phase = .frozen) ∧
    (let s := preempting .running (fun l => { l with latched := some 5 }) n .running 100005
     (s.tile 0).life.phase = .running ∧ (s.tile 0).life.latched = some 5 ∧ 5 + (s.tile 0).life.deadline ≤ s.seiche ∧
     (s.tile 0).allStopped = false ∧ (s.tile 0).trace.waiting = [] ∧ (s.tile 0).life.deadCount < 4096) ∧
    (let k := { runs [] with wait := .pop 0 }
     let s := withTile { tile 0 [] with cl := k, cx := k, cw := k, life := { (tile 0 []).life with deadCount := 4096, latched := some 5 } }
     (s.tile 0).life.phase = .running ∧ (s.tile 0).life.latched = some 5 ∧ 4096 ≤ (s.tile 0).life.deadCount ∧ s.localDeadlock 0 = true) ∧
    (let s := preempting .running (fun l => { l with latched := some 5 }) n .yielded 6
     (s.tile 0).life.latched = some 5 ∧ (s.tile 0).allStopped = true) ∧
    (let s := preempting .frozen (fun l => { l with rest := some .cooperative }) { n with tiles := [0] } .yielded 6
     (s.tile 0).life.phase = .frozen ∧ (s.tile 0).saveRest = true ∧ ∀ u ∈ (s.nodeOf 0).tiles, (s.tile u).saveRest = true) ∧
    (let s := preempting .saving (fun l => { l with saveStart := 6 }) n .yielded 1000006
     let r := writeParts s (tileDie 0) 0 (saveBase n 0) ((s.tile 0).saveHead n 0 s.seiche)
     s.findNode 0 0x10000 = some n ∧ (s.tile 0).life.phase = .saving ∧ (s.tile 0).life.saveCe = 0 ∧
     s.seiche ≤ (s.tile 0).life.saveStart + (s.tile 0).prv.savelim ∧ r = (none, r.2) ∧ ∃ u ∈ n.tiles, u ≠ 0 ∧ (r.2.tile u).life.phase ≠ .saved) ∧
    (let s := preempting .saving (fun l => { l with saveStart := 6 }) n .yielded 1000007
     (s.tile 0).life.phase = .saving ∧ (s.tile 0).life.saveStart + (s.tile 0).prv.savelim < s.seiche) ∧
    (let m := { n with wasSaved := true }
     let s := preempting .held id m .halted 1000000
     s.findNode 0 0x10000 = some m ∧ (s.tile 0).life.phase = .held ∧ m.state = .running ∧ m.wasSaved = true ∧ (s.tile 0).life.saveCe = 0 ∧
     s.seiche ≤ (s.tile 0).life.saveStart + (s.tile 0).prv.savelim) := by
  refine ⟨?_, ?_, ?_, ?_, ?_, ?_, ⟨?_, ?_, ?_, ?_, eq_of_fst ?_, ?_⟩, ?_, ?_⟩ <;> decide +kernel

/-- A save that meets poison, one whose parts are written; the last tile of a gang with a rank that has not finished; a restore one
tick past its limit. -/
theorem test_meets_PreemptionOfTiles2 :
    let n : Node := { addr := 0x10000, state := .running, tiles := [0] }
    (let s := { preempting .frozen (fun l => { l with rest := some .forced }) n .yielded 6 with
                tiles := [(0, { tile 0 [] with mem := { accBad := [0] }
                                               life := { (tile 0 []).life with phase := .frozen, rest := some .forced } })] }
     (s.tile 0).life.phase = .frozen ∧ (s.tile 0).saveRest = true ∧ (∀ u ∈ (s.nodeOf 0).tiles, (s.tile u).saveRest = true) ∧
     (s.tile 0).saveArrayPoison ((s.tile 0).saveMaps (s.tile 0).saveModeOf) Tok.bad = true) ∧
    (let s := { preempting .frozen (fun l => { l with rest := some .cooperative }) n .yielded 6 with
                dies := [(0, { kept := [{ part := 0, root := .own, bits := 30, vbase := 0, pbase := 0, rd := true, w := true, x := true
                                          companion := 0x500000 }] })] }
     let x := s.tile 0
     let m := x.saveMaps x.saveModeOf
     let s1 := (s.setTile 0 { x with life := { x.life with saveStart := s.seiche, saveMode := x.saveModeOf } }).noteArrays 0 m |>.noteSave 0 m
     let r := writeParts s1.draw (tileDie 0) 0 (saveBase (s1.nodeOf 0) 0) (x.saveParts x.saveModeOf m s1.choices)
     x.saveArrayPoison m Tok.bad = false ∧ x.saveScratchPoison m = false ∧ r = (none, r.2)) ∧
    (let s := preempting .frozen (fun l => { l with rest := some .cooperative }) n .yielded 6
     let x := s.tile 0
     let m := x.saveMaps x.saveModeOf
     let s1 := (s.setTile 0 { x with life := { x.life with saveStart := s.seiche, saveMode := x.saveModeOf } }).noteArrays 0 m |>.noteSave 0 m
     x.saveArrayPoison m Tok.bad = false ∧ x.saveScratchPoison m = false ∧
     (writeParts s1.draw (tileDie 0) 0 (saveBase (s1.nodeOf 0) 0) (x.saveParts x.saveModeOf m s1.choices)).1.isSome = true) ∧
    (let s := preempting .saving (fun l => { l with saveStart := 6 }) n .yielded 6
     let r := writeParts s (tileDie 0) 0 (saveBase n 0) ((s.tile 0).saveHead n 0 s.seiche)
     let s2 := r.2.setTile 0 { r.2.tile 0 with life := { (r.2.tile 0).life with phase := .saved } }
     s.findNode 0 0x10000 = some n ∧ (s.tile 0).life.phase = .saving ∧ (s.tile 0).life.saveBad = false ∧ r = (none, r.2) ∧
     (∀ u ∈ n.tiles, (s2.tile u).life.phase = .saved) ∧ ∃ u ∈ n.tiles, (s2.tile u).finished = false) ∧
    (let s := preempting .held (fun l => { l with saveStart := 6 }) { n with wasSaved := true } .halted 1000007
     (s.tile 0).life.phase = .held ∧ (s.nodeOf 0).wasSaved = true ∧ (s.tile 0).life.saveStart + (s.tile 0).prv.savelim < s.seiche) := by
  refine ⟨?_, ⟨?_, ?_, eq_of_fst ?_⟩, ?_, ⟨?_, ?_, ?_, eq_of_fst ?_, ?_, ?_⟩, ?_⟩ <;> decide +kernel

/-- A tile that reached the DEADLOCK count before its mate drained, or before its save. -/
theorem test_meets_PreemptionOfTiles3 :
    let k := { runs [] with wait := .pop 0 }
    let x := { tile 0 [] with cl := k, cx := k, cw := k, mem := { chainLen := 2 }, life := { (tile 0 []).life with deadCount := 4096 } }
    (let s := { bench [] with tiles := [(0, x), (1, { tile 1 [] with life := { (tile 1 []).life with phase := .draining } })] }
     (s.tile 0).life.phase = .running ∧ (s.tile 0).torn = false ∧ (∃ k ∈ s.mates 0, (s.tile k).life.phase = .draining) ∧
     4096 ≤ (s.tile 0).life.deadCount ∧ s.localDeadlock 0 = true) ∧
    (let e := { runs [] with run := .exited }
     let o := { op .mzero 1 with rcd := { rec0 with cq := 6 }, state := .running, token := some 0x34000001 }
     let s := withTile { x with cl := e, cx := e, cw := e, em := { ops := [o] }, queue := [(6, { depth := 0 })]
                                life := { x.life with latched := some 5 } }
     (s.tile 0).life.latched = some 5 ∧ (s.tile 0).allStopped = true ∧ 4096 ≤ (s.tile 0).life.deadCount ∧
     s.localDeadlock 0 = true) := by decide +kernel

/-- Wakes at the tick where each becomes due and one tick before; a release; a tile gated as its delay ends. -/
theorem test_meets_WakingAndRelease :
    let n : Node := { addr := 0x10000, state := .running, tiles := [0], picks := [0] }
    (let s := { preempting .reserved id n .halted 32 with dies := [(0, { lastWake := some 0 })] }
     (s.tile 0).life.phase = .reserved ∧ (∀ j, (s.die (tileDie 0)).lastWake = some j → j + 32 ≤ s.seiche) ∧
     (s.nodeOf 0).picks.head? = some 0) ∧
    (let s := preempting (.waking 5) id n .halted 37
     (s.tile 0).life.phase = .waking 5 ∧ 5 + 32 ≤ s.seiche) ∧
    (let s := preempting (.waking 5) id n .halted 36
     (s.tile 0).life.phase = .waking 5 ∧ s.seiche < 5 + 32) ∧
    (let s := preempting .held id n .halted 36
     s.findNode 0 0x10000 = some n ∧ n.state = .running ∧ n.tiles = [0] ∧ n.wasSaved = false ∧ n.stopping = none ∧
     (s.tile 0).life.phase = .held ∧ (s.part 0).dbg.tren = false ∧ (s.tile 0).partNo = 0) ∧
    (let s := { phased .free fun l => { l with seat := none } with seiche := 50000, parts := [(0, { state := .active, clusters := 1 })] }
     s.ownerOf 0 = some 0 ∧ (s.tile 0).life.phase = .free ∧ (s.tile 0).life.gatedClock = false ∧ (s.part 0).sched.gatedly ≠ 0xFFFFFFFF ∧
     (s.tile 0).life.since + (s.part 0).sched.gatedly ≤ s.seiche) := by
  refine ⟨⟨?_, ?_, ?_⟩, ?_, ?_, ?_, ?_⟩
  · decide +kernel
  · intro j h
    have h2 : some 0 = some j := h
    cases h2
    decide +kernel
  all_goals decide +kernel

/-- A wake one tick too early, one out of pick order, one in order; a gang of two, held, and one of them not. -/
theorem test_meets_WakingAndRelease2 :
    let n : Node := { addr := 0x10000, state := .running, tiles := [0, 1], picks := [1, 0] }
    let s := fun (a b : Phase) (now : Nat) =>
      { preempting a id n .halted now with
        tiles := [(0, { tile 0 [] with life := { (tile 0 []).life with phase := a } }),
                  (1, { tile 1 [] with life := { (tile 1 []).life with phase := b } })]
        dies := [(0, { lastWake := some 0 })] }
    ((s .reserved .reserved 31).die (tileDie 0)).lastWake = some 0 ∧ (s .reserved .reserved 31).seiche < 0 + 32 ∧
    (∃ u ∈ ((s .reserved .reserved 32).nodeOf 0).picks.takeWhile (· != 0), tileDie u = tileDie 0 ∧
      ((s .reserved .reserved 32).tile u).life.phase = .reserved) ∧
    (∀ u ∈ ((s .reserved .held 32).nodeOf 0).picks.takeWhile (· != 0), tileDie u = tileDie 0 →
      ((s .reserved .held 32).tile u).life.phase ≠ .reserved) ∧
    ((s .held .held 64).findNode 0 0x10000 = some n ∧ n.state = .running ∧ n.tiles.Nodup ∧ n.tiles[1]? = some 1 ∧ n.wasSaved = false ∧
      n.stopping = none ∧ (∀ u ∈ n.tiles, ((s .held .held 64).tile u).life.phase = .held ∧ ((s .held .held 64).tile u).partNo = 0) ∧
      ((s .held .held 64).part 0).dbg.tren = false) ∧
    ∃ u ∈ n.tiles, ((s .held .reserved 64).tile u).life.phase ≠ .held ∧ ((s .held .reserved 64).tile u).life.phase ≠ .restored := by
  refine ⟨?_, ?_, ?_, ?_, ?_, ?_⟩ <;> decide +kernel

/-! ### The fabric, the link and translations -/

/-- A core and an operation that wait for module 1, since tick 5 for 10 ticks, or for the host. -/
def away (w : Remote) (now : Nat) : State :=
  { withCore { runs [] with wait := .fabric { module := 1, offset := 0x40, since := 5, limit := 10, what := w, unitLen := 4 } } with seiche := now }

theorem test_meets_AnswersToUnits :
    (∀ w ∈ [Remote.load 3 true 8, .store [5], .rmw .add 8 3 1 0], ∃ f,
      ((away w 15).coreAt 0 .l).wait = .fabric f ∧ f.module ≠ (away w 15).hub.modnum ∧ f.what = w ∧ (away w 15).seiche ≤ f.since + f.limit ∧
      ((away w 16).coreAt 0 .l).wait = .fabric f ∧ f.since + f.limit < (away w 16).seiche) ∧
    (let h : HostRead := { offset := 0x40, host := 0x1000, len := 8, since := 5, what := .load 3 false 8, unitLen := 4 }
     let s := { withCore { runs [] with wait := .hostRead h } with seiche := 10000005 }
     let g := { s with hub := { s.hub with card := { grants := [(0, { v := true, r := true, base := 0x1000, length := 8, src := 1 })] } } }
     (s.coreAt 0 .l).wait = .hostRead h ∧ s.seiche ≤ h.since + 10000000 ∧ h.what = .load 3 false h.len ∧
     g.granted (g.tile 0).partNo h.host h.len false = true ∧ s.granted (s.tile 0).partNo h.host h.len false = false ∧
     h.since + 10000000 < ({ s with seiche := 10000006 } : State).seiche) ∧
    (let f : FabWait := { module := 1, offset := 0x40, since := 5, limit := 10, what := .iteration, unitLen := 0 }
     let o := { op .xpull 1 with state := .running, wait := .fabric f }
     let s := { withTile { tile 0 [] with el := { ops := [o] } } with seiche := 15 }
     (s.engAt 0 .load).fabricOp = some (o, f) ∧ f.module ≠ s.hub.modnum ∧ s.seiche ≤ f.since + f.limit ∧ f.since + f.limit < 16) ∧
    (let h : HostRead := { offset := 0x40, host := 0x1000, len := 8, since := 5, what := .iteration, unitLen := 0 }
     let o := { op .tload 1 with state := .running, wait := .hostRead h }
     let s := { withTile { tile 0 [] with el := { ops := [o] } } with seiche := 10000005 }
     (s.engAt 0 .load).hostOp = some (o, h) ∧ s.seiche ≤ h.since + 10000000 ∧ h.since + 10000000 < 10000006) := by
  refine ⟨?_, ?_, ?_, ?_⟩
  · intro w hw
    fin_cases hw <;> exact ⟨_, rfl, by decide +kernel, rfl, by decide +kernel, rfl, by decide +kernel⟩
  all_goals decide +kernel

/-- The link down; an operation asked of another module than the one that answers; a fold that waits for its second member. -/
theorem test_meets_AnswersToUnits2 :
    (let h : HostRead := { offset := 0x40, host := 0x1000, len := 8, since := 5, what := .load 3 false 8, unitLen := 4 }
     let s := { withCore { runs [] with wait := .hostRead h } with hub := { ports := [(0, false), (1, false)] } }
     (s.coreAt 0 .l).wait = .hostRead h ∧ s.seiche ≤ h.since + 10000000 ∧ s.linkUp = false ∧ (bench []).linkUp = true) ∧
    (let f : FabWait := { module := 1, offset := 0x40, since := 5, limit := 10, what := .iteration, unitLen := 0 }
     let o := { op .rload 1 with state := .running, wait := .fabric f }
     let p := { op .mcred 1 with state := .running, wait := .fabric f, started := { members := [1, 2] } }
     let s := fun o => ({ withTile { tile 0 [] with el := { ops := [o] } } with seiche := 15 } : State)
     ((s o).engAt 0 .load).fabricOp = some (o, f) ∧ (2 : BitVec 10).toNat ≠ (s o).hub.modnum ∧ o.asks f (2 : BitVec 10).toNat = false ∧
     ((s p).engAt 0 .load).fabricOp = some (p, f) ∧ p.kind = .mcred ∧ (2 : BitVec 10).toNat ∈ p.started.members ∧
     (s p).seiche ≤ f.since + f.limit ∧ (2 : BitVec 10).toNat ∉ f.heard ∧ (∃ m ∈ p.started.members, m ≠ (2 : BitVec 10).toNat ∧ m ∉ f.heard) ∧
     ∀ m ∈ p.started.members, m = (2 : BitVec 10).toNat ∨ m ∈ ({ f with heard := [1] } : FabWait).heard) := by decide +kernel

/-- Posted writes of tile 0 to module 1. -/
def inFlight (l : List Posted) : State := { bench [] with posted := l }
def aWrite : Posted := { tile := 0, module := 1, offset := 0x40, bytes := [(5, 0xFF)], signal := none, since := 0, limit := 10, part := 0 }
def aSignal : Posted := { aWrite with bytes := [], signal := some (false, 1) }

/-- Page 0 exported to domain 7 on die 0. -/
def exporting : State :=
  { bench [] with
    dies := [(0, { xlt := [(0, { en := true, root := 1, xen := true, xroot := 1, tag := 7 })] })]
    parts := [(0, { state := .active, tag := 7 })]
    hub := { fabricUp := true } }

theorem test_meets_PostedWritesAndSignals :
    (1 : BitVec 10).toNat ≠ (inFlight []).hub.modnum ∧
    (inFlight [aSignal]).posted.find? (fun v => v.of 0 1) = some aSignal ∧ aSignal.signal = some (false, 1) ∧
    ((inFlight [aWrite, aSignal]).posted = [aWrite, aSignal] ∧ aWrite.of 0 1 = true ∧ aWrite.signal = none ∧ aSignal.of 0 1 = true ∧
      aWrite ≠ aSignal) ∧
    ((inFlight [aWrite]).posted.find? (fun v => v.of 0 1) = some aWrite ∧ aWrite.orphan = false ∧
      aWrite.away = false ∧ (SMap.get ({} : FarFault) ((inFlight [aWrite]).tile 0).es.failed 1).code = 0 ∧ (BitVec.ofNat 8 Code.fabricPeerAbsent).toNat = Code.fabricPeerAbsent ∧
      aWrite.done = false ∧ (BitVec.ofNat 8 Code.permission).toNat = Code.permission) ∧
    (bench []).hub.fabricUp = false ∧
    (exporting.hub.fabricUp = true ∧ exporting.exportOf 0 7 = some 0 ∧
      exportPlaces exporting 0 0 0x200 .write 2 = (.ok [0x20A200, 0x20A201], (exportPlaces exporting 0 0 0x200 .write 2).2) ∧
      [0x20A200, 0x20A201] = (List.range 2).map ([0x20A200, 0x20A201].headD 0 + ·)) := by
  refine ⟨?_, ?_, ?_, ?_, ?_, ?_, ?_, ?_, ?_, ?_⟩
  case refine_9 =>
    exact eq_of_fst (eq_of_isOk (by decide +kernel))
  all_goals decide +kernel

/-- A signal behind two writes, one performed; a later failure after a first one, of a write and of an orphan; a time limit passed;
arrivals: masked bytes, an atomic of either width, a signal, a tag of no domain. -/
theorem test_meets_PostedWritesAndSignals2 :
    (let a := [{ aWrite with done := true }, aWrite]
     let s := inFlight (a ++ aSignal :: [aWrite])
     s.posted = a ++ aSignal :: [aWrite] ∧ (∀ v ∈ a, v.of 0 1 = true → v.signal = none) ∧ aSignal.of 0 1 = true ∧ aSignal.done = false) ∧
    (∀ v ∈ (inFlight [aWrite]).posted, v.of 0 1 = true → v.done = true ∨ v.signal = none) ∧
    (let s := { inFlight [{ aWrite with done := true }] with tiles := [(0, { tile 0 [] with es := { failed := [(1, { code := Code.fabricTimeout, detail := 1 })] } })] }
     s.posted.find? (fun v => v.of 0 1) = some { aWrite with done := true } ∧
     (BitVec.ofNat 8 Code.fabricPeerAbsent).toNat = Code.fabricPeerAbsent ∧ (SMap.get ({} : FarFault) (s.tile 0).es.failed 1).code ≠ 0) ∧
    (let k : Seat := { part := 0, node := 0x10000, rank := 0, attempt := 1 }
     let w := { aWrite with seat := some k, away := true }
     let n : Node := { addr := 0x10000, state := .saved, saves := [(0, tile 0 [])] }
     let s := { inFlight [w] with parts := [(0, { sched := { nodes := [n] } })] }
     s.posted.find? (fun v => v.of 0 1) = some w ∧ w.orphan = false ∧ w.away = true ∧ w.seat = some k ∧
     s.findNode k.part k.node = some n) ∧
    (let s := { inFlight [{ aWrite with orphan := true }] with seiche := 11 }
     s.posted.find? (fun v => v.of 0 1) = some { aWrite with orphan := true } ∧
     (BitVec.ofNat 8 Code.fabricTimeout).toNat = Code.fabricTimeout ∧ aWrite.since + aWrite.limit < s.seiche) ∧
    (inFlight []).posted.find? (fun v => v.of 0 1) = none ∧
    (exporting.exportOf 0 8 = none ∧ (∀ b ∈ [((5 : Byte), (0x0F : Byte)), (6, 0xFF)], b.2 ≠ 0) ∧
      exportPlaces exporting 0 0 0x200 .write 2 = (.ok ((List.range 2).map (0x20A200 + ·)), (exportPlaces exporting 0 0 0x200 .write 2).2) ∧
      badGranule (exportPlaces exporting 0 0 0x200 .write 2).2.memBad 0x20A200 2 = none) ∧
    (exportPlaces exporting 0 0 0x200 .atomic 8 = (.ok ((List.range 8).map (0x20A200 + ·)), (exportPlaces exporting 0 0 0x200 .atomic 8).2) ∧
      badGranule (exportPlaces exporting 0 0 0x200 .atomic 8).2.memBad 0x20A200 8 = none) ∧
    (exportPlaces exporting 0 0 0x200 .atomic 4 = (.ok ((List.range 4).map (0x20A200 + ·)), (exportPlaces exporting 0 0 0x200 .atomic 4).2) ∧
      badGranule (exportPlaces exporting 0 0 0x200 .atomic 4).2.memBad 0x20A200 4 = none) := by
  refine ⟨?_, ?_, ?_, ?_, ?_, ?_, ⟨?_, ?_, eq_of_fst (eq_of_isOk ?_), ?_⟩, ⟨eq_of_fst (eq_of_isOk ?_), ?_⟩, ⟨eq_of_fst (eq_of_isOk ?_), ?_⟩⟩
  case refine_8 => simp
  all_goals decide +kernel

/-- A walk that grants and one that does not. -/
theorem test_meets_TranslationsAreKeptAndShotDown :
    (∃ k, (walk (bench []) 0 0 .own 0x208 .read).2.1 = some k) ∧ (walk (bench []) 0 0 .own 0x1000 .read).2.1 = none ∧
    (0xF : BitVec 4).getLsbD (3 : DieId).val = true ∧ (0x7 : BitVec 4).getLsbD (3 : DieId).val = false :=
  ⟨Option.isSome_iff_exists.1 (by decide +kernel), by decide +kernel, by decide, by decide⟩
/-! ### The scheduler -/

/-- A node record of one stage of one tile. -/
def rcd1 : Nat := 2 ^ 320 + 2 ^ 329

/-- A READY node of the pool. -/
def ready (a : Nat) : Node := { addr := a, state := .ready, pooled := true, rcd := rcd1 }

/-- Partition 0 with cluster 0 and the scheduler `x`, at a tick; the tiles are free. -/
def sched (x : Sched) (now : Nat) : State :=
  { bench [] with tiles := [], seiche := now, parts := [(0, { state := .active, clusters := 1, sched := x })] }

/-- Whether a read of a node record ends in an outcome, and the state it leaves. -/
def loads (s : State) (n : Node) (f : Loaded → Bool) : Bool := f (loadNode s 0 n).1

/-- Addresses at the edges of `launch`, a pool with room and a full one; a node record that reads well, one that is malformed, one
that cannot be read; a placement, a node that a breakpoint holds, replies that commit and that refuse. -/
theorem test_meets_NodesReachTheirTiles :
    (let s := bench [(1, 0x00FFFFFFFFFFFF80), (2, 0x0100000000000000), (3, 0x40), (4, 0x100)]
     clean s [1] ∧ (s.g 1).toNat % 128 = 0 ∧ (s.g 1).toNat < 2 ^ 56 ∧ 2 ^ 56 ≤ (s.g 2).toNat ∧ (s.g 3).toNat % 128 ≠ 0 ∧
     (s.flushMine.part s.myPart).sched.room = true ∧ (s.flushMine.launchQueue s.myPart).head? = none ∧ clean s [4] ∧ (s.g 4).toNat % 128 = 0 ∧
     (let r := nodeRead s.flushMine s.myDie s.myPart (s.g 4).toNat 128 .read
      gives r (List.replicate 128 0) = true ∧ r.2.myPart = s.myPart ∧ (r.2.leaveLaunch.unblock.skip 4).findNode s.myPart (s.g 4).toNat = none)) ∧
    (let s := { bench [] with parts := [(0, { sched := { nodes := (List.range 1024).map fun i => ready (128 * i) } })] }
     (s.flushMine.part s.myPart).sched.room = false) ∧
    (let k := { runs [] with wait := .launch }
     let s := { bench [] with tiles := [(0, tile 0 []), (1, { tile 1 [] with cx := k })], parts := [(0, { sched := { launchers := [(1, .x)] } })] }
     (s.flushMine.part s.myPart).sched.room = true ∧ (s.flushMine.launchQueue s.myPart).head? = some (1, .x) ∧
     (1, CoreId.x) ≠ (s.curTile.val, s.curCore)) ∧
    (let n : Node := { addr := 0x100, state := .ready }
     let s := sched { nodes := [n], waiting := [0x100] } 0
     (s.part 0).sched.waiting = 0x100 :: [] ∧ s.findNode 0 0x100 = some n ∧ (s.part 0).sched.room = true ∧ n.state ≠ .saved ∧
     loads s n (fun | .malformed _ => true | _ => false) = true ∧
     loads { s with mem := s.mem.writeLE 0x20A100 128 rcd1 } n (fun | .ok _ => true | _ => false) = true ∧
     loads { s with mem := [] } n (fun | .failed _ _ => true | _ => false) = true) ∧
    (let s := sched { nodes := [ready 0x100] } 0
     s = s.noteHead 0 ∧ (s.part 0).state = .active ∧ (∀ m ∈ (s.part 0).sched.nodes, m.state ≠ .placing) ∧
     s.nextToPlace 0 = some (ready 0x100) ∧ (s.part 0).dbg.matchesNode (ready 0x100) = false ∧
     (unitList (s.eligible 0 (ready 0x100)) 1 (s.part 0).sched.cursor).length = 8 ∧
     [4].length = unitsNeeded rcd1 ∧ [4].Nodup ∧ (∀ j ∈ [4], j < 8) ∧ (ready 0x100).keepsChain = false ∧
     ∀ k, k < unitsNeeded rcd1 → [4].getD k 0 ≤ k + (s.part 0).sched.dev ∧ k ≤ [4].getD k 0 + (s.part 0).sched.dev) ∧
    (let s := { sched { nodes := [ready 0x100] } 0 with
                parts := [(0, { state := .active, clusters := 1, sched := { nodes := [ready 0x100] }
                                dbg := { bps := [(0, { en := true, kind := 2, addr := 0x100 })] } })] }
     s = s.noteHead 0 ∧ s.nextToPlace 0 = some (ready 0x100) ∧ (ready 0x100).checked = false ∧
     (s.part 0).dbg.matchesNode (ready 0x100) = true) ∧
    (let n := { ready 0x100 with state := .placing, picks := [0], tiles := [0] }
     let s := sched { nodes := [n] } 0
     s.findNode 0 0x100 = some n ∧ n.state = .placing ∧ n.cancelled = false ∧ s.refusing 0 n = 0) ∧
    (let n := { ready 0x100 with state := .placing, picks := [0], tiles := [0] }
     let s := { sched { nodes := [n] } 0 with tiles := [(0, tile 0 [])] }
     s.refusing 0 n = 1 ∧ (1 : BitVec 4) ≠ 0) := by
  unfold clean
  refine ⟨?_, ?_, ?_, ?_, ?_, ?_, ?_, ?_⟩ <;> decide +kernel

/-- A saved gang of two with its chain, at its home; picks that are too many, not distinct, not of the list. -/
theorem test_meets_NodesReachTheirTiles2 :
    let r := 2 ^ 320 + 2 * 2 ^ 329
    let n : Node := { addr := 0x100, state := .saved, pooled := true, rcd := r
                      saves := [(0, { ctl := { tile := BitVec.ofNat 64 (ctlTile 0 0) }, mem := { chainLen := 2 } }),
                                (1, { ctl := { tile := BitVec.ofNat 64 (ctlTile 0 1) }, mem := { chainLen := 2 } })] }
    let s := sched { nodes := [n] } 0
    let lst := unitList (s.eligible 0 n) (Rcd.tps r) (s.part 0).sched.cursor
    s = s.noteHead 0 ∧ s.nextToPlace 0 = some n ∧ n.keepsChain = true ∧ [0, 1].length = unitsNeeded r ∧ 1 < lst.length ∧
    n.home (s.eligible 0 n) (s.part 0).sched.cursor =
      some (rankTiles (Rcd.tps r) (Rcd.nstage r) (([0, 1].map fun j => lst.getD j []).flatMap id)) ∧
    [0].length ≠ unitsNeeded r ∧ ¬ [0, 0].Nodup ∧ ∃ j ∈ [lst.length], lst.length ≤ j := by
  refine ⟨?_, ?_, ?_, ?_, ?_, ?_, ?_, ?_, ?_⟩ <;> decide +kernel

/-- A finished gang, an ending one whose tile is torn down and one whose is not, a fault to report, a cone walk at a waiting node
and at one that is not, a node and a head whose intervals end at this tick, a gang that gives way. -/
theorem test_meets_SchedulerEvents :
    (let k := { runs [] with run := .exited }
     let n : Node := { addr := 0x10000, state := .running, tiles := [0] }
     let s := { withTile { tile 0 [] with cl := k, cx := k, cw := k } with parts := [(0, { sched := { nodes := [n] } })] }
     s.findNode 0 0x10000 = some n ∧ n.state = .running ∧ n.tiles ≠ [] ∧ ∀ u ∈ n.tiles, (s.tile u).retires = true) ∧
    (∀ st ∈ [NState.waiting, .cancelled, .ready], let k := { runs [] with run := .exited }
     let g : Graph := { addr := 0x40, base := 0x10000, count := 2 }
     let n : Node := { addr := 0x10000, state := .running, tiles := [0], graph := some 0x40, succ := [1, 1] }
     let m : Node := { addr := 0x10080, state := st, graph := some 0x40, index := 1, predcnt := 2 }
     let s := { withTile { tile 0 [] with cl := k, cx := k, cw := k } with parts := [(0, { sched := { nodes := [n, m], graphs := [g] } })] }
     s.findNode 0 0x10000 = some n ∧ n.tiles ≠ [] ∧ (∀ u ∈ n.tiles, (s.tile u).retires = true) ∧ (s.part 0).sched.graphOf n = some g ∧
     s.findNode 0 0x10080 = some m ∧ 0x10080 ≠ n.addr ∧ (n.succ.countP fun i => decide (g.base + 128 * i = 0x10080)) = 2) ∧
    (let k := { runs [] with run := .halted }
     let n : Node := { addr := 0x10000, state := .ending, ending := some .cancel, tiles := [0] }
     let s := { withTile { tile 0 [] with cl := k, cx := k, cw := k } with parts := [(0, { sched := { nodes := [n] } })] }
     let u := { s with tiles := [(0, tile 0 [])] }
     s.findNode 0 0x10000 = some n ∧ n.state = .ending ∧ n.ending = some .cancel ∧ (∀ u ∈ n.tiles, (s.tile u).ended = true) ∧
     u.findNode 0 0x10000 = some n ∧ ∃ t ∈ n.tiles, (u.tile t).ended = false) ∧
    (let f : FaultRec := { code := Code.trap, tick := 9 }
     let n : Node := { addr := 0x10000, state := .running, tiles := [0] }
     let s := { phased .frozen fun l => { l with fault := some f } with parts := [(0, { sched := { nodes := [n] } })] }
     (s.tile 0).life.seat = some ⟨0, 0x10000, 0, 1⟩ ∧ s.findNode 0 0x10000 = some n ∧ s.endingFault n 0 = some f ∧
     (s.tile 0).life.phase = .frozen ∧ n.state = .running ∧ s.lowestFault n f.tick = some (0, Code.trap)) ∧
    (let w : Walk := { graph := 0x40, root := 0, queue := [1], begun := true }
     let g : Graph := { addr := 0x40, base := 0x400, count := 2 }
     let n : Node := { addr := 0x480, graph := some 0x40, index := 1 }
     let s := sched { walks := [w], graphs := [g], nodes := [n] } 0
     let u := sched { walks := [w], graphs := [g], nodes := [{ n with state := .running }] } 0
     (s.part 0).sched.walks = w :: [] ∧ (s.part 0).sched.graphs.find? (·.addr == w.graph) = some g ∧ w.begun = true ∧ w.queue = 1 :: [] ∧
     s.findNode 0 (g.base + 128 * 1) = some n ∧ n.state = .waiting ∧ (s.succOf 0 n).1 = [] ∧
     u.findNode 0 (g.base + 128 * 1) = some { n with state := .running }) ∧
    (let s := sched { nodes := [{ ready 0x100 with eprio := 23 }] } 1000000
     s.findNode 0 0x100 = some { ready 0x100 with eprio := 23 } ∧ (s.part 0).sched.ageint ≠ 0 ∧ 0 + (s.part 0).sched.ageint ≤ s.seiche ∧
     23 < (s.part 0).sched.agecap ∧ (s.part 0).sched.agecap ≤ 24 ∧ ({ s with seiche := 999999 } : State).seiche < 0 + (s.part 0).sched.ageint) ∧
    (let s := sched { nodes := [ready 0x100], headSince := some (0x100, 5) } 2000005
     (s.part 0).sched.head = some (ready 0x100) ∧ (s.part 0).sched.headSince = some ((ready 0x100).addr, 5) ∧
     5 + (s.part 0).sched.bflim ≤ s.seiche ∧ 2000004 < 5 + (s.part 0).sched.bflim) ∧
    (let h := { ready 0x100 with rcd := rcd1 + 9 * 2 ^ 338 }
     let n : Node := { addr := 0x10000, state := .running, tiles := [0], rcd := rcd1 + 2 ^ 344 }
     let s := { sched { nodes := [h, n] } 5 with tiles := (List.range 8).map fun t => (t, tile 0 []) }
     let s1 := s.noteHead 0
     let u := ({ sched { nodes := [h, { n with preempt := true }] } 5 with tiles := (List.range 8).map fun t => (t, tile 0 []) } : State).noteHead 0
     (s1.part 0).sched.head = some h ∧ s1.placeable 0 h = false ∧ s1.placeableOn 0 h (s1.freedFor 0 h []) = false ∧
     (u.part 0).sched.head = some h ∧ u.placeable 0 h = false ∧ u.placeableOn 0 h (u.freedFor 0 h [0]) = true ∧
     ((sched { nodes := [h] } 5).noteHead 0).placeable 0 h = true ∧
     s1.victims 0 h [] (((s1.part 0).sched.nodes.filter fun n => decide (n.state = .running) && Rcd.preempt n.rcd &&
        !n.preempt && decide (Rcd.prio n.rcd < Rcd.prio h.rcd)).foldr insertCand []) = some [n] ∧ s1.victims 0 h [] [] = none) ∧
    (let n := ready 0x200
     let s := sched { nodes := [ready 0x100, n], heldFor := [(0, 0x100)] } 5
     (s.part 0).sched.head = some (ready 0x100) ∧ (∃ y ∈ (s.part 0).sched.heldFor, y.1 = 0 ∧ y.2 ≠ n.addr) ∧
     s.eligible 0 n 0 = false ∧ s.eligible 0 n 1 = true ∧ s.eligible 0 (ready 0x100) 0 = true) := by
  refine ⟨?_, ?_, ?_, ?_, ?_, ?_, ?_, ?_⟩ <;> decide +kernel

/-! ### Rings and packets -/

/-- A packet's bytes with its index and its check. -/
def packetBytes (l : List Byte) (i : Nat) : List Byte := l ++ leBytes (crc32c l) 4 ++ leBytes i 4

/-- Ring 0 of partition 0, with a grant over the first page of host memory and the bytes `l` there. -/
def ringed (x : Ring) (l : List Byte) (now : Nat) : State :=
  { sched {} now with
    parts := [(0, { state := .active, clusters := 1, rings := [(0, x)] })], host := Memory.setBytes [] 0 l
    hub := { card := { grants := [(0, { v := true, r := true, w := true, base := 0, length := 0x1000, src := 1 })] } } }

def ring0 : RingId := .part 0 0

/-- A packet of an opcode and operands. -/
def packet (op : Nat) (ops : List Word) : Packet := { index := 0, dws := BitVec.ofNat 64 op :: ops }

/-- Doorbells that go back, that reach and that pass the ring's size; rings in each state; an intact packet and one that is not, a reread
at its tick and the last one; accepted packets that start, that are malformed and that have no opcode. -/
theorem test_meets_RingsAcceptAndStartPackets :
    (let x : Ring := { state := .active, wptr := 3, rptr := 2 }
     (ringed x [] 0).ring ring0 = x ∧ x.state = .active ∧ (2 : Word).toNat < x.wptr ∧ 2 ^ x.log2 < (19 : Word).toNat - x.rptr ∧
     x.wptr ≤ (18 : Word).toNat ∧ (18 : Word).toNat - x.rptr ≤ 2 ^ x.log2) ∧
    ({ state := .idle } : Ring).state ≠ .active ∧ ({ state := .torn } : Ring).state = .torn ∧
    (let s := ringed { state := .active, wptr := 1 } (packetBytes (List.replicate 120 0) 0) 0
     s.ringAccepts ring0 = true ∧ (s.ring ring0).rptr < (s.ring ring0).wptr ∧ (s.ring ring0).readAt = none ∧
     intact (s.readPacket ring0).1 (s.ring ring0).rptr = true) ∧
    (let s := ringed { state := .active, wptr := 1 } (packetBytes (List.replicate 120 0) 1) 0
     s.ringAccepts ring0 = true ∧ intact (s.readPacket ring0).1 (s.ring ring0).rptr = false) ∧
    (let s := ringed { state := .active, wptr := 1, readAt := some 1000, rereads := 6 } [] 1000
     (s.ring ring0).readAt = some 1000 ∧ 1000 ≤ s.seiche ∧
     intact (s.readPacket ring0).1 ((s.readPacket ring0).2.ring ring0).rptr = false ∧ ((s.readPacket ring0).2.ring ring0).rereads < 7) ∧
    (let s := ringed { state := .active, wptr := 1, readAt := some 128000, rereads := 7 } [] 128000
     (s.ring ring0).readAt = some 128000 ∧ 128000 ≤ s.seiche ∧ s.ringAccepts ring0 = true ∧ s.linkUp = true ∧
     intact (s.readPacket ring0).1 ((s.readPacket ring0).2.ring ring0).rptr = false ∧ ((s.readPacket ring0).2.ring ring0).rereads = 7) ∧
    (∀ st ∈ [RingState.active, .overrun, .torn, .stopped], (ringed { state := st } [] 0).takesCmd ring0 = true) ∧
    (let k := packet 0x01 []
     let x : Ring := { state := .active, accepted := [k] }
     let s := ringed x [] 0
     x.accepted = k :: [] ∧ x.held = false ∧ s.packetWaits ring0 = false ∧ x.open_ = [] ∧
     s.breaksAt ring0 k = false ∧ k.reservedSet = false ∧ operandCount (decide (ring0 = .admin)) k.opcode = some 0 ∧ k.extraSet 0 = false) ∧
    (packet 0x401 []).reservedSet = true ∧
    ((packet 0xFF []).reservedSet = false ∧ operandCount (decide (ring0 = .admin)) (packet 0xFF []).opcode = none) := by
  refine ⟨?_, ?_, ?_, ?_, ?_, ?_, ?_, ?_, ?_, ?_, ?_⟩ <;> decide +kernel

/-- Partition 0 with one started packet. -/
def opened (op : Nat) (ops : List Word) : State := ringed { state := .active, open_ := [packet op ops] } [5, 0, 255, 3] 0

def ctx0 : PktCtx := { ring := ring0, notify := false, tag := 0 }

theorem test_meets_PacketsOfPartitions :
    (∀ x ∈ ([(0x01, []), (0x02, [0x100]), (0x03, [0x20]), (0x03, [0x200]), (0x04, [0x100]), (0x05, [0x40]), (0x06, [0, 0x1000, 0, 7]), (0x07, [0, 0x1000]),
        (0x08, [0, 0x1000]), (0x09, [4095, 2, 0]), (0x0A, [4095]), (0x0B, [4095]), (0x0C, [0, 0x1000, 0, 3]), (0x0D, [0, 0x1000])] : List (Nat × List Word)),
      ctx0.ring.owner = some 0 ∧ ((opened x.1 x.2).part 0).state = .active ∧ (opened x.1 x.2).openPacket ctx0 x.1 x.2 = some (packet x.1 x.2)) ∧
    ((0x100 : Word).toNat % 128 = 0 ∧ (0x100 : Word).toNat < 2 ^ 56 ∧ (opened 0x02 [0x100]).findNode 0 0x100 = none ∧
      ((opened 0x02 [0x100]).part 0).sched.room = true ∧ (0x20 : Word).toNat % 64 ≠ 0) ∧
    (({ nodes := (List.range 1024).map fun i => ready (0x100 * i + 128) } : Sched).room = false ∧
      (sched { nodes := (List.range 1024).map fun i => ready (0x100 * i + 128) } 0).findNode 0 0x100 = none) ∧
    (let s := { opened 0x03 [0x200] with mem := (pages 0).writeLE 0x20A200 16 (0x400 + 2 * 2 ^ 64) }
     let l := leBytes (0x400 + 2 * 2 ^ 64) 64
     (0x200 : Word).toNat % 64 = 0 ∧ isOk (s.schedRead 0 0x200 64).1 l = true ∧
     field (leNat ((l.drop 8).take 8)) 0 16 = 2 ∧ field (leNat ((l.drop 8).take 8)) 16 4 ≠ 1 ∧
     ((s.schedRead 0 0x200 64).2.part 0).sched.graphs = [] ∧
     ∀ i, i < 2 → (s.schedRead 0 0x200 64).2.findNode 0 (field (leNat (l.take 8)) 7 49 * 128 + 128 * i) = none) ∧
    (sched { nodes := [ready 0x100] } 0).findNode 0 0x100 = some (ready 0x100) ∧
    (let s := opened 0x09 [4095, 2, 0]
     (4095 : Word).toNat ≤ 4095 ∧ 2 ≤ (2 : Word).toNat ∧ (64 : Word).toNat ≤ 64 ∧ s.granted 0 0 (2 * 2) false = true ∧
     (∀ m ∈ halves (s.host.bytes 0 (2 * 2)), m ≤ 1023) ∧ (s.group 4095).gm1 = 0 ∧ s.linkUp = true) ∧
    (({ bench [] with hub := { groups := [(4095, { gm1 := 63, bits := 1 })] } } : State).group 4095).gm1 ≠ 0 ∧ ((bench []).group 4095).gm1 = 0 := by
  refine ⟨?_, ?_, ?_, ?_, ?_, ?_, ?_, ?_⟩ <;> decide +kernel

/-- The admin ring with one started packet, at stage 7, and the partitions. -/
def adminOpened (op : Nat) (ops : List Word) (ps : SMap Part) : State :=
  { State.reset with
    parts := ps
    hub := { stage := 7, admin := { state := .active, open_ := [packet op ops] }
             card := { grants := [(0, { v := true, r := true, base := 0, length := 0x1000, src := 2 ^ 16 })] } } }

def adminCtx : PktCtx := { ring := .admin, notify := false, tag := 0 }

/-- The last partition, the smallest range; a range too small; a partition there already, one that resets and is done or not. -/
theorem test_meets_PacketsOfTheAdminRing :
    (∀ x ∈ ([(0x40, [15, 1, 0, 0x400000, 7]), (0x41, [15]), (0x42, [15]), (0x43, [0, 0x1000])] : List (Nat × List Word)),
      adminCtx.ring = .admin ∧ 7 ≤ (adminOpened x.1 x.2 []).hub.stage ∧ (adminOpened x.1 x.2 []).openPacket adminCtx x.1 x.2 = some (packet x.1 x.2)) ∧
    (createBadField 15 1 0 0x400000 7 = false ∧ createBadField 15 1 0 0x200000 7 = true ∧ createBadField 16 1 0 0x400000 7 = true) ∧
    ((adminOpened 0x40 [15, 1, 0, 0x400000, 7] []).createBusy 15 1 0 0x400000 = false ∧
      (adminOpened 0x40 [15, 1, 0, 0x400000, 7] [(3, { clusters := 1 })]).createBusy 15 1 0 0x400000 = true) ∧
    ((adminOpened 0x41 [15] [(15, { state := .active })]).part 15).state = .active ∧ ((adminOpened 0x41 [15] []).part 15).state = .absent ∧
    (let s := adminOpened 0x41 [15] [(15, { state := .resetting, resetter := some 0 })]
     (s.part 15).state = .resetting ∧ (s.part 15).resetter = some (packet 0x41 [15]).index ∧ s.resetDone 15 = true) ∧
    (adminOpened 0x41 [15] [(15, { state := .resetting, resetter := some 0, sched := { nodes := [ready 0x100] } })]).resetDone 15 = false ∧
    (adminOpened 0x41 [15] [(15, { state := .resetting, resetter := some 0, rings := [(0, { state := .stopped, open_ := [packet 0x06 []] })] })]).resetDone 15
      = false ∧
    (adminOpened 0x43 [0, 0x1000] []).granted firmwareSource 0 0x1000 false = true := by
  refine ⟨?_, ?_, ?_, ?_, ?_, ?_, ?_, ?_, ?_⟩ <;> decide +kernel

/-- A ring of a partition that is absent, of one that resets, and the admin ring; the link down. -/
theorem test_meets_RingsAcceptAndStartPackets2 :
    (bench []).takesCmd (.part 3 0) = true ∧ ((bench []).ring (.part 3 0)).state ≠ .active ∧ (bench []).takesCmd .admin = true ∧
    (({ bench [] with parts := [(3, { state := .resetting })] } : State).part (3 : PartId).val).state = .resetting ∧
    ({ bench [] with hub := { ports := [(0, false), (1, false)] } } : State).linkUp = false ∧ (ringed {} [] 0).linkUp = true ∧
    (let s := ringed { state := .active, wptr := 1, readAt := some 1000, rereads := 6, torn := 0xFFFF } (packetBytes (List.replicate 120 0) 0) 1000
     (s.ring ring0).readAt = some 1000 ∧ 1000 ≤ s.seiche ∧ s.ringAccepts ring0 = true ∧
     intact (s.readPacket ring0).1 ((s.readPacket ring0).2.ring ring0).rptr = true) := by decide +kernel

/-- Partition 0 with its own tables, with the same tables as its export space, and with frames to give; one started packet. -/
def paging (op : Nat) (ops : List Word) : State :=
  { opened op ops with
    dies := [(0, { xlt := [(0, { en := true, root := 1, xen := true, xroot := 1 })] })]
    parts := [(0, { state := .active, frameBase := 0x400000, frameLen := 0x10000000, rings := [(0, { state := .active, open_ := [packet op ops] })] })] }

/-- One page mapped, and mapped already; page 0 unmapped, discarded, exported and no longer exported. -/
theorem test_meets_PacketsOfPartitions2 :
    (let s := paging 0x06 [0x1000, 0x1000, 0x800000, 7]
     Claims.Started s 0 ctx0 0x06 [0x1000, 0x1000, 0x800000, 7] (packet 0x06 [0x1000, 0x1000, 0x800000, 7]) ∧ mapFlagsOk 7 = true ∧
     field 7 4 2 = 0 ∧ 0x1000 % pageBytes 0 = 0 ∧ 0x1000 = pageBytes 0 ∧ 0x1000 + 0x1000 ≤ 2 ^ 56 ∧ 0x800000 ≠ 2 ^ 64 - 1 ∧
     bit 7 8 = false ∧ 0x800000 % pageBytes 0 = 0 ∧ (s.part 0).usable 0x800000 0x1000 = true ∧ (s.part 0).usable 0x7FF000 0x1000 = false ∧
     ownRoot s 0 = some 0x200000 ∧ anyPresent s 0x200000 0 1 0x1000 = false ∧ anyPresent s 0x200000 0 1 0 = true ∧
     (let s' := s.setPart 0 { s.part 0 with dataFrames := (0x800000, 0x1000) :: (s.part 0).dataFrames }
      reachEntry s' 0 0x1000 (sizeLevel 0) 3 0x200000 = some (0x404008, s')) ∧ badGranule s.memBad 0x404008 8 = none) ∧
    (∀ x ∈ ([(0x07, [0, 0x1000]), (0x08, [0, 0x1000]), (0x0D, [0, 0x1000])] : List (Nat × List Word)),
      Claims.Started (paging x.1 x.2) 0 ctx0 x.1 x.2 (packet x.1 x.2) ∧ ownRoot (paging x.1 x.2) 0 = some 0x200000 ∧
      exportRoot (paging x.1 x.2) 0 = some 0x200000 ∧ findEntry (paging x.1 x.2) 0 3 0x200000 = (0, 0x404000) ∧
      (paging x.1 x.2).read8 0x404000 = 0x20A01F ∧ Pte.v 0x20A01F = true ∧ Pte.leaf 0x20A01F = true ∧ Pte.g64 0x20A01F = false) ∧
    (let s := paging 0x0C [0x2000, 0x1000, 0, 3]
     Claims.Started s 0 ctx0 0x0C [0x2000, 0x1000, 0, 3] (packet 0x0C [0x2000, 0x1000, 0, 3]) ∧ ownRoot s 0 = some 0x200000 ∧
     exportRoot s 0 = some 0x200000 ∧ findEntry s 0 3 0x200000 = (0, 0x404000) ∧ s.read8 0x404000 = 0x20A01F ∧
     Pte.malformed 0x20A01F 0 0 = false ∧ Pte.malformed 0x20A09F 1 0x1000 = true ∧ Pte.rd 0x20A01F = true ∧ Pte.w 0x20A01F = true ∧
     presentAt s 0x2000 0 3 0x200000 = false ∧ reachEntry s 0 0x2000 0 3 0x200000 = some (0x404010, s)) ∧
    (Claims.Started (paging 0x0C [0x800, 0x1000, 0, 3]) 0 ctx0 0x0C [0x800, 0x1000, 0, 3] (packet 0x0C [0x800, 0x1000, 0, 3]) ∧
      (0x800 : Word).toNat % 4096 ≠ 0) ∧
    (let s := { opened 0x09 [4095, 2, 0] with hub := { (opened 0x09 [4095, 2, 0]).hub with groups := [(4095, { gm1 := 1, bound := 1 })] } }
     (s.group 4095).gm1 ≠ 0 ∧ (s.group 4095).bound &&& (2 ^ 16 - 1 - 2 ^ 0) = 0) ∧
    ({ bench [] with hub := { ports := [(0, false), (1, false)] } } : State).linkUp = false := by
  unfold Claims.Started
  refine ⟨?_, ?_, ?_, ?_, ?_, ?_⟩ <;> decide +kernel

/-- A reset that PART_DESTROY waits for; an image over a link that is down. -/
theorem test_meets_PacketsOfTheAdminRing2 :
    (let s := adminOpened 0x42 [15] [(15, { state := .resetting, resetter := some 0 })]
     adminCtx.ring = .admin ∧ 7 ≤ s.hub.stage ∧ s.openPacket adminCtx 0x42 [15] = some (packet 0x42 [15]) ∧
     (s.part 15).state = .resetting ∧ (s.part 15).resetter = some (packet 0x42 [15]).index ∧ s.resetDone 15 = true) ∧
    (adminOpened 0x43 [0, 0x1000] []).linkUp = true ∧
    ({ adminOpened 0x43 [0, 0x1000] [] with hub := { (adminOpened 0x43 [0, 0x1000] []).hub with ports := [(0, false), (1, false)] } } : State).linkUp
      = false := by decide +kernel
/-! ### The module, the host and the card -/

/-- Clamps on either side, a tick at which WATTS is due, LOCK both ways, ports both ways, the last stage of bring-up, an aperture at its
end, register addresses at the edges. -/
theorem test_meets_ModuleAndHostEvents :
    ((2499 : BitVec 12).toNat < State.reset.hub.power.fclk ∧ State.reset.hub.power.fclk ≤ (2500 : BitVec 12).toNat) ∧
    ({ State.reset with seiche := 1000 }.hub.power.due ≤ 1000 ∧ State.reset.hub.power = ({} : Power)) ∧
    (SMap.get true State.reset.hub.ports 0 = true ∧ SMap.get true ([(0, false)] : SMap Bool) 0 = false) ∧
    (State.reset.hub.lock = false ∧ ({ lock := true } : Hub).lock = true) ∧
    (let h : Hub := { stage := 7, err := 0, lock := true, imageLoaded := true }
     h.stage = 7 ∧ h.err = 0 ∧ h.lock = true ∧ h.imageLoaded = true) ∧
    ((0xFFFFFFFF8 : VAddr).toNat + 8 ≤ 2 ^ 36 ∧ (hubRead (bench []) 0 0 (spanFuel 8) 0x208 8).1.toOption = some (List.replicate 8 0) ∧
      (hubRead (bench []) 0 0 (spanFuel 8) 0x1000 8).1.toOption = none ∧ (hubWrite (bench []) 0 0 (spanFuel 1) 0x208 [5]).1 = none ∧
      (hubWrite (bench []) 0 0 (spanFuel 1) 0x1000 [5]).1.isSome) ∧
    ((State.reset.part 0).ev.held = [] ∧ (State.reset.part 0).ev.lost = 0) ∧
    ((0x6000000000 : BitVec 40).toNat % 8 = 0 ∧ 0x6000000000 ≤ (0x6000000000 : BitVec 40).toNat ∧ (0x6000000001 : BitVec 40).toNat % 8 ≠ 0) := by
  refine ⟨?_, ?_, ?_, ?_, ?_, ?_, ?_, ?_⟩ <;> decide +kernel

/-- The last word of a scratchpad and the last granule of HBM; a latent error with and without poison, and none; a bank with three
errors; a tile whose cycle counts. -/
theorem test_meets_ErrorsAndCounters :
    ((0x1FFFFF : Nat) < 0x200000 ∧ hbmEnd - 1 < hbmEnd ∧ (31 : Reg) ≠ 0) ∧
    (let x := { tile 0 [] with mem := { scratchLatent := [0x1FFFF8, 0x1FFFFC], scratchBad := [0x1FFFFC] } }
     0x1FFFFF / 4 * 4 ∈ x.mem.scratchLatent ∧ 0x1FFFFF / 4 * 4 ∈ x.mem.scratchBad ∧ 0x1FFFFB / 4 * 4 ∈ x.mem.scratchLatent ∧
     0x1FFFFB / 4 * 4 ∉ x.mem.scratchBad ∧ 0 / 4 * 4 ∉ x.mem.scratchLatent) ∧
    (let x : Tile := { prv := { bankErrs := [(31, 3)] } }
     x.life.phase = .free ∧ x.life.seat = none ∧ 3 ≤ SMap.get 0 x.prv.bankErrs 31 ∧ x.prv.retired.getLsbD 31 = false) ∧
    (let x := { tile 0 [] with cw := { runs [] with did := some 0 } }
     x.moves = true ∧ (withTile x).mayCycle 0 ⟨3, 8, 0, 5, 5, 5⟩ = true ∧ x.perf.freeze = false) := by
  refine ⟨?_, ?_, ?_, ?_⟩ <;> decide +kernel

/-- Nothing due at a tick, the last tick of a period; a measure above the limit and one below 95 percent of it. -/
theorem test_meets_ModuleAndHostEvents2 :
    (let s := bench []
     (∀ y ∈ s.tiles, ∀ e, (y.2.eng e).ops = []) ∧ (∀ q ∈ s.parts, q.2.dbg.tren = false) ∧ (s.seiche + 1) % 2 ^ 24 ≠ 0) ∧
    (({ bench [] with seiche := 2 ^ 24 - 1 } : State).seiche + 1) % 2 ^ 24 = 0 ∧ ({} : Power).limit < 3201 ∧ 20 * 3040 ≤ 19 * ({} : Power).limit := by
  refine ⟨⟨fun y hy e => ?_, ?_, ?_⟩, ?_, ?_, ?_⟩
  · obtain rfl : y = (0, tile 0 []) := List.mem_singleton.1 hy
    cases e <;> rfl
  all_goals decide +kernel

/-- The last place of each array; a token; a tile that saves; one latent word that a read meets, poisoned and not; a word that the scrub
has met in this period and one it has not; a frozen counter; leaves that cannot be. -/
theorem test_meets_ErrorsAndCounters2 :
    (let x := { tile 0 [] with queue := [(15, { depth := 64, toks := [{ w := 1 }, { w := 2 }] })] }
     (x.queueAt (15 : Fin 16).val).toks[1]? = some { w := 2 } ∧ x.hasPlace (.plane 32767) = true ∧ x.hasPlace (.plane 62719) = true ∧ x.hasPlace (.plane 62720) = false ∧ x.hasPlace (.gReg .l 0 true) = false ∧
     x.hasPlace (.token 15 1) = true ∧ x.hasPlace (.token 15 2) = false ∧ (∀ o, EccArray.acc 65535 ≠ .scratchpad o) ∧ x.hasPlace (.acc 65535) = true) ∧
    ((phased .saving id).tile 0).life.phase = .saving ∧
    (let x := { tile 0 [] with mem := { scratchLatent := [0x1FFFF8], scratchBad := [0x1FFFF8] } }
     let y := { tile 0 [] with mem := { scratchLatent := [0x1FFFF8] } }
     x.mem.latentIn 0x1FFFF8 8 = [0x1FFFF8] ∧ x.retiredHit 0x1FFFF8 8 = none ∧ 0x1FFFF8 ∈ x.mem.scratchBad ∧
     y.mem.latentIn 0x1FFFF8 8 = [0x1FFFF8] ∧ 0x1FFFF8 ∉ y.mem.scratchBad) ∧
    (let x := { tile 0 [] with prv := { scrubbed := [0x1FFFFC] }, mem := { scratchLatent := [0x1FFFF8] } }
     0x1FFFF8 = 0x1FFFFB / 4 * 4 ∧ 0x1FFFF8 ∉ x.prv.scrubbed ∧ 0x1FFFF8 ∈ x.mem.scratchLatent ∧ 0x1FFFFF / 4 * 4 ∈ x.prv.scrubbed ∧
     0 ∉ x.mem.scratchLatent) ∧
    (let x := { tile 0 [] with cl := { runs [] with did := some 2 }, cx := { runs [] with did := some 1 }, perf := { freeze := true } }
     x.moves = true ∧ (withTile x).mayCycle 0 ⟨2, 1, 3, 5, 5, 5⟩ = true ∧ x.perf.freeze = true ∧ (withTile x).mayCycle 0 ⟨1, 1, 3, 5, 5, 5⟩ = false) := by
  refine ⟨⟨?_, ?_, ?_, ?_, ?_, ?_, ?_, (fun o h => nomatch h), ?_⟩, ?_, ?_, ?_, ?_⟩ <;> decide +kernel

/-- A register, a token and a spilled word in which a correctable error waits; a frame of 20 hidden registers that a call spills alone; masks, a
panel and an accumulator row with such errors; a save's buffer, and the buffer of a record that is queued; the leaves of a core. -/
theorem test_meets_ErrorsAndCounters3 :
    (registerForm (.add 3 1 2) = some (3, [1, 2]) ∧ (withCore { runs [] with gCe := [5] }).core.foundRegs [1, 2] ≠ []) ∧
    (let x := { tile 0 [] with queue := [(15, { depth := 64, cons := CoreId.l.num, toks := [{ w := 1, ce := true }, { w := 2 }] })] }
     let s := withTile x
     s.curCore.num = s.me.consumerOf (15 : Fin 16).val ∧ (s.me.queueAt (15 : Fin 16).val).toks = { w := 1, ce := true } :: [{ w := 2 }]) ∧
    (let f : Frame := { size := 20, ret := 0x800, hidden := List.replicate 20 1, bad := [], ce := [39] }
     let fs : List Frame := List.replicate 5 { size := 20, ret := 0x800, hidden := List.replicate 20 1, bad := [] }
     let s := withCore { runs [] with frames := f :: fs }
     s.core.frames = f :: fs ∧ f.bad = [] ∧ f.ce ≠ [] ∧ spillCount (f :: fs ++ [{ size := 8, ret := 0, hidden := [], bad := [] }]) = 1 ∧
     s.core.depth < 65535 ∧ s.core.sptr + (Frame.bytes f).length ≤ s.core.spillLimit ∧
     s.me.retiredHit s.core.sptr (Frame.bytes f).length = none ∧ s.core.fenced = false ∧ s.core.frames[0]? = some f ∧ 19 < f.size ∧ 39 = 2 * 19 + b2n true) ∧
    (let m : TileMem := { maskCe := [63], panelCe := [0x1FFF], accCe := [65535] }
     m.maskCe.filter (fun j => [7].contains (j / 8)) ≠ [] ∧ m.panelCe.filter [0x1FFF].contains ≠ [] ∧
     m.accCe.filter (fun j => decide (j / 128 = 511)) = [65535] ∧ m.accCe.filter (fun j => decide (j / 128 = 0)) = [] ∧
     m.maskCe.filter (fun j => [1].contains (j / 8)) = []) ∧
    (let x := (phased .held id).tile 0
     x.life.phase = .held ∧ x.hasPlace .saveBuffer = true ∧ (tile 0 []).hasPlace .saveBuffer = false) ∧
    (∀ l ∈ [([] : List Nat), [15]], let o := { op .mzero 1 with recBad := l, recCe := [0] }
     let x := { tile 0 [] with em := { ops := [o] } }
     let s := withTile x
     (x.eng .matrix).ops = o :: [] ∧ (x.eng .matrix).ops[0]? = some o ∧ o.state = .queued ∧ x.hasPlace (.record .matrix 0 15) = true ∧
     x.hasPlace (.record .matrix 1 15) = false ∧ x.life.phase = .running ∧ o.mayStart = true ∧ o.stamp = none ∧ x.opReady o = true ∧
     x.traceStall (3 + Engine.matrix.num) = false ∧ s.hub.power.hold = false ∧
     isOk (startOp 0 { o with recCe := [] } (ceCounted s 0 1)).1 { o with recCe := [] } = true ∧ o.kind ≠ .mchain ∧ o.t < o.rcd.total) ∧
    (∀ y ∈ [runs [], { runs [] with did := some 2 }, { runs [] with wait := .barrierReq 4 false }, { runs [] with wait := .barrierReq 4 true },
        { runs [] with wait := .firmware { code := Code.notPresent } 0x1000 }],
      y.ended = false ∧ y.run = .running ∧ y.after = .none) ∧
    (∀ o ∈ [op .mzero 1, { op .mzero 1 with state := .running, token := some 1 }, { op .mma 1 with state := .running, rcd := { rec0 with chain := true }, west := true }],
      let s := withTile { tile 0 [] with em := { ops := [o] }, mem := { chainLen := 2, chainPos := 1 } }
      (s.engAt 0 .matrix).ended = false ∧ (s.engAt 0 .matrix).ops = o :: [] ∧ o.state ≠ .faulted ∧ o.atStart = false ∧ o.wait = .none ∧
      s.starved 0 o = decide (o.kind = .mma)) := by
  refine ⟨?_, ?_, ?_, ?_, ?_, ?_, ?_, ?_⟩ <;> decide +kernel

/-- A tile of a partition that traces, its last marker and poll at a tick. -/
def traced (waiting : List TraceRec) (now : Nat) : State :=
  { withTile { tile 0 [] with trace := { waiting := waiting } } with seiche := now, parts := [(0, { state := .active, dbg := { tren := true } })] }

/-- A gang that may be stopped, one that is being stopped, a hit of each kind, a trace at the tick of a marker, one tick before,
and at the tick of a poll. -/
theorem test_meets_SecurityAndDebugEvents :
    ((0 : Byte) = 0 ∧ (1 : Byte) ≠ 0 ∧ 1 ≤ (8 : Fin 9).val) ∧
    (let n : Node := { addr := 0x10000, state := .running, tiles := [0] }
     let s := { bench [] with parts := [(0, { state := .active, sched := { nodes := [n] }, dbg := { target := 0x10000 } })] }
     s.stopTarget 0 = some n ∧ { s with parts := [] }.stopTarget 0 = none) ∧
    (let n : Node := { addr := 0x10000, state := .running, tiles := [0], stopping := some 4 }
     let s := { phased .frozen fun l => { l with rest := some .debug } with
                parts := [(0, { sched := { nodes := [n] }, dbg := { hits := [{ kind := 4, ring := 0, addr := 0x10000 }] } })] }
     s.findNode 0 0x10000 = some n ∧ n.stopping = some 4 ∧ n.state = .running ∧ n.stopped = false ∧ n.tiles ≠ [] ∧
     (∀ u ∈ n.tiles, (s.tile u).life.phase = .frozen ∧ (s.tile u).life.rest = some .debug) ∧
     (s.part 0).dbg.hits = ⟨4, 0, 0x10000⟩ :: [] ∧ n.tiles = [0] ∧ (s.tile 0).life.fault = none ∧ (s.tile 0).life.gatedClock = false) ∧
    (let s := { bench [] with parts := [(0, { dbg := { hits := [{ kind := 1, ring := 3, addr := 0 }], hreq := 2 } })] }
     (s.part 0).dbg.hits = ⟨1, 3, 0⟩ :: [] ∧ (s.part 0).dbg.hreq ≠ 0 ∧ ((bench []).part 0).dbg.hreq = 0) ∧
    ((traced [] 100000).traceRuns 0 = true ∧ ((traced [] 100000).tile 0).trace.waiting = [] ∧
      ((traced [] 100000).tile 0).trace.lastMk + ((traced [] 100000).part ((traced [] 100000).tile 0).partNo).dbg.mkint ≤ (traced [] 100000).seiche ∧
      ((traced [] 100000).tile 0).trace.fresh.any TraceRec.isMark = false ∧
      ((((traced [] 100000).traceMark 0).tile 0).trace.fresh.any TraceRec.isMark = true) ∧
      [(⟨0, 5, [1]⟩ : TraceRec), ⟨3, 5, [2]⟩].Pairwise (fun a b => a.unit ≤ b.unit) ∧
      (traced [] 99999).seiche < ((traced [] 99999).tile 0).trace.lastMk + ((traced [] 99999).part 0).dbg.mkint) ∧
    (let s := traced [⟨0, 0, [1]⟩] 1000
     s.traceRuns 0 = true ∧ (bench []).traceRuns 0 = false ∧ (s.tile 0).trace.waiting ≠ [] ∧ (s.tile 0).trace.lastPoll + 1000 ≤ s.seiche) := by
  refine ⟨?_, ?_, ?_, ?_, ?_, ?_⟩ <;> decide +kernel

/-- A mark that the tick, and one that the waiting records, already hold; a region in STALL mode that a record does not fit. -/
theorem test_meets_SecurityAndDebugEvents2 :
    (let s := traced [] 100000
     let r := traced [⟨0, 0, [0x6000000000000000, 0]⟩] 100000
     (∃ x ∈ ((s.traceMark 0).tile 0).trace.fresh ++ ((s.traceMark 0).tile 0).trace.waiting, x.isMark = true) ∧ (s.traceMark 0).traceRuns 0 = true ∧
     (∃ x ∈ (r.tile 0).trace.fresh ++ (r.tile 0).trace.waiting, x.isMark = true) ∧
     (∀ x ∈ (s.tile 0).trace.fresh ++ (s.tile 0).trace.waiting, x.isMark = false)) ∧
    (let s := { withTile { tile 0 [] with trace := { tail := 0x20000 } } with
                parts := [(0, { state := .active, dbg := { tren := true, trmode := true } })] }
     (s.part (s.tile 0).partNo).dbg.trmode = true ∧ (s.tile 0).trace.gapped = false ∧ s.traceOn 0 = true ∧ (s.tile 0).trace.waiting = [] ∧
     s.traceHolds 0 ⟨0, 0, [1]⟩ = false ∧ (s.traceReadHead 0).traceHolds 0 ⟨0, 0, [1]⟩ = false) ∧
    (let s := { withTile { tile 0 [] with trace := { fresh := [⟨1, 0, [2]⟩], waiting := [⟨2, 0, [3, 4]⟩] } } with
                parts := [(0, { state := .active, dbg := { tren := true, trmode := true } })] }
     s.traceOn 0 = true ∧ s.traceHolds 0 ⟨0, 0, [1]⟩ = true ∧ (∀ w ∈ (s.tile 0).trace.waiting, w.unit ≠ 0) ∧ (s.tile 0).trace.gapped = false) := by
  refine ⟨?_, ?_, ?_⟩ <;> decide +kernel

/-! ### The machine as a whole -/

/-- The word of `mulhn g4, g5, g6` at the program counter of tile 0's L-core, whose die keeps the translation, and what moves next. -/
def stepping (a : List Act) : State :=
  { bench [] with
    agenda := a, mem := ((pages (layoutRec 0)).writeLE 0x405000 8 1).writeLE 0x20A800 4 0x04853004
    dies := [(0, { xlt := [(0, { en := true, root := 1 })]
                   kept := [{ part := 0, root := .own, bits := 12, vbase := 0, pbase := 0x20A000, rd := true, w := true, x := true
                              companion := 0x405000 }] })] }

theorem test_meets_StepRunsTheDecodedInstruction :
    (let s := stepping [.core 0 .l]
     let u := { s with agenda := [], curTile := 0, curCore := .l }
     s.agenda = .core 0 .l :: [] ∧ canFetch u 0 .l = true ∧
     translate u (tileDie 0) (u.tile 0).partNo .own (u.coreAt 0 .l).pc.toNat .fetch = (.pa 0x20A800, u) ∧
     badGranule u.memBad 0x20A800 4 = none ∧ 4 = 4 * unitWords (leNat (u.mem.bytes 0x20A800 4)) ∧ badGranule u.memBad 0x20A800 4 = none ∧
     u.begins [0x04, 0x30, 0x85, 0x04] ≠ u ∧ (u.coreAt 0 .l).pc.toNat % 4096 + 4 ≤ 4096 ∧ (∀ o ∈ u.oldsOf 0, o.pa < 0x20A800 ∨ 0x20A800 + 4 ≤ o.pa) ∧ decode (u.mem.bytes 0x20A800 4) = .ok (.mulhn 4 5 6, []) ∧
     fetchUnit u 0 .l = (.unit [0x04, 0x30, 0x85, 0x04], (fetchUnit u 0 .l).2) ∧ decode [0x04, 0x30, 0x85, 0x04] = .ok (.mulhn 4 5 6, [])) ∧
    (let s := { stepping [.core 0 .l] with tiles := [] }
     canFetch { s with agenda := [], curTile := 0, curCore := .l } 0 .l = false) ∧
    (stepping [.event .seicheTick]).agenda = .event .seicheTick :: [] ∧ (stepping []).agenda = [] := by
  refine ⟨⟨?_, ?_, ?_, ?_, ?_, ?_, ?_, ?_, ?_, eq_of_isOk ?_, eq_of_fst ?_, eq_of_isOk ?_⟩, ?_, ?_, ?_⟩ <;> decide +kernel

theorem test_meets_DecodeAndEncodeAgree :
    (Instr.mulhn 4 5 6).wellFormed = true ∧ encode (.mulhn 4 5 6) ≠ [] ∧ decodeWords [0x04853004] = .ok (.mulhn 4 5 6) :=
  ⟨by decide, by decide, eq_of_isOk (by decide +kernel)⟩

/-- A poisoned source and a clean one; the upper half of a random number whose key is g30 and g31. -/
theorem test_meets_RegisterInstructionsFrame :
    registerForm (.add 3 1 2) = some (3, [1, 2]) ∧ registerForm (.rndkHi 3 1 30) = some (3, [1, 30, 31]) ∧
    (withCore { runs [] with gBad := [3] }).core.badReg [1, 2] = some 3 ∧ clean (bench []) [1, 2] := by unfold clean; decide +kernel

theorem test_meets_StoringInstructionsFrame :
    (let s := bench [(1, 0x1FFFF8), (2, 0x55)]
     0x1FFFF8 = scratchOff (s.g 1) 0 ∧ (s.g 1).toNat = 0x1FFFF8 ∧ 0x1FFFF8 + Size.d.bytes ≤ 0x200000 ∧ 0x1FFFF8 % Size.d.bytes = 0 ∧
     s.me.retiredHit 0x1FFFF8 Size.d.bytes = none ∧ badWord s.me.mem.scratchBad 0x1FFFF8 Size.d.bytes = none ∧
     s.me.readFails 0x1FFFF8 8 = none ∧ s.core.remote = [] ∧ clean s [2, 1] ∧ clean s [1, 2]) ∧
    (let s := benchIn 0 [(1, 8), (2, 5)]
     let s1 := seen 0 [(1, 8), (2, 5)]
     TensorAt s (0 : BitVec 12).toNat 1 Size.d.bytes (layout0 0) 0x208 s1 ∧ (layout0 0).space = 0 ∧ s.core.remote = [] ∧ clean s [2] ∧
     ∃ s2, nodeTranslate (s1.beforeWrite s.core.memdef) s1.myDie s1.myPart 0x208 .write = (.ok (some 0x20A208), s2)) :=
  ⟨by unfold clean; decide +kernel, tensor_at 0 (by decide), by decide, by decide +kernel, by unfold clean; decide +kernel, _,
   eq_of_gives (by decide +kernel)⟩

/-- Whether an answer is a next state in which the running core's tile runs. -/
def goesOn (o : Out) : Bool :=
  match o with
  | .next t => decide (t.me.life.phase = .running)
  | _ => false

theorem exists_of_goesOn {o : Out} (h : goesOn o = true) : ∃ t, o = .next t ∧ t.me.life.phase = .running := by
  cases o with
  | next t => exact ⟨t, rfl, by simpa [goesOn] using h⟩
  | _ => cases h

/-- Control instructions, atomics on the own and on a mate's scratchpad, and remote accesses that go on. -/
theorem test_meets_Frames :
    let s := pair [(1, 0x208), (2, 0x200208), (3, 7)]
    s.traceOn s.curTile.val = false ∧ s.core.remote = [] ∧ s.me.life.phase = .running ∧
    (∀ i ∈ [Instr.beq 1 2 5, .loop 3 5, .fence .module, .ctlwr 0x021 3, .ctlrd 4 0x021, .perfFreeze 3], (controlForm i).isSome = true ∧
      ∃ t, exec i s = .next t ∧ t.me.life.phase = .running) ∧
    (∀ i ∈ [Instr.aadd true 4 1 3, .aaddRemote false 4 2 3], (scratchAtom i).isSome = true ∧
      ∃ t, exec i s = .next t ∧ t.me.life.phase = .running) ∧
    (∃ t, exec (.ldx .d false 4 2 0) s = .next t ∧ t.me.life.phase = .running) ∧
    ∃ t, exec (.stx .d 3 2 0) s = .next t ∧ t.me.life.phase = .running := by
  refine ⟨?_, ?_, ?_, ?_, ?_, exists_of_goesOn ?_, exists_of_goesOn ?_⟩
  case refine_4 =>
    intro i hi
    fin_cases hi <;> exact ⟨by decide, exists_of_goesOn (by decide +kernel)⟩
  case refine_5 =>
    intro i hi
    fin_cases hi <;> exact ⟨by decide, exists_of_goesOn (by decide +kernel)⟩
  all_goals decide +kernel

/-- A `fence` of a core of a traced partition with a remote store on its way to tile 1. -/
theorem test_meets_Frames2 :
    let s := { pair [] with
      tiles := [(0, { tile 0 [] with cl := { runs [] with remote := [⟨1, 8, [5]⟩] } }), (1, tile 1 [])]
      parts := [(0, { state := .active, dbg := { tren := true } })] }
    s.traceOn 0 = true ∧ s.core.remote ≠ [] ∧ s.me.life.phase = .running ∧ (∃ t, exec (.fence .module) s = .next t ∧ t.me.life.phase = .running) ∧
    ((after (exec (.fence .module) s)).tile 1).mem.scratch.byte 8 = 5 ∧ (after (exec (.fence .module) s)).core.remote = [] :=
  ⟨by decide +kernel, by decide +kernel, by decide +kernel, exists_of_goesOn (by decide +kernel), by decide +kernel, by decide +kernel⟩

/-- A store of an element into a poisoned granule of HBM. -/
theorem test_meets_StoringInstructionsFrame_poisoned :
    let s := { benchIn 0 [(1, 8), (2, 5)] with memBad := [0x20A200] }
    let s1 := (readLayout s s.curTile.val s.me.ctl.fmt 0 s.core.pc.toNat).2
    let r := nodeTranslate (s1.beforeWrite s.core.memdef) s1.myDie s1.myPart 0x208 .write
    TensorAt s (0 : BitVec 12).toNat 1 Size.d.bytes (layout0 0) 0x208 s1 ∧ (layout0 0).space = 0 ∧ s.core.remote = [] ∧ clean s [2] ∧
    r = (.ok (some 0x20A208), r.2) ∧ 0x20A208 / 32 * 32 ∈ r.2.memBad ∧ 0x20A208 % Size.d.bytes = 0 :=
  ⟨⟨[1], 0x1040, 0, eq_of_gives (by decide +kernel), by decide +kernel, by unfold clean; decide +kernel,
    by decide +kernel, by decide +kernel, by decide +kernel, by decide +kernel⟩, by decide, by decide +kernel,
   by unfold clean; decide +kernel, eq_of_gives (by decide +kernel), by decide +kernel, by decide⟩

/-- Canonical states that hold bytes, and a step that goes on. -/
theorem test_meets_MemoryStaysCanonical :
    (let s := { stepping [.core 0 .l] with
                tiles := [(0, { tile 0 [] with mem := { scratch := [(0, 1)], scale := [(5, 2)], act := { scale := [(1, 1)], meta_ := [(2, 2)] } } })]
                parts := [(0, { sched := { nodes := [{ addr := 0x10000, saves := [(0, { mem := { scratch := [(7, 1)] } })] }] } })] }
     canonical s = true ∧ nexts (step s) = true) ∧
    canonical { bench [] with tiles := [(0, { mem := { scratch := [(1, 1), (0, 1)] } })] } = false := by decide +kernel

/-! ## Decoding: words written out from the encoding tables (08 Tables 8.1 to 8.9, `opcode_table.json`) -/

/-- Register, immediate and bit-field instructions. -/
theorem test_decode_alu_1 :
    decodeTableWord 32 0x06AB9800 = some (.add 21 11 19) ∧ decodeTableWord 32 0x06AB9801 = some (.sub 21 11 19) ∧
    decodeTableWord 32 0x06AB9802 = some (.mul 21 11 19) ∧ decodeTableWord 32 0x06AB9803 = some (.mulh 21 11 19) ∧
    decodeTableWord 32 0x06AB9804 = some (.mulhn 21 11 19) ∧ decodeTableWord 32 0x06AB9805 = some (.div 21 11 19) ∧
    decodeTableWord 32 0x06AB9806 = some (.divn 21 11 19) ∧ decodeTableWord 32 0x06AB9807 = some (.rem 21 11 19) ∧
    decodeTableWord 32 0x06AB9808 = some (.remn 21 11 19) ∧ decodeTableWord 32 0x06AB9810 = some (.and 21 11 19) ∧
    decodeTableWord 32 0x06AB9811 = some (.or 21 11 19) ∧ decodeTableWord 32 0x06AB9812 = some (.xor 21 11 19) ∧
    decodeTableWord 32 0x06AB9813 = some (.andn 21 11 19) ∧
    decodeTableWord 32 0x06AB9818 = some (.shl 21 11 19) := by decide +kernel

/-- Register, immediate and bit-field instructions. -/
theorem test_decode_alu_2 :
    decodeTableWord 32 0x06AB9819 = some (.shr 21 11 19) ∧ decodeTableWord 32 0x06AB981A = some (.sra 21 11 19) ∧
    decodeTableWord 32 0x06AB981B = some (.rotl 21 11 19) ∧ decodeTableWord 32 0x06AB9820 = some (.min 21 11 19) ∧
    decodeTableWord 32 0x06AB9821 = some (.max 21 11 19) ∧ decodeTableWord 32 0x06AB9822 = some (.minn 21 11 19) ∧
    decodeTableWord 32 0x06AB9823 = some (.maxn 21 11 19) ∧ decodeTableWord 32 0x06AB9828 = some (.slt 21 11 19) ∧
    decodeTableWord 32 0x06AB9829 = some (.sltn 21 11 19) ∧ decodeTableWord 32 0x06AB982A = some (.seq 21 11 19) ∧
    decodeTableWord 32 0x06AB0030 = some (.clz 21 11) ∧ decodeTableWord 32 0x06AB0031 = some (.ctz 21 11) ∧
    decodeTableWord 32 0x06AB0032 = some (.popc 21 11) ∧
    decodeTableWord 32 0x0AAB9A3C = some (.addi 21 11 0x9a3c) := by decide +kernel

/-- Register, immediate and bit-field instructions. -/
theorem test_decode_alu_3 :
    decodeTableWord 32 0x0EAB9A3C = some (.andi 21 11 0x9a3c) ∧ decodeTableWord 32 0x12AB9A3C = some (.ori 21 11 0x9a3c) ∧
    decodeTableWord 32 0x16AB9A3C = some (.xori 21 11 0x9a3c) ∧ decodeTableWord 32 0x1AAB002B = some (.shli 21 11 43) ∧
    decodeTableWord 32 0x1EAB002B = some (.shri 21 11 43) ∧ decodeTableWord 32 0x22AB002B = some (.srai 21 11 43) ∧
    decodeTableWord 32 0x26AB9A3C = some (.slti 21 11 0x9a3c) ∧ decodeTableWord 32 0x2AB9A3C5 = some (.li 21 0x19a3c5) ∧
    decodeTableWord 32 0x2EB9A3C5 = some (.lih 21 0x19a3c5) ∧ decodeTableWord 32 0x32AB9980 = some (.madd 21 11 19 6) ∧
    decodeTableWord 32 0x36AB0385 = some (.bext 21 11 14 5) ∧ decodeTableWord 32 0x36AB1385 = some (.bins 21 11 14 5) ∧
    decodeTableWord 32 0x36AB2005 = some (.sext 21 11 5) ∧
    decodeTableWord 32 0x36AB3005 = some (.zext 21 11 5) := by decide +kernel

/-- Branches, `loop`, `jr`, `ret`, `call`, `b`. -/
theorem test_decode_control :
    decodeTableWord 32 0x41739A3C = some (.beq 11 19 0x9a3c) ∧ decodeTableWord 32 0x45739A3C = some (.bne 11 19 0x9a3c) ∧
    decodeTableWord 32 0x49739A3C = some (.blt 11 19 0x9a3c) ∧ decodeTableWord 32 0x4D739A3C = some (.bge 11 19 0x9a3c) ∧
    decodeTableWord 32 0x51739A3C = some (.bltn 11 19 0x9a3c) ∧ decodeTableWord 32 0x55739A3C = some (.bgen 11 19 0x9a3c) ∧
    decodeTableWord 32 0x59609A3C = some (.loop 11 0x9a3c) ∧ decodeTableWord 32 0x59610000 = some (.jr 11) ∧
    decodeTableWord 32 0x58020000 = some (.ret) ∧ decodeTableWord 32 0x5DB9A3C5 = some (.call 13 0x19a3c5) ∧
    decodeTableWord 32 0x5FF9A3C5 = some (.b 0x19a3c5) := by decide +kernel

/-- Loads, stores, layout-record copies, probes and atomics. -/
theorem test_decode_memory_1 :
    decodeTableWord 32 0x62AB7A35 = some (.ld .h true 21 11 0x1a35) ∧
    decodeTableWord 32 0x66AB5A35 = some (.st .h 21 11 0x1a35) ∧
    decodeTableWord 32 0x6AAB7A35 = some (.ldx .h true 21 11 0x1a35) ∧
    decodeTableWord 32 0x6EAB5A35 = some (.stx .h 21 11 0x1a35) ∧
    decodeTableWord 32 0x82AB65A3 = some (.ldt .h true 21 11 0x5a3) ∧
    decodeTableWord 32 0x86AB45A3 = some (.stt .h 21 11 0x5a3) ∧ decodeTableWord 32 0x880B05A3 = some (.dset 11 0x5a3) ∧
    decodeTableWord 32 0x882B05A3 = some (.dget 11 0x5a3) ∧ decodeTableWord 32 0x8EAB15A3 = some (.probe true 21 11 0x5a3) ∧
    decodeTableWord 32 0x92AB9840 = some (.aadd true 21 11 19) ∧ decodeTableWord 32 0x92AB98C0 = some (.amin true 21 11 19) ∧
    decodeTableWord 32 0x92AB9940 = some (.amax true 21 11 19) ∧
    decodeTableWord 32 0x92AB99C0 = some (.aminn true 21 11 19) ∧
    decodeTableWord 32 0x92AB9A40 = some (.amaxn true 21 11 19) := by decide +kernel

/-- Loads, stores, layout-record copies, probes and atomics. -/
theorem test_decode_memory_2 :
    decodeTableWord 32 0x92AB9AC0 = some (.aand true 21 11 19) ∧ decodeTableWord 32 0x92AB9B40 = some (.aor true 21 11 19) ∧
    decodeTableWord 32 0x92AB9BC0 = some (.axor true 21 11 19) ∧
    decodeTableWord 32 0x92AB9C40 = some (.axchg true 21 11 19) ∧
    decodeTableWord 32 0x92AB9CC0 = some (.acas true 21 11 19) ∧
    decodeTableWord 32 0x96AB9840 = some (.aaddRemote true 21 11 19) ∧
    decodeTableWord 32 0x96AB98C0 = some (.aminRemote true 21 11 19) ∧
    decodeTableWord 32 0x96AB9940 = some (.amaxRemote true 21 11 19) ∧
    decodeTableWord 32 0x96AB99C0 = some (.aminnRemote true 21 11 19) ∧
    decodeTableWord 32 0x96AB9A40 = some (.amaxnRemote true 21 11 19) ∧
    decodeTableWord 32 0x96AB9AC0 = some (.aandRemote true 21 11 19) ∧
    decodeTableWord 32 0x96AB9B40 = some (.aorRemote true 21 11 19) ∧
    decodeTableWord 32 0x96AB9BC0 = some (.axorRemote true 21 11 19) ∧
    decodeTableWord 32 0x96AB9C40 = some (.axchgRemote true 21 11 19) := by decide +kernel

/-- Loads, stores, layout-record copies, probes and atomics. -/
theorem test_decode_memory_3 :
    decodeTableWord 32 0x96AB9CC0 = some (.acasRemote true 21 11 19) ∧
    decodeTableWord 32 0x9EAB9853 = some (.aaddTensor true 21 11 19 83) ∧
    decodeTableWord 32 0x9EAB98D3 = some (.aminTensor true 21 11 19 83) ∧
    decodeTableWord 32 0x9EAB9953 = some (.amaxTensor true 21 11 19 83) ∧
    decodeTableWord 32 0x9EAB99D3 = some (.aminnTensor true 21 11 19 83) ∧
    decodeTableWord 32 0x9EAB9A53 = some (.amaxnTensor true 21 11 19 83) ∧
    decodeTableWord 32 0x9EAB9AD3 = some (.aandTensor true 21 11 19 83) ∧
    decodeTableWord 32 0x9EAB9B53 = some (.aorTensor true 21 11 19 83) ∧
    decodeTableWord 32 0x9EAB9BD3 = some (.axorTensor true 21 11 19 83) ∧
    decodeTableWord 32 0x9EAB9C53 = some (.axchgTensor true 21 11 19 83) ∧
    decodeTableWord 32 0x9EAB9CD3 = some (.acasTensor true 21 11 19 83) := by decide +kernel

/-- Fences, cells, queues, barriers, handles, the system and control-register instructions. -/
theorem test_decode_system_1 :
    decodeTableWord 32 0xA4000005 = some (.fence .host) ∧ decodeTableWord 32 0xA80B0000 = some (.acqx 11) ∧
    decodeTableWord 32 0xA80B0001 = some (.acqs 11) ∧ decodeTableWord 32 0xA80B0002 = some (.rel 11) ∧
    decodeTableWord 32 0xA80B9803 = some (.bind 11 19) ∧ decodeTableWord 32 0xA80B9804 = some (.unbind 11 19) ∧
    decodeTableWord 32 0xAEAB9800 = some (.sigwait 21 11 19) ∧ decodeTableWord 32 0xB2A09000 = some (.qpush 9 21) ∧
    decodeTableWord 32 0xB2A09100 = some (.qpop 21 9) ∧ decodeTableWord 32 0xB2A09200 = some (.qtry 21 9) ∧
    decodeTableWord 32 0xB2A09300 = some (.qpeek 21 9) ∧ decodeTableWord 32 0xB2A09400 = some (.qcnt 21 9) ∧
    decodeTableWord 32 0xB2AB9500 = some (.qpushx 21 9 11) ∧
    decodeTableWord 32 0xC00B0015 = some (.barset 21 11) := by decide +kernel

/-- Fences, cells, queues, barriers, handles, the system and control-register instructions. -/
theorem test_decode_system_2 :
    decodeTableWord 32 0xC0000115 = some (.barv 21) ∧ decodeTableWord 32 0xC0000215 = some (.barw 21) ∧
    decodeTableWord 32 0xC2A00315 = some (.bart 21 21) ∧ decodeTableWord 32 0xC2AB0415 = some (.barws 21 21 11) ∧
    decodeTableWord 32 0xD2AB0000 = some (.opwait 21 11) ∧ decodeTableWord 32 0xD00B0001 = some (.opcancel 11) ∧
    decodeTableWord 32 0xD2AB0002 = some (.optest 21 11) ∧ decodeTableWord 32 0xD00B9803 = some (.opprio 11 19) ∧
    decodeTableWord 32 0xD00B0004 = some (.opdetach 11) ∧ decodeTableWord 32 0xD40B0000 = some (.launch 11) ∧
    decodeTableWord 32 0xE0000000 = some (.exit) ∧ decodeTableWord 32 0xE0000010 = some (.brk) ∧
    decodeTableWord 32 0xE0000020 = some (.publish) ∧
    decodeTableWord 32 0xE00B0039 = some (.fmtset 9 11) := by decide +kernel

/-- Fences, cells, queues, barriers, handles, the system and control-register instructions. -/
theorem test_decode_system_3 :
    decodeTableWord 32 0xE2A00049 = some (.fmtget 21 9) ∧ decodeTableWord 32 0xE2A00050 = some (.rdsc 21) ∧
    decodeTableWord 32 0xE2AB9860 = some (.rndkLo 21 11 19) ∧ decodeTableWord 32 0xE2AB9861 = some (.rndkHi 21 11 19) ∧
    decodeTableWord 32 0xE0000079 = some (.trap 9) ∧ decodeTableWord 32 0xE6A005A3 = some (.ctlrd 21 0x5a3) ∧
    decodeTableWord 32 0xE80B05A3 = some (.ctlwr 0x5a3 11) ∧
    decodeTableWord 32 0xEC19A3C5 = some (.yield 0x19a3c5) := by decide +kernel

/-- Format V (08 Table 8.5), every VOP, and four examples of 11 R263. -/
theorem test_decode_vector_1 :
    decodeTableWord 64 0x99A4800CF805AA76 = some (.vadd ⟨5, ⟨21, 1, 3⟩, ⟨22, 2, 6⟩, ⟨13, 0, 9⟩, ⟨0, 0, 0⟩, 12⟩) ∧
    decodeTableWord 64 0x99A4800CF80DAA76 = some (.vsub ⟨5, ⟨21, 1, 3⟩, ⟨22, 2, 6⟩, ⟨13, 0, 9⟩, ⟨0, 0, 0⟩, 12⟩) ∧
    decodeTableWord 64 0x99A4800CF815AA76 = some (.vmul ⟨5, ⟨21, 1, 3⟩, ⟨22, 2, 6⟩, ⟨13, 0, 9⟩, ⟨0, 0, 0⟩, 12⟩) ∧
    decodeTableWord 64 0x99A4800CF86DAA76 = some (.vdiv ⟨5, ⟨21, 1, 3⟩, ⟨22, 2, 6⟩, ⟨13, 0, 9⟩, ⟨0, 0, 0⟩, 12⟩) ∧
    decodeTableWord 64 0x99A4E9C9F81DAA76 = some (.vfma ⟨5, ⟨21, 1, 3⟩, ⟨22, 2, 6⟩, ⟨13, 0, 9⟩, ⟨26, 1, 12⟩, 9⟩) ∧
    decodeTableWord 64 0x99A4E9C9F825AA76 = some (.vfms ⟨5, ⟨21, 1, 3⟩, ⟨22, 2, 6⟩, ⟨13, 0, 9⟩, ⟨26, 1, 12⟩, 9⟩) ∧
    decodeTableWord 64 0x99A4E9C9F82DAA76 = some (.vfnma ⟨5, ⟨21, 1, 3⟩, ⟨22, 2, 6⟩, ⟨13, 0, 9⟩, ⟨26, 1, 12⟩, 9⟩) ∧
    decodeTableWord 64 0x99A48000F835AA76 = some (.vmin ⟨5, ⟨21, 1, 3⟩, ⟨22, 2, 6⟩, ⟨13, 0, 9⟩, ⟨0, 0, 0⟩, 0⟩) ∧
    decodeTableWord 64 0x99A48000F83DAA76 = some (.vmax ⟨5, ⟨21, 1, 3⟩, ⟨22, 2, 6⟩, ⟨13, 0, 9⟩, ⟨0, 0, 0⟩, 0⟩) ∧
    decodeTableWord 64 0x98000000F845AA76 = some (.vabs ⟨5, ⟨21, 1, 3⟩, ⟨22, 2, 6⟩, ⟨0, 0, 0⟩, ⟨0, 0, 0⟩, 0⟩) ∧
    decodeTableWord 64 0x98000000F84DAA76 = some (.vneg ⟨5, ⟨21, 1, 3⟩, ⟨22, 2, 6⟩, ⟨0, 0, 0⟩, ⟨0, 0, 0⟩, 0⟩) ∧
    decodeTableWord 64 0x9800000FF855AA76 = some (.vrcp ⟨5, ⟨21, 1, 3⟩, ⟨22, 2, 6⟩, ⟨0, 0, 0⟩, ⟨0, 0, 0⟩, 15⟩) ∧
    decodeTableWord 64 0x9800000FF85DAA76 = some (.vrsq ⟨5, ⟨21, 1, 3⟩, ⟨22, 2, 6⟩, ⟨0, 0, 0⟩, ⟨0, 0, 0⟩, 15⟩) ∧
    decodeTableWord 64 0x9800000FF865AA76 = some (.vsqrt ⟨5, ⟨21, 1, 3⟩, ⟨22, 2, 6⟩, ⟨0, 0, 0⟩, ⟨0, 0, 0⟩, 15⟩) := by decide +kernel

/-- Format V (08 Table 8.5), every VOP, and four examples of 11 R263. -/
theorem test_decode_vector_2 :
    decodeTableWord 64 0x9800000FF875AA76 = some (.vexp2 ⟨5, ⟨21, 1, 3⟩, ⟨22, 2, 6⟩, ⟨0, 0, 0⟩, ⟨0, 0, 0⟩, 15⟩) ∧
    decodeTableWord 64 0x9800000FF87DAA76 = some (.vlog2 ⟨5, ⟨21, 1, 3⟩, ⟨22, 2, 6⟩, ⟨0, 0, 0⟩, ⟨0, 0, 0⟩, 15⟩) ∧
    decodeTableWord 64 0x99A49C00F8853016 = some (.vcmp ⟨5, ⟨6, 0, 0⟩, ⟨22, 2, 6⟩, ⟨13, 0, 9⟩, ⟨7, 0, 0⟩, 0⟩) ∧
    decodeTableWord 64 0x99A49800F88DAA76 = some (.vsel ⟨5, ⟨21, 1, 3⟩, ⟨22, 2, 6⟩, ⟨13, 0, 9⟩, ⟨6, 0, 0⟩, 0⟩) ∧
    decodeTableWord 64 0x99A48000F8C5AA76 = some (.vand ⟨5, ⟨21, 1, 3⟩, ⟨22, 2, 6⟩, ⟨13, 0, 9⟩, ⟨0, 0, 0⟩, 0⟩) ∧
    decodeTableWord 64 0x99A48000F8CDAA76 = some (.vor ⟨5, ⟨21, 1, 3⟩, ⟨22, 2, 6⟩, ⟨13, 0, 9⟩, ⟨0, 0, 0⟩, 0⟩) ∧
    decodeTableWord 64 0x99A48000F8D5AA76 = some (.vxor ⟨5, ⟨21, 1, 3⟩, ⟨22, 2, 6⟩, ⟨13, 0, 9⟩, ⟨0, 0, 0⟩, 0⟩) ∧
    decodeTableWord 64 0x99A48000F8DDAA76 = some (.vshl ⟨5, ⟨21, 1, 3⟩, ⟨22, 2, 6⟩, ⟨13, 0, 9⟩, ⟨0, 0, 0⟩, 0⟩) ∧
    decodeTableWord 64 0x99A48000F8E5AA76 = some (.vshr ⟨5, ⟨21, 1, 3⟩, ⟨22, 2, 6⟩, ⟨13, 0, 9⟩, ⟨0, 0, 0⟩, 0⟩) ∧
    decodeTableWord 64 0x99A48000F8EDAA76 = some (.vsra ⟨5, ⟨21, 1, 3⟩, ⟨22, 2, 6⟩, ⟨13, 0, 9⟩, ⟨0, 0, 0⟩, 0⟩) ∧
    decodeTableWord 64 0x99A48008F905AA76 = some (.viadd ⟨5, ⟨21, 1, 3⟩, ⟨22, 2, 6⟩, ⟨13, 0, 9⟩, ⟨0, 0, 0⟩, 8⟩) ∧
    decodeTableWord 64 0x99A48008F90DAA76 = some (.visub ⟨5, ⟨21, 1, 3⟩, ⟨22, 2, 6⟩, ⟨13, 0, 9⟩, ⟨0, 0, 0⟩, 8⟩) ∧
    decodeTableWord 64 0x99A48008F915AA76 = some (.vimul ⟨5, ⟨21, 1, 3⟩, ⟨22, 2, 6⟩, ⟨13, 0, 9⟩, ⟨0, 0, 0⟩, 8⟩) ∧
    decodeTableWord 64 0x99603804F945AA76 = some (.vcvt ⟨5, ⟨21, 1, 3⟩, ⟨22, 2, 6⟩, ⟨11, 0, 0⟩, ⟨14, 0, 0⟩, 4⟩) := by decide +kernel

/-- Format V (08 Table 8.5), every VOP, and four examples of 11 R263. -/
theorem test_decode_vector_3 :
    decodeTableWord 64 0xF94DAA7D = some (.vbcast ⟨5, ⟨21, 1, 3⟩, ⟨29, 0, 0⟩, ⟨0, 0, 0⟩, ⟨0, 0, 0⟩, 0⟩) ∧
    decodeTableWord 64 0x98000400F94DAE16 = some (.vbcastRows ⟨5, ⟨21, 3, 0⟩, ⟨22, 2, 6⟩, ⟨0, 0, 0⟩, ⟨1, 0, 0⟩, 0⟩) ∧
    decodeTableWord 64 0x98000800F94DAE16 = some (.vbcastCols ⟨5, ⟨21, 3, 0⟩, ⟨22, 2, 6⟩, ⟨0, 0, 0⟩, ⟨2, 0, 0⟩, 0⟩) ∧
    decodeTableWord 64 0x98000000F955AA76 = some (.vmov ⟨5, ⟨21, 1, 3⟩, ⟨22, 2, 6⟩, ⟨0, 0, 0⟩, ⟨0, 0, 0⟩, 0⟩) ∧
    decodeTableWord 64 0x98068400F950A816 = some (.vmovToG ⟨0, ⟨21, 0, 0⟩, ⟨22, 2, 6⟩, ⟨0, 0, 13⟩, ⟨1, 0, 0⟩, 0⟩) ∧
    decodeTableWord 64 0x68800F950AA7D = some (.vmovFromG ⟨0, ⟨21, 1, 3⟩, ⟨29, 0, 0⟩, ⟨0, 0, 13⟩, ⟨2, 0, 0⟩, 0⟩) ∧
    decodeTableWord 64 0x2600000F985AA7D = some (.vld ⟨5, ⟨21, 1, 3⟩, ⟨29, 0, 0⟩, ⟨19, 0, 0⟩, ⟨0, 0, 0⟩, 0⟩) ∧
    decodeTableWord 64 0x2600000F98DAA7D = some (.vst ⟨5, ⟨21, 1, 3⟩, ⟨29, 0, 0⟩, ⟨19, 0, 0⟩, ⟨0, 0, 0⟩, 0⟩) ∧
    decodeTableWord 64 0xC0001403F9C5AA76 = some (.vred ⟨5, ⟨21, 1, 3⟩, ⟨22, 3, 0⟩, ⟨0, 0, 0⟩, ⟨5, 0, 0⟩, 3⟩) ∧
    decodeTableWord 64 0x98001403F9CDAA76 = some (.vscan ⟨5, ⟨21, 1, 3⟩, ⟨22, 2, 6⟩, ⟨0, 0, 0⟩, ⟨5, 0, 0⟩, 3⟩) ∧
    decodeTableWord 64 0x99A48000F9D5AA76 = some (.vperm ⟨5, ⟨21, 1, 3⟩, ⟨22, 2, 6⟩, ⟨13, 0, 9⟩, ⟨0, 0, 0⟩, 0⟩) ∧
    decodeTableWord 64 0xC0000000F9DDAE16 = some (.vtrans ⟨5, ⟨21, 3, 0⟩, ⟨22, 3, 0⟩, ⟨0, 0, 0⟩, ⟨0, 0, 0⟩, 0⟩) ∧
    decodeTableWord 64 0x2601800FA05AA7D = some (.vrng ⟨5, ⟨21, 1, 3⟩, ⟨29, 0, 0⟩, ⟨19, 0, 0⟩, ⟨6, 0, 0⟩, 0⟩) ∧
    decodeTableWord 64 0xFA0DAA7D = some (.vidx ⟨5, ⟨21, 1, 3⟩, ⟨29, 0, 0⟩, ⟨0, 0, 0⟩, ⟨0, 0, 0⟩, 0⟩) := by decide +kernel

/-- Format V (08 Table 8.5), every VOP, and four examples of 11 R263. -/
theorem test_decode_vector_4 :
    decodeTableWord 64 0xA00000FA403003 = some (.kand ⟨0, ⟨6, 0, 0⟩, ⟨3, 0, 0⟩, ⟨5, 0, 0⟩, ⟨0, 0, 0⟩, 0⟩) ∧
    decodeTableWord 64 0xA00000FA483003 = some (.kor ⟨0, ⟨6, 0, 0⟩, ⟨3, 0, 0⟩, ⟨5, 0, 0⟩, ⟨0, 0, 0⟩, 0⟩) ∧
    decodeTableWord 64 0xFA503003 = some (.knot ⟨0, ⟨6, 0, 0⟩, ⟨3, 0, 0⟩, ⟨0, 0, 0⟩, ⟨0, 0, 0⟩, 0⟩) ∧
    decodeTableWord 64 0xFA58A803 = some (.kpop ⟨0, ⟨21, 0, 0⟩, ⟨3, 0, 0⟩, ⟨0, 0, 0⟩, ⟨0, 0, 0⟩, 0⟩) ∧
    decodeTableWord 64 0xC0D81F09F81A2605 = some (.vfma ⟨2, ⟨4, 3, 0⟩, ⟨5, 3, 0⟩, ⟨6, 3, 0⟩, ⟨7, 3, 0⟩, 9⟩) ∧
    decodeTableWord 64 0x552A8800F8801802 = some (.vcmp ⟨0, ⟨3, 0, 0⟩, ⟨2, 1, 5⟩, ⟨9, 1, 5⟩, ⟨2, 0, 0⟩, 0⟩) ∧
    decodeTableWord 64 0x8000C0CF9404048 = some (.vcvt ⟨0, ⟨8, 0, 2⟩, ⟨8, 0, 2⟩, ⟨0, 0, 0⟩, ⟨3, 0, 0⟩, 12⟩) ∧
    decodeTableWord 64 0xF9485607 = some (.vbcast ⟨0, ⟨10, 3, 0⟩, ⟨7, 0, 0⟩, ⟨0, 0, 0⟩, ⟨0, 0, 0⟩, 0⟩) := by decide +kernel

/-- The 15 body words of a record (12 Table 12.2), every field another value. -/
def recBody : Nat := 0x91234567DEADBEEF6DBAD20EB00CA10D000009400000000008000007000006000005ABCDEF000003FFFFFF000002123456800001FFFF000300020001

/-- A record of an operation code with that body (12 R284): PRIO -3, DETACH, STAMP, CQ 9, TOK 3, EPI, ACCSAT, PROF 2. -/
def recWord (opc chain : Nat) : Nat := 0xF40DA976 + opc * 2 ^ 20 + chain * 8 + recBody * 2 ^ 32

/-- Its fields. -/
def recFields : Rec :=
  { prio := 0xD, detach := true, det := false, stamp := true, cq := 9, tok := 3, epi := true, chain := false, accsat := true, prof := 2
    trip := ⟨1, 2, 3, 0xFFFF⟩, sa := ⟨0x800001, 0x123456, 2, 0xFFFFFF⟩, sb := ⟨3, 0xABCDEF, 5, 6⟩, sd := ⟨7, 8, 0x400000, 9⟩
    ha := 0xA10D, hb := 0xB00C, rsv13 := false, ed := true, eb := true, ea := false, fd := 13, fb := 11, fa := 10, hd := 0xD20E
    w14 := 0xDEADBEEF, rm := 9, cpay := 0x1234567 }

/-- Format K (12 R284 to R286), operation codes of 08 Table 8.9. -/
theorem test_decode_records_1 :
    decodeTableWord 512 (recWord 0x01 0) = some (.tload recFields) ∧
    decodeTableWord 512 (recWord 0x02 0) = some (.tgather recFields) ∧
    decodeTableWord 512 (recWord 0x03 0) = some (.sload recFields) ∧
    decodeTableWord 512 (recWord 0x04 0) = some (.xpull recFields) ∧
    decodeTableWord 512 (recWord 0x05 0) = some (.fill recFields) ∧
    decodeTableWord 512 (recWord 0x06 0) = some (.mcred recFields) ∧
    decodeTableWord 512 (recWord 0x07 0) = some (.rload recFields) ∧
    decodeTableWord 512 (recWord 0x10 0) = some (.wload recFields) := by decide +kernel

/-- Format K (12 R284 to R286), operation codes of 08 Table 8.9. -/
theorem test_decode_records_2 :
    decodeTableWord 512 (recWord 0x11 0) = some (.wswap recFields) ∧
    decodeTableWord 512 (recWord 0x12 0) = some (.mma recFields) ∧
    decodeTableWord 512 (recWord 0x13 0) = some (.mmas recFields) ∧
    decodeTableWord 512 (recWord 0x14 0) = some (.mdrain recFields) ∧
    decodeTableWord 512 (recWord 0x15 0) = some (.mzero recFields) ∧
    decodeTableWord 512 (recWord 0x16 0) = some (.mchain recFields) ∧
    decodeTableWord 512 (recWord 0x17 0) = some (.mcopy recFields) ∧
    decodeTableWord 512 (recWord 0x20 0) = some (.tstore recFields) := by decide +kernel

/-- Format K (12 R284 to R286), operation codes of 08 Table 8.9. -/
theorem test_decode_records_3 :
    decodeTableWord 512 (recWord 0x21 0) = some (.tscatter recFields) ∧
    decodeTableWord 512 (recWord 0x22 0) = some (.tred recFields) ∧
    decodeTableWord 512 (recWord 0x23 0) = some (.rstore recFields) ∧
    decodeTableWord 512 (recWord 0x24 0) = some (.rsig recFields) ∧
    decodeTableWord 512 (recWord 0x25 0) = some (.xpush recFields) ∧
    decodeTableWord 512 (recWord 0x14 1) = some (.mdrainDirect { recFields with chain := true }) := by decide +kernel

/-- `pfx` with CHINT 2, ORDER 3, SCOPE 5 before `ld.d g3, 0(g1)` (08 R193). -/
theorem test_decode_pfx : decodeTableWord 64 0x6061C000A0000235 = some (.pfx ⟨.acqRel, .host, 2⟩ 0x6061C000) := by decide +kernel

/-- Words that 08, 09 and 11 call illegal, and one ill-formed instruction for each check: `loop` with GA 0, a bit field past
bit 63, `ld.d` with SX, `rndk` with GB 31, `yield` with IMM 0, RM 13, VOP 0x12, a 16-lane `vtrans`, a code of no record, OP 0
and 0x3F. -/
theorem test_illegal_words :
    (∀ w ∈ [0x5800FFFB, 0x34640F05, 0x6061E000, 0xE061F860, 0xEC000000, 0x00000000, 0xFC000000, 0xF4000000, 0x5EA00000, 0xC0000018],
      decodeTableWord 32 w = none) ∧
    ∀ w ∈ [0x00000000F9D81603, 0x0060000FF8900802, 0x0060000DF8000802], decodeTableWord 64 w = none := by decide +kernel

/-- WellFormed refuses an ill-formed term for each of its checks. -/
theorem test_ill_formed :
    (Instr.loop 0 1).wellFormed = false ∧ (Instr.bext 3 4 60 5).wellFormed = false ∧ (Instr.bins 3 4 63 1).wellFormed = false ∧
    (Instr.ld .d true 1 2 0).wellFormed = false ∧ (Instr.ldx .d true 1 2 0).wellFormed = false ∧
    (Instr.ldt .d true 1 2 0).wellFormed = false ∧ (Instr.rndkLo 1 2 31).wellFormed = false ∧
    (Instr.rndkHi 1 2 31).wellFormed = false ∧ (Instr.yield 0).wellFormed = false ∧
    (Instr.mdrain { recFields with chain := true }).wellFormed = false ∧ (Instr.mdrainDirect recFields).wellFormed = false ∧
    (Instr.vadd ⟨0, ⟨1, 3, 1⟩, ⟨2, 3, 0⟩, ⟨3, 3, 0⟩, ⟨0, 0, 0⟩, 0⟩).wellFormed = false ∧
    (Instr.vadd ⟨0, ⟨1, 3, 0⟩, ⟨2, 0, 0⟩, ⟨3, 3, 0⟩, ⟨0, 0, 0⟩, 0⟩).wellFormed = false ∧
    (Instr.vadd ⟨0, ⟨1, 3, 0⟩, ⟨2, 3, 0⟩, ⟨3, 3, 0⟩, ⟨4, 0, 0⟩, 0⟩).wellFormed = false ∧
    (Instr.vadd ⟨0, ⟨1, 3, 0⟩, ⟨2, 3, 0⟩, ⟨3, 3, 0⟩, ⟨0, 0, 0⟩, 5⟩).wellFormed = false ∧
    (Instr.vmin ⟨0, ⟨1, 3, 0⟩, ⟨2, 3, 0⟩, ⟨3, 3, 0⟩, ⟨0, 0, 0⟩, 1⟩).wellFormed = false ∧
    (Instr.vcmp ⟨0, ⟨8, 0, 0⟩, ⟨2, 3, 0⟩, ⟨3, 3, 0⟩, ⟨0, 0, 0⟩, 0⟩).wellFormed = false ∧
    (Instr.vred ⟨0, ⟨1, 0, 0⟩, ⟨2, 3, 0⟩, ⟨0, 0, 0⟩, ⟨3, 0, 0⟩, 4⟩).wellFormed = false ∧
    (Instr.kand ⟨1, ⟨1, 0, 0⟩, ⟨2, 0, 0⟩, ⟨3, 0, 0⟩, ⟨0, 0, 0⟩, 0⟩).wellFormed = false ∧
    (Instr.vmovToG ⟨0, ⟨1, 0, 0⟩, ⟨2, 0, 0⟩, ⟨1, 0, 4⟩, ⟨1, 0, 0⟩, 0⟩).wellFormed = false := by decide

/-! ## Single steps worked out by hand, from the spec's examples where it gives them -/

/-- Register `r` after an instruction in a state. -/
def gAfter (s : State) (i : Instr) (r : Reg) : Word := (after (exec i s)).g r

/-- The fault that an instruction raises in a state: code and DETAIL. -/
def faultAfter (s : State) (i : Instr) : Option (Nat × Nat) :=
  (after (exec i s)).me.life.fault.map (fun f => (f.code, f.detail))

/-- Division at its edges (the example of 09 R204): -7 by 2, 12 by 0, the least number by -1. -/
theorem test_division :
    gAfter (bench [(1, -7), (2, 2)]) (.div 3 1 2) 3 = -3 ∧ gAfter (bench [(1, -7), (2, 2)]) (.rem 3 1 2) 3 = -1 ∧
    gAfter (bench [(1, -7), (2, 2)]) (.divn 3 1 2) 3 = 0x7FFFFFFFFFFFFFFC ∧ gAfter (bench [(1, -7), (2, 2)]) (.remn 3 1 2) 3 = 1 ∧
    gAfter (bench [(1, 12)]) (.div 3 1 2) 3 = 0xFFFFFFFFFFFFFFFF ∧ gAfter (bench [(1, 12)]) (.rem 3 1 2) 3 = 12 ∧
    gAfter (bench [(1, 0x8000000000000000), (2, -1)]) (.div 3 1 2) 3 = 0x8000000000000000 ∧
    gAfter (bench [(1, 0x8000000000000000), (2, -1)]) (.rem 3 1 2) 3 = 0 := by decide +kernel

/-- `bext g3, g4, 14, 6` and `bins g3, g0, 0, 3` (the example of 09 R208); a `bext` whose source is its destination. -/
theorem test_bit_fields :
    gAfter (bench [(4, 0x0143800E)]) (.bext 3 4 14 5) 3 = 0x0E ∧ gAfter (bench [(3, 0x0E)]) (.bins 3 0 0 2) 3 = 0x08 ∧
    gAfter (bench [(3, 0x0143800E)]) (.bext 3 3 14 5) 3 = 0x0E ∧ gAfter (bench [(3, 0x80)]) (.sext 3 3 7) 3 = -128 ∧
    gAfter (bench [(3, 0x180)]) (.zext 3 3 7) 3 = 0x80 := by decide +kernel

/-- Sums wrap, a shift count is taken modulo 64, `lih` keeps the low 32 bits, g0 discards. -/
theorem test_scalar :
    gAfter (bench [(1, -1), (2, 3)]) (.add 1 1 2) 1 = 2 ∧ gAfter (bench [(1, 1), (2, 65)]) (.shl 3 1 2) 3 = 2 ∧
    gAfter (bench [(1, -8), (2, 1)]) (.sra 3 1 2) 3 = -4 ∧ gAfter (bench [(1, -1), (2, 1)]) (.slt 3 1 2) 3 = 1 ∧
    gAfter (bench [(1, -1), (2, 1)]) (.sltn 3 1 2) 3 = 0 ∧ gAfter (bench [(1, 5)]) (.addi 0 1 1) 0 = 0 ∧
    gAfter (bench []) (.clz 3 0) 3 = 64 ∧ gAfter (bench [(1, 1)]) (.addi 3 1 0xFFFF) 3 = 0 ∧
    gAfter (bench []) (.li 3 0x100000) 3 = -0x100000 := by decide +kernel

/-- `loop g2` with DISP -3 at 0x800 + 12 (the counted loop of 09): it goes back three words while the count is not zero. -/
theorem test_loop :
    (let t := after (exec (.loop 2 0xFFFD) (withCore { runs [(2, 4)] with pc := 0x80C })); t.core.pc = 0x800 ∧ t.g 2 = 3) ∧
    (let t := after (exec (.loop 2 0xFFFD) (withCore { runs [(2, 1)] with pc := 0x80C })); t.core.pc = 0x810 ∧ t.g 2 = 0) := by
  decide +kernel

/-- A call with F = 6 (the example of 08 R176): g12 = 0x17, g25 = 0x24, g26 fresh; the `ret` after it gives all back. -/
theorem test_call_and_ret :
    let t := after (exec (.call 6 0x10) (bench [(12, 0x11), (17, 0x16), (18, 0x17), (31, 0x24)]))
    let u := after (exec .ret (t.setG 12 0x99))
    t.g 12 = 0x17 ∧ t.g 25 = 0x24 ∧ t.g 26 = 0 ∧ t.core.pc = 0x840 ∧
    u.g 12 = 0x11 ∧ u.g 17 = 0x16 ∧ u.g 18 = 0x99 ∧ u.g 31 = 0x24 ∧ u.core.pc = 0x804 := by decide +kernel

/-- Loads extend by their letter, wide loads join two doublewords of little-endian bytes, and the two checks come in order:
an address past the scratchpad that is misaligned too raises SCRATCH_BOUNDS (09 R214). -/
theorem test_load_and_store :
    let s := after (exec (.st .h 2 1 4) (bench [(1, 0x1000), (2, 0x12348081)]))
    gAfter s (.ld .b true 3 1 5) 3 = 0xFFFFFFFFFFFFFF80 ∧ gAfter s (.ld .b false 3 1 4) 3 = 0x81 ∧
    gAfter s (.ld .w false 3 1 4) 3 = 0x8081 ∧ faultAfter s (.ld .w false 3 1 2) = some (0x14, 0x1002) ∧
    faultAfter (bench [(1, 0x1FFFFD)]) (.ld .w false 3 1 0) = some (0x08, 0x1FFFFD) := by decide +kernel

/-- Two relaxed atomics on a word that holds 10 (the example of 09 R226): each returns the old value. -/
theorem test_atomic :
    let s := after (exec (.st .w 2 1 0) (bench [(1, 0x400), (2, 10), (3, 1)]))
    let t := after (exec (.aadd false 5 1 3) s)
    t.g 5 = 10 ∧ gAfter t (.ld .w false 6 1 0) 6 = 11 := by decide +kernel

/-- `trap 5` raises TRAP with DETAIL 5, and the pc stays (10 R252). -/
theorem test_trap :
    faultAfter (bench []) (.trap 5) = some (0x15, 5) ∧ (after (exec (.trap 5) (bench []))).core.pc = 0x800 := by decide +kernel

/-- Tile 0 with the reset formats and panel words, its X-core next. -/
def vbench (p : List (Nat × W32)) (g : List (Nat × Word)) : State :=
  { withTile { tile 0 g with ctl := { fmt := loadedImage resetFormats }, mem := { panel := p } } with curCore := .x }

/-- The word of lane `l` of panel 1 after an instruction. -/
def laneAfter (s : State) (i : Instr) (l : Nat) : W32 := SMap.get 0 (after (exec i s)).me.mem.panel (256 + l)

/-- Row 0 of panel 1 := row 0 of panel 0, row 1 of panel 0; rounding `rm`; entries `a`, `b` for `vcvt`. -/
def vop (rm : Fin 16) : VFields := { rows 0 with vd := ⟨1, 0, 0⟩, va := ⟨0, 0, 0⟩, vb := ⟨0, 0, 1⟩, rm := rm }
def vto (fd : Fin 32) (rm : Fin 16) : VFields := { vop rm with vb := ⟨0, 0, 0⟩, vc := ⟨fd, 0, 0⟩ }

/-- The lanes of the example of 11 R270, plain and saturating. -/
theorem test_vector_integers :
    laneAfter (vbench [(0, 0x7FFFFFF0), (16, 0x20)] []) (.viadd (vop 0)) 0 = 0x80000010 ∧
    laneAfter (vbench [(0, 0x7FFFFFF0), (16, 0x20)] []) (.viadd (vop 8)) 0 = 0x7FFFFFFF ∧
    laneAfter (vbench [(0, 0xFFFFFFFF), (16, 0x80000000)] []) (.vimul (vop 0)) 0 = 0x80000000 ∧
    laneAfter (vbench [(0, 0xFFFFFFFF), (16, 0x80000000)] []) (.vimul (vop 8)) 0 = 0x7FFFFFFF := by decide +kernel

/-- The conversions of the examples of 11 R271 and 03 R69. -/
theorem test_vector_conversions :
    laneAfter (vbench [(0, 0x3E99999A)] []) (.vcvt (vto 3 0)) 0 = 0x2A ∧
    laneAfter (vbench [(0, 0x3E99999A)] []) (.vcvt (vto 3 1)) 0 = 0x29 ∧
    laneAfter (vbench [(0, 0x47700000)] []) (.vcvt (vto 4 0)) 0 = 0x7C ∧
    laneAfter (vbench [(0, 0x47700000)] []) (.vcvt (vto 4 8)) 0 = 0x7B ∧
    laneAfter (vbench [(0, 0x47680000)] []) (.vcvt (vto 4 0)) 0 = 0x7B ∧
    laneAfter (vbench [(0, 0x7F7F8000)] []) (.vcvt (vto 1 0)) 0 = 0x7F80 ∧
    laneAfter (vbench [(0, 0xC0E00000)] []) (.vcvt (vto 7 0)) 0 = 0xF := by decide +kernel

/-- The sum of the example of 11 R277: 1 and fifteen times 2⁻²⁴ in a tree gives 0x3F800007; in order (`vscan`), 1. -/
theorem test_vector_sums :
    let p := (0, (0x3F800000 : W32)) :: (List.range 15).map (fun i => (i + 1, 0x33800000))
    laneAfter (vbench p []) (.vred (vto 0 15)) 0 = 0x3F800007 ∧ laneAfter (vbench p []) (.vred (vto 0 15)) 1 = 0 ∧
    laneAfter (vbench p []) (.vscan (vto 0 15)) 15 = 0x3F800000 := by decide +kernel

/-- 1 + 2 = 3 and 3 times 0.5 plus 2 = 3.5 in FP32; a division of 1 by 0 is infinite. -/
theorem test_vector_floats :
    laneAfter (vbench [(0, 0x3F800000), (16, 0x40000000)] []) (.vadd (vop 0)) 0 = 0x40400000 ∧
    laneAfter (vbench [(0, 0x40400000), (16, 0x3F000000), (32, 0x40000000)] []) (.vfma { vop 0 with vc := ⟨0, 0, 2⟩ }) 0 = 0x40600000 ∧
    laneAfter (vbench [(0, 0x3F800000)] []) (.vdiv (vop 0)) 0 = 0x7F800000 := by decide +kernel

/-- The image entry of f9 in 17 R406 loads with V cleared, and the `vcvt` into it raises ILLEGAL_FORMAT_ENTRY. -/
theorem test_illegal_image_entry :
    loadedEntry 0x92A303D800000000 = 0x12A303D800000000 ∧
    (let s := vbench [(0, 0x3F800000)] []
     let s := s.setCtl { s.me.ctl with fmt := SMap.set 0 s.me.ctl.fmt 9 (loadedEntry 0x92A303D800000000) }
     (after (exec (.vcvt (vto 9 15)) s)).me.life.fault.map (fun f => (f.code, f.detail)) = some (Code.illegalFormatEntry, 9 + 16)) := by
  decide +kernel

end Sys2Proof.Tests
end

section
namespace Sys2Proof.Machine

/-! # Every step keeps the byte stores canonical (O59)

`Canonical` says what `canonical` checks, as a structure with one field for each kind of byte store. An operation of the state keeps it
either because it writes a store through an operation of `Memory` that keeps `wf`, or because it is put together from operations that do:
so there is one lemma for each operation, in the order of the model's files, and its proof is the way the operation is built.
`exec_canon` collects the instructions and events, and `step_canon` the step. -/

/-- The byte stores of a tile are in canonical form. -/
def TileMem.Canon (m : TileMem) : Prop := canonicalTile m = true

/-- The byte stores of every tile of a map are in canonical form. -/
def TilesCanon (l : SMap Tile) : Prop := ∀ y ∈ l, y.2.mem.Canon

/-- The byte stores of the saved images of every node are in canonical form. -/
def NodesCanon (l : List Node) : Prop := ∀ n ∈ l, TilesCanon n.saves

/-- The byte stores that a peer shows are in canonical form. -/
def PeerCanon (m : SMap Memory) : Prop := ∀ x ∈ m, Memory.wf x.2 = true

/-- The byte stores of every peer are in canonical form. -/
def PeersCanon (l : SMap Peer) : Prop := ∀ x ∈ l, PeerCanon x.2.mem

/-- The byte stores of every partition's saved images are in canonical form. -/
def PartsCanon (l : SMap Part) : Prop := ∀ x ∈ l, NodesCanon x.2.sched.nodes

/-- `canonical` as a proposition, one field per kind of byte store. -/
structure Canonical (s : State) : Prop where
  mem : s.mem.wf = true
  host : s.host.wf = true
  mgmt : s.hub.mgmt.wf = true
  peers : PeersCanon s.peers
  tiles : TilesCanon s.tiles
  parts : PartsCanon s.parts

theorem canonical_iff (s : State) : canonical s = true ↔ Canonical s := by
  simp only [canonical, Bool.and_eq_true, List.all_eq_true]
  exact ⟨fun ⟨⟨⟨⟨⟨a, b⟩, c⟩, d⟩, e⟩, f⟩ => ⟨a, b, c, d, e, f⟩,
    fun h => ⟨⟨⟨⟨⟨h.mem, h.host⟩, h.mgmt⟩, h.peers⟩, h.tiles⟩, h.parts⟩⟩

/-- What an instruction answers is canonical: where it goes on, its next state is. -/
def Out.Canon : Out → Prop
  | .next s => Canonical s
  | _ => True

theorem Out.canon_next {s : State} : Out.Canon (.next s) ↔ Canonical s := Iff.rfl

/-! ## Maps whose values all satisfy a predicate -/

theorem SMap.get_of_forall {α : Type} {P : α → Prop} {d : α} {m : SMap α} (hd : P d) (h : ∀ x ∈ m, P x.2) (k : Nat) :
    P (SMap.get d m k) := by
  induction m with
  | nil => exact hd
  | cons p m ih =>
    obtain ⟨hp, hm⟩ := List.forall_mem_cons.1 h
    obtain ⟨a, v⟩ := p
    simp only [SMap.get]
    split
    · exact hp
    · exact ih hm

theorem SMap.forall_put {α : Type} {P : α → Prop} {m : SMap α} {v : α} (hv : P v) (h : ∀ x ∈ m, P x.2) (k : Nat) :
    ∀ x ∈ SMap.put m k v, P x.2 := by
  induction m with
  | nil => simpa [SMap.put] using hv
  | cons p m ih =>
    obtain ⟨hp, hm⟩ := List.forall_mem_cons.1 h
    obtain ⟨a, w⟩ := p
    simp only [SMap.put]
    split
    · exact List.forall_mem_cons.2 ⟨hv, h⟩
    · split
      · exact List.forall_mem_cons.2 ⟨hv, hm⟩
      · exact List.forall_mem_cons.2 ⟨hp, ih hm⟩

/-! ## The parts of the state -/

theorem TileMem.canon_iff {m : TileMem} :
    m.Canon ↔ m.scratch.wf = true ∧ m.scale.wf = true ∧ m.act.scale.wf = true ∧ m.act.meta_.wf = true ∧ m.shd.scale.wf = true ∧
      m.shd.meta_.wf = true := by
  simp [TileMem.Canon, canonicalTile, and_assoc]

theorem TileMem.canon_empty : ({} : TileMem).Canon := TileMem.canon_iff.2 ⟨rfl, rfl, rfl, rfl, rfl, rfl⟩

theorem Canonical.tile {s : State} (h : Canonical s) (t : Nat) : (s.tile t).mem.Canon :=
  SMap.get_of_forall (P := fun x : Tile => x.mem.Canon) TileMem.canon_empty h.tiles t

theorem Canonical.setTile {s : State} (h : Canonical s) (t : Nat) {x : Tile} (hx : x.mem.Canon) : Canonical (s.setTile t x) :=
  { h with tiles := SMap.forall_put (P := fun x : Tile => x.mem.Canon) hx h.tiles t }

theorem Canonical.part {s : State} (h : Canonical s) (p : Nat) : NodesCanon (s.part p).sched.nodes :=
  SMap.get_of_forall (P := fun x : Part => NodesCanon x.sched.nodes) (by simp [NodesCanon]) h.parts p

theorem Canonical.setPart {s : State} (h : Canonical s) (p : Nat) {x : Part} (hx : NodesCanon x.sched.nodes) :
    Canonical (s.setPart p x) :=
  { h with parts := SMap.forall_put (P := fun x : Part => NodesCanon x.sched.nodes) hx h.parts p }

theorem Canonical.peer {s : State} (h : Canonical s) (m : Nat) : PeerCanon (s.peer m).mem :=
  SMap.get_of_forall (P := fun x : Peer => PeerCanon x.mem) (by simp [PeerCanon]) h.peers m

theorem Canonical.setPeer {s : State} (h : Canonical s) (m : Nat) {x : Peer} (hx : PeerCanon x.mem) : Canonical (s.setPeer m x) :=
  { h with peers := SMap.forall_put (P := fun x : Peer => PeerCanon x.mem) hx h.peers m }

theorem Canonical.writeMem {s : State} (h : Canonical s) (pa : Nat) (l : List Byte) : Canonical (s.writeMem pa l) :=
  { h with mem := State.writeMem_wf s pa l h.mem }

theorem Canonical.mergeRow {s : State} (h : Canonical s) (l : List ByteWrite) : Canonical (s.mergeRow l) :=
  { h with mem := State.mergeRow_wf s l h.mem }

/-- What a translation leaves alone and what it keeps of memory, together. -/
theorem Canonical.of_same {s t : State} (h : Canonical s) (e : SameButMem s t) (w : t.mem.wf = true) : Canonical t where
  mem := w
  host := e.host ▸ h.host
  mgmt := e.hub ▸ h.mgmt
  peers := e.peers ▸ h.peers
  tiles := e.tiles ▸ h.tiles
  parts := e.parts ▸ h.parts

theorem Canonical.translate {s : State} (h : Canonical s) (d part : Nat) (r : Root) (va : Nat) (acc : Access) :
    Canonical (translate s d part r va acc).2 := h.of_same (translate_same ..) (translate_wf _ _ _ _ _ _ h.mem)

theorem Canonical.nodeTranslate {s : State} (h : Canonical s) (d part va : Nat) (acc : Access) :
    Canonical (nodeTranslate s d part va acc).2 := nodeTranslate_state s d part va acc ▸ h.translate ..

theorem Canonical.nodeRead {s : State} (h : Canonical s) (d part va n : Nat) (acc : Access) :
    Canonical (nodeRead s d part va n acc).2 := h.of_same (nodeRead_same ..) (nodeRead_wf _ _ _ _ _ _ h.mem)

theorem Canonical.nodeWrite {s : State} (h : Canonical s) (d part va : Nat) (l : List Byte) :
    Canonical (nodeWrite s d part va l).2 := h.of_same (nodeWrite_same ..) (nodeWrite_wf _ _ _ _ _ h.mem)

/-! ## What composes -/

theorem Canonical.foldl {α : Type} {f : State → α → State} (hf : ∀ s a, Canonical s → Canonical (f s a)) (l : List α) {s : State}
    (h : Canonical s) : Canonical (l.foldl f s) := by
  induction l generalizing s with
  | nil => exact h
  | cons a l ih => exact ih (hf s a h)

theorem Canonical.bind {α β : Type} {r : Res α} (h : Canonical r.2) {f : α → State → Res β}
    (hf : ∀ a s, Canonical s → Canonical (f a s).2) : Canonical (r.bind f).2 := by
  obtain ⟨_ | a, s⟩ := r
  · exact h
  · exact hf a s h

theorem Canonical.res_stop {s : State} (h : Canonical s) {α : Type} (f : FaultRec) : Canonical (Res.stop (α := α) f s).2 := h
theorem Canonical.res_ok {s : State} (h : Canonical s) {α : Type} (a : α) : Canonical (Res.ok a s).2 := h

theorem Canonical.ite_res {α : Type} {c : Prop} [Decidable c] {r r' : Res α} (h : Canonical r.2) (h' : Canonical r'.2) :
    Canonical (if c then r else r').2 := by
  split <;> assumption

theorem Canonical.foldl_mem {α : Type} {f : State → α → State} {l : List α} (hf : ∀ s a, a ∈ l → Canonical s → Canonical (f s a))
    {s : State} (h : Canonical s) : Canonical (l.foldl f s) := by
  induction l generalizing s with
  | nil => exact h
  | cons a l ih => exact ih (fun s b hb => hf s b (by simp [hb])) (hf s a (by simp) h)

theorem Memory.wf_foldl {α : Type} {f : Memory → α → Memory} (hf : ∀ m a, m.wf = true → (f m a).wf = true) (l : List α)
    {m : Memory} (h : m.wf = true) : (l.foldl f m).wf = true := by
  induction l generalizing m with
  | nil => exact h
  | cons a l ih => exact ih (hf m a h)

theorem TileMem.canon_foldl {α : Type} {f : TileMem → α → TileMem} (hf : ∀ m a, m.Canon → (f m a).Canon) (l : List α)
    {m : TileMem} (h : m.Canon) : (l.foldl f m).Canon := by
  induction l generalizing m with
  | nil => exact h
  | cons a l ih => exact ih (hf m a h)

theorem mergeBytes_wf {m : Memory} (h : m.wf = true) (a : Nat) (l : List (Byte × Byte)) : (mergeBytes m a l).wf = true := by
  induction l generalizing m a with
  | nil => exact h
  | cons x l ih => exact ih (Memory.wf_setByte h) _

theorem TilesCanon.nil : TilesCanon [] := by simp [TilesCanon]

theorem TilesCanon.get {m : SMap Tile} (h : TilesCanon m) (k : Nat) : (SMap.get {} m k).mem.Canon :=
  SMap.get_of_forall (P := fun x : Tile => x.mem.Canon) TileMem.canon_empty h k

theorem TilesCanon.put {m : SMap Tile} (h : TilesCanon m) (k : Nat) {x : Tile} (hx : x.mem.Canon) : TilesCanon (SMap.put m k x) :=
  SMap.forall_put (P := fun x : Tile => x.mem.Canon) hx h k

theorem TilesCanon.map {m : SMap Tile} (h : TilesCanon m) {f : Nat × Tile → Nat × Tile}
    (hf : ∀ x, x.2.mem.Canon → (f x).2.mem.Canon) : TilesCanon (m.map f) := by
  intro y hy
  obtain ⟨x, hx, rfl⟩ := List.mem_map.1 hy
  exact hf x (h x hx)

theorem NodesCanon.filter {l : List Node} (h : NodesCanon l) (f : Node → Bool) : NodesCanon (l.filter f) :=
  fun n hn => h n (List.mem_of_mem_filter hn)

theorem NodesCanon.map {l : List Node} (h : NodesCanon l) {f : Node → Node}
    (hf : ∀ n, TilesCanon n.saves → TilesCanon (f n).saves) : NodesCanon (l.map f) := by
  intro n hn
  obtain ⟨m, hm, rfl⟩ := List.mem_map.1 hn
  exact hf m (h m hm)

theorem NodesCanon.append_one {l : List Node} (h : NodesCanon l) {n : Node} (hn : TilesCanon n.saves) :
    NodesCanon (l ++ [n]) := by
  intro m hm
  rcases List.mem_append.1 hm with hm | hm
  · exact h m hm
  · exact List.mem_singleton.1 hm ▸ hn

theorem Canonical.farMem {s : State} (h : Canonical s) (part m : Nat) : (s.farMem part m).wf = true :=
  SMap.get_of_forall (P := fun x : Memory => x.wf = true) rfl (h.peer m) _

theorem Canonical.of_eq {α : Type} {r : α × State} {a : α} {t : State} (e : r = (a, t)) (h : Canonical r.2) : Canonical t := by
  rw [e] at h; exact h

theorem Canonical.ite {c : Prop} [Decidable c] {s t : State} (hs : Canonical s) (ht : Canonical t) :
    Canonical (if c then s else t) := by
  split
  · exact hs
  · exact ht

/-- `Canonical.of_eq` for a result of three parts. -/
theorem Canonical.of_eq₂ {α β : Type} {r : α × β × State} {a : α} {b : β} {t : State} (e : r = (a, b, t)) (h : Canonical r.2.2) :
    Canonical t := by
  rw [e] at h; exact h

theorem Tile.canon_setCore {x : Tile} (h : x.mem.Canon) (c : CoreId) (k : Core) : (x.setCore c k).mem.Canon :=
  (Tile.setCore_mem ..).symm ▸ h

theorem Tile.canon_setEng {x : Tile} (h : x.mem.Canon) (e : Engine) (k : Eng) : (x.setEng e k).mem.Canon :=
  (Tile.setEng_mem ..).symm ▸ h

/-! ## The operations of the state -/

theorem Tile.canon_me {s : State} (h : Canonical s) : s.me.mem.Canon := h.tile _

theorem Canonical.setMe {s : State} (h : Canonical s) {x : Tile} (hx : x.mem.Canon) : Canonical (s.setMe x) := h.setTile _ hx

theorem Canonical.setCore {s : State} (h : Canonical s) (k : Core) : Canonical (s.setCore k) :=
  h.setMe (Tile.canon_setCore (Tile.canon_me h) ..)

theorem Canonical.setCoreAt {s : State} (h : Canonical s) (t : Nat) (c : CoreId) (k : Core) : Canonical (s.setCoreAt t c k) :=
  h.setTile _ (Tile.canon_setCore (h.tile _) ..)

theorem Canonical.setEngAt {s : State} (h : Canonical s) (t : Nat) (e : Engine) (k : Eng) : Canonical (s.setEngAt t e k) :=
  h.setTile _ (Tile.canon_setEng (h.tile _) ..)

theorem Canonical.setDie {s : State} (h : Canonical s) (d : Nat) (x : Die) : Canonical (s.setDie d x) := { h with }

theorem Canonical.draw {s : State} (h : Canonical s) : Canonical s.draw := { h with }

theorem Canonical.setG {s : State} (h : Canonical s) (r : Reg) (v : Word) : Canonical (s.setG r v) := h.setCore _

theorem Canonical.skip {s : State} (h : Canonical s) (n : Nat) : Canonical (s.skip n) := h.setCore _

theorem Tile.canon_drainCores {x : Tile} (hx : x.mem.Canon) : x.drainCores.mem.Canon := hx

theorem Tile.canon_takeFault {x : Tile} (hx : x.mem.Canon) (f : FaultRec) : (x.takeFault f).mem.Canon := Tile.canon_drainCores hx

theorem Tile.canon_unrecord {x : Tile} (hx : x.mem.Canon) : x.unrecord.mem.Canon := hx

theorem Tile.canon_settle {x : Tile} (hx : x.mem.Canon) (t now : Nat) (f : FaultRec) : (x.settle t now f).mem.Canon := by
  unfold Tile.settle
  split
  · exact Tile.canon_unrecord hx
  · exact hx

theorem Canonical.takeFault {s : State} (h : Canonical s) (t : Nat) (f : FaultRec) : Canonical (s.takeFault t f) :=
  h.setTile _ (Tile.canon_takeFault (Tile.canon_settle (h.tile _) ..) _)

theorem Canonical.coreTakes {s : State} (h : Canonical s) (f : FaultRec) : Canonical (s.coreTakes f) := (h.setCore _).takeFault ..

theorem Canonical.fault {s : State} (h : Canonical s) (code detail : Nat) : Canonical (s.fault code detail) := h.coreTakes _

theorem Canonical.faultA {s : State} (h : Canonical s) (access code detail : Nat) : Canonical (s.faultA access code detail) :=
  h.coreTakes _

theorem Canonical.faultRec {s : State} (h : Canonical s) (f : FaultRec) : Canonical (s.faultRec f) := h.coreTakes _

theorem Canonical.illegal {s : State} (h : Canonical s) (i : Instr) : Canonical (s.illegal i) := h.fault ..

theorem Canonical.countUe {s : State} (h : Canonical s) (t : Nat) : Canonical (s.countUe t) := h.setTile _ (h.tile _)

theorem Canonical.countCes {s : State} (h : Canonical s) (t n : Nat) : Canonical (s.countCes t n) :=
  h.ite (h.setTile _ (h.tile _))

theorem Canonical.noteG {s : State} (h : Canonical s) (rs : List Reg) : Canonical (s.noteG rs) := by
  unfold State.noteG
  split
  · exact h
  · exact (h.setCore _).countCes ..

theorem Canonical.badSource {s : State} (h : Canonical s) (w : Nat) : Canonical (s.badSource w) := (h.countUe _).fault ..

theorem Canonical.withSources {s : State} {f : State → State} (h : Canonical s) (hf : ∀ s, Canonical s → Canonical (f s))
    (rs : List Reg) : Out.Canon (withSources rs s f) := by
  unfold Machine.withSources
  dsimp only
  split
  · exact (h.noteG _).badSource _
  · exact hf _ (h.noteG _)

theorem Canonical.writeResult {s : State} (h : Canonical s) (rs : List Reg) (gd : Reg) (n : Nat) (v : State → Word) :
    Out.Canon (writeResult rs gd n v s) := h.withSources (fun _ h => (h.setG ..).skip _) _

theorem Canonical.block {s : State} (h : Canonical s) (w : Wait) : Canonical (s.block w) := h.setCore _

theorem Canonical.unblock {s : State} (h : Canonical s) : Canonical s.unblock := h.block _

theorem Tile.canon_resume {x : Tile} (hx : x.mem.Canon) (now : Nat) : (x.resume now).mem.Canon := hx

theorem TileMem.Canon.writeScratch {m : TileMem} (h : m.Canon) (off : Nat) (l : List Byte) : (m.writeScratch off l).Canon := by
  obtain ⟨hs, hrest⟩ := TileMem.canon_iff.1 h
  exact TileMem.canon_iff.2 ⟨writeKeeping_wf _ _ _ hs, hrest⟩

theorem Canonical.writeScratch {s : State} (h : Canonical s) (t off : Nat) (l : List Byte) : Canonical (s.writeScratch t off l) :=
  h.setTile _ (TileMem.Canon.writeScratch (h.tile _) ..)

theorem Tile.canon_foundWord {x : Tile} (hx : x.mem.Canon) (w : Nat) : (x.foundWord w).mem.Canon := hx

theorem Tile.canon_foldl_foundWord (l : List Nat) {x : Tile} (hx : x.mem.Canon) : (l.foldl Tile.foundWord x).mem.Canon := by
  induction l generalizing x with
  | nil => exact hx
  | cons w l ih => exact ih (Tile.canon_foundWord hx w)

theorem Canonical.noteRead {s : State} (h : Canonical s) (t off n : Nat) : Canonical (s.noteRead t off n) := by
  unfold State.noteRead
  dsimp only
  split
  · exact h
  · exact h.ite (h.setTile _ (Tile.canon_foldl_foundWord _ (h.tile _)))

/-! ## Translation -/

theorem Canonical.markLeaf {s : State} (h : Canonical s) (d : Nat) (acc : Access) (pa : Nat) : Canonical (s.markLeaf d acc pa) :=
  h.writeMem ..

/-! ## Firmware and page tables -/

theorem Canonical.takeFrame {s t : State} (h : Canonical s) {part n fr : Nat} (e : takeFrame s part n = some (fr, t)) :
    Canonical t := by
  have hp : ∀ l, Canonical (s.setPart part { s.part part with dataFrames := l }) := fun l => h.setPart part (h.part part)
  unfold Machine.takeFrame at e
  dsimp only at e
  split at e
  · cases e
    exact { h with mem := Memory.wf_zero h.mem, parts := (hp _).parts }
  · cases e

theorem Canonical.takeTable {s t : State} (h : Canonical s) {part n fr : Nat} (e : takeTable s part n = some (fr, t)) :
    Canonical t := by
  have hp : ∀ l, Canonical (s.setPart part { s.part part with tableFrames := l }) := fun l => h.setPart part (h.part part)
  unfold Machine.takeTable at e
  dsimp only at e
  split at e
  · cases e
    exact { h with mem := Memory.wf_zero h.mem, parts := (hp _).parts }
  · cases e

theorem Canonical.reachEntry {s t : State} (h : Canonical s) {part va want lvl table pa : Nat}
    (e : Machine.reachEntry s part va want lvl table = some (pa, t)) : Canonical t := by
  induction lvl generalizing s table with
  | zero => grind [Machine.reachEntry]
  | succ l ih =>
    unfold Machine.reachEntry at e
    dsimp only at e
    split at e
    · cases e; exact h
    split at e
    · split at e
      · cases e
      · exact ih h e
    · split at e
      · rename_i e1; exact ih (Canonical.writeMem (h.takeTable e1) ..) e
      · cases e

theorem Canonical.writeEntry {s : State} (h : Canonical s) (pa e : Nat) : Canonical (s.writeEntry pa e) := h.writeMem ..

theorem Canonical.writeLeaves {s : State} (h : Canonical s) (pa frame size : Nat) (rd w x : Bool) :
    Canonical (writeLeaves s pa frame size rd w x) := (Canonical.foldl (fun _ _ h => h.writeEntry ..) _ h).ite (h.writeEntry ..)

theorem Canonical.mapExportTable {s : State} (h : Canonical s) (table a b : Nat) (f : Nat → Nat) :
    Canonical (mapExportTable s table a b f) := Canonical.foldl (fun _ _ h => (h.writeEntry ..).ite h) _ h

theorem Canonical.mapExports {s : State} (h : Canonical s) (part a b : Nat) (f : Nat → Nat) :
    Canonical (mapExports s part a b f) := by
  unfold Machine.mapExports
  split
  · exact h
  · exact Canonical.foldl (fun _ _ h => h.mapExportTable ..) _ h

theorem Canonical.complete {s t : State} (h : Canonical s) {part va : Nat} (e : complete s part va = some t) : Canonical t := by
  unfold Machine.complete at e
  dsimp only at e
  split at e
  · cases e
  split at e
  · split at e
    · rename_i ef
      cases e
      exact (h.takeFrame ef).writeLeaves ..
    · cases e
  split at e
  · split at e
    · rename_i ef
      cases e
      exact ((h.takeFrame ef).writeLeaves ..).mapExports ..
    · cases e
  · split at e
    · cases e; exact h
    · cases e

theorem Canonical.hubTranslate {s : State} (h : Canonical s) (d part va : Nat) (acc : Access) :
    Canonical (hubTranslate s d part va acc).2 := by
  have ht := h.translate d part .own va acc
  unfold Machine.hubTranslate
  split
  · rename_i e
    have hu := Canonical.of_eq e ht
    split
    · exact hu
    · split
      · rename_i ec; exact (hu.complete ec).translate ..
      · exact hu
  · exact ht

theorem Canonical.hubReadPage {s : State} (h : Canonical s) (d part va n : Nat) : Canonical (hubReadPage s d part va n).2 := by
  unfold Machine.hubReadPage
  split
  · rename_i e
    have hu := Canonical.of_eq e (h.hubTranslate ..)
    split
    · exact hu
    split
    · exact hu
    · exact hu
  · rename_i e
    exact Canonical.of_eq e (h.hubTranslate ..)
  rename_i e
  exact Canonical.of_eq e (h.hubTranslate ..)

theorem Canonical.hubRead {s : State} (h : Canonical s) (d part fuel va n : Nat) : Canonical (hubRead s d part fuel va n).2 := by
  fun_induction Machine.hubRead s d part fuel va n <;> grind [Canonical.hubReadPage]

theorem Canonical.hubWritePage {s : State} (h : Canonical s) (d part va : Nat) (l : List Byte) :
    Canonical (hubWritePage s d part va l).2 := by
  unfold Machine.hubWritePage
  split
  · rename_i e
    have hu := Canonical.of_eq e (h.hubTranslate ..)
    split
    · exact hu
    · exact hu.writeMem ..
  · rename_i e
    exact Canonical.of_eq e (h.hubTranslate ..)
  rename_i e
  exact Canonical.of_eq e (h.hubTranslate ..)

theorem Canonical.hubWrite {s : State} (h : Canonical s) (d part fuel va : Nat) (l : List Byte) :
    Canonical (hubWrite s d part fuel va l).2 := by
  fun_induction Machine.hubWrite s d part fuel va l <;> grind [Canonical.hubWritePage]

/-! ## The host link -/

theorem Canonical.refuse {s : State} (h : Canonical s) : Canonical s.refuse := { h with }

theorem Canonical.hostRead {s : State} (h : Canonical s) (src addr n : Nat) : Canonical (s.hostRead src addr n).2.2 := by
  unfold State.hostRead
  split
  · exact h
  · exact h.refuse

theorem Canonical.hostWrite {s : State} (h : Canonical s) (src addr : Nat) (l : List Byte) :
    Canonical (s.hostWrite src addr l).2 := by
  unfold State.hostWrite
  split
  · exact { h with host := Memory.wf_setBytes h.host }
  · exact h.refuse

theorem Canonical.setEvRing {s : State} (h : Canonical s) (o : Option Nat) (r : EvRing) : Canonical (s.setEvRing o r) := by
  cases o with
  | none => exact { h with }
  | some p => exact h.setPart p (h.part p)

theorem Canonical.holdEvent {s : State} (h : Canonical s) (o : Option Nat) (e : Event) : Canonical (s.holdEvent o e) :=
  (h.setEvRing ..).ite (h.setEvRing ..)

theorem Canonical.writeEvent {s : State} (h : Canonical s) (o : Option Nat) (e : Event) : Canonical (s.writeEvent o e) := by
  unfold State.writeEvent
  dsimp only
  split
  · rename_i e1
    exact (Canonical.of_eq e1 (h.hostWrite ..)).setEvRing ..
  rename_i e1
  exact ((Canonical.of_eq e1 (h.hostWrite ..)).setEvRing ..).holdEvent ..

theorem Canonical.drainEvents {s : State} (h : Canonical s) (o : Option Nat) (fuel : Nat) : Canonical (s.drainEvents o fuel) := by
  fun_induction State.drainEvents s o fuel <;> grind [Canonical.writeEvent, Canonical.setEvRing]

theorem Canonical.post {s : State} (h : Canonical s) (o : Option Nat) (e : Event) : Canonical (s.post o e) :=
  (h.holdEvent ..).drainEvents ..

theorem Canonical.postNoGrant {s : State} (h : Canonical s) (o : Option Nat) (addr : Nat) : Canonical (s.postNoGrant o addr) :=
  h.post ..

theorem Part.pubByte_sched (p : Part) (a : Nat) (v : Byte) : (p.pubByte a v).sched = p.sched := by
  unfold Part.pubByte
  split <;> rfl

theorem Part.pubBytes_sched (p : Part) (a : Nat) (l : List Byte) : (p.pubBytes a l).sched = p.sched := by
  fun_induction Part.pubBytes p a l <;> grind [Part.pubByte_sched]

theorem Canonical.drainGranule {s : State} (h : Canonical s) (part : Nat) (g : Granule) : Canonical (s.drainGranule part g) := by
  unfold State.drainGranule
  split
  · refine { h with host := Memory.wf_foldl (fun m i hm => ?_) _ h.host }
    split
    · exact Memory.wf_setByte hm
    · exact hm
  · exact h.refuse.postNoGrant ..

theorem Canonical.publishDrain {s : State} (h : Canonical s) (part : Nat) : Canonical (s.publishDrain part) := by
  unfold State.publishDrain
  extract_lets gs s1 p v s2
  have h1 : Canonical s1 := Canonical.foldl (fun _ _ h => h.drainGranule ..) _ h
  have h2 : Canonical s2 := h1.setPart _ (h1.part part)
  split
  · exact h2
  · split
    · rename_i e; exact Canonical.of_eq e (h2.hostWrite ..)
    · rename_i e; exact (Canonical.of_eq e (h2.hostWrite ..)).postNoGrant ..

/-! ## Module memory -/

theorem Canonical.stopCore {s : State} (h : Canonical s) (e : Stop) : Canonical (s.stopCore e) := (h.block _).ite (h.faultRec _)

theorem Canonical.run {α : Type} {r : Res α} (h : Canonical r.2) {k : α → State → State}
    (hk : ∀ a s, Canonical s → Canonical (k a s)) : (r.run k).Canon := by
  obtain ⟨e | a, s⟩ := r
  · exact Canonical.stopCore h e
  · exact hk a s h

/-- A result whose value is a state: both are canonical. -/
def ResCanon (r : Res State) : Prop := Canonical r.2 ∧ ∀ t, r.1 = .ok t → Canonical t

theorem ResCanon.ok {s t : State} (hs : Canonical s) (ht : Canonical t) : ResCanon (.ok t, s) :=
  ⟨hs, fun _ e => by cases e; exact ht⟩

theorem ResCanon.stop {s : State} (hs : Canonical s) (f : FaultRec) : ResCanon (Res.stop f s) := ⟨hs, fun _ e => nomatch e⟩

theorem ResCanon.bind {α : Type} {r : Res α} (h : Canonical r.2) {f : α → State → Res State}
    (hf : ∀ a s, Canonical s → ResCanon (f a s)) : ResCanon (r.bind f) := by
  obtain ⟨e | a, s⟩ := r
  · exact ⟨h, fun _ e => nomatch e⟩
  · exact hf a s h

theorem ResCanon.run {r : Res State} (h : ResCanon r) : (r.run fun t _ => t).Canon := by
  obtain ⟨e | a, s⟩ := r
  · exact Canonical.stopCore h.1 e
  · exact h.2 _ rfl

/-! ## Operands -/

theorem Canonical.readLayout {s : State} (h : Canonical s) (t : Nat) (fmt : SMap Word) (n pc : Nat) :
    Canonical (readLayout s t fmt n pc).2 := by
  unfold Machine.readLayout
  dsimp only
  split
  · rename_i e
    exact Canonical.of_eq e (h.nodeRead ..)
  rename_i e
  have hu := Canonical.of_eq e (h.nodeRead ..)
  split
  · exact hu.res_stop _
  · exact hu

theorem Canonical.tensorOperand {s : State} (h : Canonical s) (n : Nat) (ga : Reg) (access : Nat) :
    Canonical (tensorOperand s n ga access).2 := by
  unfold Machine.tensorOperand
  refine (h.readLayout ..).bind fun a s h => ?_
  split
  · exact h.res_stop _
  dsimp only
  split
  · exact ((h.noteG _).countUe _).res_stop _
  · exact h.noteG _

theorem Canonical.tensorAddr {s : State} (h : Canonical s) (n : Nat) (ga : Reg) (w access : Nat) :
    Canonical (tensorAddr s n ga w access).2 := by
  unfold Machine.tensorAddr
  refine (h.tensorOperand ..).bind fun a s h => ?_
  split
  · exact h
  · exact h.res_stop _
  · exact (h.res_stop _).ite_res h

theorem Canonical.resolveWord {s : State} (h : Canonical s) (ref : Word) (access : Nat) :
    Canonical (resolveWord s ref access).2 := by
  unfold Machine.resolveWord
  refine (h.readLayout ..).bind fun a s h => ?_
  refine (h.res_stop _).ite_res ?_
  split
  · exact (h.res_stop _).ite_res h
  · exact h.res_stop _

/-! ## Loads, stores and atomics -/

theorem Canonical.performRemote {s : State} (h : Canonical s) (r : RemoteStore) : Canonical (s.performRemote r) :=
  h.writeScratch ..

theorem Canonical.flushRemote {s : State} (h : Canonical s) (t : Nat) (c : CoreId) : Canonical (s.flushRemote t c) :=
  h.ite (Canonical.foldl (fun _ _ h => h.performRemote _) _ (h.setCoreAt ..))

theorem Canonical.flushMine {s : State} (h : Canonical s) : Canonical s.flushMine := h.flushRemote ..

theorem Canonical.beforeWrite {s : State} (h : Canonical s) (m : Modifier) : Canonical (s.beforeWrite m) := h.flushMine.ite h

theorem Canonical.beforePlainWrite {s : State} (h : Canonical s) : Canonical s.beforePlainWrite := h.flushMine.ite h

theorem Canonical.loadScratch {s : State} (h : Canonical s) (len t off n : Nat) (sx : Bool) (gd : Reg) :
    Canonical (loadScratch len t off n sx gd s) := by
  unfold Machine.loadScratch
  dsimp only
  split
  · exact (h.noteRead ..).faultA ..
  · exact ((h.noteRead ..).setG ..).skip _

theorem Canonical.storeScratch {s : State} (h : Canonical s) (len off : Nat) (l : List Byte) :
    Canonical (storeScratch len off l s) := by
  unfold Machine.storeScratch
  split
  · exact h.faultA ..
  · exact (h.writeScratch ..).skip _

theorem Canonical.doLd {s : State} (h : Canonical s) (_m : Modifier) (len : Nat) (sz : Size) (sx : Bool) (gd ga : Reg)
    (disp : BitVec 13) : Out.Canon (doLd _m len sz sx gd ga disp s) := by
  unfold Machine.doLd
  refine h.withSources (fun s h => ?_) _
  dsimp only
  split
  · exact h.faultA ..
  · exact h.loadScratch ..

theorem Canonical.doSt {s : State} (h : Canonical s) (m : Modifier) (len : Nat) (sz : Size) (gd ga : Reg) (disp : BitVec 13) :
    Out.Canon (doSt m len sz gd ga disp s) := by
  unfold Machine.doSt
  refine h.withSources (fun s h => ?_) _
  dsimp only
  split
  · exact h.faultA ..
  · exact (h.beforeWrite _).storeScratch ..

theorem Canonical.doLdx {s : State} (h : Canonical s) (_m : Modifier) (len : Nat) (sz : Size) (sx : Bool) (gd ga : Reg)
    (disp : BitVec 13) : Out.Canon (doLdx _m len sz sx gd ga disp s) := by
  unfold Machine.doLdx
  refine h.withSources (fun s h => ?_) _
  split
  · exact h.faultA ..
  · exact h.flushMine.loadScratch ..

theorem Canonical.doStx {s : State} (h : Canonical s) (m : Modifier) (len : Nat) (sz : Size) (gd ga : Reg) (disp : BitVec 13) :
    Out.Canon (doStx m len sz gd ga disp s) := by
  unfold Machine.doStx
  refine h.withSources (fun s h => ?_) _
  split
  · exact h.faultA ..
  split
  · exact (h.beforeWrite _).storeScratch ..
  split
  · exact h.faultA ..
  · exact ((h.beforeWrite _).setCore _).skip _

theorem Canonical.fabricAccess {s : State} (h : Canonical s) (len access m off : Nat) (what : Remote) (release : Bool) :
    Canonical (fabricAccess len access m off what s release) := (h.block _).ite (h.faultA ..)

theorem Canonical.windowFault {s : State} (h : Canonical s) (access code det off : Nat) :
    Canonical (s.windowFault access code det off) := h.faultRec _

theorem Canonical.windowRead {s : State} (h : Canonical s) (len off n : Nat) (sx : Bool) (gd : Reg) :
    Canonical (windowRead len off n sx gd s) := by
  unfold Machine.windowRead
  split
  · exact h.windowFault ..
  · exact ((h.setG ..).skip _).ite (h.block _)

theorem Canonical.windowWrite {s : State} (h : Canonical s) (len off : Nat) (l : List Byte) :
    Canonical (windowWrite len off l s) := by
  have hp : ∀ a, Canonical (s.setPart s.myPart ((s.part s.myPart).pubBytes a l)) := fun a =>
    h.setPart _ (by rw [Part.pubBytes_sched]; exact h.part _)
  unfold Machine.windowWrite
  split
  · exact h.windowFault ..
  · split
    · exact h.block _
    · exact (hp _).skip len

theorem Canonical.doLdt {s : State} (h : Canonical s) (m : Modifier) (len : Nat) (sz : Size) (sx : Bool) (gd ga : Reg)
    (desc : BitVec 12) : Out.Canon (doLdt m len sz sx gd ga desc s) := by
  refine ResCanon.run (.bind (h.tensorAddr ..) fun da s h => ?_)
  split
  · exact .ok h ((h.setG ..).skip len)
  split
  · exact .bind (h.nodeRead ..) fun _ _ h => .ok h ((h.setG ..).skip len)
  · exact .ok h (h.windowRead ..)
  · exact .ok h (h.fabricAccess ..)

theorem Canonical.doStt {s : State} (h : Canonical s) (m : Modifier) (len : Nat) (sz : Size) (gd ga : Reg) (desc : BitVec 12) :
    Out.Canon (doStt m len sz gd ga desc s) := by
  have h := h.noteG [gd]
  unfold Machine.doStt
  dsimp only
  split
  · exact h.badSource _
  refine ResCanon.run (.bind (h.tensorAddr ..) fun da s h => ?_)
  split
  · exact .ok h (h.skip len)
  split
  · exact .bind ((h.beforeWrite m).nodeWrite ..) fun _ _ h => .ok h (h.skip len)
  · exact .ok h ((h.beforeWrite m).windowWrite ..)
  · exact .ok h ((h.beforeWrite m).fabricAccess ..)

theorem Canonical.logDset {s : State} (h : Canonical s) (part va : Nat) (old : List Byte) :
    Canonical (s.logDset part va old) := by
  unfold State.logDset
  split
  · exact { h with }
  · exact h

theorem Canonical.doDset {s : State} (h : Canonical s) (m : Modifier) (len : Nat) (ga : Reg) (desc : BitVec 12) :
    Out.Canon (doDset m len ga desc s) := by
  unfold Machine.doDset
  refine h.withSources (fun s h => ?_) _
  dsimp only
  split
  · exact h.faultA ..
  split
  · exact (h.noteRead ..).faultA ..
  split
  · rename_i e
    exact (Canonical.of_eq e (((h.noteRead ..).beforeWrite _).nodeTranslate ..)).stopCore _
  · rename_i e
    exact (Canonical.of_eq e (((h.noteRead ..).beforeWrite _).nodeTranslate ..)).skip _
  rename_i e
  exact (((Canonical.of_eq e (((h.noteRead ..).beforeWrite _).nodeTranslate ..)).logDset ..).writeMem ..).skip _

theorem Canonical.doDget {s : State} (h : Canonical s) (m : Modifier) (len : Nat) (ga : Reg) (desc : BitVec 12) :
    Out.Canon (doDget m len ga desc s) := by
  unfold Machine.doDget
  refine h.withSources (fun s h => ?_) _
  split
  · rename_i e
    dsimp only
    split
    · exact h.faultA ..
    · exact (Canonical.of_eq e (h.nodeRead ..)).stopCore _
  rename_i e
  dsimp only
  split
  · exact h.faultA ..
  · exact ((Canonical.of_eq e (h.nodeRead ..)).beforeWrite _).storeScratch ..

theorem Canonical.probePages {s : State} (h : Canonical s) (die part : Nat) (acc : Access) (last : Option Nat) (l : List Nat) :
    Canonical (probePages s die part acc last l).2 := by
  fun_induction Machine.probePages s die part acc last l with
  | case1 => exact h
  | case2 _ _ _ ih => exact ih h
  | case3 _ _ _ _ _ ih => exact (h.nodeTranslate ..).bind fun _ s hs => ih s hs

theorem Canonical.probeRun {s : State} (h : Canonical s) (d : Layout) (f n : Nat) (acc : Access) (outer : List Int) (fuel : Nat)
    (c : Int) (last : Option Nat) : Canonical (probeRun s d f n acc outer fuel c last).2 := by
  fun_induction Machine.probeRun s d f n acc outer fuel c last <;> grind [Canonical.probePages, Canonical.res_stop]

theorem Canonical.execProbe {s : State} (h : Canonical s) (write : Bool) (gd ga : Reg) (desc : BitVec 12) :
    Out.Canon (execProbe write gd ga desc s) := by
  unfold Machine.execProbe
  split
  · dsimp only
    split
    · exact (h.noteG _).badSource _
    · exact (((h.noteG _).tensorOperand ..).bind (fun _ _ h => h.ite_res (h.probeRun ..))).run (fun _ _ h => h.skip _)
  dsimp only
  split
  · exact (h.noteG _).badSource _
  · exact (((h.noteG _).tensorOperand ..).bind (fun _ _ h => h.ite_res (h.probeRun ..))).run (fun _ _ h => h.skip _)

theorem Canonical.beforeAtom {s : State} (h : Canonical s) (m : Modifier) (op : Aop) (n old : Nat) (gd gb : Reg) :
    Canonical (s.beforeAtom m op n old gd gb) := (h.beforeWrite _).ite h

theorem Canonical.atomAt {s : State} (h : Canonical s) (op : Aop) (len t off n : Nat) (gd gb : Reg) :
    Canonical (atomAt op len t off n gd gb s) := by
  unfold Machine.atomAt
  dsimp only
  split
  · exact (h.noteRead ..).faultA ..
  refine (Canonical.setG ?_ ..).skip _
  split
  · exact (h.noteRead ..).writeScratch ..
  · exact h.noteRead ..

theorem Canonical.doAtom {s : State} (h : Canonical s) (m : Modifier) (len : Nat) (op : Aop) (wide : Bool) (gd ga gb : Reg) :
    Out.Canon (doAtom m len op wide gd ga gb s) := by
  unfold Machine.doAtom
  refine h.withSources (fun s h => ?_) _
  dsimp only
  split
  · exact h.faultA ..
  · exact (h.beforeAtom ..).atomAt ..

theorem Canonical.doAtomRemote {s : State} (h : Canonical s) (_m : Modifier) (len : Nat) (op : Aop) (wide : Bool)
    (gd ga gb : Reg) : Out.Canon (doAtomRemote _m len op wide gd ga gb s) := by
  unfold Machine.doAtomRemote
  refine h.withSources (fun s h => ?_) _
  split
  · exact h.faultA ..
  · exact h.flushMine.atomAt ..

theorem Canonical.atomMem {s : State} (h : Canonical s) (m : Modifier) (op : Aop) (n va : Nat) (gd gb : Reg) :
    Canonical (atomMem m op n va gd gb s).2 := by
  unfold Machine.atomMem
  refine (h.nodeTranslate ..).bind fun a s h => ?_
  split
  · exact h
  split
  · exact h.res_stop _
  dsimp only
  split
  · exact (h.beforeWrite _).writeMem ..
  · exact h

theorem Canonical.doAtomTensor {s : State} (h : Canonical s) (m : Modifier) (len : Nat) (op : Aop) (wide : Bool) (gd ga gb : Reg)
    (desc : BitVec 7) : Out.Canon (doAtomTensor m len op wide gd ga gb desc s) := by
  have h := h.noteG (atomSources op gd gb)
  unfold Machine.doAtomTensor
  dsimp only
  split
  · exact h.badSource _
  refine ResCanon.run (.bind (h.tensorAddr ..) fun da s h => ?_)
  split
  · exact .stop h _
  split
  · exact .bind (h.atomMem ..) fun _ _ h => .ok h ((h.setG ..).skip len)
  · exact .stop h _
  · exact .ok h (Canonical.fabricAccess h ..)

theorem Canonical.execFence {s : State} (h : Canonical s) (scope : Scope) : Out.Canon (execFence scope s) :=
  (h.flushMine.setCore _).skip _

/-! ## Far memory -/

theorem Canonical.completeExport {s t' : State} (h : Canonical s) {part off : Nat}
    (e : Machine.completeExport s part off = some t') : Canonical t' := by
  unfold Machine.completeExport at e
  split at e
  · obtain ⟨va, -, e⟩ := Option.bind_eq_some_iff.1 e
    exact h.complete e
  · cases e

theorem Canonical.exportWalk {s : State} (h : Canonical s) (d part off : Nat) (acc : Access) :
    Canonical (exportWalk s d part off acc).2 := by
  unfold Machine.exportWalk
  split
  · rename_i e
    exact Canonical.of_eq e (h.translate ..)
  · rename_i e
    exact Canonical.of_eq e (h.translate ..)
  rename_i e
  exact Canonical.of_eq e (h.translate ..)

theorem Canonical.exportTranslate {s : State} (h : Canonical s) (d part off : Nat) (acc : Access) :
    Canonical (exportTranslate s d part off acc).2 := by
  have hw := h.exportWalk d part off acc
  unfold Machine.exportTranslate
  split
  · rename_i e
    have hu := Canonical.of_eq e hw
    split
    · split
      · rename_i ec; exact (hu.completeExport ec).exportWalk ..
      · exact hu
    · exact hu
  · exact hw

theorem Canonical.exportByte {s : State} (h : Canonical s) (d part off : Nat) : Canonical (exportByte s d part off).2 := by
  unfold Machine.exportByte
  split
  · rename_i e
    have hu := Canonical.of_eq e (h.exportTranslate ..)
    split
    · exact hu
    · exact hu
  · rename_i e
    exact Canonical.of_eq e (h.exportTranslate ..)
  rename_i e
  exact Canonical.of_eq e (h.exportTranslate ..)

theorem Canonical.exportRead {s : State} (h : Canonical s) (d part off n : Nat) : Canonical (exportRead s d part off n).2 := by
  fun_induction Machine.exportRead s d part off n <;> grind [Canonical.exportByte]

theorem Canonical.exportPlaces {s : State} (h : Canonical s) (d part off : Nat) (acc : Access) (n : Nat) :
    Canonical (exportPlaces s d part off acc n).2 := by
  fun_induction Machine.exportPlaces s d part off acc n <;> grind [Canonical.exportTranslate]

theorem Canonical.mergeAt {s : State} (h : Canonical s) (as : List Nat) (l : List (Byte × Byte)) : Canonical (s.mergeAt as l) :=
  h.mergeRow _

theorem Canonical.exportWrite {s : State} (h : Canonical s) (d part off : Nat) (l : List (Byte × Byte)) :
    Canonical (exportWrite s d part off l).2 := by
  unfold Machine.exportWrite
  split
  · rename_i e
    exact Canonical.of_eq e (h.exportPlaces ..)
  rename_i e
  exact (Canonical.of_eq e (h.exportPlaces ..)).mergeAt ..

theorem Canonical.setFarMem {s : State} (h : Canonical s) (part m : Nat) {x : Memory} (hx : x.wf = true) :
    Canonical (s.setFarMem part m x) :=
  h.setPeer m (SMap.forall_put (P := fun x : Memory => x.wf = true) hx (h.peer m) _)

theorem Canonical.learn {s : State} (h : Canonical s) (part m : Nat) (held : List (BitVec 46 × BitVec 8)) :
    Canonical (s.learn part m held) := by
  unfold State.learn
  split
  · exact h
  · exact h.setFarMem part m (Memory.wf_foldl (fun _ _ hx => Memory.wf_setByte hx) held (h.farMem part m))

theorem Canonical.ownExport {α : Type} {s : State} (h : Canonical s) (d part : Nat) {f : Nat → Except FarFault α × State}
    (hf : ∀ p, Canonical (f p).2) : Canonical (ownExport s d part f).2 := by
  unfold Machine.ownExport
  split
  · exact hf _
  · exact h

theorem Canonical.farRead {s : State} (h : Canonical s) (d part m off n : Nat) : Canonical (farRead s d part m off n).2 := by
  unfold Machine.farRead
  split
  · exact h.ownExport _ _ (fun _ => h.exportRead ..)
  · exact h

theorem Canonical.farWrite {s : State} (h : Canonical s) (d part m off : Nat) (l : List (Byte × Byte)) :
    Canonical (farWrite s d part m off l).2 := by
  unfold Machine.farWrite
  split
  · split
    · exact h.exportWrite ..
    · exact h
  · exact h.setFarMem _ _ (mergeBytes_wf (h.farMem ..) ..)

theorem Canonical.exportRmw {s : State} (h : Canonical s) (d part off n : Nat) (f : Nat → Option Nat) :
    Canonical (exportRmw s d part off n f).2 := by
  unfold Machine.exportRmw
  split
  · rename_i e
    exact Canonical.of_eq e (h.exportPlaces ..)
  rename_i e
  have hu := Canonical.of_eq e (h.exportPlaces ..)
  split
  · exact hu
  dsimp only
  split
  · exact hu.mergeAt ..
  · exact hu

theorem Canonical.farRmw {s : State} (h : Canonical s) (d part m off n : Nat) (f : Nat → Option Nat) :
    Canonical (farRmw s d part m off n f).2 := by
  unfold Machine.farRmw
  split
  · exact h.ownExport d part fun p => h.exportRmw ..
  · dsimp only
    split
    · exact h.setFarMem _ _ (Memory.wf_writeLE (h.farMem ..))
    · exact h

theorem Canonical.setGroup {s : State} (h : Canonical s) (g : Nat) (x : Group) : Canonical (s.setGroup g x) := { h with }

theorem Canonical.groupReg {s : State} (h : Canonical s) (off v : Nat) : Canonical (s.groupReg off v) := h.setGroup ..

/-! ## Trace -/

theorem Canonical.setTrace {s : State} (h : Canonical s) (t : Nat) (x : Trace) : Canonical (s.setTrace t x) :=
  h.setTile _ (h.tile _)

theorem Canonical.traceDw {s : State} (h : Canonical s) (t off v : Nat) : Canonical (s.traceDw t off v) := by
  unfold State.traceDw
  split
  · exact h
  dsimp only
  split
  · rename_i e
    exact Canonical.of_eq e (h.hubWritePage ..)
  rename_i e
  have hu := Canonical.of_eq e (h.hubWritePage ..)
  refine (hu.setPart _ ?_).setTrace ..
  exact hu.part _

theorem Canonical.traceHeader {s : State} (h : Canonical s) (t off : Nat) : Canonical (s.traceHeader t off).2 := by
  unfold State.traceHeader
  split
  · rename_i e
    exact Canonical.of_eq e (h.hubReadPage ..)
  rename_i e
  exact Canonical.of_eq e (h.hubReadPage ..)

theorem Canonical.traceRing {s : State} (h : Canonical s) (t c : Nat) (l : List Nat) : Canonical (s.traceRing t c l) := by
  induction l generalizing s c with
  | nil => exact h
  | cons v l ih => exact ih (h.traceDw ..) _

theorem Canonical.traceEmit {s : State} (h : Canonical s) (t : Nat) (r : TraceRec) : Canonical (s.traceEmit t r) :=
  (h.traceRing ..).ite (((h.traceRing ..).setTrace ..).traceDw ..)

theorem Canonical.traceGap {s : State} (h : Canonical s) (t tick : Nat) : Canonical (s.traceGap t tick) :=
  ((h.traceEmit ..).setTrace ..).traceDw ..

theorem Canonical.traceReadHead {s : State} (h : Canonical s) (t : Nat) : Canonical (s.traceReadHead t) := by
  unfold State.traceReadHead
  refine (Canonical.setTrace ?_ ..).setTrace ..
  split
  · rename_i e
    exact Canonical.of_eq e (h.hubReadPage ..)
  rename_i e
  exact Canonical.of_eq e (h.hubReadPage ..)

theorem Canonical.traceRoom {s : State} (h : Canonical s) (t : Nat) (r : TraceRec) : Canonical (s.traceRoom t r) :=
  h.ite (h.traceReadHead _)

theorem Canonical.traceWait {s : State} (h : Canonical s) (t : Nat) (r : TraceRec) : Canonical (s.traceWait t r) := h.setTrace ..

theorem Canonical.tracePlace {s : State} (h : Canonical s) (t : Nat) (r : TraceRec) : Canonical (s.tracePlace t r) := by
  unfold State.tracePlace
  split
  · exact h
  dsimp only
  split
  · exact (h.traceRoom ..).traceEmit ..
  · exact ((h.traceRoom ..).traceWait ..).ite ((h.traceRoom ..).traceGap ..)

theorem Canonical.traceSettle {s : State} (h : Canonical s) (t : Nat) : Canonical (s.traceSettle t) :=
  h.ite (Canonical.foldl (fun _ _ h => h.tracePlace ..) _ (h.setTrace ..))

theorem Canonical.tracePut {s : State} (h : Canonical s) (t unit : Nat) (dws : List Word) :
    Canonical (s.tracePut t unit dws) := by
  unfold State.tracePut
  dsimp only
  split
  · exact (((h.traceRoom ..).traceSettle _).traceWait ..).ite (((h.traceRoom ..).traceSettle _).tracePlace ..)
  · exact h.tracePlace ..

theorem Canonical.traceAppend {s : State} (h : Canonical s) (t unit : Nat) (dws : List Word) :
    Canonical (s.traceAppend t unit dws) :=
  h.ite ((((h.traceRoom ..).ite h).traceWait ..).ite (((h.traceRoom ..).ite h).setTrace ..))

theorem Canonical.flushBr {s : State} (h : Canonical s) (t c : Nat) : Canonical (s.flushBr t c) :=
  h.ite (((h.setTrace ..).traceAppend ..).ite (h.setTrace ..))

theorem Canonical.flushBrs {s : State} (h : Canonical s) (t : Nat) : Canonical (s.flushBrs t) :=
  ((h.flushBr ..).flushBr ..).flushBr ..

theorem Canonical.traceCore {s : State} (h : Canonical s) (t c : Nat) (dws : List Word) : Canonical (s.traceCore t c dws) :=
  ((h.flushBr ..).traceAppend ..).ite h

theorem Canonical.traceBranch {s : State} (h : Canonical s) (taken : Bool) : Canonical (s.traceBranch taken) :=
  (((h.setTrace ..).flushBr ..).ite (h.setTrace ..)).ite h

theorem Canonical.traceJump {s : State} (h : Canonical s) (target : Nat) : Canonical (s.traceJump target) :=
  (h.traceCore ..).ite h

theorem Canonical.markBlocked {s : State} (h : Canonical s) : Canonical s.markBlocked := h.ite (h.setTrace ..)

theorem Canonical.clearBlocked {s : State} (h : Canonical s) (t c : Nat) : Canonical (s.clearBlocked t c) := h.setTrace ..

theorem Canonical.traceToken {s : State} (h : Canonical s) (q : Nat) (push : Bool) : Canonical (s.traceToken q push) := by
  unfold State.traceToken
  dsimp only
  split
  · exact h
  · exact ((h.clearBlocked ..).traceCore ..).ite (h.clearBlocked ..)

theorem Canonical.traceBarrier {s : State} (h : Canonical s) (t c bar : Nat) (ws : Bool) (phase : Nat) :
    Canonical (s.traceBarrier t c bar ws phase) := (((h.clearBlocked ..).ite h).traceCore ..).ite ((h.clearBlocked ..).ite h)

theorem Canonical.traceMiss {s : State} (h : Canonical s) (t unit seq late : Nat) : Canonical (s.traceMiss t unit seq late) :=
  (h.traceCore ..).ite h

theorem Canonical.traceMk {s : State} (h : Canonical s) (t reason : Nat) : Canonical (s.traceMk t reason) :=
  (((h.flushBrs _).traceSettle _).tracePut ..).ite h

theorem Canonical.traceMark {s : State} (h : Canonical s) (t : Nat) : Canonical (s.traceMark t) := (h.flushBrs _).traceAppend ..

theorem Canonical.traceRestart {s : State} (h : Canonical s) (t : Nat) : Canonical (s.traceRestart t) :=
  ((h.setTrace ..).traceMk ..).ite h

theorem Canonical.traceNode {s : State} (h : Canonical s) (t : Nat) : Canonical (s.traceNode t) := by
  unfold State.traceNode
  split
  · exact h.tracePut ..
  · exact h

theorem Canonical.traceLoad {s : State} (h : Canonical s) (t : Nat) : Canonical (s.traceLoad t) := by
  unfold State.traceLoad
  rcases e1 : s.traceHeader t 0 with ⟨tail, s1⟩
  have h1 := Canonical.of_eq e1 (h.traceHeader ..)
  dsimp only
  rcases e2 : s1.traceHeader t 8 with ⟨head, s2⟩
  have h2 := Canonical.of_eq e2 (h1.traceHeader ..)
  dsimp only
  rcases e3 : s2.traceHeader t 16 with ⟨gaps, s3⟩
  exact (Canonical.of_eq e3 (h2.traceHeader ..)).setTrace ..

theorem Canonical.traceStart {s : State} (h : Canonical s) (t : Nat) : Canonical (s.traceStart t) := by
  unfold State.traceStart
  split
  · dsimp only
    split
    · exact (((((h.traceLoad _).setTrace ..).setTrace ..).traceMk ..).traceNode _).ite ((h.traceLoad _).setTrace ..)
    · exact (((h.traceLoad _).setTrace ..).traceMk ..).traceNode _
  · exact h

theorem Canonical.traceResume {s : State} (h : Canonical s) (t : Nat) : Canonical (s.traceResume t) :=
  ((h.setTrace ..).traceMk ..).traceNode _

theorem Canonical.traceFlush {s : State} (h : Canonical s) (t : Nat) : Canonical (s.traceFlush t) := (h.flushBrs _).ite h

theorem Canonical.flushCore {s : State} (h : Canonical s) (t c : Nat) : Canonical (s.flushCore t c) := (h.flushBr ..).ite h

theorem Canonical.traceDropWaiting {s : State} (h : Canonical s) (t : Nat) : Canonical (s.traceDropWaiting t) := by
  unfold State.traceDropWaiting
  split
  · exact h
  · exact ((h.traceSettle _).setTrace ..).traceGap ..

theorem Canonical.traceClose {s : State} (h : Canonical s) (t : Nat) : Canonical (s.traceClose t) :=
  ((h.traceFlush _).traceSettle _).traceDropWaiting _

/-! ## Control flow -/

theorem Canonical.goto {s : State} (h : Canonical s) (pc : VAddr) : Canonical (s.goto pc) := h.setCore _

theorem Canonical.branch {s : State} (h : Canonical s) (cond : Word → Word → Bool) (ga gb : Reg) (disp : BitVec 16) :
    Out.Canon (branch cond ga gb disp s) := h.withSources (fun _ h => ((h.goto _).traceBranch _).ite ((h.skip _).traceBranch _)) _

theorem Canonical.execLoop {s : State} (h : Canonical s) (ga : Reg) (disp : BitVec 16) : Out.Canon (execLoop ga disp s) := by
  unfold Machine.execLoop
  split
  · exact h.illegal _
  · exact h.withSources (fun _ h => (((h.setG ..).goto _).traceBranch _).ite (((h.setG ..).skip _).traceBranch _)) _

theorem Canonical.execB {s : State} (h : Canonical s) (disp : BitVec 21) : Out.Canon (execB disp s) := h.goto _

theorem Canonical.execJr {s : State} (h : Canonical s) (ga : Reg) : Out.Canon (execJr ga s) :=
  h.withSources (fun _ h => (h.fault ..).ite ((h.goto _).traceJump _)) _

theorem Canonical.execCall {s : State} (h : Canonical s) (frame : Fin 21) (disp : BitVec 21) :
    Out.Canon (execCall frame disp s) := by
  unfold Machine.execCall
  dsimp only
  split
  · exact h.fault ..
  split
  · exact ((h.countCes ..).countUe _).fault ..
  · exact h.faultA ..
  · exact ((h.setCore _).countCes ..).ite (((h.setCore _).countCes ..).beforePlainWrite.writeScratch ..)

theorem Canonical.fill {s : State} (h : Canonical s) : Canonical s.fill.2 := by
  unfold State.fill
  dsimp only
  split
  · exact h.noteRead ..
  split
  · exact h.noteRead ..
  split
  · exact (h.noteRead ..).noteRead ..
  · exact (h.noteRead ..).noteRead ..

theorem Canonical.execRet {s : State} (h : Canonical s) : Out.Canon (execRet s) := by
  unfold Machine.execRet
  split
  · rename_i e
    dsimp only
    split
    · exact h.illegal _
    split
    · exact h.setCore _
    · exact (Canonical.of_eq e h.fill).setCore _
  · rename_i e
    dsimp only
    split
    · exact h.illegal _
    split
    · exact h.setCore _
    · exact (Canonical.of_eq e h.fill).fault ..
  rename_i e
  dsimp only
  split
  · exact h.illegal _
  split
  · exact h.setCore _
  · exact (Canonical.of_eq e h.fill).fault ..

/-! ## Fences, cells, queues and barriers -/

theorem Canonical.setQueue {s : State} (h : Canonical s) (t q : Nat) (k : Queue) : Canonical (s.setQueue t q k) :=
  h.setTile _ (h.tile _)

theorem Canonical.queueMisuse {s : State} (h : Canonical s) (w q : Nat) : Canonical (s.queueMisuse w q) := h.fault ..

theorem Canonical.execQpush {s : State} (h : Canonical s) (q : Fin 16) (gs : Reg) : Out.Canon (execQpush q gs s) := by
  unfold Machine.execQpush
  refine h.withSources (fun s h => ?_) _
  split
  · exact (h.queueMisuse ..).ite (h.block _).markBlocked
  · exact (h.queueMisuse ..).ite (((h.flushMine.setQueue ..).skip _).traceToken ..)

theorem Canonical.noteToken {s : State} (h : Canonical s) (q : Nat) (k : Tok) : Canonical (s.noteToken q k) :=
  ((((h.setQueue ..).countCes ..).countUe _).ite ((h.setQueue ..).countCes ..)).ite h

theorem Canonical.popToken {s : State} (h : Canonical s) (gd : Reg) (q : Nat) (k : Tok) : Canonical (s.popToken gd q k) := by
  unfold State.popToken
  split
  · exact (h.noteToken ..).fault ..
  · exact ((h.noteToken ..).fault ..).ite (((((h.noteToken ..).setQueue ..).setG ..).skip _).traceToken ..)

theorem Canonical.execQpop {s : State} (h : Canonical s) (gd : Reg) (q : Fin 16) : Out.Canon (execQpop gd q s) := by
  unfold Machine.execQpop
  split
  · exact h.queueMisuse ..
  split
  · exact (h.block _).markBlocked
  · exact h.popToken ..

theorem Canonical.execQtry {s : State} (h : Canonical s) (gd : Reg) (q : Fin 16) : Out.Canon (execQtry gd q s) := by
  unfold Machine.execQtry
  split
  · exact h.queueMisuse ..
  split
  · exact (h.setG ..).skip _
  · exact h.popToken ..

theorem Canonical.execQpeek {s : State} (h : Canonical s) (gd : Reg) (q : Fin 16) : Out.Canon (execQpeek gd q s) := by
  unfold Machine.execQpeek
  split
  · exact h.queueMisuse ..
  split
  · exact (h.setG ..).skip _
  · exact ((h.noteToken ..).setG ..).skip _

theorem Canonical.execQcnt {s : State} (h : Canonical s) (gd : Reg) (q : Fin 16) : Out.Canon (execQcnt gd q s) :=
  (h.setG ..).skip _

theorem Canonical.gangAccept {s : State} (h : Canonical s) (k q rank : Nat) (w : W32) : Canonical (s.gangAccept k q rank w) :=
  h.setQueue ..

theorem Canonical.execQpushx {s : State} (h : Canonical s) (gs : Reg) (q : Fin 16) (gr : Reg) :
    Out.Canon (execQpushx gs q gr s) := by
  unfold Machine.execQpushx
  refine h.withSources (fun s h => ?_) _
  dsimp only
  split
  · exact h.queueMisuse ..
  · exact (((h.flushMine.gangAccept ..).skip _).traceToken ..).ite (h.flushMine.block _).markBlocked

theorem Canonical.execGangTokenAccept {s : State} (h : Canonical s) (t : TileId) (q : Fin 16) :
    Out.Canon (execGangTokenAccept t q s) := by
  unfold Machine.execGangTokenAccept
  dsimp only
  split
  · exact h
  split
  · exact h
  refine ((Canonical.unblock ?_).skip _).traceToken ..
  exact { h.gangAccept .. with }

theorem Canonical.findNode {s : State} (h : Canonical s) {p a : Nat} {n : Node} (e : s.findNode p a = some n) :
    TilesCanon n.saves := h.part p n (List.mem_of_find?_eq_some e)

theorem Canonical.getD_findNode {s : State} (h : Canonical s) (p a : Nat) {n : Node} (hn : TilesCanon n.saves) :
    TilesCanon ((s.findNode p a).getD n).saves := by
  cases e : s.findNode p a with
  | none => exact hn
  | some m => exact h.findNode e

theorem Canonical.setSched {s : State} (h : Canonical s) (p : Nat) {x : Sched} (hx : NodesCanon x.nodes) :
    Canonical (s.setSched p x) :=
  h.setPart p hx

theorem Canonical.putNode {s : State} (h : Canonical s) (p : Nat) {n : Node} (hn : TilesCanon n.saves) :
    Canonical (s.putNode p n) :=
  h.setSched p ((h.part p).map fun m hm => by split <;> assumption)

theorem Canonical.nodeOf {s : State} (h : Canonical s) (t : Nat) : TilesCanon (s.nodeOf t).saves := by
  unfold State.nodeOf
  split
  · exact h.getD_findNode _ _ TilesCanon.nil
  · exact TilesCanon.nil

theorem Canonical.setInst {s : State} (h : Canonical s) (t bar : Nat) (b : BarInst) : Canonical (s.setInst t bar b) :=
  h.putNode _ (h.nodeOf _)

theorem Canonical.tellAll {s : State} (h : Canonical s) (bar p : Nat) (ts : List Nat) : Canonical (s.tellAll bar p ts) := by
  unfold State.tellAll
  refine Canonical.foldl (fun s a h => ?_) _ h
  exact h.setTile _ (h.tile _)

theorem Canonical.arrive {s : State} (h : Canonical s) (t : Nat) (c : CoreId) (bar : Nat) (wait : Bool) :
    Canonical (s.arrive t c bar wait).2 := by
  unfold State.arrive
  split
  · dsimp only
    split
    · exact h
    split
    · exact (((h.flushRemote ..).setCoreAt ..).setInst ..).tellAll ..
    · exact ((h.flushRemote ..).setCoreAt ..).setInst ..
  dsimp only
  split
  · exact h
  split
  · exact ((h.flushRemote ..).setInst ..).tellAll ..
  · exact (h.flushRemote ..).setInst ..

theorem Canonical.barRequest {s : State} (h : Canonical s) (bar : Nat) (r : BarReq) : Canonical (s.barRequest bar r) :=
  (h.setInst ..).block _

theorem Canonical.barwDone {s : State} (h : Canonical s) (bar : Nat) : Canonical (s.barwDone bar) :=
  ((h.setCore _).skip _).traceBarrier ..

theorem Canonical.barwWait {s : State} (h : Canonical s) (bar : Nat) : Canonical (s.barwWait bar) :=
  (h.barwDone _).ite ((h.block _).markBlocked.ite h.unblock)

theorem Canonical.barsetAt {s : State} (h : Canonical s) (bar : Nat) (x : Word) : Canonical (s.barsetAt bar x) :=
  (h.unblock.fault ..).ite ((h.setInst ..).unblock.skip _)

theorem Canonical.arriveNow {s : State} (h : Canonical s) (bar : Nat) (wait : Bool) : Canonical (s.arriveNow bar wait) := by
  unfold State.arriveNow
  split
  · rename_i e
    exact (Canonical.of_eq e (h.arrive ..)).unblock.fault ..
  rename_i e
  have hu := Canonical.of_eq e (h.arrive ..)
  exact (hu.barwWait _).ite (hu.unblock.skip _)

theorem Canonical.execBarset {s : State} (h : Canonical s) (bar : Fin 24) (ga : Reg) : Out.Canon (execBarset bar ga s) :=
  h.withSources (fun _ h => (h.barsetAt ..).ite (h.barRequest ..)) _

theorem Canonical.execBarv {s : State} (h : Canonical s) (bar : Fin 24) : Out.Canon (execBarv bar s) :=
  (h.arriveNow ..).ite (h.barRequest ..)

theorem Canonical.execBarw {s : State} (h : Canonical s) (bar : Fin 24) : Out.Canon (execBarw bar s) :=
  (h.barwWait _).ite ((h.arriveNow ..).ite (h.barRequest ..))

theorem Canonical.execBart {s : State} (h : Canonical s) (gd : Reg) (bar : Fin 24) : Out.Canon (execBart gd bar s) :=
  (h.setG ..).skip _

theorem Canonical.barwsDone {s : State} (h : Canonical s) (gd : Reg) (bar ph : Nat) : Canonical (s.barwsDone gd bar ph) :=
  ((h.unblock.setG ..).skip _).traceBarrier ..

theorem Canonical.execBarws {s : State} (h : Canonical s) (gd : Reg) (bar : Fin 24) (ga : Reg) :
    Out.Canon (execBarws gd bar ga s) :=
  h.withSources (fun _ h => (h.barwsDone ..).ite (h.block _).markBlocked) _

theorem Canonical.execBarrierArrival {s : State} (h : Canonical s) (t : TileId) (bar : Fin 24) :
    Out.Canon (execBarrierArrival t bar s) := by
  unfold Machine.execBarrierArrival
  dsimp only
  split
  · exact h
  split
  · refine Canonical.arriveNow ?_ ..
    exact { h.setInst .. with }
  refine Canonical.barsetAt ?_ ..
  exact { h.setInst .. with }

theorem Canonical.execBarwWake {s : State} (h : Canonical s) (t : TileId) (c : CoreId) : Out.Canon (execBarwWake t c s) := by
  unfold Machine.execBarwWake
  split
  · split
    · refine Canonical.barwDone ?_ _
      exact { h with }
    · exact h
  · split
    · refine Canonical.barwsDone ?_ ..
      exact { h with }
    · exact h
  · exact h

theorem Canonical.syncMisuse {s : State} (h : Canonical s) (case_ : Nat) : Canonical (s.syncMisuse case_) := h.fault ..

theorem Canonical.cellAt {s : State} (h : Canonical s) (va : Nat) (acc : Access) : Canonical (cellAt s va acc).2 := by
  unfold Machine.cellAt
  refine (h.nodeTranslate ..).bind fun a s h => ?_
  split
  · exact h
  split
  · exact h.res_stop _
  · exact h

theorem Canonical.cellWord {s : State} (h : Canonical s) (ref : Word) (acc : Access) : Canonical (cellWord s ref acc).2 :=
  (h.resolveWord ..).bind fun _ _ h => (h.res_stop _).ite_res ((h.cellAt ..).bind (fun _ _ h => h))

theorem Canonical.stopIn {s : State} (h : Canonical s) (w : Wait) (e : Stop) : Canonical (s.stopIn w e) :=
  ((h.stopCore _).setCore _).ite (h.stopCore _)

theorem Canonical.checkHold {s t : State} (h : Canonical s) {va pa ticket : Nat} {w : HoldState}
    (e : checkHold s va pa w = .ok (ticket, t)) : Canonical t := by
  unfold Machine.checkHold at e
  split at e
  · split at e
    · cases e; exact h
    · cases e
  · split at e
    · cases e
    · cases e; exact (h.setCore _).writeMem ..

theorem Canonical.grantCell {s : State} (h : Canonical s) (excl : Bool) (va pa ticket : Nat) :
    Canonical (s.grantCell excl va pa ticket) :=
  (((h.unblock.setCore _).skip _).ite (((h.unblock.setCore _).writeMem ..).skip _)).ite (h.block _)

theorem Canonical.acquireCell {s : State} (h : Canonical s) (excl : Bool) (ga : Reg) : Out.Canon (acquireCell excl ga s) := by
  refine h.withSources (fun s h => ?_) _
  split
  · rename_i e
    exact Canonical.stopCore (.of_eq e (h.cellWord ..)) _
  · rename_i u e
    have hu : Canonical u := .of_eq e (h.cellWord ..)
    split
    · exact hu.syncMisuse _
    · rename_i ec; exact (hu.checkHold ec).grantCell ..

theorem Canonical.cellTurn {s : State} (h : Canonical s) (excl : Bool) (va : Nat) : Canonical (s.cellTurn excl va) := by
  unfold State.cellTurn
  split
  · rename_i e
    exact (Canonical.of_eq e (h.cellAt ..)).stopIn ..
  rename_i e
  exact (Canonical.of_eq e (h.cellAt ..)).grantCell ..

theorem Canonical.execRel {s : State} (h : Canonical s) (ga : Reg) : Out.Canon (execRel ga s) := by
  unfold Machine.execRel
  refine h.withSources (fun s h => ?_) _
  split
  · rename_i e
    exact (Canonical.of_eq e (h.cellWord ..)).stopCore _
  rename_i e
  have hu := Canonical.of_eq e (h.cellWord ..)
  split
  · exact ((hu.setCore _).writeMem ..).skip _
  · exact ((hu.setCore _).writeMem ..).skip _
  · exact hu.syncMisuse _

theorem Canonical.bindOperands {s : State} (h : Canonical s) (x b : Word) : Canonical (bindOperands s x b).2 := by
  unfold Machine.bindOperands
  refine (h.cellWord ..).bind fun a s h => ?_
  refine (h.res_stop _).ite_res ((h.readLayout ..).bind (fun a s h => ?_))
  exact (h.res_stop _).ite_res h

theorem Canonical.setRegions {s : State} (h : Canonical s) (l : List Region) : Canonical (s.setRegions l) :=
  h.setPart _ (h.part _)

theorem Canonical.execBind {s : State} (h : Canonical s) (ga gb : Reg) : Out.Canon (execBind ga gb s) := by
  unfold Machine.execBind
  refine h.withSources (fun s h => ?_) _
  split
  · rename_i e
    exact (Canonical.of_eq e (h.bindOperands ..)).stopCore _
  rename_i e
  have hu := Canonical.of_eq e (h.bindOperands ..)
  dsimp only
  split
  · exact hu.syncMisuse _
  split
  · exact hu.syncMisuse _
  · exact (hu.setRegions _).skip _

theorem Canonical.execUnbind {s : State} (h : Canonical s) (ga gb : Reg) : Out.Canon (execUnbind ga gb s) := by
  unfold Machine.execUnbind
  refine h.withSources (fun s h => ?_) _
  split
  · rename_i e
    exact (Canonical.of_eq e (h.bindOperands ..)).stopCore _
  rename_i e
  have hu := Canonical.of_eq e (h.bindOperands ..)
  dsimp only
  split
  · exact (hu.setRegions _).skip _
  · exact hu.syncMisuse _

theorem Canonical.sigwaitDone {s : State} (h : Canonical s) (gd : Reg) (len v : Nat) : Canonical (s.sigwaitDone gd len v) :=
  (h.unblock.setG ..).skip _

theorem Canonical.sigwaitTurn {s : State} (h : Canonical s) (t0 va : Nat) (gd : Reg) (len want : Nat) :
    Canonical (s.sigwaitTurn t0 va gd len want) := by
  unfold State.sigwaitTurn
  split
  · rename_i e
    exact (Canonical.of_eq e (h.nodeRead ..)).stopIn ..
  rename_i e
  have hu := Canonical.of_eq e (h.nodeRead ..)
  split
  · exact hu.sigwaitDone ..
  · exact (hu.sigwaitDone ..).ite (hu.block _)

theorem Canonical.doSigwait {s : State} (h : Canonical s) (_m : Modifier) (len : Nat) (gd ga gb : Reg) :
    Out.Canon (doSigwait _m len gd ga gb s) := by
  unfold Machine.doSigwait
  refine h.withSources (fun s h => ?_) _
  split
  · rename_i e
    exact (Canonical.of_eq e (h.resolveWord ..)).stopCore _
  rename_i e
  have hu := Canonical.of_eq e (h.resolveWord ..)
  split
  · exact hu.faultRec _
  · exact hu.sigwaitTurn ..

theorem Canonical.execSigwaitTimeout {s : State} (h : Canonical s) (t : TileId) (c : CoreId) :
    Out.Canon (execSigwaitTimeout t c s) := by
  unfold Machine.execSigwaitTimeout
  split
  · dsimp only
    split
    · split
      · rename_i e
        refine (Canonical.of_eq e (Canonical.nodeRead ?_ ..)).stopIn ..
        exact { h with }
      rename_i e
      refine (Canonical.of_eq e (Canonical.nodeRead ?_ ..)).sigwaitDone ..
      exact { h with }
    · exact h
  · exact h

theorem Canonical.execPfx {s : State} (h : Canonical s) (m : Modifier) (second : W32) : Out.Canon (execPfx m second s) := by
  unfold Machine.execPfx
  split
  · exact h.illegal _
  · exact h.doLd ..
  · exact h.doSt ..
  · exact h.doLdx ..
  · exact h.doStx ..
  · exact h.doLdt ..
  · exact h.doStt ..
  · exact h.doDset ..
  · exact h.doDget ..
  · exact h.doSigwait ..
  · exact h.doAtom ..
  · exact h.doAtomRemote ..
  · exact h.doAtomTensor ..

/-! ## Fetch -/

theorem Canonical.racedWords {s : State} (h : Canonical s) (olds : List OldWord) (a : Nat) (l : List Byte) :
    Canonical (racedWords olds a l s).2 := by
  fun_induction Machine.racedWords olds a l s <;> grind [Canonical.draw]

theorem Canonical.fetchBytes {s : State} (h : Canonical s) (olds : List OldWord) (d part va n : Nat) :
    Canonical (fetchBytes s olds d part va n).2 := by
  unfold Machine.fetchBytes
  split
  · rename_i e
    have hu := Canonical.of_eq e (h.translate ..)
    split
    · exact hu
    split
    · exact hu
    · exact hu.racedWords ..
  · rename_i e
    exact Canonical.of_eq e (h.translate ..)
  rename_i e
  exact Canonical.of_eq e (h.translate ..)

theorem Canonical.fetchSpan {s : State} (h : Canonical s) (olds : List OldWord) (d part va n : Nat) :
    Canonical (fetchSpan s olds d part va n).2 := by
  unfold Machine.fetchSpan
  dsimp only
  split
  · exact h.fetchBytes ..
  · exact (h.fetchBytes ..).fetchBytes ..

theorem Canonical.fetchUnit {s : State} (h : Canonical s) (t : Nat) (c : CoreId) : Canonical (fetchUnit s t c).2 := by
  unfold Machine.fetchUnit
  dsimp only
  split
  · rename_i e
    have hu := Canonical.of_eq e (h.fetchSpan ..)
    split
    · exact hu
    split
    · rename_i e
      exact Canonical.of_eq e (hu.fetchSpan ..)
    · exact hu.fetchSpan ..
  · exact h.fetchSpan ..

theorem Canonical.fetchStop {s : State} (h : Canonical s) (u : UnitRes) : Canonical (s.fetchStop u) := by
  cases u with
  | hub va => exact h.faultRec _
  | poison g => exact h.faultA ..
  | unit l => exact h
  | fetchFault page straddle absent => exact h

theorem Canonical.begins {s : State} (h : Canonical s) (l : List Byte) : Canonical (s.begins l) := h.setCore _

/-! ## System instructions -/

theorem Canonical.withHandle {s : State} {f : Engine → Nat → State → State} (h : Canonical s)
    (hf : ∀ a b s, Canonical s → Canonical (f a b s)) (rs : List Reg) (ga : Reg) : Out.Canon (withHandle rs ga s f) := by
  unfold Machine.withHandle
  refine h.withSources (fun s h => ?_) _
  split
  · exact h.fault ..
  · exact hf _ _ _ h

theorem Canonical.execOpwait {s : State} (h : Canonical s) (gd ga : Reg) : Out.Canon (execOpwait gd ga s) :=
  h.withHandle (fun _ _ _ h => (h.block _).ite ((h.setG ..).skip _)) ..

theorem Canonical.execOptest {s : State} (h : Canonical s) (gd ga : Reg) : Out.Canon (execOptest gd ga s) :=
  h.withHandle (fun _ _ _ h => (h.setG ..).skip _) ..

theorem Canonical.onOp {s : State} (h : Canonical s) (e : Engine) (seq : Nat) (f : Op → Op) : Canonical (s.onOp e seq f) :=
  h.setMe (Tile.canon_setEng (Tile.canon_me h) ..)

theorem Canonical.execOpcancel {s : State} (h : Canonical s) (ga : Reg) : Out.Canon (execOpcancel ga s) :=
  h.withHandle (fun _ _ _ h => (h.onOp ..).skip _) ..

theorem Canonical.execOpprio {s : State} (h : Canonical s) (ga gb : Reg) : Out.Canon (execOpprio ga gb s) :=
  h.withHandle (fun _ _ _ h => (h.onOp ..).skip _) ..

theorem Canonical.execOpdetach {s : State} (h : Canonical s) (ga : Reg) : Out.Canon (execOpdetach ga s) :=
  h.withHandle (fun _ _ _ h => (h.onOp ..).skip _) ..

theorem Canonical.execExit {s : State} (h : Canonical s) : Out.Canon (execExit s) :=
  (h.syncMisuse _).ite ((h.block _).ite ((h.flushMine.setCore _).flushCore ..))

theorem Canonical.fetchFault {s : State} (h : Canonical s) (page : Nat) (straddle absent : Bool) :
    Canonical (s.fetchFault page straddle absent) := (h.block _).ite (h.faultRec _)

theorem Canonical.yieldStop {s : State} (h : Canonical s) (map : Nat) : Canonical (s.yieldStop map) := by
  unfold State.yieldStop
  split
  · rename_i e
    exact (((Canonical.of_eq e (h.fetchSpan ..)).flushMine.setCore _).skip _).flushCore ..
  · rename_i e
    exact (Canonical.of_eq e (h.fetchSpan ..)).fetchFault ..
  rename_i e
  exact (Canonical.of_eq e (h.fetchSpan ..)).fetchStop _

theorem Canonical.execYield {s : State} (h : Canonical s) (disp : BitVec 21) : Out.Canon (execYield disp s) := by
  unfold Machine.execYield
  split
  · exact h.illegal _
  split
  · exact h.yieldStop _
  · exact h.skip _

theorem Tile.canon_bringToRest {x : Tile} (hx : x.mem.Canon) (r : Rest) : (x.bringToRest r).mem.Canon := by
  unfold Tile.bringToRest
  split
  · exact Tile.canon_drainCores hx
  split
  · dsimp only
    split
    · exact hx
    split
    · exact hx
    · exact hx
  dsimp only
  split
  · exact hx
  split
  · exact hx
  · exact hx

theorem Canonical.stopGang {s : State} (h : Canonical s) (p node kind : Nat) : Canonical (s.stopGang p node kind) := by
  unfold State.stopGang
  split
  · exact h
  rename_i e
  split
  · exact h
  refine Canonical.foldl (fun s a h => ?_) _ (h.putNode _ ?_)
  · exact h.setTile _ (Tile.canon_bringToRest (h.tile _) _)
  · dsimp only
    exact h.findNode e

theorem Canonical.execBrk {s : State} (h : Canonical s) : Out.Canon (execBrk s) := by
  unfold Machine.execBrk
  split
  · dsimp only
    split
    · refine ((h.coreTakes _).setMe ?_).stopGang ..
      exact Tile.canon_me (h.coreTakes _)
    · exact h.fault ..
  dsimp only
  split
  · refine ((h.coreTakes _).setMe ?_).stopGang ..
    exact Tile.canon_me (h.coreTakes _)
  · exact h.fault ..

theorem Canonical.execPublish {s : State} (h : Canonical s) : Out.Canon (execPublish s) :=
  ((h.flushMine.publishDrain _).unblock.skip _).ite (h.block _)

theorem Canonical.setCtl {s : State} (h : Canonical s) (c : TileCtl) : Canonical (s.setCtl c) := h.setMe (Tile.canon_me h)

theorem Canonical.execFmtset {s : State} (h : Canonical s) (f : Fin 16) (ga : Reg) : Out.Canon (execFmtset f ga s) :=
  h.withSources (fun _ h => (h.fault ..).ite ((h.setCtl _).skip _)) _

theorem Canonical.execFmtget {s : State} (h : Canonical s) (gd : Reg) (f : Fin 16) : Out.Canon (execFmtget gd f s) :=
  (h.setG ..).skip _

theorem Canonical.execRdsc {s : State} (h : Canonical s) (gd : Reg) : Out.Canon (execRdsc gd s) := (h.setG ..).skip _

theorem Canonical.drawRand {s : State} (h : Canonical s) (i : Instr) (shift : Nat) (gd ga gb : Reg) :
    Out.Canon (drawRand i shift gd ga gb s) := by
  unfold Machine.drawRand
  split
  · exact h.illegal _
  · exact h.writeResult ..

theorem Canonical.settlePerf {s : State} (h : Canonical s) (i : Nat) : Canonical (s.settlePerf i) :=
  Canonical.ite (h.setMe (Tile.canon_me h)) h

theorem Canonical.execCtlrd {s : State} (h : Canonical s) (gd : Reg) (index : BitVec 12) : Out.Canon (execCtlrd gd index s) := by
  unfold Machine.execCtlrd
  split
  · exact (h.settlePerf _).fault ..
  dsimp only
  split
  · exact (h.settlePerf _).illegal _
  · exact ((h.settlePerf _).setG ..).skip _

theorem Canonical.writePondReg {s : State} (h : Canonical s) (p : Nat) (v : Word) : Canonical (s.writePondReg p v) := by
  unfold State.writePondReg
  split
  · exact h.fault ..
  · exact (h.setCtl _).skip _

theorem Canonical.writeSpill {s : State} (h : Canonical s) (i : Instr) (v : Word) : Canonical (s.writeSpill i v) :=
  (h.illegal _).ite ((h.setCore _).skip _)

theorem Canonical.writePerf {s : State} (h : Canonical s) (v : Word) : Canonical (s.writePerf v) := by
  unfold State.writePerf
  refine (h.setMe ?_).skip _
  exact Tile.canon_me h

theorem Canonical.writeCtl {s : State} (h : Canonical s) (i : Instr) (idx : Nat) (v : Word) : Canonical (writeCtl s i idx v) := by
  unfold Machine.writeCtl
  dsimp only
  split <;> grind [Canonical.illegal, Canonical.skip, Canonical.setCtl, Canonical.setCore, Canonical.writeSpill, Canonical.writePerf,
    Canonical.writePondReg]

theorem Canonical.execCtlwr {s : State} (h : Canonical s) (index : BitVec 12) (ga : Reg) : Out.Canon (execCtlwr index ga s) :=
  h.withSources (fun _ h => (h.fault ..).ite ((h.illegal _).ite (h.writeCtl ..))) _

theorem Canonical.execPondWrite {s : State} (h : Canonical s) (p : Fin 16) (ga : Reg) : Out.Canon (execPondWrite p ga s) :=
  h.withSources (fun _ h => h.writePondReg ..) _

theorem Canonical.execSpillWrite {s : State} (h : Canonical s) (ga : Reg) : Out.Canon (execSpillWrite ga s) :=
  h.withSources (fun _ h => h.writeSpill ..) _

theorem Canonical.execPerfClear {s : State} (h : Canonical s) (ga : Reg) : Out.Canon (execPerfClear ga s) :=
  h.withSources (fun _ h => h.writePerf _) _

theorem Canonical.execPerfFreeze {s : State} (h : Canonical s) (ga : Reg) : Out.Canon (execPerfFreeze ga s) :=
  h.withSources (fun _ h => h.writePerf _) _

theorem Canonical.execIllegalInstructionWord {s : State} (h : Canonical s) (w0 : W32) (w1 : Option W32) :
    Out.Canon (execIllegalInstructionWord w0 w1 s) := h.fault ..

/-! ## Records and their acceptance -/

theorem Canonical.acceptRecord {s : State} (h : Canonical s) (o : Op) : Canonical (acceptRecord s o) :=
  (h.flushMine.setMe (Tile.canon_setEng (Tile.canon_me h.flushMine) ..)).skip _

theorem Canonical.issueLate {s : State} (h : Canonical s) (k : RecKind) (c : IssueCtx) (r : Rec) :
    Canonical (issueLate s k c r) := by
  unfold Machine.issueLate
  split
  · exact h.fault ..
  split
  · exact h.fault ..
  split
  · dsimp only
    split
    · exact h.fault ..
    · exact ((h.fault ..).traceMiss ..).ite (h.acceptRecord _)
  · exact ((h.fault ..).traceMiss ..).ite (h.acceptRecord _)

theorem Canonical.issueChecked {s : State} (h : Canonical s) (k : RecKind) (c : IssueCtx) (r : Rec) :
    Canonical (issueChecked s k c r) := by
  unfold Machine.issueChecked
  split
  · exact h.fault ..
  split
  · exact h.fault ..
  split
  · exact h.fault ..
  · exact h.issueLate ..

theorem Canonical.issueNow {s : State} (h : Canonical s) (k : RecKind) (r : Rec) : Canonical (issueNow s k r) := by
  unfold Machine.issueNow
  split
  · dsimp only
    split
    · exact h.faultA ..
    split
    · exact (h.noteRead ..).faultA ..
    · exact (h.noteRead ..).issueChecked ..
  · exact h.issueChecked ..

theorem Canonical.issue {s : State} (h : Canonical s) (k : RecKind) (r : Rec) : Out.Canon (issue k r s) :=
  (h.fault ..).ite ((h.issueNow ..).ite (h.block _))

theorem Canonical.execRecordAccept {s : State} (h : Canonical s) (t : TileId) (c : CoreId) :
    Out.Canon (execRecordAccept t c s) := by
  unfold Machine.execRecordAccept
  split
  · split
    · refine (Canonical.unblock ?_).issueNow ..
      exact { h with }
    · exact h
  · exact h

/-! ## The vector unit -/

theorem TileMem.Canon.setMaskWords {m : TileMem} (hm : m.Canon) (k : Nat) (whole : List Nat) (v : BitVec 256) :
    (m.setMaskWords k whole v).Canon := by
  unfold TileMem.setMaskWords
  split
  · exact hm
  · exact hm

theorem TileMem.Canon.setMask {m : TileMem} (hm : m.Canon) (k : Nat) (v : BitVec 256) : (m.setMask k v).Canon :=
  TileMem.Canon.setMaskWords hm ..

theorem TileMem.Canon.writeElems {m : TileMem} (h : m.Canon) (l : List (Nat × Nat)) : (m.writeElems l).Canon := by
  unfold TileMem.writeElems
  refine TileMem.canon_foldl (fun _ _ h => ?_) l h
  exact h

theorem Canonical.setMem {s : State} (h : Canonical s) {m : TileMem} (hm : m.Canon) : Canonical (s.setMem m) := h.setMe hm

theorem Canonical.vec {s : State} {k : State → State} (h : Canonical s) (hk : ∀ s, Canonical s → Canonical (k s)) (i : Instr) :
    Out.Canon (vec i s k) := (hk _ h).ite (h.illegal _)

theorem Canonical.vecG {s : State} {k : State → State} (h : Canonical s) (hk : ∀ s, Canonical s → Canonical (k s)) (i : Instr)
    (rs : List Reg) : Out.Canon (vecG i rs s k) := by
  unfold Machine.vecG
  split
  · exact h.withSources (fun _ h => hk _ h) _
  · exact h.illegal _

theorem Canonical.noteVec {s : State} (h : Canonical s) (masks keys : List Nat) : Canonical (s.noteVec masks keys) := by
  unfold State.noteVec
  dsimp only
  split
  · exact h
  refine (h.setMem ?_).countCes ..
  exact Tile.canon_me h

theorem Canonical.vecRead {s : State} {k : State → State} (h : Canonical s) (hk : ∀ s, Canonical s → Canonical (k s))
    (masks keys : List Nat) : Canonical (s.vecRead masks keys k) := by
  unfold State.vecRead
  dsimp only
  split
  · exact ((h.noteVec ..).countUe _).fault ..
  · exact hk _ (h.noteVec ..)

theorem Canonical.lanewise {s : State} (h : Canonical s) (km : Nat) (dst : VOpnd) (srcs : List VOpnd)
    (fn : Nat → List Nat → Nat) : Canonical (lanewise km dst srcs fn s) :=
  h.vecRead (fun _ h => (h.setMem (TileMem.Canon.writeElems (Tile.canon_me h) _)).skip _) ..

theorem Canonical.rounding {s : State} (h : Canonical s) (vop : Nat) (f : VFields) (srcs : List VOpnd)
    (ex : Nat → List Val → Val) : Canonical (rounding vop f srcs ex s) := by
  unfold Machine.rounding
  exact h.lanewise ..

theorem Canonical.execVcmp {s : State} (h : Canonical s) (f : VFields) : Out.Canon (execVcmp f s) :=
  h.vec (fun _ h => h.vecRead (fun _ h => (h.setMem (TileMem.Canon.setMaskWords (Tile.canon_me h) ..)).skip _) ..) _

theorem Canonical.execVsel {s : State} (h : Canonical s) (f : VFields) : Out.Canon (execVsel f s) :=
  h.vec (fun _ h => h.vecRead (fun _ h => h.lanewise ..) ..) _

theorem Canonical.integer {s : State} (h : Canonical s) (op : Int → Int → Int) (f : VFields) : Canonical (integer op f s) :=
  h.lanewise ..

theorem Canonical.execVcvt {s : State} (h : Canonical s) (f : VFields) : Out.Canon (execVcvt f s) := by
  unfold Machine.execVcvt
  refine h.vec (fun s h => ?_) _
  split
  · dsimp only
    split
    · exact h.fault ..
    · exact h.fault ..
    · exact h.lanewise ..

theorem Canonical.execVbcast {s : State} (h : Canonical s) (f : VFields) : Out.Canon (execVbcast f s) :=
  h.vecG (fun _ h => h.lanewise ..) ..

theorem Canonical.picking {s : State} (h : Canonical s) (km : Nat) (dst src : VOpnd) (pick : Nat → Nat) :
    Canonical (picking km dst src pick s) :=
  h.vecRead (fun _ h => (h.setMem (TileMem.Canon.writeElems (Tile.canon_me h) _)).skip _) ..

theorem Canonical.execVmovToG {s : State} (h : Canonical s) (f : VFields) : Out.Canon (execVmovToG f s) :=
  h.vec (fun _ h => h.vecRead (fun _ h => (h.setG ..).skip _) ..) _

theorem Canonical.execVmovFromG {s : State} (h : Canonical s) (f : VFields) : Out.Canon (execVmovFromG f s) :=
  h.vecG (fun _ h => (h.setMem (TileMem.Canon.writeElems (Tile.canon_me h) _)).skip _) ..

theorem Canonical.noteLanes {s : State} (h : Canonical s) (l : List Nat) : Canonical (s.noteLanes l) := by
  fun_induction State.noteLanes s l <;> grind [Canonical.noteRead]

theorem Canonical.execVld {s : State} (h : Canonical s) (f : VFields) : Out.Canon (execVld f s) := by
  unfold Machine.execVld
  refine h.vecG (fun s h => ?_) ..
  refine h.vecRead (fun s h => ?_) ..
  split
  · exact h.faultA ..
  dsimp only
  split
  · exact (h.noteLanes _).faultA ..
  · exact ((h.noteLanes _).setMem (TileMem.Canon.writeElems (Tile.canon_me (h.noteLanes _)) _)).skip _

theorem Canonical.execVst {s : State} (h : Canonical s) (f : VFields) : Out.Canon (execVst f s) := by
  refine h.vecG (fun s h => ?_) _ _
  refine h.vecRead (fun s h => ?_) _ _
  split
  · exact h.faultA ..
  split
  · exact h.faultA ..
  · refine h.vecRead (fun s h => Canonical.skip (Canonical.setMem h.beforePlainWrite ?_) 8) _ _
    exact TileMem.canon_foldl (fun _ _ hx => hx.writeScratch ..) _ (h.beforePlainWrite.tile _)

theorem Canonical.reducing {k : Nat → Bool → State → State} {s : State} (hk : ∀ a b s, Canonical s → Canonical (k a b s))
    (h : Canonical s) (i : Instr) (f : VFields) : Canonical (reducing i f k s) :=
  (h.illegal _).ite (h.vecRead (fun _ h => hk _ _ _ h) ..)

theorem Canonical.execVred {s : State} (h : Canonical s) (f : VFields) : Out.Canon (execVred f s) :=
  h.vec (fun _ h => Canonical.reducing (fun _ _ _ h => (h.setMem (TileMem.Canon.writeElems (Tile.canon_me h) _)).skip _) h ..) _

theorem Canonical.execVscan {s : State} (h : Canonical s) (f : VFields) : Out.Canon (execVscan f s) :=
  h.vec (fun _ h => Canonical.reducing (fun _ _ _ h => (h.setMem (TileMem.Canon.writeElems (Tile.canon_me h) _)).skip _) h ..) _

theorem Canonical.execVperm {s : State} (h : Canonical s) (f : VFields) : Out.Canon (execVperm f s) :=
  h.vec (fun _ h => h.vecRead (fun _ h => h.picking ..) ..) _

theorem Canonical.execVidx {s : State} (h : Canonical s) (f : VFields) : Out.Canon (execVidx f s) :=
  h.vecG (fun _ h => h.lanewise ..) ..

theorem Canonical.execVrng {s : State} (h : Canonical s) (f : VFields) : Out.Canon (execVrng f s) :=
  h.vecG (fun _ h => h.lanewise ..) ..

theorem Canonical.maskOp {s : State} (h : Canonical s) (srcs : List Nat) (kd : Nat) (v : TileMem → BitVec 256) :
    Canonical (maskOp srcs kd v s) := h.vecRead (fun _ h => (h.setMem (TileMem.Canon.setMask (Tile.canon_me h) ..)).skip _) ..

theorem Canonical.execKpop {s : State} (h : Canonical s) (f : VFields) : Out.Canon (execKpop f s) :=
  h.vec (fun _ h => h.vecRead (fun _ h => (h.setG ..).skip _) ..) _

/-! ## Operations of the engines -/

theorem Canonical.opRow {s : State} (h : Canonical s) (o : Op) (x : Opd) (u : Int) (bytes : Nat) :
    Canonical (Op.row o x u bytes s).2 := by
  unfold Op.row
  split
  · exact h
  · exact h.res_stop _

theorem Canonical.noteRow {s : State} (h : Canonical s) (t : Nat) (l : List UnitAt) (n : Nat) : Canonical (s.noteRow t l n) := by
  fun_induction State.noteRow s t l n <;> grind [Canonical.noteRead]

theorem Canonical.readRow {s : State} (h : Canonical s) (t : Nat) (us : List UnitAt) (n : Nat) :
    Canonical (readRow t us n s).2 := by
  unfold Machine.readRow
  dsimp only
  split
  · exact h.noteRow ..
  · exact (h.noteRow ..).res_stop _

theorem Canonical.rowWritable {s : State} (h : Canonical s) (t : Nat) (us : List UnitAt) : Canonical (rowWritable t us s).2 := by
  unfold Machine.rowWritable
  split
  · exact h.res_stop _
  · exact h

theorem Canonical.writeRow {s : State} (h : Canonical s) (t : Nat) (us : List UnitAt) (l : List Byte) :
    Canonical (s.writeRow t us l) := by
  fun_induction State.writeRow s t us l <;> grind [Canonical.writeScratch]

theorem Canonical.endOp {s : State} (h : Canonical s) (t : Nat) (e : Engine) (o : Op) (how : OpEnd) :
    Canonical (s.endOp t e o how) := by
  unfold State.endOp
  split
  · dsimp only
    split
    · exact h.setTile _ (Tile.canon_setEng (h.tile _) ..)
    · exact h.setTile _ (Tile.canon_setEng (h.tile _) ..)
  dsimp only
  split
  · exact h.setTile _ (Tile.canon_setEng (h.tile _) ..)
  · exact h.setTile _ (Tile.canon_setEng (h.tile _) ..)

theorem Canonical.setOp {s : State} (h : Canonical s) (t : Nat) (e : Engine) (o : Op) : Canonical (s.setOp t e o) := h.setEngAt ..

theorem Canonical.finishOp {s : State} (h : Canonical s) (t : Nat) (e : Engine) (o : Op) (how : OpEnd) :
    Canonical (s.finishOp t e o how) := by
  unfold State.finishOp
  split
  · exact h.endOp ..
  · exact ((h.endOp ..).ite (h.setOp ..)).ite ((h.setQueue ..).endOp ..)

theorem Canonical.poisonRowGo {s : State} (h : Canonical s) (t : Nat) (us : List UnitAt) :
    Canonical (State.poisonRow.go t us s) :=
  h.setTile _ (h.tile _)

theorem Canonical.poisonRow {s : State} (h : Canonical s) (t : Nat) (o : Op) : Canonical (s.poisonRow t o) := by
  unfold State.poisonRow
  split
  · exact h.poisonRowGo ..
  · exact h.poisonRowGo ..
  · exact h

theorem Canonical.opFault {s : State} (h : Canonical s) (t : Nat) (e : Engine) (o : Op) (f : FaultRec) :
    Canonical (s.opFault t e o f) := by
  unfold State.opFault
  extract_lets o f' s1 s2 q s3
  have h1 : Canonical s1 := h.setTile _ (Tile.canon_settle (h.tile _) ..)
  have h2 : Canonical s2 := (h1.poisonRow ..).ite h1
  have h3 : Canonical s3 := ((h2.setOp ..).ite ((h2.setQueue ..).setOp ..)).ite (h2.setOp ..)
  exact (h1.setOp ..).ite (h3.takeFault ..)

theorem Canonical.missOp {s : State} (h : Canonical s) (t : Nat) (e : Engine) (o : Op) (tick : Nat) :
    Canonical (s.missOp t e o tick) := (h.opFault ..).traceMiss ..

/-! ## The matrix engine -/

theorem Canonical.opAccRow {s : State} (h : Canonical s) (o : Op) (x : Opd) : Canonical (Op.accRow o x s).2 :=
  (h.res_stop _).ite_res h

theorem Canonical.noteAcc {s : State} (h : Canonical s) (t r : Nat) : Canonical (s.noteAcc t r) := by
  unfold State.noteAcc
  dsimp only
  split
  · exact h
  refine (h.setTile _ ?_).countCes ..
  exact h.tile _

theorem Canonical.accWordsOf {s : State} (h : Canonical s) (t r : Nat) : Canonical (accWordsOf t r s).2 := by
  unfold Machine.accWordsOf
  dsimp only
  split
  · exact ((h.noteAcc ..).countUe _).res_stop _
  · exact h.noteAcc ..

theorem TileMem.Canon.writeAcc {m : TileMem} (h : m.Canon) (r : Nat) (ws : List Nat) : (m.writeAcc r ws).Canon := by
  unfold TileMem.writeAcc
  refine TileMem.canon_foldl (fun _ _ h => ?_) _ h
  exact h

theorem Canonical.setMemOf {s : State} (h : Canonical s) (t : Nat) {m : TileMem} (hm : m.Canon) : Canonical (s.setMemOf t m) :=
  h.setTile t hm

theorem TileMem.Canon.clearShadow {m : TileMem} (h : m.Canon) (fmt : SMap Word) (f sp : Nat) :
    (m.clearShadow fmt f sp).Canon := by
  obtain ⟨h1, h2, h3, h4, -, -⟩ := TileMem.canon_iff.1 h
  exact TileMem.canon_iff.2 ⟨h1, h2, h3, h4, rfl, rfl⟩

theorem TileMem.Canon.writeShadow {m : TileMem} (hm : m.Canon) (fmt : SMap Word) (f k : Nat) (ent : Nat → Nat) (row : Nat) :
    (m.writeShadow fmt f k ent row).Canon := hm

theorem TileMem.Canon.writeSide {m : TileMem} (h : m.Canon) (meta_ : Bool) (l : List Byte) : (m.writeSide meta_ l).Canon := by
  have hl : (Memory.setBytes [] 0 l).wf = true := Memory.wf_setBytes rfl
  obtain ⟨h1, h2, h3, h4, h5, h6⟩ := TileMem.canon_iff.1 h
  cases meta_ with
  | false => exact TileMem.canon_iff.2 ⟨h1, h2, h3, h4, hl, h6⟩
  | true => exact TileMem.canon_iff.2 ⟨h1, h2, h3, h4, h5, hl⟩

theorem TileMem.Canon.swapPlanes {m : TileMem} (h : m.Canon) : m.swapPlanes.Canon := by
  obtain ⟨h1, h2, h3, h4, h5, h6⟩ := TileMem.canon_iff.1 h
  exact TileMem.canon_iff.2 ⟨h1, h2, h5, h6, h3, h4⟩

theorem Canonical.iterWload {s : State} (h : Canonical s) (t : Nat) (o : Op) : Canonical (iterWload t o s).2 := by
  unfold Machine.iterWload
  refine (h.opRow ..).bind fun a s h => ?_
  refine ((h.res_ok _).ite_res (h.opRow ..)).bind fun a s h => ?_
  refine (h.readRow ..).bind fun a s h => ?_
  refine (h.readRow ..).bind fun a s h => ?_
  refine h.setMemOf _ ?_
  split
  · split
    · exact TileMem.Canon.writeShadow (h.tile _) ..
    · exact TileMem.Canon.writeSide (TileMem.Canon.writeShadow (h.tile _) ..) ..
  split
  · split
    · exact TileMem.Canon.writeShadow (h.tile _) ..
    · exact TileMem.Canon.writeSide (TileMem.Canon.writeShadow (h.tile _) ..) ..
  split
  · exact TileMem.Canon.writeShadow (h.tile _) ..
  · exact TileMem.Canon.writeSide (TileMem.Canon.writeShadow (h.tile _) ..) ..

theorem Canonical.iterWswap {s : State} (h : Canonical s) (t : Nat) : Canonical (iterWswap t s).2 :=
  h.setMemOf _ (TileMem.Canon.swapPlanes (h.tile _))

theorem Canonical.passRow {s : State} (h : Canonical s) (t : Nat) (o : Op) (row : List Byte) : Canonical (s.passRow t o row) := by
  unfold State.passRow
  split
  · split
    · dsimp only
      split
      · refine (h.setMemOf _ ?_).setMemOf _ ?_
        · exact h.tile _
        · refine (h.setMemOf _ ?_).tile _
          exact h.tile _
      · exact h.setMemOf _ (h.tile _)
    · exact Canonical.ite (h.setMemOf _ (h.tile _)) h
  · exact h

theorem Canonical.readPreload {s : State} (h : Canonical s) (t : Nat) (o : Op) (f : Nat) (l : List Nat) :
    Canonical (readPreload t o f l s).2 := by
  induction l generalizing s with
  | nil => exact h
  | cons k ks ih =>
    exact (h.opRow ..).bind fun _ _ hs => (hs.readRow ..).bind fun _ _ hs => (ih hs).bind fun _ _ hs => hs

theorem Canonical.boundPreload {s : State} (h : Canonical s) (o : Op) (f : Nat) (l : List Nat) :
    Canonical (boundPreload o f l s).2 := by
  induction l generalizing s with
  | nil => exact h
  | cons k ks ih => exact (h.opRow ..).bind fun _ s hs => ih hs

theorem Canonical.opGroupBase {s : State} (h : Canonical s) (o : Op) (p : Plane) : Canonical (Op.groupBase o p s).2 :=
  ((h.res_stop _).ite_res ((h.res_stop _).ite_res h)).ite_res h

theorem Canonical.notePass {s : State} (h : Canonical s) (t : Nat) (p : Plane) (g0 : Nat) : Canonical (s.notePass t p g0) := by
  unfold State.notePass
  dsimp only
  split
  · exact h
  refine (h.setTile _ ?_).countCes ..
  exact h.tile _

theorem Canonical.readActivations {s : State} (h : Canonical s) (t : Nat) (o : Op) (f n : Nat) (ua : List UnitAt) :
    Canonical (readActivations t o f n ua s).2 := h.ite_res ((h.readRow ..).bind (fun _ _ h => h))

theorem Canonical.passWrites {s : State} (h : Canonical s) (t : Nat) (o : Op) (r : Nat) (new : List Nat) (fb : Nat)
    (pre : List (Nat × (Nat → Nat) × Nat)) (scales row : List Byte) : Canonical (s.passWrites t o r new fb pre scales row) := by
  unfold State.passWrites
  extract_lets m1 m2 m3
  have h2 : m2.Canon := TileMem.canon_foldl (fun _ _ hm => hm.writeShadow ..) pre ((h.tile t).writeAcc r new)
  have h3 : m3.Canon := by
    unfold m3
    split
    · exact h2
    · exact h2.writeSide ..
  exact (h.setMemOf t h3).passRow ..

theorem Canonical.iterPass {s : State} (h : Canonical s) (t : Nat) (o : Op) : Canonical (iterPass t o s).2 := by
  unfold Machine.iterPass
  split
  · exact h
  · refine Canonical.bind (h.ite_res (h.opRow ..)) fun ua s h => ?_
    refine (h.opAccRow ..).bind fun r s h => ?_
    refine Canonical.bind (h.ite_res (h.opGroupBase ..)) fun g0 s h => ?_
    refine (h.boundPreload ..).bind fun _ s h => ?_
    refine Canonical.bind (h.ite_res (h.opRow ..)) fun us s h => ?_
    refine (h.readActivations ..).bind fun a s h => (h.accWordsOf ..).bind fun old s h => ?_
    dsimp only
    split
    · exact Canonical.countUe (h.notePass ..) t
    · refine (Canonical.readPreload (h.notePass ..) ..).bind fun pre s h => (h.readRow ..).bind fun scales s h => ?_
      refine Canonical.passWrites (s := { s with choices := _ }) ?_ ..
      exact { h with }

theorem Canonical.iterDrain {s : State} (h : Canonical s) (t : Nat) (o : Op) : Canonical (iterDrain t o s).2 :=
  (h.opAccRow ..).bind fun _ _ h => (h.opRow ..).bind fun _ _ h =>
    (h.accWordsOf ..).bind fun _ _ h => (h.rowWritable ..).bind fun _ _ h => h.writeRow ..

theorem Canonical.iterZero {s : State} (h : Canonical s) (t : Nat) (o : Op) : Canonical (iterZero t o s).2 :=
  (h.opAccRow ..).bind fun _ _ h => h.setMemOf _ (TileMem.Canon.writeAcc (h.tile _) ..)

theorem Canonical.iterMcopy {s : State} (h : Canonical s) (t : Nat) (o : Op) : Canonical (iterMcopy t o s).2 :=
  (h.opRow ..).bind fun _ _ h => (h.opRow ..).bind fun _ _ h => (h.readRow ..).bind fun _ _ h =>
    (h.rowWritable ..).bind fun _ _ h => h.writeRow ..

theorem Canonical.readEpilogue {s : State} (h : Canonical s) (t : Nat) (o : Op) : Canonical (readEpilogue t o s).2 := by
  unfold Machine.readEpilogue
  refine h.ite_res ((h.res_stop _).ite_res ?_)
  dsimp only
  split
  · exact (h.noteRead ..).res_stop _
  · exact ((h.noteRead ..).res_stop _).ite_res (h.noteRead ..)

theorem Canonical.startMatrix {s : State} (h : Canonical s) (t : Nat) (o : Op) : Canonical (startMatrix t o s).2 := by
  have hm := fun f a b => h.setMemOf t ((h.tile t).clearShadow f a b)
  have he := h.readEpilogue t o
  unfold Machine.startMatrix
  split
  · exact hm ..
  · exact .ite (hm ..) h
  · exact he.bind fun _ _ h => h
  · refine he.bind fun e u hu => ?_
    split
    · exact hu
    · exact hu.setMemOf t (h.tile t)
  · exact h

/-! ## The copy engines -/

theorem Canonical.readBlock {s : State} (h : Canonical s) (t off : Nat) : Canonical (readBlock t off s).2 := by
  unfold Machine.readBlock
  refine (h.res_stop _).ite_res ?_
  dsimp only
  split
  · exact (h.noteRead ..).res_stop _
  · exact h.noteRead ..

theorem Canonical.racedBytes {s : State} (h : Canonical s) (part va : Nat) (l : List DsetRec) (b : List Byte) :
    Canonical (racedBytes part va l b s).2 := by
  fun_induction Machine.racedBytes part va l b s <;> grind [Canonical.draw]

theorem Canonical.startLayout {s : State} (h : Canonical s) (t : Nat) (o : Op) (b : Transfer) :
    Canonical (startLayout t o b s).2 := by
  unfold Machine.startLayout
  dsimp only
  split
  · rename_i e
    exact Canonical.of_eq e (h.nodeRead ..)
  rename_i e
  have hu := Canonical.of_eq e (h.nodeRead ..)
  split
  · exact (hu.racedBytes ..).res_stop _
  · exact hu.racedBytes ..

theorem Canonical.rsigStart {s : State} (h : Canonical s) (t : Nat) (o : Op) (b : Transfer) (d : Layout) :
    Canonical (rsigStart t o b d s).2 := by
  unfold Machine.rsigStart
  dsimp only
  split
  · refine (h.res_stop _).ite_res ?_
    split
    · exact h
    · exact (h.setEngAt ..).res_stop _
  · exact h.res_stop _

theorem Canonical.remoteStart {s : State} (h : Canonical s) (t : Nat) (b : Transfer) (acc : Nat) :
    Canonical (remoteStart t b acc s).2 := (h.res_stop _).ite_res ((h.res_stop _).ite_res ((h.res_stop _).ite_res h))

theorem Canonical.startPlaced {s : State} (h : Canonical s) (t : Nat) (o : Op) (b : Transfer) :
    Canonical (startPlaced t o b s).2 := by
  unfold Machine.startPlaced
  refine (h.startLayout ..).bind fun a s h => ?_
  refine (h.res_stop _).ite_res ?_
  split
  · exact h.res_stop _
  split
  · exact h.res_stop _
  split
  · exact (h.rsigStart ..).bind fun _ _ h => h
  · exact h
  · exact h

theorem Canonical.startCopy {s : State} (h : Canonical s) (t : Nat) (o : Op) : Canonical (startCopy t o s).2 := by
  unfold Machine.startCopy
  refine (h.readBlock ..).bind fun a s h => ?_
  split
  · exact h
  refine (h.res_stop _).ite_res ?_
  split
  · exact (h.remoteStart ..).bind fun _ _ h => h
  · exact (h.remoteStart ..).bind fun _ _ h => h
  · exact h.startPlaced ..

theorem Canonical.opIndex {s : State} (h : Canonical s) (t : Nat) (o : Op) : Canonical (Op.index t o s).2 := by
  unfold Op.index
  refine Canonical.ite_res ?_ h
  split
  · dsimp only
    split
    · exact (h.noteRead ..).res_stop _
    · exact h.noteRead ..
  · exact h

theorem Canonical.opPlaces {s : State} (h : Canonical s) (o : Op) (x : Opd) (d : Layout) (b : Transfer) (ix : Int) :
    Canonical (Op.places o x d b ix s).2 := by
  unfold Op.places
  refine (h.res_stop _).ite_res ?_
  split
  · exact h
  · exact h.res_stop _

theorem Canonical.pageMap {s : State} (h : Canonical s) (d part : Nat) (acc : Access) (l : List Nat)
    (m : List (Nat × Option Nat)) : Canonical (pageMap d part acc l m s).2 := by
  induction l generalizing m s with
  | nil => exact h
  | cons a l ih =>
    unfold Machine.pageMap
    split
    · exact ih h m
    · exact (h.nodeTranslate ..).bind fun _ _ hs => ih hs _

theorem Canonical.memPoison {s : State} (h : Canonical s) (m : List (Nat × Option Nat)) (acc : Access) (as : List Nat) :
    Canonical (memPoison m acc as s).2 := by
  unfold Machine.memPoison
  refine h.ite_res ?_
  split
  · exact h.res_stop _
  · exact h

theorem Canonical.windowPlaces {s : State} (h : Canonical s) (part : Nat) (write : Bool) (l : List Nat) :
    Canonical (windowPlaces part write l s).2 := by
  induction l generalizing s with
  | nil => exact h
  | cons a l ih =>
    unfold Machine.windowPlaces
    split
    · exact h
    · exact (ih h).bind fun _ _ hs => hs

theorem Canonical.hostStop {α : Type} {s : State} (h : Canonical s) (off host n : Nat) :
    Canonical (hostStop (α := α) off host n s).2 := h

theorem Canonical.fabricStop {α : Type} {s : State} (h : Canonical s) (t m off : Nat) :
    Canonical (fabricStop (α := α) t m off s).2 :=
  h

theorem Canonical.cardCheck {s : State} (h : Canonical s) (part : Nat) (l : List (Nat × Nat)) :
    Canonical (cardCheck part l s).2 := by
  fun_induction Machine.cardCheck part l s <;> grind [Canonical.refuse, Canonical.res_stop]

theorem Canonical.readWindow {s : State} (h : Canonical s) (part : Nat) (granted : Bool) (as : List Nat) :
    Canonical (readWindow part granted as s).2 :=
  (h.windowPlaces ..).bind fun _ _ h =>
    (h.hostStop ..).ite_res ((h.cardCheck ..).bind (fun _ _ h => h))

theorem Canonical.readFar {s : State} (h : Canonical s) (d part m : Nat) (l : List Nat) : Canonical (readFar d part m l s).2 := by
  induction l generalizing s with
  | nil => exact h
  | cons a l ih =>
    have hr := h.farRead d part m a 1
    unfold Machine.readFar
    split
    · rename_i e; rw [e] at hr; exact hr
    · rename_i e; rw [e] at hr; exact (ih hr).bind fun _ _ hs => hs

theorem Canonical.readPlaces {s : State} (h : Canonical s) (t : Nat) (d : Layout) (granted : Bool) (as : List Nat) :
    Canonical (readPlaces t d granted as s).2 := by
  unfold Machine.readPlaces
  refine h.ite_res ?_
  split
  · exact (h.pageMap ..).bind fun _ _ h => (h.memPoison ..).bind fun _ _ h => h
  · exact h.readWindow ..
  split
  · exact h.res_stop _
  · exact (h.readFar ..).ite_res (h.fabricStop ..)

theorem Canonical.opLoadRow {s : State} (h : Canonical s) (o : Op) : Canonical (Op.loadRow o s).2 := by
  unfold Op.loadRow
  split
  · exact h
  · exact h.res_stop _

theorem Canonical.iterLoad {s : State} (h : Canonical s) (t : Nat) (o : Op) (d : Layout) (b : Transfer) (granted : Bool) :
    Canonical (iterLoad t o d b granted s).2 :=
  (h.opLoadRow _).bind fun _ _ h => (h.opIndex ..).bind fun _ _ h =>
    (h.opPlaces ..).bind fun _ _ h => (h.readPlaces ..).bind fun _ _ h =>
    (h.rowWritable ..).bind fun _ _ h => h.writeRow ..

theorem Canonical.iterSload {s : State} (h : Canonical s) (t : Nat) (o : Op) (d : Layout) (b : Transfer) (granted : Bool) :
    Canonical (iterSload t o d b granted s).2 := by
  unfold Machine.iterSload
  dsimp only
  split
  · exact h
  · refine (h.opPlaces ..).bind fun ps s h => (h.readPlaces ..).bind fun bs s h => ?_
    obtain ⟨h1, h2, hrest⟩ := TileMem.canon_iff.1 (h.tile t)
    exact h.setMemOf t (TileMem.canon_iff.2 ⟨h1, Memory.wf_setBytes h2, hrest⟩)

theorem Canonical.readMembers {s : State} (h : Canonical s) (d part f : Nat) (ps : Places) (l : List Nat) :
    Canonical (readMembers d part f ps l s).2 := by
  induction l generalizing s with
  | nil => exact h
  | cons m ms ih => exact (h.readFar ..).bind fun _ _ hs => (ih hs).bind fun _ _ hs => hs

theorem Canonical.iterMcred {s : State} (h : Canonical s) (t : Nat) (o : Op) (d : Layout) (b : Transfer) (granted : Bool) :
    Canonical (iterMcred t o d b granted s).2 := by
  unfold Machine.iterMcred
  refine (h.opLoadRow _).bind fun a s h => ?_
  refine (h.opPlaces ..).bind fun a s h => ?_
  dsimp only
  split
  · exact h.res_stop _
  refine (h.fabricStop ..).ite_res ((h.readMembers ..).bind (fun a s h => ?_))
  exact (h.rowWritable ..).bind fun _ _ h => h.writeRow ..

theorem Canonical.opRawRow {s : State} (h : Canonical s) (o : Op) (x : Opd) (n : Nat) : Canonical (Op.rawRow o x n s).2 := by
  unfold Op.rawRow
  split
  · exact h
  · exact h.res_stop _

theorem Canonical.iterFill {s : State} (h : Canonical s) (t : Nat) (o : Op) : Canonical (iterFill t o s).2 :=
  (h.opRawRow ..).bind fun _ _ h => (h.rowWritable ..).bind fun _ _ h => h.writeRow ..

theorem Canonical.opRemoteOff {s : State} (h : Canonical s) (o : Op) (x : Opd) (b : Transfer) :
    Canonical (Op.remoteOff o x b s).2 :=
  (h.res_stop _).ite_res h

theorem Canonical.iterXpull {s : State} (h : Canonical s) (t : Nat) (o : Op) (b : Transfer) : Canonical (iterXpull t o b s).2 :=
  (h.opRawRow ..).bind fun _ _ h => (h.opRemoteOff ..).bind fun _ _ h =>
    (h.readRow ..).bind fun _ _ h => (h.rowWritable ..).bind fun _ _ h => h.writeRow ..

theorem Canonical.iterXpush {s : State} (h : Canonical s) (t : Nat) (o : Op) (b : Transfer) : Canonical (iterXpush t o b s).2 :=
  (h.opRawRow ..).bind fun _ _ h => (h.opRemoteOff ..).bind fun _ _ h =>
    (h.rowWritable ..).bind fun _ _ h => (h.readRow ..).bind fun _ _ h => h.writeRow ..

theorem Canonical.postRow {s : State} (h : Canonical s) (t m : Nat) (l : List ByteWrite) : Canonical (s.postRow t m l) := by
  unfold State.postRow
  split
  · exact h
  · exact { h with }

theorem Canonical.storeDest {s : State} (h : Canonical s) (t : Nat) (d : Layout) (granted : Bool) (as part_ : List Nat) :
    Canonical (storeDest t d granted as part_ s).2 := by
  unfold Machine.storeDest
  split
  · exact (h.pageMap ..).bind fun _ _ h => h
  · refine (h.windowPlaces ..).bind fun a s h => ?_
    exact (h.windowPlaces ..).bind fun _ _ h =>
      (h.hostStop ..).ite_res ((h.cardCheck ..).bind (fun _ _ h => h))
  split
  · exact h.res_stop _
  · exact h

theorem Part.pubRow_sched (p : Part) (host : Memory) (done : List Nat) (l : List ((Nat × ByteWrite) × Nat)) :
    (p.pubRow host done l).1.sched = p.sched := by
  fun_induction Part.pubRow p host done l <;> grind [Part.pubByte_sched]

theorem Canonical.storeRow {s : State} (h : Canonical s) (t : Nat) (o : Op) (dst : Dest) (l : List ByteWrite) :
    Canonical (s.storeRow t o dst l).2 := by
  cases dst with
  | mem m => exact h.mergeRow _
  | far m => exact h.postRow ..
  | window hs =>
    have hp : ∀ l, Canonical (s.setPart (s.tile t).partNo ((s.part (s.tile t).partNo).pubRow s.host o.entered l).1) := fun l =>
      h.setPart _ (by rw [Part.pubRow_sched]; exact h.part _)
    unfold State.storeRow
    dsimp only
    split <;> exact hp _

theorem Canonical.opStoreUnits {s : State} (h : Canonical s) (o : Op) (d : Layout) (b : Transfer) :
    Canonical (Op.storeUnits o d b s).2 := by
  unfold Op.storeUnits
  refine h.ite_res ?_
  split
  · exact h
  · exact h.res_stop _

theorem Canonical.opStoreCodes {s : State} (h : Canonical s) (t : Nat) (o : Op) (b : Transfer) (fd : Nat) (ua : List UnitAt) :
    Canonical (Op.storeCodes t o b fd ua s).2 := by
  unfold Op.storeCodes
  refine Canonical.ite_res ?_ ((h.readRow ..).bind (fun a s h => ?_))
  · split
    · exact (h.accWordsOf ..).bind fun _ _ h => h
    · exact h
  · exact h

theorem Canonical.iterStore {s : State} (h : Canonical s) (t : Nat) (o : Op) (d : Layout) (b : Transfer) (granted : Bool) :
    Canonical (iterStore t o d b granted s).2 :=
  (h.opStoreUnits ..).bind fun _ _ h => (h.opIndex ..).bind fun _ _ h =>
    (h.opPlaces ..).bind fun _ _ h => (h.storeDest ..).bind fun _ _ h =>
    (h.opStoreCodes ..).bind fun _ _ h => h.storeRow ..

theorem Canonical.reduceRow {s : State} (h : Canonical s) (m : List (Nat × Option Nat)) (rop : Nat) (sat : Bool) (ps : Places)
    (l : List Nat) : Canonical (s.reduceRow m rop sat ps l) := by
  fun_induction State.reduceRow s m rop sat ps l with
  | case1 _ _ _ _ _ _ _ _ ih => exact ih (h.mergeRow _)
  | case2 _ _ _ _ ih => exact ih h
  | case3 => exact h

theorem Canonical.iterTred {s : State} (h : Canonical s) (t : Nat) (o : Op) (d : Layout) (b : Transfer) :
    Canonical (iterTred t o d b s).2 :=
  (h.opStoreUnits ..).bind fun _ _ h => (h.opPlaces ..).bind fun _ _ h =>
    (h.pageMap ..).bind fun _ _ h => (h.memPoison ..).bind fun _ _ h =>
    (h.opStoreCodes ..).bind fun _ _ h => h.reduceRow ..

theorem Canonical.iterRsig {s : State} (h : Canonical s) (t : Nat) (o : Op) (d : Layout) (b : Transfer) :
    Canonical (iterRsig t o d b s).2 := by
  unfold Machine.iterRsig
  split
  · exact h.res_stop _
  split
  · split
    · exact h
    · exact { h with }
  · exact h.res_stop _

theorem Canonical.iterCopy {s : State} (h : Canonical s) (t : Nat) (o : Op) (granted : Bool) :
    Canonical (iterCopy t o granted s).2 := by
  unfold Machine.iterCopy
  split
  · exact h.iterFill ..
  · exact h.iterXpull ..
  · exact h.iterXpush ..
  · exact h.iterSload ..
  · exact h.iterMcred ..
  · exact h.iterTred ..
  · exact h.iterRsig ..
  · exact h.iterStore ..
  · exact h.iterStore ..
  · exact h.iterStore ..
  · exact h.iterLoad ..
  · exact h

/-! ## Events of the engines -/

theorem Canonical.execBlockedInstructionRetry {s : State} (h : Canonical s) (t : TileId) (c : CoreId) :
    Out.Canon (execBlockedInstructionRetry t c s) := by
  unfold Machine.execBlockedInstructionRetry
  split
  · dsimp only
    split
    · refine Canonical.sigwaitTurn ?_ ..
      exact { h with }
    · refine Canonical.cellTurn ?_ ..
      exact { h with }
    split
    · exact { h.setCoreAt .. with }
    · exact h
  · exact h

theorem Canonical.startOp {s : State} (h : Canonical s) (t : Nat) (o : Op) : Canonical (startOp t o s).2 := by
  unfold Machine.startOp
  split
  · exact h.startMatrix ..
  · exact h.startCopy ..

theorem Canonical.workedEng {s : State} (h : Canonical s) (t : Nat) (e : Engine) : Canonical (s.workedEng t e) := h.setEngAt ..

theorem Canonical.stopOp {s : State} (h : Canonical s) (t : Nat) (e : Engine) (o : Op) (x : Stop) :
    Canonical (s.stopOp t e o x) := by
  unfold State.stopOp
  split
  · exact (h.setOp ..).workedEng ..
  · exact (h.setOp ..).workedEng ..
  · exact (h.setOp ..).ite ((h.setOp ..).ite (h.opFault ..))

theorem Canonical.setChain {s : State} (h : Canonical s) (t : Nat) (r : Rec) : Canonical (s.setChain t r) :=
  h.setMemOf _ (h.tile _)

theorem Canonical.chainFault {s : State} (h : Canonical s) (x : Nat × Op) : Canonical (s.chainFault x) :=
  (h.setOp ..).ite (h.opFault ..)

theorem Canonical.startChain {s : State} (h : Canonical s) (t : Nat) (o : Op) : Canonical (s.startChain t o) :=
  (((h.setChain ..).finishOp ..).ite h).ite (Canonical.foldl (fun _ _ h => h.chainFault _) _ h)

theorem Canonical.startNow {s : State} (h : Canonical s) (t : Nat) (e : Engine) (o : Op) : Canonical (s.startNow t e o) := by
  have hc := h.countCes t o.recCe.length
  unfold State.startNow
  dsimp only
  split
  · rename_i u hr
    have hu : Canonical u := by
      split at hr
      · exact .of_eq hr (hc.countUe t)
      · exact .of_eq hr (hc.startOp ..)
    split
    · exact hu.finishOp ..
    · exact .ite ((hu.setOp ..).startChain ..) (hu.setOp ..)
  · rename_i u hr
    have hu : Canonical u := by
      split at hr
      · exact .of_eq hr (hc.countUe t)
      · exact .of_eq hr (hc.startOp ..)
    exact hu.stopOp ..

theorem Canonical.execOperationStart {s : State} (h : Canonical s) (t : TileId) (e : Engine) :
    Out.Canon (execOperationStart t e s) := by
  unfold Machine.execOperationStart
  dsimp only
  split
  · exact (h.startNow ..).ite h
  · exact h

theorem Canonical.expireStamp {s : State} (h : Canonical s) (t : Nat) (e : Engine) (late : Bool) :
    Canonical (s.expireStamp t e late) := by
  unfold State.expireStamp
  dsimp only
  split
  · exact h.ite ((h.missOp ..).ite (h.ite ((h.startNow ..).ite (h.missOp ..))))
  · exact h

theorem Canonical.expireLate {s : State} (h : Canonical s) : Canonical s.expireLate :=
  Canonical.foldl (fun _ _ h => ((h.expireStamp ..).expireStamp ..).expireStamp ..) _ h

theorem Canonical.countMac {s : State} (h : Canonical s) (t n : Nat) : Canonical (s.countMac t n) := by
  unfold State.countMac
  split
  · split
    · rename_i e
      refine h.putNode _ ?_
      dsimp only
      exact h.findNode e
    · exact h
  · exact h

theorem Canonical.iterOp {s : State} (h : Canonical s) (t : Nat) (o : Op) (granted : Bool) :
    Canonical (iterOp t o granted s).2 := by
  unfold Machine.iterOp
  split
  · exact h.iterWload ..
  · exact h.iterWswap _
  · exact (h.iterPass ..).bind fun _ _ h => h.countMac ..
  · exact (h.iterPass ..).bind fun _ _ h => h.countMac ..
  · exact h.iterDrain ..
  · exact h
  · exact h.iterZero ..
  · exact h.setChain ..
  · exact h.iterMcopy ..
  · exact h.iterCopy ..

theorem Canonical.afterIteration {s : State} (h : Canonical s) (t : Nat) (e : Engine) (o : Op) :
    Canonical (s.afterIteration t e o) :=
  ((h.workedEng ..).finishOp ..).ite ((h.workedEng ..).setOp ..)

theorem Canonical.iterate {s : State} (h : Canonical s) (t : Nat) (e : Engine) (o : Op) (granted : Bool) :
    Canonical (s.iterate t e o granted) := by
  unfold State.iterate
  split
  · exact h.finishOp ..
  split
  · exact h.startNow ..
  split
  · rename_i e1
    exact (Canonical.of_eq e1 (h.iterOp ..)).afterIteration ..
  rename_i e1
  have hu := Canonical.of_eq e1 (h.iterOp ..)
  split
  · exact hu.setOp ..
  split
  · exact hu.finishOp ..
  · exact hu.stopOp ..

theorem Canonical.execEngineIteration {s : State} (h : Canonical s) (t : TileId) (e : Engine) :
    Out.Canon (execEngineIteration t e s) := by
  unfold Machine.execEngineIteration
  dsimp only
  split
  · exact (h.iterate ..).ite h
  · exact h

theorem Canonical.execTokenPendingAppend {s : State} (h : Canonical s) (t : TileId) (e : Engine) :
    Out.Canon (execTokenPendingAppend t e s) := by
  unfold Machine.execTokenPendingAppend
  dsimp only
  split
  · exact h.ite (((h.setQueue ..).setOp ..).ite ((h.setQueue ..).endOp ..))
  · exact h

theorem Canonical.execQueuedCancelComplete {s : State} (h : Canonical s) (t : TileId) (e : Engine) :
    Out.Canon (execQueuedCancelComplete t e s) := by
  unfold Machine.execQueuedCancelComplete
  dsimp only
  split
  · exact (h.finishOp ..).ite h
  · exact h

theorem Canonical.execMchainRendezvous {s : State} (h : Canonical s) (t : TileId) : Out.Canon (execMchainRendezvous t s) := by
  unfold Machine.execMchainRendezvous
  split
  · exact h
  dsimp only
  split
  · exact Canonical.foldl (fun _ _ h => h.chainFault _) _ h
  split
  · exact h.ite (Canonical.foldl (fun _ _ h => (h.setChain ..).finishOp ..) _ h)
  · exact (h.finishOp ..).ite h

theorem Canonical.deadlock {s : State} (h : Canonical s) (t : Nat) (gang : Bool) : Canonical (s.deadlock t gang) := h.takeFault ..

theorem Canonical.execLocalDeadlock {s : State} (h : Canonical s) (t : TileId) : Out.Canon (execLocalDeadlock t s) :=
  (h.deadlock ..).ite h

theorem Canonical.execGangDeadlock {s : State} (h : Canonical s) (p : PartId) (node : VAddr) :
    Out.Canon (execGangDeadlock p node s) := by
  unfold Machine.execGangDeadlock
  split
  · exact (Canonical.foldl (fun _ _ h => h.ite (h.deadlock ..)) _ h).ite h
  · exact h

/-! ## Node records -/

theorem Canonical.schedRead {s : State} (h : Canonical s) (p va n : Nat) : Canonical (s.schedRead p va n).2 := by
  unfold State.schedRead
  split
  · rename_i e
    exact Canonical.of_eq e (h.hubRead ..)
  rename_i e
  exact Canonical.of_eq e (h.hubRead ..)

theorem Canonical.schedWrite {s : State} (h : Canonical s) (p rcd va v : Nat) : Canonical (s.schedWrite p rcd va v) := by
  unfold State.schedWrite
  split
  · rename_i e
    exact Canonical.of_eq e (h.hubWrite ..)
  rename_i e
  exact (Canonical.of_eq e (h.hubWrite ..)).post ..

theorem Canonical.schedDw {s : State} (h : Canonical s) (p va d : Nat) : Canonical (s.schedDw p va d).2 := by
  unfold State.schedDw
  split
  · rename_i e
    exact Canonical.of_eq e (h.schedRead ..)
  rename_i e
  exact Canonical.of_eq e (h.schedRead ..)

theorem Canonical.writeNode {s : State} (h : Canonical s) (p : Nat) {n : Node} (hn : TilesCanon n.saves) :
    Canonical (s.writeNode p n) := (h.putNode _ hn).schedWrite ..

theorem Canonical.writeReady {s : State} (h : Canonical s) (p : Nat) (n : Node) : Canonical (s.writeReady p n) := h.schedWrite ..

theorem Canonical.writePred {s : State} (h : Canonical s) (p : Nat) {n : Node} (hn : TilesCanon n.saves) :
    Canonical (s.writePred p n) :=
  Canonical.schedWrite (Canonical.putNode (h.schedDw ..) p hn) ..

theorem Canonical.loadSucc {s : State} (h : Canonical s) (p : Nat) (n : Node) : Canonical (loadSucc s p n).2 := by
  unfold Machine.loadSucc
  split
  · exact h
  split
  · rename_i e; exact Canonical.of_eq e (h.schedRead ..)
  · rename_i e; exact Canonical.of_eq e (h.schedRead ..)

theorem loadSucc_saves {s t : State} {p : Nat} {n m : Node} (e : loadSucc s p n = (.ok m, t)) : m.saves = n.saves := by
  unfold loadSucc at e
  split at e
  · cases e; rfl
  split at e
  · cases e; rfl
  · cases e

theorem Canonical.loadFmt {s : State} (h : Canonical s) (p : Nat) (n : Node) : Canonical (loadFmt s p n).2 := by
  unfold Machine.loadFmt
  split
  · exact h
  split
  · rename_i e; exact Canonical.of_eq e (h.schedRead ..)
  · rename_i e; exact Canonical.of_eq e (h.schedRead ..)

theorem loadFmt_saves {s t : State} {p : Nat} {n m : Node} (e : loadFmt s p n = (.ok m, t)) : m.saves = n.saves := by
  unfold loadFmt at e
  split at e
  · cases e; rfl
  split at e
  · cases e; rfl
  · cases e

theorem Canonical.loadNode {s : State} (h : Canonical s) (p : Nat) (n : Node) : Canonical (loadNode s p n).2 := by
  grind [Machine.loadNode, Canonical.schedRead, Canonical.loadSucc, Canonical.loadFmt]

theorem loadNode_saves {s t : State} {p : Nat} {n m : Node} (e : loadNode s p n = (.ok m, t)) : m.saves = n.saves := by
  unfold loadNode at e
  split at e
  · nomatch e
  · dsimp only at e
    generalize malformedRecord _ _ _ = b at e
    split at e
    · nomatch e
    · split at e
      · nomatch e
      · rename_i n1 s1 h1
        generalize malformedList _ _ _ = b at e
        split at e
        · nomatch e
        · split at e
          · nomatch e
          · rename_i n2 s2 h2
            have h3 : m = n2 := by cases e; rfl
            rw [h3, loadFmt_saves h2, loadSucc_saves h1]

theorem mem_of_topNode {l : List Node} {n : Node} (e : topNode l = some n) : n ∈ l := by
  induction l generalizing n with
  | nil => cases e
  | cons m l ih => grind [topNode]

theorem mem_of_head {x : Sched} {n : Node} (e : x.head = some n) : n ∈ x.nodes := List.mem_of_mem_filter (mem_of_topNode e)

theorem topNode_canon {l : List Node} (h : NodesCanon l) {n : Node} (e : topNode l = some n) : TilesCanon n.saves :=
  h n (mem_of_topNode e)

theorem Sched.canon_ranked {x : Sched} (h : NodesCanon x.nodes) : NodesCanon x.ranked := h.filter _

theorem Sched.canon_head {x : Sched} (h : NodesCanon x.nodes) {n : Node} (e : x.head = some n) : TilesCanon n.saves :=
  h n (mem_of_head e)

theorem Sched.canon_leave {x : Sched} (hx : NodesCanon x.nodes) (n : Nat) : NodesCanon (x.leave n).nodes := hx

theorem Canonical.setDebug {s : State} (h : Canonical s) (p : Nat) (d : Debug) : Canonical (s.setDebug p d) :=
  h.setPart _ (h.part _)

theorem Canonical.msix {s : State} (h : Canonical s) (v : Nat) : Canonical (s.msix v) := { h with }

theorem Canonical.addHit {s : State} (h : Canonical s) (p : Nat) (h1 : Hit) : Canonical (s.addHit p h1) :=
  ((h.setDebug ..).msix _).ite (h.setDebug ..)

theorem Canonical.dropHits {s : State} (h : Canonical s) (p : Nat) (f : Hit → Bool) : Canonical (s.dropHits p f) :=
  ((h.setDebug ..).msix _).ite (h.setDebug ..)

theorem Canonical.dropNodeHits {s : State} (h : Canonical s) (p n : Nat) : Canonical (s.dropNodeHits p n) := h.dropHits ..

theorem Canonical.writeHeader {s : State} (h : Canonical s) (p : Nat) (g : Graph) (gstate : Nat) (walk : Bool) (remain : Nat) :
    Canonical (s.writeHeader p g gstate walk remain) := by
  unfold State.writeHeader
  refine Canonical.schedWrite ?_ ..
  split
  · rename_i e
    exact Canonical.of_eq e (h.schedRead ..)
  rename_i e
  exact Canonical.of_eq e (h.schedRead ..)

theorem Canonical.countGraph {s : State} (h : Canonical s) (p : Nat) : Canonical (s.countGraph p) := (h.setDebug ..).ite h

theorem Canonical.checkGraph {s : State} (h : Canonical s) (p ga : Nat) : Canonical (s.checkGraph p ga) := by
  unfold State.checkGraph
  extract_lets x
  split
  · exact h
  extract_lets l all gs s1 s2 s3 x3 s4
  have h1 : Canonical s1 := h.schedWrite ..
  have h2 : Canonical s2 := h1.writeHeader ..
  have h3 : Canonical s3 := h2.schedWrite ..
  clear_value s3
  have h4 : Canonical s4 := h3.setSched p ((h3.part p).filter _)
  clear_value s4
  split
  · exact (h4.post ..).countGraph p
  · exact h

theorem Canonical.endNode {s : State} (h : Canonical s) (p : Nat) (n : Node) (st : NState) (walk : Bool) :
    Canonical (s.endNode p n st walk) := by
  unfold State.endNode
  extract_lets n' s1 s2
  have h1 : Canonical s1 := (h.writeNode p TilesCanon.nil).dropNodeHits ..
  have h2 : Canonical s2 := h1.setSched p (Sched.canon_leave (h1.part p) _)
  clear_value s2
  split
  · exact h2.setSched p ((h2.part p).filter _)
  · split
    · refine Canonical.checkGraph (h2.setSched p ?_) ..
      exact h2.part p
    · exact h2.checkGraph ..

theorem Canonical.cancelNode {s : State} (h : Canonical s) (p : Nat) (n : Node) : Canonical (s.cancelNode p n) := h.endNode ..

theorem Canonical.enterPool {s : State} (h : Canonical s) (p : Nat) {n : Node} (hn : TilesCanon n.saves) :
    Canonical (s.enterPool p n) := by
  unfold State.enterPool
  split
  · refine (h.setSched _ ?_).putNode _ ?_
    · exact h.part _
    · exact hn
  refine ((h.setSched _ ?_).writeReady ..).writeNode _ ?_
  · exact h.part _
  · exact hn

theorem Canonical.takeIn {s : State} (h : Canonical s) (p : Nat) {n : Node} (hn : TilesCanon n.saves) :
    Canonical (s.takeIn p n) := by
  have hl := h.loadNode p n
  unfold State.takeIn
  split
  · exact h.enterPool p hn
  split
  · rename_i e
    exact Canonical.enterPool (.of_eq e hl) p (loadNode_saves e ▸ hn)
  · rename_i e
    exact ((Canonical.of_eq e hl).endNode ..).post ..
  · rename_i e
    exact (Canonical.of_eq e hl).endNode ..

theorem Canonical.makeReady {s : State} (h : Canonical s) (p : Nat) {n : Node} (hn : TilesCanon n.saves) :
    Canonical (s.makeReady p n) := by
  unfold State.makeReady
  refine (h.writeNode _ ?_).setSched _ ?_
  · exact hn
  · refine (h.writeNode _ ?_).part _
    exact hn

theorem Canonical.execNodeFiring {s : State} (h : Canonical s) (p : PartId) (node : VAddr) :
    Out.Canon (execNodeFiring p node s) := by
  unfold Machine.execNodeFiring
  dsimp only
  split
  · rename_i e
    exact (h.takeIn _ (h.findNode e)).ite h
  · exact h

/-! ## The life of a tile -/

theorem Canonical.writeRecord {s : State} (h : Canonical s) (t kind : Nat) (f : FaultRec) (resolved : Bool) :
    Canonical (s.writeRecord t kind f resolved) := by
  unfold State.writeRecord
  split
  · exact h
  dsimp only
  split
  · exact h
  split
  · rename_i e
    exact Canonical.of_eq e (h.hubWrite ..)
  rename_i e
  have hu := Canonical.of_eq e (h.hubWrite ..)
  refine (hu.putNode _ ?_).hubWrite ..
  exact hu.nodeOf _

theorem Canonical.markResolved {s : State} (h : Canonical s) (t : Nat) (f : FaultRec) : Canonical (s.markResolved t f) := by
  unfold State.markResolved
  split
  · exact h
  · exact h.ite (h.hubWrite ..)

theorem Canonical.endPending {s : State} (h : Canonical s) (t : Nat) (e : Engine) (o : Op) (how : OpEnd) (w : W32) :
    Canonical (s.endPending t e o how w) := (h.endOp ..).ite ((h.setQueue ..).endOp ..)

theorem Canonical.tearOp {s : State} (h : Canonical s) (t : Nat) (e : Engine) (o : Op) : Canonical (s.tearOp t e o) := by
  unfold State.tearOp
  split
  · exact h.endPending ..
  · exact h.endOp ..
  · exact h.endPending ..
  · exact h.finishOp ..

theorem Canonical.tearEng {s : State} (h : Canonical s) (t : Nat) (e : Engine) : Canonical (s.tearEng t e) :=
  Canonical.foldl (fun _ _ h => h.tearOp ..) _ h

theorem Canonical.adoptEng {s : State} (h : Canonical s) (t : Nat) (e : Engine) : Canonical (s.adoptEng t e) :=
  (Canonical.foldl (fun _ _ h => (h.tearOp ..).ite h) _ h).setEngAt ..

theorem Tile.canon_haltCores {x : Tile} (hx : x.mem.Canon) : x.haltCores.mem.Canon := hx

theorem Canonical.tearDown {s : State} (h : Canonical s) (t : Nat) (why : EndWhy) : Canonical (s.tearDown t why) := by
  unfold State.tearDown
  extract_lets x l s1 cut s2 y m s3 s4 z n
  have h1 : Canonical s1 := h.setTile t (h.tile t)
  clear_value s1
  have h2 : Canonical s2 := ((h1.adoptEng ..).adoptEng ..).adoptEng ..
  have h3 : Canonical s3 := by
    unfold s3
    split
    · exact .ite h1 (h1.draw.writeRecord ..)
    · exact h1
  clear_value s3 cut
  have h4 : Canonical s4 := ((h3.tearEng ..).tearEng ..).tearEng ..
  clear_value s2 s4
  have h5 := Tile.canon_haltCores (h2.tile t)
  split
  · refine .traceRestart (h2.setTile t ?_) t
    exact h5
  · exact h4.setTile t (Tile.canon_haltCores (h4.tile t))

theorem Canonical.endTile {s : State} (h : Canonical s) (t : Nat) (why : EndWhy) : Canonical (s.endTile t why) :=
  Canonical.ite (h.setTile _ (Tile.canon_drainCores (h.tile _))) (h.tearDown ..)

theorem Canonical.recallSaved {s : State} (h : Canonical s) (n : Node) : Canonical (s.recallSaved n) := by
  unfold State.recallSaved
  refine Canonical.foldl (fun s a h => ?_) _ h
  dsimp only
  split
  · exact h
  split
  · exact h.setTile _ (h.tile _)
  · exact h

theorem Canonical.orphanAway {s : State} (h : Canonical s) (p n : Nat) : Canonical (s.orphanAway p n) := { h with }

theorem Canonical.endAttempt {s : State} (h : Canonical s) (p : Nat) (n : Node) (why : EndWhy) :
    Canonical (s.endAttempt p n why) := by
  unfold State.endAttempt
  refine Canonical.foldl (fun s a h => ?_) _ (((((h.recallSaved _).ite h).orphanAway ..).writeNode _ TilesCanon.nil).dropNodeHits ..)
  exact h.endTile ..

theorem Canonical.pushMark {s : State} (h : Canonical s) (t : Nat) : Canonical (s.pushMark t) := (h.setQueue ..).ite h

theorem Canonical.stopMark {s : State} (h : Canonical s) (t : Nat) : Canonical (s.stopMark t) := (h.pushMark _).ite h

theorem Canonical.freezeRecord {s : State} (h : Canonical s) (t : Nat) : Canonical (s.freezeRecord t) := by
  unfold State.freezeRecord
  split
  · dsimp only
    split
    · exact h
    · exact (h.stopMark _).writeRecord ..
    · exact h.writeRecord ..
    · exact (h.stopMark _).writeRecord ..
    · exact h
  dsimp only
  split
  · exact h.writeRecord ..
  · exact (h.stopMark _).writeRecord ..
  · exact h.writeRecord ..
  · exact (h.stopMark _).writeRecord ..
  · exact h

theorem Canonical.freeze {s : State} (h : Canonical s) (t : Nat) : Canonical (s.freeze t) :=
  (h.traceFlush _).setTile _ ((h.traceFlush _).tile _)

theorem Canonical.execTileFreeze {s : State} (h : Canonical s) (t : TileId) : Out.Canon (execTileFreeze t s) := by
  unfold Machine.execTileFreeze
  split
  · split
    · dsimp only
      split
      · split
        · exact ((h.freeze _).ite ((h.freeze _).freezeRecord _)).tearDown ..
        · exact (h.freeze _).ite ((h.freeze _).freezeRecord _)
      · exact (h.deadlock ..).ite h
    dsimp only
    split
    · split
      · exact ((h.freeze _).ite ((h.freeze _).freezeRecord _)).tearDown ..
      · exact (h.freeze _).ite ((h.freeze _).freezeRecord _)
    · exact (h.setTile _ (Tile.canon_bringToRest (h.tile _) _)).ite h
  · exact h.ite (((h.deadlock ..).ite (h.setTile _ (Tile.canon_bringToRest (h.tile _) _))).ite h)

theorem Canonical.reportFault {s : State} (h : Canonical s) (p : Nat) (n : Node) (rank code : Nat) :
    Canonical (s.reportFault p n rank code) := (h.endAttempt ..).post ..

theorem Canonical.execFaultReport {s : State} (h : Canonical s) (t : TileId) : Out.Canon (execFaultReport t s) := by
  rw [Machine.execFaultReport, Out.canon_next]
  dsimp only
  split
  · exact h
  split
  · exact h
  split
  · exact h
  split
  · split
    · exact h.reportFault ..
    · exact h
  · exact h

theorem Canonical.freeTile {s : State} (h : Canonical s) (t : Nat) : Canonical (s.freeTile t) := by
  have h1 : ∀ l, Canonical { s with posted := l } := fun l => { h with }
  exact (h1 _).setTile t (TileMem.canon_iff.2 ⟨rfl, rfl, rfl, rfl, rfl, rfl⟩)

theorem Canonical.freeTiles {s : State} (h : Canonical s) (n : Node) : Canonical (s.freeTiles n) :=
  Canonical.foldl (fun _ _ h => h.freeTile _) _ h

theorem Canonical.recordCut {s : State} (h : Canonical s) (t : Nat) : Canonical (s.recordCut t) := (h.draw.writeRecord ..).ite h

theorem Canonical.execAttemptEnd {s : State} (h : Canonical s) (p : PartId) (node : VAddr) :
    Out.Canon (execAttemptEnd p node s) := by
  rw [Machine.execAttemptEnd, Out.canon_next]
  split
  · exact h
  rename_i n e
  split
  · rename_i why _ _
    split
    · extract_lets -lift s1 s2 s3 m
      have h1 : Canonical s1 := by
        unfold s1
        split
        · exact Canonical.foldl (fun u t hu => hu.recordCut t) _ h
        · exact h
      have h2 : Canonical s2 := Canonical.foldl (fun u t hu => hu.traceClose t) _ h1
      have h3 : Canonical s3 := h2.freeTiles n
      have hm : TilesCanon m.saves := h3.getD_findNode _ _ (h.findNode e)
      clear_value s3 m
      cases why with
      | cancel => exact h3.cancelNode ..
      | fault code _ retry =>
        dsimp only
        split
        · exact h3.makeReady _ hm
        · exact h3.endNode ..
    · exact h
  · exact h

theorem Canonical.resolveCore {s : State} (h : Canonical s) (t : Nat) (c : CoreId) (f : FaultRec) (va : Nat) :
    Canonical (s.resolveCore t c f va) := by
  unfold State.resolveCore
  split
  · rename_i e
    exact (h.complete e).setCoreAt ..
  · exact (h.setCoreAt ..).takeFault ..

theorem Canonical.resolveOp {s : State} (h : Canonical s) (t : Nat) (e : Engine) (o : Op) (f : FaultRec) (va : Nat) :
    Canonical (s.resolveOp t e o f va) := by
  unfold State.resolveOp
  split
  · rename_i e1
    exact (h.complete e1).setOp ..
  · exact h.opFault ..

theorem Canonical.resumeTile {s : State} (h : Canonical s) (t : Nat) : Canonical (s.resumeTile t) := by
  unfold State.resumeTile
  refine (h.setTile _ ?_).traceRestart _
  dsimp only
  exact Tile.canon_resume (h.tile _) _

theorem Canonical.resolveFrozen {s : State} (h : Canonical s) (p t : Nat) (n : Node) (f : FaultRec) :
    Canonical (s.resolveFrozen p t n f) := by
  unfold State.resolveFrozen
  split
  · rename_i e
    refine ((h.complete e).setTile _ ?_).markResolved ..
    exact (h.complete e).tile _
  · exact h.reportFault ..

theorem Canonical.execFirmwareResolve {s : State} (h : Canonical s) (t : TileId) : Out.Canon (execFirmwareResolve t s) := by
  unfold Machine.execFirmwareResolve
  dsimp only
  split
  · exact h.resolveCore ..
  · exact h.resolveOp ..
  split
  · split
    · exact (h.resolveFrozen ..).ite h
    · exact h
  · exact h

theorem Canonical.execTileResume {s : State} (h : Canonical s) (t : TileId) : Out.Canon (execTileResume t s) :=
  (Canonical.foldl (fun _ _ h => h.resumeTile _) _ (h.resumeTile _)).ite h

theorem Canonical.execTileWakeBegin {s : State} (h : Canonical s) (t : TileId) : Out.Canon (execTileWakeBegin t s) := by
  unfold Machine.execTileWakeBegin
  dsimp only
  split
  · split
    · refine (h.setTile _ ?_).setDie ..
      exact h.tile _
    · exact h
  split
  · refine (h.setTile _ ?_).setDie ..
    exact h.tile _
  · exact h

theorem Canonical.execTileWakeComplete {s : State} (h : Canonical s) (t : TileId) : Out.Canon (execTileWakeComplete t s) := by
  unfold Machine.execTileWakeComplete
  dsimp only
  split
  · split
    · split
      · refine ((h.setTile _ ?_).traceLoad _).traceRestart _
        exact h.tile _
      · exact h.setTile _ (h.tile _)
    · exact h
  · exact h

theorem Tile.canon_startTile (modnum part : Nat) (n : Node) (rank t : Nat) (x : Tile) (now : Nat) :
    (startTile modnum part n rank t x now).mem.Canon := TileMem.canon_iff.2 ⟨rfl, rfl, rfl, rfl, rfl, rfl⟩

theorem Tile.canon_restartTile {x : Tile} (h : x.mem.Canon) (modnum part : Nat) (n : Node) (rank t now : Nat) :
    (restartTile modnum part n rank t x now).mem.Canon := h

/-- The release of one tile of a gang: it resumes, or starts anew. -/
theorem Canonical.releaseRank {s : State} (h : Canonical s) (saved : Bool) (p : Nat) (n : Node) (r t : Nat) : Canonical (
    if saved then (s.setTile t (restartTile s.hub.modnum p n r t (s.tile t) s.seiche)).traceResume t
    else (s.setTile t (startTile s.hub.modnum p n r t (s.tile t) s.seiche)).traceStart t) := by
  split
  · exact Canonical.traceResume (h.setTile t (Tile.canon_restartTile (h.tile t) ..)) t
  · exact Canonical.traceStart (h.setTile t (Tile.canon_startTile ..)) t

theorem Canonical.releaseRanks {s : State} (h : Canonical s) (saved : Bool) (p : Nat) (n : Node) (l : List Nat) : Canonical (
    l.foldl (fun s r =>
      let t := n.tiles.getD r 0
      if saved then (s.setTile t (restartTile s.hub.modnum p n r t (s.tile t) s.seiche)).traceResume t
      else (s.setTile t (startTile s.hub.modnum p n r t (s.tile t) s.seiche)).traceStart t) s) :=
  .foldl (fun _ r h => h.releaseRank saved p n r (n.tiles.getD r 0)) l h

theorem Canonical.execGangRelease {s : State} (h : Canonical s) (p : PartId) (node : VAddr) :
    Out.Canon (execGangRelease p node s) := by
  rw [Machine.execGangRelease, Out.canon_next]
  split
  · exact h
  rename_i n e
  have hn := h.findNode e
  extract_lets want mark s1 s2
  have h1 : Canonical s1 := by
    refine h.putNode _ ?_
    exact hn
  have h2 : Canonical s2 := h1.releaseRanks ..
  clear_value s2
  split
  · split
    · refine Canonical.foldl (fun s t h => ?_) _ h2
      exact h.setTile t (Tile.canon_bringToRest (h.tile t) _)
    · exact h2
  · exact h

theorem Canonical.traceStop {s : State} (h : Canonical s) (t : Nat) : Canonical (s.traceStop t) :=
  ((((h.traceMark _).ite h).traceAppend ..).setTrace ..).ite h

theorem Canonical.execTileClockGate {s : State} (h : Canonical s) (t : TileId) : Out.Canon (execTileClockGate t s) := by
  unfold Machine.execTileClockGate
  split
  · exact h
  dsimp only
  split
  · refine ((h.traceStop _).ite h).setTile _ ?_
    exact ((h.traceStop _).ite h).tile _
  · exact h

/-! ## Saves and restores -/

theorem TileMem.Canon.loadScratch {m : TileMem} (h : m.Canon) (off : Nat) (l : List Byte) : (m.loadScratch off l).Canon := by
  obtain ⟨hs, hrest⟩ := TileMem.canon_iff.1 h
  exact TileMem.canon_iff.2 ⟨Memory.wf_setBytes hs, hrest⟩

theorem TileMem.Canon.takeSpans {m : TileMem} (h : m.Canon) (keep : TileMem) (l : List (Nat × Nat)) :
    (m.takeSpans keep l).Canon :=
  TileMem.canon_foldl (fun _ _ hm => hm.loadScratch ..) l h

theorem Tile.canon_noCes {x : Tile} (hx : x.mem.Canon) : x.noCes.mem.Canon := hx

theorem Canonical.noteArrays {s : State} (h : Canonical s) (t : Nat) (m : SaveMaps) : Canonical (s.noteArrays t m) :=
  h.ite ((h.countCes ..).setTile _ (Tile.canon_noCes ((h.countCes ..).tile _)))

theorem Canonical.noteSave {s : State} (h : Canonical s) (t : Nat) (m : SaveMaps) : Canonical (s.noteSave t m) :=
  Canonical.foldl (fun _ _ h => h.noteRead ..) _ h

theorem Canonical.writeParts {s : State} (h : Canonical s) (d part base : Nat) (l : List (Nat × List Byte)) :
    Canonical (writeParts s d part base l).2 := by
  induction l generalizing s with
  | nil => exact h
  | cons x l ih =>
    have hw := h.hubWrite d part (spanFuel x.2.length) (base + x.1) x.2
    unfold Machine.writeParts
    split
    · rename_i e; rw [e] at hw; exact hw
    · rename_i e; rw [e] at hw; exact ih hw

theorem Canonical.execPreemptRequest {s : State} (h : Canonical s) (t : TileId) : Out.Canon (execPreemptRequest t s) :=
  Canonical.ite (Canonical.ite (h.setTile _ (h.tile _)) (h.setTile _ (h.tile _))) h

theorem Canonical.execPreemptDeadline {s : State} (h : Canonical s) (t : TileId) : Out.Canon (execPreemptDeadline t s) := by
  unfold Machine.execPreemptDeadline
  split
  · dsimp only
    split
    · exact h.deadlock ..
    · exact h
  dsimp only
  split
  · exact ((h.traceDropWaiting _).setTile _ (Tile.canon_bringToRest ((h.traceDropWaiting _).tile _) _)).ite h
  · exact h

theorem Canonical.saveFail {s : State} (h : Canonical s) (t code access va : Nat) : Canonical (s.saveFail t code access va) := by
  unfold State.saveFail
  refine (h.setTile _ ?_).writeRecord ..
  exact h.tile _

theorem Canonical.saveTile {s : State} (h : Canonical s) (t : Nat) (k : Seat) : Canonical (s.saveTile t k) := by
  have hs : ∀ l m, Canonical (((s.setTile t { s.tile t with life := l }).noteArrays t m).noteSave t m) := fun l m =>
    .noteSave (.noteArrays (h.setTile t (x := { s.tile t with life := l }) (h.tile t)) t m) t m
  unfold State.saveTile
  refine Canonical.ite (Canonical.saveFail (.ite (.countUe (hs _ _) t) (hs _ _)) ..) (.ite (Canonical.saveFail (hs _ _) ..) ?_)
  split
  · rename_i e
    exact Canonical.saveFail (.of_eq e (.writeParts (.draw (hs _ _)) ..)) ..
  · rename_i e
    have hu := Canonical.of_eq e (.writeParts (.draw (hs _ _)) ..)
    exact hu.setTile t (hu.tile t)

theorem Canonical.execTileSave {s : State} (h : Canonical s) (t : TileId) : Out.Canon (execTileSave t s) := by
  unfold Machine.execTileSave
  split
  · dsimp only
    split
    · exact h
    · exact (h.deadlock ..).ite ((h.saveTile ..).ite h)
  dsimp only
  split
  · exact h
  · exact (h.setTile _ (Tile.canon_bringToRest (h.tile _) _)).ite ((h.saveTile ..).ite h)

theorem Canonical.sendAway {s : State} (h : Canonical s) (p n : Nat) : Canonical (s.sendAway p n) := { h with }

theorem Canonical.bringBack {s : State} (h : Canonical s) (k : Seat) (t : Nat) : Canonical (s.bringBack k t) := { h with }

theorem Canonical.gangSaved {s : State} (h : Canonical s) (p : Nat) (n : Node) : Canonical (s.gangSaved p n) := by
  have hsaves : TilesCanon ((List.range n.tiles.length).map fun r => (r, s.tile (n.tiles.getD r 0))) := by
    intro y hy
    obtain ⟨r, -, rfl⟩ := List.mem_map.1 hy
    exact h.tile _
  unfold State.gangSaved
  extract_lets saves s1 s2 n' s3 x waits s4
  have hsaves : TilesCanon n'.saves := hsaves
  have h2 : Canonical s2 := ((Canonical.foldl (fun u t hu => hu.traceClose t) n.tiles h).sendAway ..).freeTiles n
  clear_value s2 n'
  have h3 : Canonical s3 := (h2.writeReady p n').writeNode p hsaves
  clear_value s3
  have h4 : Canonical s4 := by
    unfold s4
    split
    · exact h3.setSched p (h3.part p)
    · exact h3
  split
  · exact h4.enterPool p hsaves
  · exact h4.setSched p (h4.part p)

theorem Canonical.execSaveComplete {s : State} (h : Canonical s) (t : TileId) : Out.Canon (execSaveComplete t s) := by
  rw [Machine.execSaveComplete, Out.canon_next]
  dsimp only
  split
  · exact h
  rename_i k _
  split
  · exact h
  rename_i n _
  have h1 : Canonical (s.countCes t.val (s.tile t.val).life.saveCe) := h.countCes ..
  generalize s.countCes t.val (s.tile t.val).life.saveCe = s1 at h1
  split
  · split
    · exact (h1.countUe _).saveFail ..
    split
    · rename_i e; exact Canonical.saveFail (.of_eq e (h1.writeParts ..)) ..
    · rename_i u e
      have hu := Canonical.of_eq e (h1.writeParts ..)
      have h2 := hu.setTile t.val (x := { u.tile t.val with life := { (u.tile t.val).life with phase := .saved } }) (hu.tile _)
      exact .ite (h2.gangSaved ..) h2
  · exact h

theorem Canonical.readParts {s : State} (h : Canonical s) (d part base : Nat) (x : TileMem)
    (l : List (Nat × Nat × (TileMem → List Byte → TileMem))) : Canonical (readParts s d part base x l).2 := by
  induction l generalizing s x with
  | nil => exact h
  | cons p l ih =>
    have hr := h.hubRead d part (spanFuel p.2.1) (base + p.1) p.2.1
    unfold Machine.readParts
    split
    · rename_i e; rw [e] at hr; exact hr
    · rename_i e; rw [e] at hr; exact ih hr _

theorem readParts_canon {s t : State} {d part base : Nat} {x y : TileMem} (hx : x.Canon)
    {l : List (Nat × Nat × (TileMem → List Byte → TileMem))} (hl : ∀ p ∈ l, ∀ x b, x.Canon → (p.2.2 x b).Canon)
    (e : readParts s d part base x l = (.ok y, t)) : y.Canon := by
  induction l generalizing s x with
  | nil => cases e; exact hx
  | cons p l ih =>
    unfold readParts at e
    split at e
    · cases congrArg Prod.fst e
    · exact ih (hl p (by simp) _ _ hx) (fun q hq => hl q (by simp [hq])) e

theorem TileMem.Canon.cleared (m new : TileMem) : (m.cleared new).Canon := TileMem.canon_iff.2 ⟨rfl, rfl, rfl, rfl, rfl, rfl⟩

theorem restoreParts_canon {keep : TileMem} (hk : keep.Canon) {m : SaveMaps} {u : Nat} {spans : List (Nat × Nat)}
    {p : Nat × Nat × (TileMem → List Byte → TileMem)} (hp : p ∈ restoreParts m u keep spans) {x : TileMem} {b : List Byte}
    (hx : x.Canon) : (p.2.2 x b).Canon := by
  have hb : (Memory.setBytes [] 0 b).wf = true := Memory.wf_setBytes rfl
  obtain ⟨k1, k2, k3, k4, k5, k6⟩ := TileMem.canon_iff.1 hk
  obtain ⟨h1, h2, h3, h4, h5, h6⟩ := TileMem.canon_iff.1 hx
  simp only [restoreParts, List.mem_append, List.mem_cons, List.mem_map, List.not_mem_nil, or_false] at hp
  rcases hp with ((((hp | ⟨_, _, rfl⟩) | ⟨_, _, rfl⟩) | hp) | ⟨_, _, rfl⟩) | ⟨_, _, rfl⟩
  · rcases hp with rfl | rfl
    · exact hx.takeSpans ..
    · exact hx
  · exact hx
  · exact hx
  · split at hp
    · simp only [List.mem_cons, List.not_mem_nil, or_false] at hp
      rcases hp with rfl | rfl
      · exact TileMem.canon_iff.2 ⟨h1, h2, k3, k4, k5, k6⟩
      · exact TileMem.canon_iff.2 ⟨h1, hb, h3, h4, h5, h6⟩
    · cases hp
  · exact hx
  · exact hx.loadScratch ..

theorem Canonical.restoreTile {s : State} (h : Canonical s) (t : Nat) (k : Seat) {n : Node} (hn : TilesCanon n.saves) :
    Canonical (s.restoreTile t k n) := by
  have hk := hn.get k.rank
  unfold State.restoreTile
  dsimp only
  split
  · rename_i e
    exact Canonical.saveFail (.of_eq e (h.hubRead ..)) ..
  rename_i s1 e
  have h1 : Canonical s1 := .of_eq e (h.hubRead ..)
  split
  · rename_i e
    exact Canonical.saveFail (.of_eq e (h1.readParts ..)) ..
  · rename_i s2 e
    have h2 : Canonical s2 := .of_eq e (h1.readParts ..)
    have hm := readParts_canon (TileMem.Canon.cleared ..) (fun p hp x b hx => restoreParts_canon hk hp hx) e
    exact Canonical.bringBack (h2.setTile t hm) k t

theorem Canonical.execGangRestore {s : State} (h : Canonical s) (t : TileId) : Out.Canon (execGangRestore t s) := by
  unfold Machine.execGangRestore
  dsimp only
  split
  · exact h
  split
  · exact h
  rename_i e
  split
  · exact (((h.countCes ..).countUe _).saveFail ..).ite ((h.countCes ..).restoreTile _ _ (h.findNode e))
  · exact h

theorem Canonical.execSaveLimitExpiry {s : State} (h : Canonical s) (t : TileId) : Out.Canon (execSaveLimitExpiry t s) :=
  (h.saveFail ..).ite h

/-! ## The graph scheduler -/

theorem Canonical.submit {s : State} (h : Canonical s) (p a : Nat) : Canonical (s.submit p a) :=
  Canonical.takeIn (h.setSched p (((h.part p).filter _).append_one TilesCanon.nil)) p TilesCanon.nil

theorem Canonical.visit {s : State} (h : Canonical s) (p : Nat) (g : Graph) (i : Nat) : Canonical (s.visit p g i) := by
  unfold State.visit
  extract_lets a
  have hr := h.schedRead p a 128
  generalize s.schedRead p a 128 = r at hr
  obtain ⟨r, u⟩ := r
  have hu : Canonical u := hr
  dsimp -zeta only
  extract_lets v n x s1 s2 k
  have hn : n.saves = [] := rfl
  replace hn : TilesCanon n.saves := hn ▸ TilesCanon.nil
  have h1 : Canonical s1 := hu.setSched p (((hu.part p).filter _).append_one hn)
  clear_value s1
  have h2 : Canonical s2 := h1.writePred p hn
  clear_value s2
  have hk : TilesCanon k.saves := h2.getD_findNode p a hn
  clear_value k
  cases r with
  | error c => exact h1.endNode p _ .faulted true
  | ok l => exact .ite (h2.makeReady p hk) (h2.writeNode p hk)

theorem Canonical.submitGraph {s : State} (h : Canonical s) (p : Nat) (g : Graph) : Canonical (s.submitGraph p g) := by
  unfold State.submitGraph
  extract_lets s1 s2 x s3
  have h1 : Canonical s1 := h.schedWrite ..
  have h2 : Canonical s2 := h1.writeHeader ..
  clear_value s2
  have h3 : Canonical s3 := h2.setSched p (h2.part p)
  clear_value s3
  exact Canonical.checkGraph (Canonical.foldl (fun u i hu => hu.visit p g i) _ h3) ..

theorem Canonical.queueLaunch {s : State} (h : Canonical s) : Canonical s.queueLaunch := h.setSched _ (h.part _)

theorem Canonical.leaveLaunch {s : State} (h : Canonical s) : Canonical s.leaveLaunch := h.ite (h.setSched _ (h.part _))

theorem Canonical.execLaunch {s : State} (h : Canonical s) (ga : Reg) : Out.Canon (execLaunch ga s) := by
  unfold Machine.execLaunch
  refine h.withSources (fun s h => ?_) _
  dsimp only
  split
  · exact h.fault ..
  split
  · exact h.flushMine.queueLaunch.block _
  split
  · rename_i e
    exact (Canonical.of_eq e (h.flushMine.nodeRead ..)).stopCore _
  rename_i e
  have hu := Canonical.of_eq e (h.flushMine.nodeRead ..)
  split
  · exact (hu.leaveLaunch.unblock.skip _).post ..
  · exact (hu.leaveLaunch.unblock.skip _).submit ..

theorem Canonical.retireSucc {s : State} (h : Canonical s) (p g base i : Nat) : Canonical (s.retireSucc p g base i) := by
  unfold State.retireSucc
  split
  · exact h
  rename_i e
  split
  · exact h
  split
  · exact h.post ..
  dsimp only
  split
  · refine (h.writePred _ ?_).makeReady _ ?_
    · dsimp only
      exact h.findNode e
    · refine (h.writePred _ ?_).getD_findNode _ _ ?_
      · dsimp only
        exact h.findNode e
      · exact h.findNode e
  refine h.writePred _ ?_
  dsimp only
  exact h.findNode e

/-- The steps of NODE_RETIREMENT in their order: the profile word, the tiles free, the post of a failure, the successors. -/
theorem Canonical.execNodeRetirement {s : State} (h : Canonical s) (p : PartId) (node : VAddr) :
    Out.Canon (execNodeRetirement p node s) := by
  rw [Machine.execNodeRetirement, Out.canon_next]
  split
  · exact h
  rename_i n e
  have hn := h.findNode e
  split
  · extract_lets pf b m
    have hm : TilesCanon m.saves := hn
    clear_value pf m
    have hr := h.draw.schedDw p.val (n.addr + 96) 0
    generalize s.draw.schedDw p.val (n.addr + 96) 0 = r at hr
    obtain ⟨old, u⟩ := r
    replace hr : Canonical u := hr
    dsimp -zeta only
    extract_lets s1 s2 s3 s4 s5
    have h3 : Canonical s3 := (Canonical.foldl (fun _ _ h => h.traceClose _) _ (hr.schedWrite ..)).freeTiles _
    have h4 : Canonical s4 := by
      unfold s4
      split
      · exact h3.post ..
      · exact h3
    have h5 : Canonical s5 := by
      refine h4.writeNode _ ?_
      exact hm
    clear_value s4 s5
    split
    · exact h4.endNode ..
    · exact (Canonical.foldl (fun _ _ h => h.retireSucc ..) _ h5).endNode ..
  · exact h

theorem Canonical.savedRecord {s : State} (h : Canonical s) (p n r : Nat) : Canonical (s.savedRecord p n r) := by
  unfold State.savedRecord
  split
  · exact h
  rename_i e
  split
  · exact h
  dsimp only
  split
  · rename_i e1
    exact Canonical.of_eq e1 (h.draw.hubWrite ..)
  rename_i e2
  refine ((Canonical.of_eq e2 (h.draw.hubWrite ..)).putNode _ ?_).hubWrite ..
  dsimp only
  exact h.findNode e

theorem Canonical.cancelSaved {s : State} (h : Canonical s) (p : Nat) (n : Node) : Canonical (s.cancelSaved p n) :=
  (Canonical.foldl (fun _ _ h => h.savedRecord ..) _ (h.orphanAway ..)).cancelNode ..

theorem Canonical.cancelAdopted {s : State} (h : Canonical s) (p : Nat) {n : Node} (hn : TilesCanon n.saves) :
    Canonical (s.cancelAdopted p n) := by
  unfold State.cancelAdopted
  refine Canonical.foldl (fun u t hu => ?_) _ (h.putNode p (by exact hn))
  dsimp only
  split
  · exact hu.setTile t (hu.tile t)
  · exact hu

theorem Canonical.hostCancel {s : State} (h : Canonical s) (p : Nat) {n : Node} (hn : TilesCanon n.saves) :
    Canonical (s.hostCancel p n) := by
  unfold State.hostCancel
  split
  · exact h.cancelNode ..
  · exact h.cancelNode ..
  · exact h.cancelSaved ..
  · exact h.putNode _ hn
  · exact h.endAttempt ..
  · split
    · exact h.cancelAdopted _ hn
    · exact h
  · exact h

theorem Canonical.nextToPlace {s : State} (h : Canonical s) {p : Nat} {n : Node} (e : s.nextToPlace p = some n) :
    TilesCanon n.saves := by
  have hp := h.part p
  unfold State.nextToPlace at e
  dsimp only at e
  split at e
  · cases e
  · rename_i m em
    split at e
    · cases e; exact Sched.canon_head hp em
    · split at e
      · exact topNode_canon ((Sched.canon_ranked hp).filter _) e
      · cases e

theorem Canonical.noteHead {s : State} (h : Canonical s) (p : Nat) : Canonical (s.noteHead p) := by
  unfold State.noteHead
  dsimp only
  split
  · split
    · exact h
    split
    · exact h.ite (h.setSched _ (h.part _))
    · exact h.setSched _ (h.part _)
  · exact h

theorem Canonical.execPlacement {s : State} (h : Canonical s) (p : PartId) (node : VAddr) (picks : List Nat) :
    Out.Canon (execPlacement p node picks s) := by
  have hs := h.noteHead p.val
  rw [Machine.execPlacement, Out.canon_next]
  dsimp only
  generalize s.noteHead p.val = s at hs
  split
  · exact hs
  split
  · exact hs
  rename_i n e
  have hn := hs.nextToPlace e
  split
  · exact hs
  split
  · refine Canonical.addHit (hs.putNode _ ?_) ..
    exact hn
  · split
    · have hw : ∀ l k b, Canonical (s.writeNode p.val { n with state := .placing, picks := l, tiles := k, wasSaved := b }) :=
        fun _ _ _ => hs.writeNode _ (n := { n with state := _, picks := _, tiles := _, wasSaved := _ }) hn
      refine Canonical.setSched (hw ..) _ ?_
      exact (hw ..).part _
    · exact hs

theorem Canonical.seatTiles {s : State} (h : Canonical s) (p : Nat) (n : Node) : Canonical (s.seatTiles p n) := by
  unfold State.seatTiles
  refine Canonical.foldl (fun s a h => ?_) _ h
  exact h.setTile _ (h.tile _)

theorem Canonical.commit {s : State} (h : Canonical s) (p : Nat) {n : Node} (hn : TilesCanon n.saves) :
    Canonical (s.commit p n) := by
  unfold State.commit
  extract_lets n1 s1 x s2
  have h1 : Canonical s1 := h.writeNode p hn
  clear_value s1 n1
  have hx : NodesCanon x.nodes := Sched.canon_leave (h1.part p) _
  have h2 : Canonical s2 := h1.setSched p hx
  exact h2.seatTiles ..

theorem Canonical.execReservationReply {s : State} (h : Canonical s) (p : PartId) (node : VAddr) (refused : BitVec 4) :
    Out.Canon (execReservationReply p node refused s) := by
  unfold Machine.execReservationReply
  split
  · exact h
  rename_i e
  split
  · exact h
  split
  · split
    · exact h.cancelSaved ..
    split
    · refine h.writeNode _ ?_
      dsimp only
      exact h.findNode e
    · exact h.commit _ (h.findNode e)
  split
  · exact h.cancelNode ..
  split
  · refine h.writeNode _ ?_
    dsimp only
    exact h.findNode e
  · exact h.commit _ (h.findNode e)

theorem mem_insertCand {n m : Node} {l : List Node} (h : n ∈ insertCand m l) : n = m ∨ n ∈ l := by
  induction l with
  | nil => simpa [insertCand] using h
  | cons k l ih => grind [insertCand]

theorem mem_foldr_insertCand {n : Node} {l : List Node} (h : n ∈ l.foldr insertCand []) : n ∈ l := by
  induction l with
  | nil => exact h
  | cons m l ih => grind [mem_insertCand]

theorem State.mem_of_victims {s : State} {p : Nat} {h n : Node} {extra : List Nat} {l k : List Node}
    (e : s.victims p h extra l = some k) (hn : n ∈ k) : n ∈ l := by
  induction l generalizing extra k with
  | nil => cases e
  | cons m l ih =>
    unfold State.victims at e
    dsimp only at e
    split at e
    · cases e; simp_all
    · obtain ⟨k', e', rfl⟩ := Option.map_eq_some_iff.1 e
      rcases List.mem_cons.1 hn with rfl | hn
      · simp
      · exact List.mem_cons_of_mem _ (ih e' hn)

theorem Canonical.execPreemptionDecision {s : State} (h : Canonical s) (p : PartId) : Out.Canon (execPreemptionDecision p s) := by
  have hs := h.noteHead p.val
  have hp := hs.part p.val
  unfold Machine.execPreemptionDecision
  dsimp only
  split
  · exact hs
  split
  · exact hs
  split
  · exact hs
  rename_i l e
  refine Canonical.foldl_mem (fun u n hn hu => hu.putNode _ ?_) hs
  split at e
  · cases e; cases hn
  · exact hp n (List.mem_of_mem_filter (mem_foldr_insertCand (State.mem_of_victims e hn)))

theorem Sched.canon_settleAge {x : Sched} (h : NodesCanon x.nodes) (now : Nat) : NodesCanon (x.settleAge now).nodes :=
  NodesCanon.map h fun n hn => by grind [Node.age]

theorem Canonical.execNodeAgeing {s : State} (h : Canonical s) (p : PartId) (node : VAddr) :
    Out.Canon (execNodeAgeing p node s) := by
  rw [Machine.execNodeAgeing, Out.canon_next]
  dsimp only
  split
  · exact h
  · rename_i n e
    have hn := h.findNode e
    refine .ite (h.putNode _ ?_) h
    exact hn

theorem Canonical.execBackfillLimit {s : State} (h : Canonical s) (p : PartId) : Out.Canon (execBackfillLimit p s) := by
  unfold Machine.execBackfillLimit
  dsimp only
  split
  · exact Canonical.ite (h.setSched _ (h.part _)) h
  · exact h

theorem Canonical.succOf {s : State} (h : Canonical s) (p : Nat) (n : Node) : Canonical (s.succOf p n).2 := by
  grind [State.succOf, Canonical.loadSucc]

theorem Canonical.setWalks {s : State} (h : Canonical s) (p : Nat) (l : List Walk) : Canonical (s.setWalks p l) :=
  h.setSched _ (h.part _)

theorem Canonical.walkHeader {s : State} (h : Canonical s) (p : Nat) (g : Graph) (w : Walk) (rest : List Walk)
    (queue : List Nat) : Canonical (s.walkHeader p g w rest queue) := by
  unfold State.walkHeader
  extract_lets s1
  have h1 : Canonical s1 := h.writeHeader ..
  split
  · exact (h1.setWalks ..).checkGraph ..
  · exact h1.setWalks ..

theorem Canonical.execConeWalkStep {s : State} (h : Canonical s) (p : PartId) : Out.Canon (execConeWalkStep p s) := by
  rw [Machine.execConeWalkStep, Out.canon_next]
  dsimp only
  split
  · exact h
  split
  · exact h.setWalks ..
  split
  · split
    · exact h.walkHeader ..
    split
    · exact h.walkHeader ..
    split
    · exact ((h.succOf ..).endNode ..).walkHeader ..
    · exact h.walkHeader ..
  · split
    · exact h.setWalks ..
    split
    · exact ((h.succOf ..).writeHeader ..).walkHeader ..
    · exact ((h.succOf ..).writeHeader ..).setWalks ..

/-! ## The fabric -/

theorem Canonical.answerCore {s : State} (h : Canonical s) (what : Remote) (len v : Nat) :
    Canonical (s.answerCore what len v) := by
  cases what with
  | load gd sx n => exact (h.unblock.setG ..).skip len
  | rmw op n gd x e => exact (h.unblock.setG ..).skip len
  | store l => exact h.unblock.skip len
  | iteration => exact h.unblock.skip len

theorem Canonical.remoteFaultCore {s : State} (h : Canonical s) (f : FabWait) (x : FarFault) :
    Canonical (s.remoteFaultCore f x) :=
  (h.unblock.faultA ..).ite (h.unblock.faultRec _)

theorem Canonical.performFar {s : State} (h : Canonical s) (f : FabWait) : Canonical (s.performFar f) := by
  unfold State.performFar
  split
  · split
    · rename_i e
      exact (Canonical.of_eq e (h.farRead ..)).answerCore ..
    rename_i e
    exact (Canonical.of_eq e (h.farRead ..)).remoteFaultCore ..
  · split
    · rename_i e
      exact (Canonical.of_eq e (h.farWrite ..)).answerCore ..
    rename_i e
    exact (Canonical.of_eq e (h.farWrite ..)).remoteFaultCore ..
  · split
    · rename_i e
      have hu := Canonical.of_eq e (h.farRmw ..)
      exact (hu.flushMine.ite hu).answerCore ..
    rename_i e
    exact (Canonical.of_eq e (h.farRmw ..)).remoteFaultCore ..
  · exact h.unblock

theorem Canonical.fabricFaultCore {s : State} (h : Canonical s) (f : FabWait) (code : Nat) :
    Canonical (s.fabricFaultCore f code) :=
  h.unblock.faultA ..

theorem Canonical.recordAway {s : State} (h : Canonical s) (k : Seat) (m : Nat) (f : FarFault) :
    Canonical (s.recordAway k m f) := by
  unfold State.recordAway
  split
  · exact h
  · rename_i n e
    have hn := h.findNode e
    exact h.putNode _ (hn.put _ (hn.get _))

theorem Canonical.recordFailure {s : State} (h : Canonical s) (w : Posted) (f : FarFault) : Canonical (s.recordFailure w f) := by
  unfold State.recordFailure
  split
  · exact h
  split
  · exact h.recordAway ..
  · exact h.setEngAt ..

theorem Canonical.failPosted {s : State} (h : Canonical s) (w : Posted) (f : FarFault) : Canonical (s.failPosted w f) := by
  unfold State.failPosted
  refine Canonical.recordFailure ?_ ..
  exact { h with }

theorem Canonical.deliver {s : State} (h : Canonical s) (w : Posted) : Canonical (s.deliver w).2 := by
  unfold State.deliver
  split
  · exact h.farWrite ..
  split
  · rename_i e
    exact Canonical.of_eq e (h.farRmw ..)
  rename_i e
  exact Canonical.of_eq e (h.farRmw ..)

theorem Canonical.performPosted {s : State} (h : Canonical s) (w : Posted) : Canonical (s.performPosted w) := by
  unfold State.performPosted
  split
  · rename_i e
    exact { Canonical.of_eq e (h.deliver _) with }
  rename_i e
  exact (Canonical.of_eq e (h.deliver _)).failPosted ..

theorem Canonical.lostAcks {s : State} (h : Canonical s) (w : Posted) (fuel : Nat) : Canonical (s.lostAcks w fuel) := by
  fun_induction State.lostAcks s w fuel <;> grind [Canonical.draw, Canonical.performPosted]

theorem Canonical.losePosted {s : State} (h : Canonical s) (w : Posted) (code : Nat) : Canonical (s.losePosted w code) :=
  (h.lostAcks ..).failPosted ..

theorem Canonical.answerPosted {s : State} (h : Canonical s) (t m : Nat) (ans : FabAnswer) :
    Canonical (s.answerPosted t m ans) := by
  unfold State.answerPosted
  split
  · exact h
  split
  · exact h
  split
  · split
    · exact { h with }
    split
    · exact h
    split
    · rename_i e
      exact { Canonical.of_eq e (h.deliver _) with }
    rename_i e
    exact (Canonical.of_eq e (h.deliver _)).failPosted ..
  · exact h.ite ((h.failPosted ..).ite ((h.losePosted ..).ite h))

theorem Canonical.responseCore {s : State} (h : Canonical s) (f : FabWait) (ans : FabAnswer) :
    Canonical (s.responseCore f ans) := by
  unfold State.responseCore
  split
  · exact h
  cases ans <;> grind [Canonical.learn, Canonical.performFar, Canonical.remoteFaultCore, Canonical.fabricFaultCore]

theorem Canonical.responseOp {s : State} (h : Canonical s) (t : Nat) (e : Engine) (o : Op) (f : FabWait) (m : Nat)
    (ans : FabAnswer) : Canonical (s.responseOp t e o f m ans) := by
  unfold State.responseOp
  split
  · exact h
  cases ans <;> grind [Canonical.learn, Canonical.setOp, Canonical.iterate, Canonical.opFault]

theorem Canonical.execFabricResponse {s : State} (h : Canonical s) (t : TileId) (u : FabUnit) (ans : FabAnswer) :
    Out.Canon (execFabricResponse t u ans s) := by
  unfold Machine.execFabricResponse
  split
  · split
    · split
      · refine Canonical.responseCore ?_ ..
        exact { h with }
      · exact h
    · exact h
  split
  · exact (h.responseOp ..).ite h
  · exact (h.answerPosted ..).ite h

theorem Canonical.execFabricTimeout {s : State} (h : Canonical s) (t : TileId) (u : FabUnit) :
    Out.Canon (execFabricTimeout t u s) := by
  unfold Machine.execFabricTimeout
  split
  · split
    · split
      · refine Canonical.fabricFaultCore ?_ ..
        exact { h with }
      · exact h
    · exact h
  split
  · exact (h.opFault ..).ite h
  split
  · split
    · exact (h.losePosted ..).ite h
    · exact h
  · exact h

theorem Canonical.execPostedFailure {s : State} (h : Canonical s) (t : TileId) (module : BitVec 10) (f : FabFault) :
    Out.Canon (execPostedFailure t module f s) := by
  unfold Machine.execPostedFailure
  split
  · exact (h.failPosted ..).ite ((h.losePosted ..).ite h)
  · exact h

theorem Canonical.performEarlier {s : State} (h : Canonical s) (w : Posted) (fuel : Nat) :
    Canonical (s.performEarlier w fuel) := by
  fun_induction State.performEarlier s w fuel <;> grind [Canonical.performPosted]

theorem Canonical.execSignalPerform {s : State} (h : Canonical s) (t : TileId) (module : BitVec 10) :
    Out.Canon (execSignalPerform t module s) := by
  unfold Machine.execSignalPerform
  split
  · exact h
  dsimp only
  split
  · exact h.performEarlier ..
  split
  · rename_i e
    exact { Canonical.of_eq e ((h.performEarlier ..).deliver _) with }
  rename_i e
  exact (Canonical.of_eq e ((h.performEarlier ..).deliver _)).failPosted ..

theorem Canonical.arrivingWrites {s : State} (h : Canonical s) (d part off : Nat) (l : List (Byte × Byte)) :
    Canonical (arrivingWrites s d part off l) := Canonical.foldl (fun _ _ h => h.exportWrite ..) _ h

theorem Canonical.serveFabric {s : State} (h : Canonical s) (d p off : Nat) (req : FabReq) :
    Canonical (s.serveFabric d p off req) := by
  cases req with
  | read len => exact h.exportRead ..
  | signal set arg => exact h.exportRmw ..
  | rmw op wide x expected => exact h.exportRmw ..
  | group n dw v => exact h
  | write l =>
    unfold State.serveFabric
    dsimp only
    split
    · exact h.arrivingWrites ..
    · exact h.exportWrite ..

theorem Canonical.execFabricRequestArrival {s : State} (h : Canonical s) (die : DieId) (tag : BitVec 16) (offset : BitVec 46)
    (req : FabReq) : Out.Canon (execFabricRequestArrival die tag offset req s) := by
  rw [Machine.execFabricRequestArrival.eq_def, Out.canon_next]
  split
  · exact h
  split
  · exact h.groupReg ..
  split
  · exact h
  · exact h.serveFabric ..

theorem Canonical.execRemoteScratchAccess {s : State} (h : Canonical s) (t : TileId) (c : CoreId) :
    Out.Canon (execRemoteScratchAccess t c s) := by
  unfold Machine.execRemoteScratchAccess
  split
  · exact h
  · exact (h.setCoreAt ..).performRemote _

theorem Canonical.execHostWindowReadCompletion {s : State} (h : Canonical s) (t : TileId) (u : Unit6) :
    Out.Canon (execHostWindowReadCompletion t u s) := by
  unfold Machine.execHostWindowReadCompletion
  rw [Out.canon_next]
  cases u with
  | core c =>
    have hc : Canonical { s with curTile := t, curCore := c } := { h with }
    dsimp only
    split
    · split
      · exact hc
      split
      · exact hc.answerCore ..
      · exact hc.refuse.unblock.faultRec _
    · exact h
  | engine e =>
    dsimp only
    split
    · split
      · exact h
      · exact h.iterate ..
    · exact h

theorem Canonical.execHostReadTimeout {s : State} (h : Canonical s) (t : TileId) (u : Unit6) :
    Out.Canon (execHostReadTimeout t u s) := by
  unfold Machine.execHostReadTimeout
  rw [Out.canon_next]
  cases u with
  | core c =>
    have hc : Canonical { s with curTile := t, curCore := c } := { h with }
    dsimp only
    split
    · split
      · exact hc.unblock.faultRec _
      · exact hc
    · exact h
  | engine e =>
    dsimp only
    split
    · split
      · exact h.opFault ..
      · exact h
    · exact h

theorem Canonical.execPageWalk {s : State} (h : Canonical s) (die : DieId) (p : PartId) (root : Root) (va : VAddr)
    (acc : Access) : Out.Canon (execPageWalk die p root va acc s) := by
  unfold Machine.execPageWalk
  dsimp only
  split
  · exact (h.markLeaf ..).setDie ..
  · exact h

theorem Canonical.shootDown {s : State} (h : Canonical s) (p : Nat) (r : Root) (va len : Nat) (dies : BitVec 4) :
    Canonical (s.shootDown p r va len dies) := Canonical.foldl (fun _ _ h => (h.setDie ..).ite h) _ h

theorem Canonical.execFabricRouteLoss {s : State} (h : Canonical s) (module : BitVec 10) (why : PeerLoss) :
    Out.Canon (execFabricRouteLoss module why s) := by
  rw [Machine.execFabricRouteLoss, Out.canon_next]
  dsimp only
  split
  · exact h
  refine Canonical.foldl (fun u t hu => ?_) _ (Canonical.foldl (fun u w hu => ?_) _ (h.setPeer _ ?_))
  · refine Canonical.foldl (fun u e hu => ?_) _ (Canonical.foldl (fun u c hu => ?_) _ hu)
    · split
      · split
        · exact hu.opFault ..
        · exact hu
      · exact hu
    · split
      · split
        · refine Canonical.fabricFaultCore (s := { u with curTile := _, curCore := _ }) ?_ ..
          exact { hu with }
        · exact hu
      · exact hu
  · split
    · exact hu.losePosted ..
    · exact hu
  · split <;> exact h.peer _

/-! ## Packets on pages and exports -/

theorem Canonical.doneOk {s : State} (h : Canonical s) : Canonical (Done.ok s).2.2 := h

theorem Canonical.doneNo {s : State} (h : Canonical s) (status : Nat) : Canonical (Done.no status s).2.2 := h

theorem Canonical.mapPage {s t : State} (h : Canonical s) {part root va size : Nat} {frame : Option Nat} {quiet rd w x : Bool}
    (e : mapPage s part root va size frame quiet rd w x = some t) : Canonical t := by
  unfold Machine.mapPage at e
  split at e
  · cases e
  rename_i er
  have hu := h.reachEntry er
  split at e
  · cases e; exact hu.writeLeaves ..
  · cases e; exact Canonical.foldl (fun s i h => h.writeEntry ..) _ hu

theorem Canonical.mapPages {s t : State} (h : Canonical s) {part root size : Nat} {fr : MapFrame} {rd w x : Bool} {n va : Nat}
    (e : Machine.mapPages s part root size fr rd w x n va = some t) : Canonical t := by
  induction n generalizing s fr va with
  | zero => cases e; exact h
  | succ n ih =>
    unfold Machine.mapPages at e
    dsimp only at e
    split at e
    · obtain ⟨u, eu, e⟩ := Option.bind_eq_some_iff.1 e
      exact ih (h.mapPage eu) e
    · obtain ⟨u, eu, e⟩ := Option.bind_eq_some_iff.1 e
      exact ih (h.mapPage eu) e
    · split at e
      · cases e
      · rename_i ef
        obtain ⟨u, eu, e⟩ := Option.bind_eq_some_iff.1 e
        exact ih (Canonical.mapPage (h.takeFrame ef) eu) e

theorem Canonical.mapRange {s : State} (h : Canonical s) (p addr len frame flags : Nat) :
    Canonical (s.mapRange p addr len frame flags).2.2 := by
  have hp : ∀ l, Canonical (s.setPart p { s.part p with dataFrames := l }) := fun l => h.setPart p (h.part p)
  unfold State.mapRange
  dsimp only
  split
  · exact h
  split
  · exact h
  split
  · exact h
  split
  · exact h
  split
  · exact h
  · rename_i e; exact Canonical.mapPages (.ite h (hp _)) e

theorem Canonical.changeEntry {s : State} (h : Canonical s) (pa lvl : Nat) (f : Nat → Nat) : Canonical (changeEntry s pa lvl f) :=
  (Canonical.foldl (fun _ _ h => h.writeEntry ..) _ h).ite (h.writeEntry ..)

theorem Canonical.eachLeaf {s : State} (h : Canonical s) (root stop : Nat) (f : Nat → Nat) {g : State → Nat → Nat → State}
    (hg : ∀ s a b, Canonical s → Canonical (g s a b)) (fuel va : Nat) : Canonical (eachLeaf s root stop f g fuel va) := by
  fun_induction Machine.eachLeaf s root stop f g fuel va <;> grind [Canonical.changeEntry]

theorem Canonical.dropExports {s : State} (h : Canonical s) (p : Nat) : Canonical (s.dropExports p) := h.shootDown ..

theorem Canonical.unmapRange {s : State} (h : Canonical s) (p addr len : Nat) : Canonical (s.unmapRange p addr len).2.2 := by
  unfold State.unmapRange
  split
  · exact h.doneNo _
  · exact (((h.eachLeaf _ _ _ (fun _ _ _ h => h.mapExports ..) ..).shootDown ..).dropExports _).doneOk

theorem Canonical.discardRange {s : State} (h : Canonical s) (p addr len : Nat) : Canonical (s.discardRange p addr len).2.2 := by
  unfold State.discardRange
  split
  · exact h.doneNo _
  · exact (((h.eachLeaf _ _ _ (fun _ _ _ h => h.mapExports ..) ..).shootDown ..).dropExports _).doneOk

theorem Canonical.exportPage {s t : State} (h : Canonical s) {p root xroot off va : Nat} {rd w : Bool}
    (e : Machine.exportPage s p root xroot off va rd w = .ok t) : Canonical t := by
  unfold Machine.exportPage at e
  dsimp only at e
  split at e
  · cases e
  rename_i u eu
  have hu : Canonical u := by
    split at eu
    · exact h.complete eu
    · cases eu; exact h
  split at e
  · cases e
  split at e
  · cases e
  split at e
  · cases e
  · rename_i ex
    cases e
    exact Canonical.writeEntry (hu.reachEntry ex) ..

theorem Canonical.exportPagesFrom {s t : State} (h : Canonical s) {p root xroot n off va : Nat} {rd w : Bool}
    (e : Machine.exportPagesFrom s p root xroot rd w n off va = .ok t) : Canonical t := by
  induction n generalizing s off va with
  | zero => cases e; exact h
  | succ n ih =>
    unfold Machine.exportPagesFrom at e
    split at e
    · rename_i e1; exact ih (h.exportPage e1) e
    · exact h.exportPage e

theorem Canonical.exportRange {s : State} (h : Canonical s) (p off len va flags : Nat) :
    Canonical (s.exportRange p off len va flags).2.2 := by
  unfold State.exportRange
  split
  · exact h
  split
  · split
    · rename_i e; exact h.exportPagesFrom e
    · exact h
    · exact h
  · exact h

theorem Canonical.unexportRange {s : State} (h : Canonical s) (p off len : Nat) : Canonical (s.unexportRange p off len).2.2 := by
  unfold State.unexportRange
  split
  · exact h.doneNo _
  · exact ((h.eachLeaf _ _ _ (fun _ _ _ h => h) ..).shootDown ..).doneOk

/-! ## Rings and packets -/

theorem Canonical.setRing {s : State} (h : Canonical s) (r : RingId) (x : Ring) : Canonical (s.setRing r x) := by
  cases r with
  | part p k => exact h.setPart _ (h.part _)
  | admin => exact { h with }

theorem Canonical.doorbell {s : State} (h : Canonical s) (r : RingId) (w : Nat) : Canonical (s.doorbell r w) :=
  ((h.setRing ..).post ..).ite (h.setRing ..)

theorem Canonical.ringStart {s : State} (h : Canonical s) (r : RingId) : Canonical (s.ringStart r) :=
  h.ite ((h.setRing ..).ite (h.setRing ..))

theorem Canonical.ringResume {s : State} (h : Canonical s) (r : RingId) : Canonical (s.ringResume r) :=
  h.ite ((h.setRing ..).ite (h.setRing ..))

theorem Canonical.ringStop {s : State} (h : Canonical s) (r : RingId) : Canonical (s.ringStop r) :=
  h.ite ((h.setRing ..).ite (h.setRing ..))

theorem Canonical.readPacket {s : State} (h : Canonical s) (r : RingId) : Canonical (s.readPacket r).2 := by
  unfold State.readPacket
  dsimp only
  split
  · rename_i e
    exact Canonical.of_eq₂ e (h.hostRead ..)
  rename_i e
  exact (Canonical.of_eq₂ e (h.hostRead ..)).postNoGrant ..

theorem Canonical.acceptPacket {s : State} (h : Canonical s) (r : RingId) (l : List Byte) : Canonical (s.acceptPacket r l) :=
  h.setRing ..

theorem Canonical.execPacketAccept {s : State} (h : Canonical s) (r : RingId) : Out.Canon (execPacketAccept r s) := by
  unfold Machine.execPacketAccept
  split
  · rename_i e
    have hu := Canonical.of_eq e (h.readPacket _)
    dsimp only
    split
    · exact (hu.acceptPacket ..).ite (hu.setRing ..)
    · exact h

theorem Canonical.execPacketReread {s : State} (h : Canonical s) (r : RingId) : Out.Canon (execPacketReread r s) := by
  unfold Machine.execPacketReread
  split
  · rename_i e
    have hu := Canonical.of_eq e (h.readPacket _)
    dsimp only
    split
    · exact h
    split
    · split
      · exact (hu.setRing ..).acceptPacket ..
      split
      · exact ((hu.setRing ..).setRing ..).post ..
      · exact (hu.setRing ..).setRing ..
    · exact h

theorem Canonical.notifyDone {s : State} (h : Canonical s) (r : RingId) (k : Packet) (status data : Nat) :
    Canonical (s.notifyDone r k status data) := (h.post ..).ite h

theorem Canonical.execPacketStart {s : State} (h : Canonical s) (r : RingId) : Out.Canon (execPacketStart r s) := by
  unfold Machine.execPacketStart
  split
  · dsimp only
    split
    · exact h
    split
    · exact h
    split
    · exact (h.setRing ..).addHit ..
    split
    · exact (h.setRing ..).notifyDone ..
    split
    · exact (h.setRing ..).notifyDone ..
    · exact ((h.setRing ..).notifyDone ..).ite ((h.setRing ..).setRing ..)
  dsimp only
  split
  · exact h
  split
  · exact h
  split
  · exact h
  split
  · exact (h.setRing ..).notifyDone ..
  split
  · exact (h.setRing ..).notifyDone ..
  · exact ((h.setRing ..).notifyDone ..).ite ((h.setRing ..).setRing ..)

theorem Canonical.completePacket (s : State) (c : PktCtx) (k : Packet) {d : Done} (h : Canonical d.2.2) :
    Canonical (s.completePacket c k d) := (h.setRing ..).notifyDone ..

/-- What a packet of a partition may answer: nothing, or a completion whose state is canonical. -/
def DoneCanon (o : Option Done) : Prop := ∀ d, o = some d → Canonical d.2.2

theorem DoneCanon.none : DoneCanon none := fun _ e => nomatch e

theorem DoneCanon.some {d : Done} (h : Canonical d.2.2) : DoneCanon (some d) := fun _ e => by cases e; exact h

theorem Canonical.runPacket {s : State} (h : Canonical s) (p : PartId) (c : PktCtx) (op : Nat) (ops : List Word)
    {f : State → Option Done} (hf : DoneCanon (f s)) : Out.Canon (runPacket p c op ops f s) := by
  rw [Machine.runPacket, Out.canon_next]
  split
  · split
    · exact h
    split
    · exact h
    · rename_i d e; exact Canonical.completePacket _ _ _ (hf d e)
  · exact h

theorem Canonical.execNop {s : State} (h : Canonical s) (p : PartId) (k : PktCtx) : Out.Canon (execNop p k s) :=
  h.runPacket _ _ _ _ (.some h)

theorem submitNodePacket_canon {s : State} (h : Canonical s) (p a : Nat) : DoneCanon (submitNodePacket p a s) := by
  unfold submitNodePacket
  split
  · exact .some h
  split
  · exact .some h
  split
  · exact .none
  · exact .some (h.submit ..)

theorem Canonical.execSubmitNode {s : State} (h : Canonical s) (p : PartId) (k : PktCtx) (node : Word) :
    Out.Canon (execSubmitNode p k node s) :=
  h.runPacket _ _ _ _ (submitNodePacket_canon h _ _)

theorem submitGraphPacket_canon {s : State} (h : Canonical s) (p a : Nat) : DoneCanon (submitGraphPacket p a s) := by
  have hr := h.schedRead p a 64
  unfold submitGraphPacket
  split
  · exact .some h
  generalize s.schedRead p a 64 = r at hr
  obtain ⟨_ | l, u⟩ := r
  · exact .some hr
  have hu : Canonical u := hr
  dsimp only
  split
  · exact .some hu
  split
  · exact .some hu
  · exact .some (hu.submitGraph p _)

theorem Canonical.execSubmitGraph {s : State} (h : Canonical s) (p : PartId) (k : PktCtx) (graph : Word) :
    Out.Canon (execSubmitGraph p k graph s) := h.runPacket _ _ _ _ (submitGraphPacket_canon h _ _)

theorem Canonical.execCancelNode {s : State} (h : Canonical s) (p : PartId) (k : PktCtx) (node : Word) :
    Out.Canon (execCancelNode p k node s) := by
  refine h.runPacket _ _ _ _ (.some ?_)
  dsimp only [Done.ok]
  split
  · rename_i e; exact h.hostCancel _ (h.findNode e)
  · exact h

theorem Canonical.abortGraph {s : State} (h : Canonical s) (p a : Nat) : Canonical (s.abortGraph p a) := by
  unfold State.abortGraph
  dsimp only
  split
  · exact h
  · refine Canonical.foldl (fun s i h => ?_) _ (h.setSched p ?_)
    · split
      · rename_i e; exact h.hostCancel p (h.findNode e)
      · exact h
    · exact h.part p

theorem Canonical.execAbortGraph {s : State} (h : Canonical s) (p : PartId) (k : PktCtx) (graph : Word) :
    Out.Canon (execAbortGraph p k graph s) := h.runPacket _ _ _ _ (.some (h.abortGraph ..))

theorem Canonical.execMap {s : State} (h : Canonical s) (p : PartId) (k : PktCtx) (addr len frame flags : Word) :
    Out.Canon (execMap p k addr len frame flags s) := h.runPacket _ _ _ _ (.some (h.mapRange ..))

theorem Canonical.execUnmap {s : State} (h : Canonical s) (p : PartId) (k : PktCtx) (addr len : Word) :
    Out.Canon (execUnmap p k addr len s) :=
  h.runPacket _ _ _ _ (.some (h.unmapRange ..))

theorem Canonical.execDiscard {s : State} (h : Canonical s) (p : PartId) (k : PktCtx) (addr len : Word) :
    Out.Canon (execDiscard p k addr len s) := h.runPacket _ _ _ _ (.some (h.discardRange ..))

theorem Canonical.execExportPages {s : State} (h : Canonical s) (p : PartId) (k : PktCtx) (offset len addr flags : Word) :
    Out.Canon (execExportPages p k offset len addr flags s) := h.runPacket _ _ _ _ (.some (h.exportRange ..))

theorem Canonical.execUnexportPages {s : State} (h : Canonical s) (p : PartId) (k : PktCtx) (offset len : Word) :
    Out.Canon (execUnexportPages p k offset len s) := h.runPacket _ _ _ _ (.some (h.unexportRange ..))

theorem groupSetPacket_canon {s : State} (h : Canonical s) (p group g list : Nat) :
    DoneCanon (groupSetPacket p group g list s) := by
  have hr := h.hostRead p list (2 * g)
  unfold groupSetPacket
  split
  · exact .some h
  split
  · exact .none
  generalize s.hostRead p list (2 * g) = r at hr
  obtain ⟨l, ok, u⟩ := r
  have h1 : Canonical (if ok then u else u.postNoGrant (some p) list) := .ite hr (.postNoGrant hr ..)
  refine .some ?_
  dsimp only
  generalize (if ok then u else u.postNoGrant (some p) list) = s1 at h1
  split
  · exact h1
  split
  · exact h1
  · exact h1.setGroup ..

theorem Canonical.execGroupSet {s : State} (h : Canonical s) (p : PartId) (k : PktCtx) (group g list : Word) :
    Out.Canon (execGroupSet p k group g list s) := h.runPacket _ _ _ _ (groupSetPacket_canon h _ _ _ _)

theorem Canonical.execGroupBind {s : State} (h : Canonical s) (p : PartId) (k : PktCtx) (group : Word) :
    Out.Canon (execGroupBind p k group s) := by
  refine h.runPacket _ _ _ _ (.some ?_)
  split
  · exact h
  · exact h.setGroup ..

theorem Canonical.execGroupUnbind {s : State} (h : Canonical s) (p : PartId) (k : PktCtx) (group : Word) :
    Out.Canon (execGroupUnbind p k group s) := by
  refine h.runPacket _ _ _ _ (.some ?_)
  split
  · exact h
  split
  · exact h
  · exact h.setGroup ..

/-! ## Administration -/

/-- What an administration packet answers is canonical: the state it leaves, and the state that its completion starts from. -/
def AnswerCanon (r : Option Done × State) : Prop := Canonical r.2 ∧ ∀ d, r.1 = some d → Canonical d.2.2

theorem AnswerCanon.none {s : State} (h : Canonical s) : AnswerCanon (none, s) := ⟨h, fun _ e => nomatch e⟩

theorem AnswerCanon.finished {d : Done} (h : Canonical d.2.2) : AnswerCanon (finished d) := ⟨h, fun _ e => by cases e; exact h⟩

theorem Canonical.runAdmin {s : State} (h : Canonical s) (c : PktCtx) (op : Nat) (ops : List Word)
    {f : Packet → State → Option Done × State} (hf : ∀ k, AnswerCanon (f k s)) : Out.Canon (runAdmin c op ops f s) := by
  rw [Machine.runAdmin, Out.canon_next]
  split
  · split
    · exact h
    rename_i k _
    obtain ⟨hs, hd⟩ := hf k
    split
    · rename_i e; rw [e] at hs; exact hs
    · rename_i d _ e; exact Canonical.completePacket _ _ _ (hd d (by rw [e]))
  · exact h

theorem Canonical.extend {s : State} (h : Canonical s) (i : Nat) (digest : List Byte) : Canonical (s.extend i digest) :=
  { h with }

theorem Canonical.mapXlt {s : State} (h : Canonical s) (p : Nat) (f : Xlt → Xlt) : Canonical (s.mapXlt p f) :=
  Canonical.foldl (fun _ _ h => h.setDie ..) _ h

theorem Canonical.createPart {s : State} (h : Canonical s) (p clusters base len tag : Nat) (dws : List Word) :
    Canonical (s.createPart p clusters base len tag dws) := by
  unfold State.createPart
  extract_lets s1 s2 s3 s4
  have h1 : Canonical s1 := h.setPart p (by simp [NodesCanon])
  have h2 : Canonical s2 := { h1 with mem := Memory.wf_zero h1.mem }
  have h4 : Canonical s4 := (h2.mapXlt ..).extend ..
  exact h4.setPart p (h4.part p)

theorem Canonical.execPartCreate {s : State} (h : Canonical s) (k : PktCtx) (p clusters base len tag : Word) :
    Out.Canon (execPartCreate k p clusters base len tag s) := by
  refine h.runAdmin _ _ _ fun _ => .finished ?_
  split
  · exact h
  split
  · exact h
  · exact h.createPart ..

theorem Canonical.partMapRings {x : Part} (hx : NodesCanon x.sched.nodes) (f : Ring → Ring) :
    NodesCanon (x.mapRings f).sched.nodes :=
  hx

theorem Canonical.cancelNodes {s : State} (h : Canonical s) (p : Nat) : Canonical (s.cancelNodes p) := by
  refine Canonical.foldl (fun s a h => ?_) _ h
  split
  · rename_i e; exact h.hostCancel p (h.findNode e)
  · exact h

theorem Canonical.resetBegin {s : State} (h : Canonical s) (p index : Nat) : Canonical (s.resetBegin p index) := by
  unfold State.resetBegin
  refine ((h.setPart _ ?_).mapXlt ..).cancelNodes _
  dsimp only
  exact Canonical.partMapRings (h.part _) _

theorem Canonical.resetEnd {s : State} (h : Canonical s) (p : Nat) : Canonical (s.resetEnd p) := by
  unfold State.resetEnd
  extract_lets x y s1 groups dies hub s2
  have h1 : Canonical s1 := h.setPart p (by simp [NodesCanon])
  clear_value s1
  have h2 : Canonical s2 := { h1 with }
  exact h2.mapXlt ..

theorem Canonical.resetPart {s : State} (h : Canonical s) (p index : Nat) : AnswerCanon (s.resetPart p index) := by
  unfold State.resetPart
  split
  · exact .finished h
  split
  · exact .none (h.resetBegin ..)
  · split
    · exact .finished h
    split
    · exact .finished (h.resetEnd p)
    · exact .none (h.cancelNodes p)
  · exact .finished h

theorem Canonical.execPartReset {s : State} (h : Canonical s) (k : PktCtx) (p : Word) : Out.Canon (execPartReset k p s) :=
  h.runAdmin _ _ _ fun _ => h.resetPart ..

theorem Canonical.destroyPart {s : State} (h : Canonical s) (p : Nat) : Canonical (s.destroyPart p) :=
  (h.mapXlt ..).setPart _ ((h.mapXlt ..).part _)

theorem Canonical.execPartDestroy {s : State} (h : Canonical s) (k : PktCtx) (p : Word) : Out.Canon (execPartDestroy k p s) := by
  refine h.runAdmin _ _ _ fun q => ?_
  have hr := h.resetPart p.toNat q.index
  split
  · rename_i e
    rw [e] at hr
    have hd := hr.2 _ rfl
    refine .finished ?_
    split
    · exact Canonical.destroyPart hd _
    · exact hr.1
  · exact hr

theorem Canonical.acceptImage {s : State} (h : Canonical s) (l : List Byte) : Canonical (s.acceptImage l) :=
  { h.extend 2 (sha sha384 l) with }

theorem Canonical.execLoadImage {s : State} (h : Canonical s) (k : PktCtx) (addr len : Word) :
    Out.Canon (execLoadImage k addr len s) := by
  refine h.runAdmin _ _ _ fun _ => ?_
  have hr := h.hostRead firmwareSource addr.toNat len.toNat
  split
  · exact .none h
  generalize s.hostRead firmwareSource addr.toNat len.toNat = r at hr
  obtain ⟨l, ok, u⟩ := r
  have h1 : Canonical (if ok then u else u.postNoGrant none addr.toNat) := .ite hr (.postNoGrant hr ..)
  dsimp only
  generalize (if ok then u else u.postNoGrant none addr.toNat) = s1 at h1
  refine .finished ?_
  split
  · exact h1.acceptImage _
  · exact { h1 with }

/-! ## Scalar instructions -/

theorem Canonical.alu2 {s : State} (h : Canonical s) (f : Word → Word → Word) (gd ga gb : Reg) : Out.Canon (alu2 f gd ga gb s) :=
  h.writeResult ..

theorem Canonical.alu1 {s : State} (h : Canonical s) (f : Word → Word) (gd ga : Reg) : Out.Canon (alu1 f gd ga s) :=
  h.writeResult ..

theorem Canonical.execLi {s : State} (h : Canonical s) (gd : Reg) (imm : BitVec 21) : Out.Canon (execLi gd imm s) :=
  h.writeResult ..

theorem Canonical.execLih {s : State} (h : Canonical s) (gd : Reg) (imm : BitVec 21) : Out.Canon (execLih gd imm s) :=
  h.writeResult ..

theorem Canonical.execMadd {s : State} (h : Canonical s) (gd ga gb gc : Reg) : Out.Canon (execMadd gd ga gb gc s) :=
  h.writeResult ..

theorem Canonical.execBins {s : State} (h : Canonical s) (gd ga : Reg) (pos lenM1 : BitVec 6) :
    Out.Canon (execBins gd ga pos lenM1 s) := h.writeResult ..

/-! ## Clock, links and bring-up -/

theorem Tile.canon_scrubWord {x : Tile} (hx : x.mem.Canon) (w : Nat) : (x.scrubWord w).mem.Canon := by
  unfold Tile.scrubWord
  split
  · exact Tile.canon_foundWord hx w
  · exact hx

theorem Tile.canon_scrubRest {x : Tile} (hx : x.mem.Canon) : x.scrubRest.mem.Canon := by
  have hl : ∀ (l : List Nat) (x : Tile), x.mem.Canon → (l.foldl Tile.scrubWord x).mem.Canon := by
    intro l
    induction l with
    | nil => exact fun x hx => hx
    | cons w l ih => exact fun x hx => ih _ (Tile.canon_scrubWord hx w)
  exact hl _ x hx

theorem Canonical.traceTick {s : State} (h : Canonical s) (t : Nat) : Canonical (s.traceTick t) :=
  ((((h.traceMark _).ite h).flushBrs _).ite ((h.traceMark _).ite h)).traceSettle _

theorem Canonical.writeMarks {s : State} (h : Canonical s) : Canonical s.writeMarks :=
  (Canonical.foldl (fun _ _ h => h.traceTick _) _ h).ite h

theorem Canonical.tickWork {s : State} (h : Canonical s) : Canonical s.tickWork := by
  have h1 := h.expireLate.writeMarks
  unfold State.tickWork
  dsimp only
  split
  · exact { h1 with tiles := TilesCanon.map h1.tiles fun x hx => Tile.canon_scrubRest hx }
  · exact h1

theorem Canonical.execSeicheTick {s : State} (h : Canonical s) : Out.Canon (execSeicheTick s) := { h.tickWork with }

theorem Canonical.countDead {s : State} (h : Canonical s) (t : Nat) : Canonical (s.countDead t) := by
  unfold State.countDead
  extract_lets n x l s1
  have h1 : Canonical s1 := h.setTile t (h.tile t)
  clear_value s1
  split
  · exact h1
  split
  · exact h1
  · rename_i e
    have hn := h1.findNode e
    split
    · refine h1.putNode _ ?_
      exact hn
    · exact h1

theorem Tile.canon_cycleOver {x : Tile} (hx : x.mem.Canon) : x.cycleOver.mem.Canon := hx

theorem Canonical.execCountedCycle {s : State} (h : Canonical s) (t : TileId) (leaves : CycleLeaves) :
    Out.Canon (execCountedCycle t leaves s) := by
  unfold Machine.execCountedCycle
  dsimp only
  split
  · refine (h.setTile _ ?_).countDead _
    exact Tile.canon_cycleOver (h.tile _)
  · exact h

theorem Tile.canon_onToken {x : Tile} (hx : x.mem.Canon) (q i : Nat) (g : Tok → Tok) : (x.onToken q i g).mem.Canon := hx

theorem Tile.canon_struck {x : Tile} (hx : x.mem.Canon) (b : Bool) (a : EccArray) : (x.struck b a).mem.Canon := by
  cases a with
  | gReg c n high => exact (Tile.setCore_mem ..).symm ▸ hx
  | hidden c i n high => exact (Tile.setCore_mem ..).symm ▸ hx
  | record e i w => exact (Tile.setEng_mem ..).symm ▸ hx
  | token q i => exact Tile.canon_onToken hx ..
  | saveBuffer => cases b <;> exact hx
  | _ => exact hx

theorem Canonical.execSoftError {s : State} (h : Canonical s) (t : TileId) (where_ : EccArray) (correctable : Bool) :
    Out.Canon (execSoftError t where_ correctable s) := by
  unfold Machine.execSoftError
  split
  · split
    · exact h.ite h
    dsimp only
    split
    · exact h
    · exact { h with }
  · exact h.ite (h.setTile _ (Tile.canon_struck (h.tile _) ..))

theorem Canonical.execScrub {s : State} (h : Canonical s) (t : TileId) (off : Nat) : Out.Canon (execScrub t off s) :=
  h.ite (h.setTile _ (Tile.canon_scrubWord (h.tile _) _))

theorem Canonical.execBankRetirement {s : State} (h : Canonical s) (t : TileId) (bank : Fin 32) :
    Out.Canon (execBankRetirement t bank s) := by
  unfold Machine.execBankRetirement
  dsimp only
  split
  · split
    · refine (h.setTile _ ?_).post ..
      exact h.tile _
    · exact h.setTile _ (h.tile _)
  · exact h

theorem Canonical.execPowerClamp {s : State} (h : Canonical s) : Out.Canon (execPowerClamp s) := by
  rw [Machine.execPowerClamp, Out.canon_next]
  dsimp only
  split
  · exact { h with }
  · exact h

theorem Canonical.execThermalLimit {s : State} (h : Canonical s) (mhz : BitVec 12) : Out.Canon (execThermalLimit mhz s) := by
  unfold Machine.execThermalLimit
  split
  · exact { h with }
  · exact h

theorem Canonical.postAll {s : State} (h : Canonical s) (e : Event) : Canonical (s.postAll e) :=
  Canonical.foldl (fun _ _ h => h.ite (h.post ..)) _ h

theorem Canonical.setPort {s : State} (h : Canonical s) (port : Nat) (up : Bool) : Canonical (s.setPort port up) := by
  unfold State.setPort
  split
  · exact h
  refine (Canonical.postAll ?_ _).drainEvents ..
  exact { h with }

theorem Canonical.writeFabid {s : State} (h : Canonical s) (v : Nat) : Canonical (s.writeFabid v) := by
  unfold State.writeFabid
  split
  · exact h
  · refine { h with tiles := TilesCanon.map h.tiles fun x hx => ?_ }
    dsimp only
    split <;> exact hx

theorem Canonical.stageFails {s : State} (h : Canonical s) (err : Nat) : Canonical (s.stageFails err) := { h with }

theorem Canonical.stageDone {s : State} (h : Canonical s) (n : Nat) : Canonical (s.stageDone n) := { h with }

theorem Canonical.bringUpRest {s : State} (h : Canonical s) : Canonical s.bringUpRest := ((h.stageDone _).stageDone _).stageDone _

theorem Canonical.bringUpLink {s : State} (h : Canonical s) : Canonical s.bringUpLink := by
  unfold State.bringUpLink
  dsimp only
  split
  · refine (Canonical.stageDone ?_ _).bringUpRest
    exact { h.draw.draw with }
  refine Canonical.stageFails ?_ _
  exact { h.draw.draw with }

theorem Canonical.bringUpMemory {s : State} (h : Canonical s) : Canonical s.bringUpMemory :=
  (h.draw.stageDone _).bringUpLink.ite (h.draw.stageFails _)

theorem Canonical.bringUp {s : State} (h : Canonical s) : Canonical s.bringUp := by
  unfold State.bringUp
  dsimp only
  split
  · exact ((((h.extend ..).stageDone _).draw.extend ..).stageDone _).bringUpMemory
  · exact ((h.extend ..).stageDone _).draw.stageFails _

theorem Canonical.execPowerOnReset {s : State} (h : Canonical s) : Out.Canon (execPowerOnReset s) := by
  have h0 : Canonical State.reset := (canonical_iff _).1 (by decide)
  exact Canonical.bringUp (s := { State.reset with agenda := s.agenda, choices := s.choices, host := s.host, peers := s.peers })
    { h0 with host := h.host, peers := h.peers }

theorem Canonical.execFabricTraining {s : State} (h : Canonical s) : Out.Canon (execFabricTraining s) := by
  have hd := h.draw.draw
  rw [Machine.execFabricTraining, Out.canon_next]
  dsimp only
  split
  · split
    · exact hd.stageFails _
    split
    · exact hd.stageFails _
    · exact { hd.stageDone 8 with }
  · exact h

theorem Canonical.eventHead {s : State} (h : Canonical s) (o : Option Nat) (head : Nat) : Canonical (s.eventHead o head) :=
  (h.setEvRing ..).drainEvents ..

theorem Canonical.execApertureRead {s : State} (h : Canonical s) (p : PartId) (addr : VAddr) (len : Nat) :
    Out.Canon (execApertureRead p addr len s) := by
  unfold Machine.execApertureRead
  split
  · split
    · rename_i e
      exact { Canonical.of_eq e (h.hubRead ..) with }
    rename_i e
    refine Canonical.postNoGrant ?_ ..
    exact { Canonical.of_eq e (h.hubRead ..) with }
  · exact h

theorem Canonical.execApertureWrite {s : State} (h : Canonical s) (p : PartId) (addr : VAddr) (bytes : List Byte) :
    Out.Canon (execApertureWrite p addr bytes s) := by
  unfold Machine.execApertureWrite
  split
  · split
    · rename_i e
      exact Canonical.of_eq e (h.hubWrite ..)
    rename_i e
    exact (Canonical.of_eq e (h.hubWrite ..)).postNoGrant ..
  · exact h

/-! ## The debugger -/

theorem Canonical.stopTarget {s : State} (h : Canonical s) {p : Nat} {n : Node} (e : s.stopTarget p = some n) :
    TilesCanon n.saves := by
  unfold State.stopTarget at e
  split at e
  · rename_i en
    split at e
    · cases e; exact h.findNode en
    · cases e
  · cases e

theorem Canonical.debugStop {s : State} (h : Canonical s) (p markq cutid : Nat) : Canonical (s.debugStop p markq cutid) := by
  unfold State.debugStop
  split
  · rename_i e
    refine (h.putNode _ ?_).stopGang ..
    dsimp only
    exact h.stopTarget e
  · exact h

theorem Canonical.execDebugStopComplete {s : State} (h : Canonical s) (p : PartId) (node : VAddr) :
    Out.Canon (execDebugStopComplete p node s) := by
  unfold Machine.execDebugStopComplete
  split
  · exact h
  rename_i e
  split
  · exact h
  split
  · refine (h.putNode _ ?_).addHit ..
    dsimp only
    exact h.findNode e
  · exact h

theorem Canonical.retireHit {s : State} (h : Canonical s) (p : Nat) : Canonical (s.retireHit p) :=
  (h.setDebug ..).ite ((h.setDebug ..).msix _)

theorem Tile.canon_passBreak {x : Tile} (hx : x.mem.Canon) (f : FaultRec) : (x.passBreak f).mem.Canon := Tile.canon_setCore hx ..

theorem Canonical.releaseTile {s : State} (h : Canonical s) (t : Nat) : Canonical (s.releaseTile t) := by
  unfold State.releaseTile
  dsimp only
  split
  · exact h
  split
  · exact h.resumeTile _
  split
  · exact (h.setTile _ (Tile.canon_passBreak (h.tile _) _)).resumeTile _
  · exact (h.resumeTile _).ite (h.setTile _ (h.tile _))

theorem Canonical.debugResume {s : State} (h : Canonical s) (p : Nat) : Canonical (s.debugResume p) := by
  unfold State.debugResume
  split
  · split
    · dsimp only
      split
      · rename_i e
        have hr := h.retireHit p
        have hn := hr.findNode e
        refine Canonical.foldl (fun s t h => h.releaseTile t) _ (hr.putNode p ?_)
        exact hn
      · exact h.retireHit p
    · exact h
  · exact h

theorem Canonical.debugRelease {s : State} (h : Canonical s) (p : Nat) : Canonical (s.debugRelease p) := by
  have hr := h.retireHit p
  unfold State.debugRelease
  split
  · dsimp only
    split
    · exact hr.setPart p (hr.part p)
    split
    · split
      · rename_i e
        have hn := hr.findNode e
        refine hr.putNode p ?_
        exact hn
      · exact hr
    · exact h
  · exact h

theorem Canonical.execTraceMarker {s : State} (h : Canonical s) (t : TileId) : Out.Canon (execTraceMarker t s) :=
  (h.traceMark _).ite h

theorem Canonical.execTraceHeadPoll {s : State} (h : Canonical s) (t : TileId) : Out.Canon (execTraceHeadPoll t s) :=
  (h.traceReadHead _).ite h

theorem Canonical.execHashRequest {s : State} (h : Canonical s) (p : PartId) : Out.Canon (execHashRequest p s) := h.setDebug ..

theorem Canonical.hashRead {s : State} (h : Canonical s) (p va n : Nat) : Canonical (hashRead s p va n).2 := by
  induction n generalizing s va with
  | zero => exact h
  | succ n ih =>
    have ht := ih (h.translate 0 p .own va .read) (va + 4096)
    unfold Machine.hashRead
    dsimp only
    split
    · rename_i e; rw [e] at ht; exact ht
    · rename_i e _; rw [e] at ht; exact ht

theorem Canonical.hashLeaf {s : State} (h : Canonical s) (p base i : Nat) : Canonical (hashLeaf s p base i).2 := by
  unfold Machine.hashLeaf
  split
  · rename_i e
    exact Canonical.of_eq e (h.hashRead ..)
  rename_i e
  exact Canonical.of_eq e (h.hashRead ..)

theorem Canonical.hashLeaves {s : State} (h : Canonical s) (p base n i : Nat) : Canonical (hashLeaves s p base n i).2 := by
  induction n generalizing s i with
  | zero => exact h
  | succ n ih => exact ih (h.hashLeaf p base i) (i + 1)

theorem Canonical.hashWrite {s : State} (h : Canonical s) (p array j : Nat) (l : List Byte) :
    Canonical (hashWrite s p array j l) :=
  h.hubWrite ..

theorem Canonical.hashLevel {s : State} (h : Canonical s) (p array : Nat) (l : List (List Byte)) :
    Canonical (hashLevel s p array l) :=
  Canonical.foldl (fun _ _ h => h.hashWrite ..) _ h

theorem Canonical.hashLevels {s : State} (h : Canonical s) (p array fuel : Nat) (l : List (List Byte)) :
    Canonical (hashLevels s p array fuel l) := by
  fun_induction Machine.hashLevels s p array fuel l <;> grind [Canonical.hashLevel]

theorem Canonical.execHashUpdate {s : State} (h : Canonical s) (p : PartId) : Out.Canon (execHashUpdate p s) := by
  unfold Machine.execHashUpdate
  dsimp only
  exact ((((((h.setDebug ..).hashLeaves ..).hashLevel ..).hashLevels ..).hashWrite ..).setDebug ..).ite h

/-! ## Hub registers -/

theorem Canonical.ringCmd {s : State} (h : Canonical s) (r : RingId) (cmd : Nat) : Canonical (s.ringCmd r cmd) := by
  unfold State.ringCmd
  split
  · exact h.ringStart r
  · exact h.ringResume r
  · exact h.ringStop r
  · exact h

theorem Canonical.ringReg {s : State} (h : Canonical s) (r : RingId) (off v : Nat) : Canonical (s.ringReg r off v) := by
  unfold State.ringReg
  split
  · split
    · exact h.setRing ..
    · exact h
  · exact h.doorbell r v
  · exact h.ringCmd ..
  · exact h

theorem Canonical.evReg {s : State} (h : Canonical s) (o : Option Nat) (off v : Nat) : Canonical (s.evReg o off v) := by
  unfold State.evReg
  split
  · exact h.setEvRing ..
  · exact h.eventHead ..
  · exact h

theorem Canonical.mcbReg {s : State} (h : Canonical s) (who : RegWriter) (off v : Nat) : Canonical (s.mcbReg who off v) := by
  unfold State.mcbReg
  dsimp only
  split
  · exact h.writeFabid v
  · exact { h with }
  · exact { h with }
  · split
    · exact h.ringReg ..
    split
    · exact h.evReg ..
    · exact h

theorem Sched.canon_reg {x : Sched} (h : NodesCanon x.nodes) (now off v : Nat) : NodesCanon (x.reg now off v).nodes := by
  unfold Sched.reg
  split
  · exact Sched.canon_settleAge h now
  all_goals exact h

theorem Canonical.dbgCmd {s : State} (h : Canonical s) (p v : Nat) : Canonical (s.dbgCmd p v) := by
  unfold State.dbgCmd
  split
  · exact h.debugStop ..
  · exact h.debugResume _
  · exact h.debugRelease _
  · exact h

theorem Canonical.dropTrace {s : State} (h : Canonical s) (p : Nat) : Canonical (s.dropTrace p) := by
  refine { h with tiles := TilesCanon.map h.tiles fun x hx => ?_ }
  dsimp only
  split <;> exact hx

theorem Canonical.raiseTrace {s : State} (h : Canonical s) (p : Nat) : Canonical (s.raiseTrace p) :=
  Canonical.foldl (fun _ _ h => h.traceLoad _) _ (h.dropTrace _)

theorem Canonical.dbgReg {s : State} (h : Canonical s) (p off v : Nat) : Canonical (s.dbgReg p off v) :=
  (h.dbgCmd ..).ite (((h.setDebug ..).dropTrace _).ite ((h.setDebug ..).ite ((h.setDebug ..).raiseTrace _)))

theorem Canonical.prtReg {s : State} (h : Canonical s) (who : RegWriter) (p : Fin 16) (off v : Nat) :
    Canonical (s.prtReg who p off v) := by
  unfold State.prtReg
  dsimp only
  split
  · exact h.setSched _ (Sched.canon_reg (h.part _) _ _ _)
  split
  · exact .ite (h.setDie ..) h
  split
  · exact h.setPart _ (h.part _)
  split
  · exact h.ringReg ..
  split
  · exact h.evReg ..
  split
  · exact h.dbgReg ..
  split
  · exact h.setPart _ (h.part _)
  · exact h

theorem Canonical.tileReg {s : State} (h : Canonical s) (t i v : Nat) : Canonical (s.tileReg t i v) := by
  have hs : ∀ q, Canonical (s.setTile t { s.tile t with prv := q }) := fun q => h.setTile t (h.tile t)
  unfold State.tileReg
  dsimp only
  split
  · exact hs _
  · exact hs _
  · exact hs _
  · exact hs _
  · split
    · exact h
    · exact hs _
  · exact h

theorem Canonical.cardReg {s : State} (h : Canonical s) (off v : Nat) : Canonical (s.cardReg off v) := by
  unfold State.cardReg
  split
  · exact { h with }
  split
  · exact { h with }
  · exact h

theorem Canonical.hubReg {s : State} (h : Canonical s) (who : RegWriter) (pa v : Nat) : Canonical (s.hubReg who pa v) := by
  unfold State.hubReg
  split
  · exact h.mcbReg ..
  split
  · exact h.prtReg ..
  split
  · exact h
  split
  · exact h.tileReg ..
  split
  · exact h.groupReg ..
  split
  · exact { h with mgmt := Memory.wf_setBytes h.mgmt }
  · exact h

theorem Canonical.execRegisterWrite {s : State} (h : Canonical s) (who : RegWriter) (pa : BitVec 40) (v : Word) :
    Out.Canon (execRegisterWrite who pa v s) := h.ite ((h.hubReg ..).ite ((h.cardReg ..).ite h))

/-! ## Attestation -/

theorem Canonical.answer {s : State} (h : Canonical s) (code : Nat) (payload : List Byte) : Canonical (s.answer code payload) :=
  { h with }

theorem Canonical.spdmError {s : State} (h : Canonical s) (code : Nat) (request : Byte) : Canonical (s.spdmError code request) :=
  h.answer ..

theorem Canonical.signedAnswer {s : State} (h : Canonical s) (code : Nat) (theirs payload : List Byte) :
    Canonical (s.signedAnswer code theirs payload) := h.draw.answer ..

theorem Canonical.execGetCapabilities {s : State} (h : Canonical s) : Out.Canon (execGetCapabilities s) := h.answer ..

theorem Canonical.execNegotiateAlgorithms {s : State} (h : Canonical s) (asym hash : W32) :
    Out.Canon (execNegotiateAlgorithms asym hash s) := h.answer ..

theorem Canonical.execGetDigests {s : State} (h : Canonical s) : Out.Canon (execGetDigests s) := h.answer ..

theorem Canonical.execGetCertificate {s : State} (h : Canonical s) (slot : Byte) (offset len : BitVec 16) :
    Out.Canon (execGetCertificate slot offset len s) := (h.answer ..).ite (h.spdmError ..)

theorem Canonical.execChallenge {s : State} (h : Canonical s) (slot : Byte) (nonce : List Byte) :
    Out.Canon (execChallenge slot nonce s) := (h.signedAnswer ..).ite (h.spdmError ..)

theorem Canonical.execGetMeasurements {s : State} (h : Canonical s) (index : Byte) (nonce : List Byte) :
    Out.Canon (execGetMeasurements index nonce s) := by
  unfold Machine.execGetMeasurements
  dsimp only
  split
  · exact h.signedAnswer ..
  split
  · exact h.signedAnswer ..
  split
  · exact h.signedAnswer ..
  · exact (h.spdmError ..).ite (h.spdmError ..)

/-! ## Every instruction and event -/

theorem exec_canon {s : State} (h : Canonical s) (i : Instr) : Out.Canon (exec i s) :=
  match i with
  | .add gd ga gb => (h.alu2 .. : Out.Canon (execAdd gd ga gb s))
  | .sub gd ga gb => (h.alu2 .. : Out.Canon (execSub gd ga gb s))
  | .mul gd ga gb => (h.alu2 .. : Out.Canon (execMul gd ga gb s))
  | .mulh gd ga gb => (h.alu2 .. : Out.Canon (execMulh gd ga gb s))
  | .mulhn gd ga gb => (h.alu2 .. : Out.Canon (execMulhn gd ga gb s))
  | .div gd ga gb => (h.alu2 .. : Out.Canon (execDiv gd ga gb s))
  | .divn gd ga gb => (h.alu2 .. : Out.Canon (execDivn gd ga gb s))
  | .rem gd ga gb => (h.alu2 .. : Out.Canon (execRem gd ga gb s))
  | .remn gd ga gb => (h.alu2 .. : Out.Canon (execRemn gd ga gb s))
  | .and gd ga gb => (h.alu2 .. : Out.Canon (execAnd gd ga gb s))
  | .or gd ga gb => (h.alu2 .. : Out.Canon (execOr gd ga gb s))
  | .xor gd ga gb => (h.alu2 .. : Out.Canon (execXor gd ga gb s))
  | .andn gd ga gb => (h.alu2 .. : Out.Canon (execAndn gd ga gb s))
  | .shl gd ga gb => (h.alu2 .. : Out.Canon (execShl gd ga gb s))
  | .shr gd ga gb => (h.alu2 .. : Out.Canon (execShr gd ga gb s))
  | .sra gd ga gb => (h.alu2 .. : Out.Canon (execSra gd ga gb s))
  | .rotl gd ga gb => (h.alu2 .. : Out.Canon (execRotl gd ga gb s))
  | .min gd ga gb => (h.alu2 .. : Out.Canon (execMin gd ga gb s))
  | .max gd ga gb => (h.alu2 .. : Out.Canon (execMax gd ga gb s))
  | .minn gd ga gb => (h.alu2 .. : Out.Canon (execMinn gd ga gb s))
  | .maxn gd ga gb => (h.alu2 .. : Out.Canon (execMaxn gd ga gb s))
  | .slt gd ga gb => (h.alu2 .. : Out.Canon (execSlt gd ga gb s))
  | .sltn gd ga gb => (h.alu2 .. : Out.Canon (execSltn gd ga gb s))
  | .seq gd ga gb => (h.alu2 .. : Out.Canon (execSeq gd ga gb s))
  | .clz gd ga => (h.alu1 .. : Out.Canon (execClz gd ga s))
  | .ctz gd ga => (h.alu1 .. : Out.Canon (execCtz gd ga s))
  | .popc gd ga => (h.alu1 .. : Out.Canon (execPopc gd ga s))
  | .addi gd ga imm => (h.alu1 .. : Out.Canon (execAddi gd ga imm s))
  | .andi gd ga imm => (h.alu1 .. : Out.Canon (execAndi gd ga imm s))
  | .ori gd ga imm => (h.alu1 .. : Out.Canon (execOri gd ga imm s))
  | .xori gd ga imm => (h.alu1 .. : Out.Canon (execXori gd ga imm s))
  | .shli gd ga imm => (h.alu1 .. : Out.Canon (execShli gd ga imm s))
  | .shri gd ga imm => (h.alu1 .. : Out.Canon (execShri gd ga imm s))
  | .srai gd ga imm => (h.alu1 .. : Out.Canon (execSrai gd ga imm s))
  | .slti gd ga imm => (h.alu1 .. : Out.Canon (execSlti gd ga imm s))
  | .li .. => h.execLi ..
  | .lih .. => h.execLih ..
  | .madd .. => h.execMadd ..
  | .bext gd ga pos lenM1 => (h.alu1 .. : Out.Canon (execBext gd ga pos lenM1 s))
  | .bins .. => h.execBins ..
  | .sext gd ga lenM1 => (h.alu1 .. : Out.Canon (execSext gd ga lenM1 s))
  | .zext gd ga lenM1 => (h.alu1 .. : Out.Canon (execZext gd ga lenM1 s))
  | .beq ga gb disp => (h.branch .. : Out.Canon (execBeq ga gb disp s))
  | .bne ga gb disp => (h.branch .. : Out.Canon (execBne ga gb disp s))
  | .blt ga gb disp => (h.branch .. : Out.Canon (execBlt ga gb disp s))
  | .bge ga gb disp => (h.branch .. : Out.Canon (execBge ga gb disp s))
  | .bltn ga gb disp => (h.branch .. : Out.Canon (execBltn ga gb disp s))
  | .bgen ga gb disp => (h.branch .. : Out.Canon (execBgen ga gb disp s))
  | .loop .. => h.execLoop ..
  | .jr .. => h.execJr ..
  | .ret => h.execRet ..
  | .call .. => h.execCall ..
  | .b .. => h.execB ..
  | .ld sz sx gd ga disp => (h.doLd .. : Out.Canon (execLd sz sx gd ga disp s))
  | .st sz gd ga disp => (h.doSt .. : Out.Canon (execSt sz gd ga disp s))
  | .ldx sz sx gd ga disp => (h.doLdx .. : Out.Canon (execLdx sz sx gd ga disp s))
  | .stx sz gd ga disp => (h.doStx .. : Out.Canon (execStx sz gd ga disp s))
  | .ldt sz sx gd ga desc => (h.doLdt .. : Out.Canon (execLdt sz sx gd ga desc s))
  | .stt sz gd ga desc => (h.doStt .. : Out.Canon (execStt sz gd ga desc s))
  | .dset ga desc => (h.doDset .. : Out.Canon (execDset ga desc s))
  | .dget ga desc => (h.doDget .. : Out.Canon (execDget ga desc s))
  | .probe .. => h.execProbe ..
  | .aadd wide gd ga gb => (h.doAtom .. : Out.Canon (execAadd wide gd ga gb s))
  | .amin wide gd ga gb => (h.doAtom .. : Out.Canon (execAmin wide gd ga gb s))
  | .amax wide gd ga gb => (h.doAtom .. : Out.Canon (execAmax wide gd ga gb s))
  | .aminn wide gd ga gb => (h.doAtom .. : Out.Canon (execAminn wide gd ga gb s))
  | .amaxn wide gd ga gb => (h.doAtom .. : Out.Canon (execAmaxn wide gd ga gb s))
  | .aand wide gd ga gb => (h.doAtom .. : Out.Canon (execAand wide gd ga gb s))
  | .aor wide gd ga gb => (h.doAtom .. : Out.Canon (execAor wide gd ga gb s))
  | .axor wide gd ga gb => (h.doAtom .. : Out.Canon (execAxor wide gd ga gb s))
  | .axchg wide gd ga gb => (h.doAtom .. : Out.Canon (execAxchg wide gd ga gb s))
  | .acas wide gd ga gb => (h.doAtom .. : Out.Canon (execAcas wide gd ga gb s))
  | .aaddRemote wide gd ga gb => (h.doAtomRemote .. : Out.Canon (execAaddRemote wide gd ga gb s))
  | .aminRemote wide gd ga gb => (h.doAtomRemote .. : Out.Canon (execAminRemote wide gd ga gb s))
  | .amaxRemote wide gd ga gb => (h.doAtomRemote .. : Out.Canon (execAmaxRemote wide gd ga gb s))
  | .aminnRemote wide gd ga gb => (h.doAtomRemote .. : Out.Canon (execAminnRemote wide gd ga gb s))
  | .amaxnRemote wide gd ga gb => (h.doAtomRemote .. : Out.Canon (execAmaxnRemote wide gd ga gb s))
  | .aandRemote wide gd ga gb => (h.doAtomRemote .. : Out.Canon (execAandRemote wide gd ga gb s))
  | .aorRemote wide gd ga gb => (h.doAtomRemote .. : Out.Canon (execAorRemote wide gd ga gb s))
  | .axorRemote wide gd ga gb => (h.doAtomRemote .. : Out.Canon (execAxorRemote wide gd ga gb s))
  | .axchgRemote wide gd ga gb => (h.doAtomRemote .. : Out.Canon (execAxchgRemote wide gd ga gb s))
  | .acasRemote wide gd ga gb => (h.doAtomRemote .. : Out.Canon (execAcasRemote wide gd ga gb s))
  | .aaddTensor wide gd ga gb desc => (h.doAtomTensor .. : Out.Canon (execAaddTensor wide gd ga gb desc s))
  | .aminTensor wide gd ga gb desc => (h.doAtomTensor .. : Out.Canon (execAminTensor wide gd ga gb desc s))
  | .amaxTensor wide gd ga gb desc => (h.doAtomTensor .. : Out.Canon (execAmaxTensor wide gd ga gb desc s))
  | .aminnTensor wide gd ga gb desc => (h.doAtomTensor .. : Out.Canon (execAminnTensor wide gd ga gb desc s))
  | .amaxnTensor wide gd ga gb desc => (h.doAtomTensor .. : Out.Canon (execAmaxnTensor wide gd ga gb desc s))
  | .aandTensor wide gd ga gb desc => (h.doAtomTensor .. : Out.Canon (execAandTensor wide gd ga gb desc s))
  | .aorTensor wide gd ga gb desc => (h.doAtomTensor .. : Out.Canon (execAorTensor wide gd ga gb desc s))
  | .axorTensor wide gd ga gb desc => (h.doAtomTensor .. : Out.Canon (execAxorTensor wide gd ga gb desc s))
  | .axchgTensor wide gd ga gb desc => (h.doAtomTensor .. : Out.Canon (execAxchgTensor wide gd ga gb desc s))
  | .acasTensor wide gd ga gb desc => (h.doAtomTensor .. : Out.Canon (execAcasTensor wide gd ga gb desc s))
  | .pfx .. => h.execPfx ..
  | .fence scope => h.execFence scope
  | .acqx ga => (h.acquireCell .. : Out.Canon (execAcqx ga s))
  | .acqs ga => (h.acquireCell .. : Out.Canon (execAcqs ga s))
  | .rel .. => h.execRel ..
  | .bind .. => h.execBind ..
  | .unbind .. => h.execUnbind ..
  | .sigwait gd ga gb => (h.doSigwait .. : Out.Canon (execSigwait gd ga gb s))
  | .qpush .. => h.execQpush ..
  | .qpop .. => h.execQpop ..
  | .qtry .. => h.execQtry ..
  | .qpeek .. => h.execQpeek ..
  | .qcnt .. => h.execQcnt ..
  | .qpushx .. => h.execQpushx ..
  | .barset .. => h.execBarset ..
  | .barv .. => h.execBarv ..
  | .barw .. => h.execBarw ..
  | .bart .. => h.execBart ..
  | .barws .. => h.execBarws ..
  | .opwait .. => h.execOpwait ..
  | .opcancel .. => h.execOpcancel ..
  | .optest .. => h.execOptest ..
  | .opprio .. => h.execOpprio ..
  | .opdetach .. => h.execOpdetach ..
  | .launch .. => h.execLaunch ..
  | .exit => h.execExit ..
  | .brk => h.execBrk ..
  | .publish => h.execPublish ..
  | .fmtset .. => h.execFmtset ..
  | .fmtget .. => h.execFmtget ..
  | .rdsc .. => h.execRdsc ..
  | .rndkLo gd ga gb => (h.drawRand .. : Out.Canon (execRndkLo gd ga gb s))
  | .rndkHi gd ga gb => (h.drawRand .. : Out.Canon (execRndkHi gd ga gb s))
  | .trap n => (h.fault .. : Out.Canon (execTrap n s))
  | .ctlrd .. => h.execCtlrd ..
  | .ctlwr .. => h.execCtlwr ..
  | .pondWrite .. => h.execPondWrite ..
  | .spillWrite .. => h.execSpillWrite ..
  | .perfClear .. => h.execPerfClear ..
  | .perfFreeze .. => h.execPerfFreeze ..
  | .yield .. => h.execYield ..
  | .illegalInstructionWord .. => h.execIllegalInstructionWord ..
  | .instructionFetchFault page straddle absent => (h.fetchFault .. : Out.Canon (execInstructionFetchFault page straddle absent s))
  | .vadd f => (h.vec (fun _ h => h.rounding ..) _ : Out.Canon (execVadd f s))
  | .vsub f => (h.vec (fun _ h => h.rounding ..) _ : Out.Canon (execVsub f s))
  | .vmul f => (h.vec (fun _ h => h.rounding ..) _ : Out.Canon (execVmul f s))
  | .vfma f => (h.vec (fun _ h => h.rounding ..) _ : Out.Canon (execVfma f s))
  | .vfms f => (h.vec (fun _ h => h.rounding ..) _ : Out.Canon (execVfms f s))
  | .vfnma f => (h.vec (fun _ h => h.rounding ..) _ : Out.Canon (execVfnma f s))
  | .vmin f => (h.vec (fun _ h => h.lanewise ..) _ : Out.Canon (execVmin f s))
  | .vmax f => (h.vec (fun _ h => h.lanewise ..) _ : Out.Canon (execVmax f s))
  | .vabs f => (h.vec (fun _ h => h.lanewise ..) _ : Out.Canon (execVabs f s))
  | .vneg f => (h.vec (fun _ h => h.lanewise ..) _ : Out.Canon (execVneg f s))
  | .vrcp f => (h.vec (fun _ h => h.rounding ..) _ : Out.Canon (execVrcp f s))
  | .vrsq f => (h.vec (fun _ h => h.rounding ..) _ : Out.Canon (execVrsq f s))
  | .vsqrt f => (h.vec (fun _ h => h.rounding ..) _ : Out.Canon (execVsqrt f s))
  | .vdiv f => (h.vec (fun _ h => h.rounding ..) _ : Out.Canon (execVdiv f s))
  | .vexp2 f => (h.vec (fun _ h => h.rounding ..) _ : Out.Canon (execVexp2 f s))
  | .vlog2 f => (h.vec (fun _ h => h.rounding ..) _ : Out.Canon (execVlog2 f s))
  | .vcmp .. => h.execVcmp ..
  | .vsel .. => h.execVsel ..
  | .vand f => (h.vec (fun _ h => h.lanewise ..) _ : Out.Canon (execVand f s))
  | .vor f => (h.vec (fun _ h => h.lanewise ..) _ : Out.Canon (execVor f s))
  | .vxor f => (h.vec (fun _ h => h.lanewise ..) _ : Out.Canon (execVxor f s))
  | .vshl f => (h.vec (fun _ h => h.lanewise ..) _ : Out.Canon (execVshl f s))
  | .vshr f => (h.vec (fun _ h => h.lanewise ..) _ : Out.Canon (execVshr f s))
  | .vsra f => (h.vec (fun _ h => h.lanewise ..) _ : Out.Canon (execVsra f s))
  | .viadd f => (h.vec (fun _ h => h.integer ..) _ : Out.Canon (execViadd f s))
  | .visub f => (h.vec (fun _ h => h.integer ..) _ : Out.Canon (execVisub f s))
  | .vimul f => (h.vec (fun _ h => h.integer ..) _ : Out.Canon (execVimul f s))
  | .vcvt .. => h.execVcvt ..
  | .vbcast .. => h.execVbcast ..
  | .vbcastRows f => (h.vec (fun _ h => h.picking ..) _ : Out.Canon (execVbcastRows f s))
  | .vbcastCols f => (h.vec (fun _ h => h.picking ..) _ : Out.Canon (execVbcastCols f s))
  | .vmov f => (h.vec (fun _ h => h.picking ..) _ : Out.Canon (execVmov f s))
  | .vmovToG .. => h.execVmovToG ..
  | .vmovFromG .. => h.execVmovFromG ..
  | .vld .. => h.execVld ..
  | .vst .. => h.execVst ..
  | .vred .. => h.execVred ..
  | .vscan .. => h.execVscan ..
  | .vperm .. => h.execVperm ..
  | .vtrans f => (h.vec (fun _ h => h.picking ..) _ : Out.Canon (execVtrans f s))
  | .vrng .. => h.execVrng ..
  | .vidx .. => h.execVidx ..
  | .kand f => (h.vec (fun _ h => h.maskOp ..) _ : Out.Canon (execKand f s))
  | .kor f => (h.vec (fun _ h => h.maskOp ..) _ : Out.Canon (execKor f s))
  | .knot f => (h.vec (fun _ h => h.maskOp ..) _ : Out.Canon (execKnot f s))
  | .kpop .. => h.execKpop ..
  | .tload r => (h.issue .. : Out.Canon (execTload r s))
  | .tgather r => (h.issue .. : Out.Canon (execTgather r s))
  | .sload r => (h.issue .. : Out.Canon (execSload r s))
  | .xpull r => (h.issue .. : Out.Canon (execXpull r s))
  | .fill r => (h.issue .. : Out.Canon (execFill r s))
  | .mcred r => (h.issue .. : Out.Canon (execMcred r s))
  | .rload r => (h.issue .. : Out.Canon (execRload r s))
  | .wload r => (h.issue .. : Out.Canon (execWload r s))
  | .wswap r => (h.issue .. : Out.Canon (execWswap r s))
  | .mma r => (h.issue .. : Out.Canon (execMma r s))
  | .mmas r => (h.issue .. : Out.Canon (execMmas r s))
  | .mdrain r => (h.issue .. : Out.Canon (execMdrain r s))
  | .mdrainDirect r => (h.issue .. : Out.Canon (execMdrainDirect r s))
  | .mzero r => (h.issue .. : Out.Canon (execMzero r s))
  | .mchain r => (h.issue .. : Out.Canon (execMchain r s))
  | .mcopy r => (h.issue .. : Out.Canon (execMcopy r s))
  | .tstore r => (h.issue .. : Out.Canon (execTstore r s))
  | .tscatter r => (h.issue .. : Out.Canon (execTscatter r s))
  | .tred r => (h.issue .. : Out.Canon (execTred r s))
  | .rstore r => (h.issue .. : Out.Canon (execRstore r s))
  | .rsig r => (h.issue .. : Out.Canon (execRsig r s))
  | .xpush r => (h.issue .. : Out.Canon (execXpush r s))
  | .recordAccept .. => h.execRecordAccept ..
  | .blockedInstructionRetry .. => h.execBlockedInstructionRetry ..
  | .operationStart .. => h.execOperationStart ..
  | .engineIteration .. => h.execEngineIteration ..
  | .tokenPendingAppend .. => h.execTokenPendingAppend ..
  | .queuedCancelComplete .. => h.execQueuedCancelComplete ..
  | .stampExpiry t e => (h.expireStamp .. : Out.Canon (execStampExpiry t e s))
  | .mchainRendezvous .. => h.execMchainRendezvous ..
  | .gangTokenAccept .. => h.execGangTokenAccept ..
  | .barrierArrival .. => h.execBarrierArrival ..
  | .barwWake .. => h.execBarwWake ..
  | .sigwaitTimeout .. => h.execSigwaitTimeout ..
  | .localDeadlock .. => h.execLocalDeadlock ..
  | .gangDeadlock .. => h.execGangDeadlock ..
  | .preemptRequest .. => h.execPreemptRequest ..
  | .preemptDeadline .. => h.execPreemptDeadline ..
  | .tileSave .. => h.execTileSave ..
  | .saveComplete .. => h.execSaveComplete ..
  | .saveLimitExpiry .. => h.execSaveLimitExpiry ..
  | .tileFreeze .. => h.execTileFreeze ..
  | .firmwareResolve .. => h.execFirmwareResolve ..
  | .tileResume .. => h.execTileResume ..
  | .gangRestore .. => h.execGangRestore ..
  | .tileWakeBegin .. => h.execTileWakeBegin ..
  | .tileWakeComplete .. => h.execTileWakeComplete ..
  | .gangRelease .. => h.execGangRelease ..
  | .tileClockGate .. => h.execTileClockGate ..
  | .fabricResponse .. => h.execFabricResponse ..
  | .fabricTimeout .. => h.execFabricTimeout ..
  | .postedFailure .. => h.execPostedFailure ..
  | .fabricRequestArrival .. => h.execFabricRequestArrival ..
  | .signalPerform .. => h.execSignalPerform ..
  | .remoteScratchAccess .. => h.execRemoteScratchAccess ..
  | .pageWalk .. => h.execPageWalk ..
  | .shootDown p root va len dies => (h.shootDown .. : Out.Canon (execShootDown p root va len dies s))
  | .nodeRetirement .. => h.execNodeRetirement ..
  | .nodeFiring .. => h.execNodeFiring ..
  | .faultReport .. => h.execFaultReport ..
  | .attemptEnd .. => h.execAttemptEnd ..
  | .preemptionDecision .. => h.execPreemptionDecision ..
  | .placement .. => h.execPlacement ..
  | .reservationReply .. => h.execReservationReply ..
  | .coneWalkStep .. => h.execConeWalkStep ..
  | .nodeAgeing .. => h.execNodeAgeing ..
  | .backfillLimit .. => h.execBackfillLimit ..
  | .ringDoorbell r w => (h.doorbell .. : Out.Canon (execRingDoorbell r w s))
  | .ringStart r => (h.ringStart .. : Out.Canon (execRingStart r s))
  | .ringResume r => (h.ringResume .. : Out.Canon (execRingResume r s))
  | .ringStop r => (h.ringStop .. : Out.Canon (execRingStop r s))
  | .packetAccept .. => h.execPacketAccept ..
  | .packetReread .. => h.execPacketReread ..
  | .packetStart .. => h.execPacketStart ..
  | .nop .. => h.execNop ..
  | .submitNode .. => h.execSubmitNode ..
  | .submitGraph .. => h.execSubmitGraph ..
  | .cancelNode .. => h.execCancelNode ..
  | .abortGraph .. => h.execAbortGraph ..
  | .map .. => h.execMap ..
  | .unmap .. => h.execUnmap ..
  | .discard .. => h.execDiscard ..
  | .groupSet .. => h.execGroupSet ..
  | .groupBind .. => h.execGroupBind ..
  | .groupUnbind .. => h.execGroupUnbind ..
  | .exportPages .. => h.execExportPages ..
  | .unexportPages .. => h.execUnexportPages ..
  | .partCreate .. => h.execPartCreate ..
  | .partReset .. => h.execPartReset ..
  | .partDestroy .. => h.execPartDestroy ..
  | .loadImage .. => h.execLoadImage ..
  | .eventHeadWrite p head => (h.eventHead .. : Out.Canon (execEventHeadWrite p head s))
  | .apertureRead .. => h.execApertureRead ..
  | .apertureWrite .. => h.execApertureWrite ..
  | .hostReadTimeout .. => h.execHostReadTimeout ..
  | .linkPortFailure port => (h.setPort .. : Out.Canon (execLinkPortFailure port s))
  | .linkPortRecovery port => (h.setPort .. : Out.Canon (execLinkPortRecovery port s))
  | .powerClamp => h.execPowerClamp ..
  | .fabidWrite v => (h.writeFabid .. : Out.Canon (execFabidWrite v s))
  | .powerOnReset => h.execPowerOnReset ..
  | .fabricTraining => h.execFabricTraining ..
  | .scrub .. => h.execScrub ..
  | .bankRetirement .. => h.execBankRetirement ..
  | .registerWrite .. => h.execRegisterWrite ..
  | .getVersion => (h.answer .. : Out.Canon (execGetVersion s))
  | .getCapabilities => h.execGetCapabilities ..
  | .negotiateAlgorithms .. => h.execNegotiateAlgorithms ..
  | .getDigests => h.execGetDigests ..
  | .getCertificate .. => h.execGetCertificate ..
  | .challenge .. => h.execChallenge ..
  | .getMeasurements .. => h.execGetMeasurements ..
  | .spdmUnsupportedRequest code => (h.spdmError .. : Out.Canon (execSpdmUnsupportedRequest code s))
  | .debugStop p markq cutid => (h.debugStop .. : Out.Canon (execDebugStop p markq cutid s))
  | .debugResume p => (h.debugResume .. : Out.Canon (execDebugResume p s))
  | .debugRelease p => (h.debugRelease .. : Out.Canon (execDebugRelease p s))
  | .debugStopComplete .. => h.execDebugStopComplete ..
  | .hashRequest .. => h.execHashRequest ..
  | .hashUpdate .. => h.execHashUpdate ..
  | .traceMarker .. => h.execTraceMarker ..
  | .traceHeadPoll .. => h.execTraceHeadPoll ..
  | .seicheTick => h.execSeicheTick ..
  | .countedCycle .. => h.execCountedCycle ..
  | .thermalLimit .. => h.execThermalLimit ..
  | .softError .. => h.execSoftError ..
  | .fabricRouteLoss .. => h.execFabricRouteLoss ..
  | .hostWindowReadCompletion .. => h.execHostWindowReadCompletion ..

/-! ## The step -/

theorem coreStep_canon {s : State} (h : Canonical s) (t : TileId) (c : CoreId) : Out.Canon (coreStep t c s) := by
  have hc : Canonical { s with curTile := t, curCore := c } := { h with }
  unfold coreStep
  dsimp only
  generalize { s with curTile := t, curCore := c } = u at hc
  split
  · split
    · rename_i e
      exact exec_canon (.begins (.of_eq e (hc.fetchUnit ..)) _) _
    · rename_i e
      exact exec_canon (.of_eq e (hc.fetchUnit ..)) _
    · rename_i e
      exact Canonical.fetchStop (.of_eq e (hc.fetchUnit ..)) _
  · exact hc

theorem act_canon {s : State} (h : Canonical s) (a : Act) : Out.Canon (act a s) :=
  match a with
  | .core t c => coreStep_canon h t c
  | .event i => exec_canon h i

theorem step_canon {s : State} (h : Canonical s) : Out.Canon (step s) := by
  unfold step
  split
  · rename_i a rest _
    exact act_canon (s := { s with agenda := rest }) { h with } a
  · split
    · exact act_canon h.draw _
    · exact h.draw

end Sys2Proof.Machine
end

section
open Sys2Proof.Machine

/-- Settles O59: `canonical` is `Canonical`, and every step that goes on keeps it. -/
theorem memoryStaysCanonical : Obligations.MemoryStaysCanonical := by
  unfold Obligations.MemoryStaysCanonical
  intro s t hs e
  have h : Out.Canon (step s) := step_canon ((canonical_iff s).1 hs)
  rw [e] at h
  exact (canonical_iff t).2 h
end

section
namespace Sys2Proof.Machine

/-! ## What reset leaves -/

/-- No tile is listed after reset: each has the values of a tile that no node has used. -/
theorem tile_reset (t : Nat) : State.reset.tile t = {} := rfl

/-- No partition is listed after reset: each has the values of one that was never created. -/
theorem part_reset (p : Nat) : State.reset.part p = {} := rfl

/-- A core that no write has reached reads zero in every register. -/
theorem Core.read_of_unwritten {k : Core} (h : k.g = []) (r : Reg) : k.read r = 0 := by
  simp [Core.read, h, SMap.get]

theorem Tile.g_core_empty (c : CoreId) : (({} : Tile).core c).g = [] := by
  cases c <;> rfl

end Sys2Proof.Machine
end

section
open Sys2Proof.Machine

/-- Settles O60: after reset no tile, partition or byte is listed, so each location reads its default. -/
theorem resetState : Obligations.ResetState := by
  unfold Obligations.ResetState
  have hmem : ∀ a, State.reset.mem.byte a = 0 := fun _ => rfl
  have hread : ∀ t c r, ((State.reset.tile t).core c).read r = 0 := fun t c r => by
    rw [tile_reset, Core.read_of_unwritten (Tile.g_core_empty c)]
  refine ⟨by decide, hmem, rfl, fun t => ?tile, fun p => ?part, ?hub⟩
  case tile => exact ⟨rfl, rfl, rfl, rfl, rfl, rfl, rfl, rfl, hread t⟩
  case part => rw [part_reset]; exact ⟨rfl, rfl, rfl, rfl, rfl, rfl, rfl, rfl, rfl, fun _ => rfl⟩
  case hub => exact ⟨rfl, rfl, rfl, rfl, rfl, rfl, fun _ => rfl⟩

end

section
namespace Sys2Proof.Machine

/-! ## The tick (20 R478, 12 R295, 18 R432) -/

theorem lateTiles_eq_nil {s : State} (h : ∀ y ∈ s.tiles, ∀ e, (y.2.eng e).ops = []) : s.lateTiles = [] := by
  have hq : ∀ y ∈ s.tiles, y.2.el.ops = [] ∧ y.2.em.ops = [] ∧ y.2.es.ops = [] := fun y hy =>
    ⟨h y hy .load, h y hy .matrix, h y hy .store⟩
  rw [State.lateTiles, List.map_eq_nil_iff, List.filter_eq_nil_iff]
  intro y hy
  obtain ⟨hl, hm, hs⟩ := hq y hy
  simp [hl, hm, hs]

/-- A tick at which no stamp is late, no partition traces and no scrub period ends does nothing first. -/
theorem tickWork_of_idle {s : State} (hops : ∀ y ∈ s.tiles, ∀ e, (y.2.eng e).ops = []) (htr : ∀ q ∈ s.parts, q.2.dbg.tren = false)
    (hscrub : (s.seiche + 1) % 2 ^ 24 ≠ 0) : s.tickWork = s := by
  have hlate : s.expireLate = s := by rw [State.expireLate, lateTiles_eq_nil hops]; rfl
  have hmark : s.writeMarks = s := by
    have : s.parts.any (·.2.dbg.tren) = false := by simpa using htr
    simp [State.writeMarks, this]
  rw [State.tickWork, hlate, hmark]
  exact if_neg hscrub

/-! ## Events that are posted leave the tiles, HBM and the link ports (19 R447) -/

/-- What the posting of events leaves alone. -/
structure PostFrame (s t : State) : Prop where
  tiles : t.tiles = s.tiles
  mem : t.mem = s.mem
  ports : t.hub.ports = s.hub.ports

theorem PostFrame.refl (s : State) : PostFrame s s := ⟨rfl, rfl, rfl⟩

theorem PostFrame.trans {s t u : State} (h : PostFrame s t) (k : PostFrame t u) : PostFrame s u :=
  ⟨k.tiles.trans h.tiles, k.mem.trans h.mem, k.ports.trans h.ports⟩

theorem PostFrame.foldl {α : Type} {f : State → α → State} (hf : ∀ s a, PostFrame s (f s a)) (l : List α) (s : State) :
    PostFrame s (l.foldl f s) := by
  induction l generalizing s with
  | nil => exact .refl s
  | cons a l ih => exact (hf s a).trans (ih _)

theorem setEvRing_postFrame (s : State) (o : Option Nat) (r : EvRing) : PostFrame s (s.setEvRing o r) := by
  cases o <;> exact ⟨rfl, rfl, rfl⟩

theorem holdEvent_postFrame (s : State) (o : Option Nat) (e : Event) : PostFrame s (s.holdEvent o e) := by
  unfold State.holdEvent
  dsimp only
  split <;> exact setEvRing_postFrame ..

theorem hostWrite_postFrame (s : State) (src addr : Nat) (l : List Byte) : PostFrame s (s.hostWrite src addr l).2 := by
  unfold State.hostWrite
  split <;> exact ⟨rfl, rfl, rfl⟩

theorem writeEvent_postFrame (s : State) (o : Option Nat) (e : Event) : PostFrame s (s.writeEvent o e) := by
  have hw := hostWrite_postFrame s (evSource o) ((s.evRing o).base + 32 * ((s.evRing o).tail % 2 ^ (s.evRing o).log2))
    (e.bytes (s.evRing o).tail (s.evRing o).log2)
  unfold State.writeEvent
  dsimp only
  split
  · rename_i hs; rw [hs] at hw; exact hw.trans (setEvRing_postFrame ..)
  · rename_i hs; rw [hs] at hw; exact (hw.trans (setEvRing_postFrame ..)).trans (holdEvent_postFrame ..)

theorem drainEvents_postFrame (s : State) (o : Option Nat) (fuel : Nat) : PostFrame s (s.drainEvents o fuel) := by
  induction fuel generalizing s with
  | zero => exact .refl s
  | succ n ih =>
    have hw := fun r e => ((setEvRing_postFrame s o r).trans (writeEvent_postFrame _ o e)).trans (ih _)
    unfold State.drainEvents
    dsimp only
    split
    · split
      · exact hw ..
      · split
        · exact hw ..
        · exact .refl s
    · exact .refl s

theorem post_postFrame (s : State) (o : Option Nat) (e : Event) : PostFrame s (s.post o e) :=
  (holdEvent_postFrame ..).trans (drainEvents_postFrame ..)

theorem postAll_postFrame (s : State) (e : Event) : PostFrame s (s.postAll e) :=
  .foldl (fun s p => by split; exacts [.refl s, post_postFrame ..]) _ s

/-- A port that changes is entered, and what is posted about it leaves the tiles, HBM and the ports. -/
theorem setPort_spec (s : State) (port : Nat) (up : Bool) :
    SMap.get true (s.setPort port up).hub.ports port = up ∧ (s.setPort port up).tiles = s.tiles ∧ (s.setPort port up).mem = s.mem := by
  unfold State.setPort
  split
  · rename_i h; exact ⟨h, rfl, rfl⟩
  · have hp := (postAll_postFrame { s with hub := { s.hub with ports := SMap.put s.hub.ports port up } }
      { status := Status.linkDegraded, data := port }).trans (drainEvents_postFrame _ none s.hub.adminEv.turns)
    refine ⟨?_, hp.tiles, hp.mem⟩
    rw [hp.ports]
    exact SMap.get_put_same ..

theorem setPort_of_eq {s : State} {port : Nat} {up : Bool} (h : SMap.get true s.hub.ports port = up) : s.setPort port up = s := by
  simp [State.setPort, h]

/-- A ring with no event held and none lost has nothing to write. -/
theorem drainEvents_of_empty {s : State} {o : Option Nat} (hheld : (s.evRing o).held = []) (hlost : (s.evRing o).lost = 0) (fuel : Nat) :
    s.drainEvents o fuel = s := by
  cases fuel with
  | zero => rfl
  | succ n => simp [State.drainEvents, hheld, hlost]

/-! ## The clamp of the tile clock (01 R23) -/

/-- A comparison that finds the power over its limit lowers the clock, down to 500 MHz. -/
theorem Power.compare_over {x : Power} {w : Nat} (h : x.limit < w) :
    (x.compare w).fclk = (if 500 < x.fclk then x.fclk - 100 else x.fclk) ∧ (x.compare w).high = x.high + 1 ∧ (x.compare w).low = 0 := by
  have h1 : ¬w ≤ x.limit := by omega
  have h2 : ¬20 * w ≤ 19 * x.limit := by omega
  simp only [Power.compare, h, h1, h2, if_true, if_false]
  by_cases hf : 500 < x.fclk
  · simp only [hf, if_true, Power.lower]
    split <;> exact ⟨rfl, rfl, rfl⟩
  · simp only [hf, if_false]
    split <;> exact ⟨rfl, rfl, rfl⟩

/-- A comparison that finds the power within its limit ends a hold, and raises the clock after ten low ones. -/
theorem Power.compare_within {x : Power} {w : Nat} (h : w ≤ x.limit) :
    (x.compare w).hold = false ∧ (x.compare w).high = 0 ∧
    (x.compare w).low = (if 20 * w ≤ 19 * x.limit then x.low + 1 else 0) ∧
    (x.compare w).fclk = (if 10 ≤ (x.compare w).low ∧ x.fclk < 2500 then min 2500 (x.fclk + 100) else x.fclk) := by
  have h1 : ¬x.limit < w := by omega
  simp only [Power.compare, h, h1, if_true, if_false]
  generalize (if 20 * w ≤ 19 * x.limit then x.low + 1 else 0) = low
  by_cases hl : 10 ≤ low ∧ x.fclk < 2500 <;> simp [hl]

theorem Power.compare_watts (x : Power) (w : Nat) : (x.compare w).watts = w := by
  simp only [Power.compare, Power.lower]
  split_ifs <;> rfl

theorem exec_powerClamp {s : State} (h : s.hub.power.due ≤ s.seiche) : exec .powerClamp s =
    .next { s.draw with hub := { s.hub with power := { s.hub.power.compare (Config.watts s.choices).toNat with
      due := (s.seiche / 1000 + 1) * 1000 } } } :=
  congrArg Host.Outcome.next (if_pos h)

/-! ## Bring-up (01 R24, 19 R455 to R459) -/

/-- What bring-up leaves alone. -/
structure BringUpFrame (s t : State) : Prop where
  tiles : t.tiles = s.tiles
  parts : t.parts = s.parts
  mem : t.mem = s.mem
  host : t.host = s.host
  peers : t.peers = s.peers
  lock : t.hub.lock = s.hub.lock

/-- Bring-up is at stage 7, or at an earlier one with the error that stopped it. -/
def BringUpEnded (t : State) : Prop := t.hub.stage ≤ 7 ∧ (t.hub.stage = 7 ↔ t.hub.err = 0)

theorem BringUpFrame.trans {s t u : State} (h : BringUpFrame s t) (k : BringUpFrame t u) : BringUpFrame s u :=
  ⟨k.tiles.trans h.tiles, k.parts.trans h.parts, k.mem.trans h.mem, k.host.trans h.host, k.peers.trans h.peers, k.lock.trans h.lock⟩

theorem draw_frame (s : State) : BringUpFrame s s.draw := ⟨rfl, rfl, rfl, rfl, rfl, rfl⟩

theorem extend_frame (s : State) (i : Nat) (l : List Byte) : BringUpFrame s (s.extend i l) := ⟨rfl, rfl, rfl, rfl, rfl, rfl⟩

theorem stageDone_frame (s : State) (n : Nat) : BringUpFrame s (s.stageDone n) := ⟨rfl, rfl, rfl, rfl, rfl, rfl⟩

theorem stageFails_frame (s : State) (err : Nat) : BringUpFrame s (s.stageFails err) := ⟨rfl, rfl, rfl, rfl, rfl, rfl⟩

theorem bringUpRest_frame (s : State) : BringUpFrame s s.bringUpRest :=
  ((stageDone_frame ..).trans (stageDone_frame ..)).trans (stageDone_frame ..)

theorem bringUpLink_frame (s : State) : BringUpFrame s s.bringUpLink := by
  have hp : ∀ l, BringUpFrame s { s.draw.draw with hub := { s.draw.draw.hub with ports := l } } := fun _ => ⟨rfl, rfl, rfl, rfl, rfl, rfl⟩
  unfold State.bringUpLink
  dsimp only
  split
  · exact ((hp _).trans (stageDone_frame _ 4)).trans (bringUpRest_frame _)
  · exact (hp _).trans (stageFails_frame ..)

theorem bringUpMemory_frame (s : State) : BringUpFrame s s.bringUpMemory := by
  unfold State.bringUpMemory
  split
  · exact ((draw_frame s).trans (stageDone_frame _ 3)).trans (bringUpLink_frame _)
  · exact (draw_frame s).trans (stageFails_frame ..)

theorem bringUp_frame (s : State) : BringUpFrame s s.bringUp := by
  have h1 := fun l => (extend_frame s 0 l).trans (stageDone_frame _ 1)
  unfold State.bringUp
  dsimp only
  split
  · exact ((((h1 _).trans (draw_frame _)).trans (extend_frame ..)).trans (stageDone_frame ..)).trans (bringUpMemory_frame _)
  · exact ((h1 _).trans (draw_frame _)).trans (stageFails_frame ..)

@[simp] theorem stageDone_stage (s : State) (n : Nat) : (s.stageDone n).hub.stage = n := rfl
@[simp] theorem stageDone_err (s : State) (n : Nat) : (s.stageDone n).hub.err = s.hub.err := rfl
@[simp] theorem stageFails_stage (s : State) (e : Nat) : (s.stageFails e).hub.stage = s.hub.stage := rfl
@[simp] theorem stageFails_err (s : State) (e : Nat) : (s.stageFails e).hub.err = e := rfl
@[simp] theorem extend_err (s : State) (i : Nat) (l : List Byte) : (s.extend i l).hub.err = s.hub.err := rfl

/-- A stage that fails before the seventh ends bring-up with its error. -/
theorem stageFails_ended {s : State} {err : Nat} (hs : s.hub.stage < 7) (he : err ≠ 0) : BringUpEnded (s.stageFails err) :=
  ⟨hs.le, iff_of_false hs.ne he⟩

theorem bringUpRest_ended {s : State} (he : s.hub.err = 0) : BringUpEnded s.bringUpRest :=
  ⟨le_refl 7, iff_of_true rfl he⟩

theorem bringUpLink_ended {s : State} (hs : s.hub.stage < 7) (he : s.hub.err = 0) : BringUpEnded s.bringUpLink := by
  unfold State.bringUpLink
  dsimp only
  split
  · exact bringUpRest_ended (by simpa using he)
  · exact stageFails_ended (by simpa using hs) (by decide)

theorem bringUpMemory_ended {s : State} (hs : s.hub.stage < 7) (he : s.hub.err = 0) : BringUpEnded s.bringUpMemory := by
  unfold State.bringUpMemory
  split
  · exact bringUpLink_ended (by simp) (by simpa using he)
  · exact stageFails_ended (by simpa using hs) (by decide)

theorem bringUp_ended {s : State} (he : s.hub.err = 0) : BringUpEnded s.bringUp := by
  unfold State.bringUp
  dsimp only
  split
  · exact bringUpMemory_ended (by simp) (by simpa using he)
  · exact stageFails_ended (by simp) (by decide)

/-- What FABRIC_TRAINING does, in each of its cases. -/
theorem exec_fabricTraining {s : State} (h : s.hub.stage = 7 ∧ s.hub.err = 0 ∧ s.hub.lock = true ∧ s.hub.imageLoaded = true) :
    exec .fabricTraining s = .next (
      if !Config.bringUp s.choices then s.draw.draw.stageFails Status.authFailed
      else if !Config.bringUp (s.choices + 1) then s.draw.draw.stageFails Status.busy
      else { s.draw.draw.stageDone 8 with hub := { (s.draw.draw.stageDone 8).hub with fabricUp := true } }) :=
  congrArg Host.Outcome.next (if_pos h)

/-! ## The host's accesses and the register writes (19 R436, R439, R456) -/

/-- An event ring that holds no event takes its new head and writes nothing. -/
theorem eventHead_of_empty {s : State} {p : Nat} (head : Nat) (hheld : (s.part p).ev.held = []) (hlost : (s.part p).ev.lost = 0) :
    s.eventHead (some p) head = s.setPart p { s.part p with ev := { (s.part p).ev with head := head } } := by
  have h : ∀ r, (s.setEvRing (some p) r).evRing (some p) = r := fun r => by simp [State.setEvRing, State.evRing]
  exact drainEvents_of_empty (by rw [h]; exact hheld) (by rw [h]; exact hlost) _

end Sys2Proof.Machine
end

section
open Sys2Proof Sys2Proof.Machine

/-- Settles O51, clause by clause: each event is the model's own step where it takes effect, and the state unchanged elsewhere. -/
theorem moduleAndHostEvents : Obligations.ModuleAndHostEvents := by
  unfold Obligations.ModuleAndHostEvents
  intro s s1 mhz port v p addr len l pa who x
  refine ⟨rfl, fun hops htr hscrub => ?tick, fun h => ?thermal, fun h => ?cool, fun h => ?clamp, ?ports, fun h => ?locked,
    fun h => ?fabid, fun h1 h2 h3 h4 => ?training, ?power, fun h => ?read, fun h => ?write, fun hheld hlost => ?head,
    fun h1 h2 => ?hub, ?hostlim, fun h => ?odd⟩
  case tick =>
    show Host.Outcome.next { s.tickWork with seiche := s.seiche + 1 } = _
    rw [tickWork_of_idle hops htr hscrub]
  case thermal => exact congrArg Host.Outcome.next (if_pos h)
  case cool => exact congrArg Host.Outcome.next (if_neg h.not_gt)
  case clamp =>
    refine ⟨_, _, exec_powerClamp h, rfl, Power.compare_watts .., rfl, ?_, ?_⟩
    · rintro rfl hw
      exact Power.compare_over hw
    · rintro rfl hw
      exact Power.compare_within hw
  case ports =>
    exact ⟨⟨_, rfl, setPort_spec s port.val false⟩, ⟨_, rfl, setPort_spec s port.val true⟩,
      fun h => congrArg Host.Outcome.next (setPort_of_eq h), fun h => congrArg Host.Outcome.next (setPort_of_eq h)⟩
  case locked => exact congrArg Host.Outcome.next (if_pos h)
  case fabid =>
    refine ⟨_, congrArg Host.Outcome.next (if_neg (by simp [h])), ?_, ?_, rfl, rfl⟩
    · simp [field]
    · simp [bit, field, BitVec.getLsbD, Nat.testBit_eq_decide_div_mod_eq]
  case training =>
    refine ⟨_, exec_fabricTraining ⟨h1, h2, h3, h4⟩, fun ⟨ha, hb⟩ => ?_, fun hab => ?_⟩
    · simp [ha, hb]
    · rcases hab with ha | hb
      · simp [ha, h1, Status.authFailed]
      · by_cases ha : Config.bringUp s.choices <;> simp [ha, hb, h1, Status.authFailed, Status.busy]
  case power =>
    have hf := bringUp_frame { State.reset with agenda := s.agenda, choices := s.choices, host := s.host, peers := s.peers }
    exact ⟨_, rfl, hf.tiles, hf.parts, hf.mem, hf.host, hf.peers, hf.lock, bringUp_ended rfl⟩
  case read => exact ⟨fun e => by simp only [exec, execApertureRead, h, if_true, e], fun c e => by
    simp only [exec, execApertureRead, h, if_true, e]⟩
  case write => exact ⟨fun e => by simp only [exec, execApertureWrite, h, if_true, e], fun c e => by
    simp only [exec, execApertureWrite, h, if_true, e]⟩
  case head => exact congrArg Host.Outcome.next (eventHead_of_empty v.toNat hheld hlost)
  case hub => simp [exec, execRegisterWrite, h1, hbmEnd, h2]
  case hostlim => simp [exec, execRegisterWrite, hbmEnd, State.hubReg, State.mcbReg, clampTo, field]
  case odd => exact congrArg Host.Outcome.next (if_pos h)

end

section
namespace Sys2Proof.Machine

/-! ## The publication buffer at host memory (07 R174, 19 R448) -/

/-- Byte `i` of the little-endian bytes of a number. -/
theorem leBytes_getD (v n i : Nat) (h : i < n) : (leBytes v n).getD i 0 = BitVec.ofNat 8 (v / 2 ^ (8 * i)) := by
  induction n generalizing v i with
  | zero => omega
  | succ n ih =>
    cases i with
    | zero => simp [leBytes]
    | succ i =>
      rw [leBytes, List.getD_cons_succ, ih _ _ (by omega), Nat.div_div_eq_div_mul, show 256 * 2 ^ (8 * i) = 2 ^ (8 * (i + 1)) by
        rw [show 8 * (i + 1) = 8 + 8 * i by omega, Nat.pow_add]]

/-- Host memory with the held bytes of the granule written. -/
def Granule.perform (g : Granule) (m : Memory) : Memory :=
  (List.range 64).foldl (fun h i => (g.bytes.getD i none).elim h (h.setByte (g.host + i))) m

/-- The byte at an address that the first of some granules to cover it holds. -/
def heldIn (gs : List Granule) (a : Nat) : Option Byte :=
  (gs.find? fun g => decide (g.host = a / 64 * 64)).bind fun g => g.bytes.getD (a % 64) none

theorem Part.heldByte_eq (p : Part) (a : Nat) : p.heldByte a = heldIn p.pub a := by
  unfold Part.heldByte heldIn
  cases p.pub.find? fun g => decide (g.host = a / 64 * 64) <;> rfl

theorem Granule.byte_perform (g : Granule) (m : Memory) (a : Nat) :
    (g.perform m).byte a = if g.host ≤ a ∧ a < g.host + 64 then (g.bytes.getD (a - g.host) none).getD (m.byte a) else m.byte a := by
  unfold Granule.perform
  generalize 64 = n
  induction n with
  | zero => simp
  | succ n ih =>
    rw [List.range_succ, List.foldl_append, List.foldl_cons, List.foldl_nil]
    generalize hb : (List.range n).foldl _ m = b at ih ⊢
    by_cases ha : a = g.host + n
    · subst ha
      rw [if_neg (by omega)] at ih
      rw [if_pos (by omega), Nat.add_sub_cancel_left]
      cases g.bytes.getD n none <;> simp [ih]
    · have hk : ((g.bytes.getD n none).elim b (b.setByte (g.host + n))).byte a = b.byte a := by
        cases g.bytes.getD n none <;> simp [ha]
      rw [hk, ih]
      by_cases hc : g.host ≤ a ∧ a < g.host + n
      · rw [if_pos hc, if_pos (by omega)]
      · rw [if_neg hc, if_neg (by omega)]

/-- Granules of different places, performed one after another. -/
theorem byte_foldl_perform {gs : List Granule} (hal : ∀ g ∈ gs, g.host % 64 = 0) (hne : gs.Pairwise fun g h => g.host ≠ h.host)
    (m : Memory) (a : Nat) : (gs.foldl (fun m g => g.perform m) m).byte a = (heldIn gs a).getD (m.byte a) := by
  induction gs generalizing m with
  | nil => rfl
  | cons g gs ih =>
    obtain ⟨hg, hgs⟩ := List.pairwise_cons.1 hne
    have hg64 := hal g (by simp)
    rw [List.foldl_cons, ih (fun x hx => hal x (by simp [hx])) hgs, Granule.byte_perform]
    by_cases hc : g.host = a / 64 * 64
    · have hnone : heldIn gs a = none := by
        have : (gs.find? fun g => decide (g.host = a / 64 * 64)) = none := List.find?_eq_none.2 fun x hx => by
          simpa [← hc] using (hg x hx).symm
        simp [heldIn, this]
      have hhead : heldIn (g :: gs) a = g.bytes.getD (a % 64) none := by simp [heldIn, hc]
      rw [hnone, hhead, if_pos (by omega), show a - g.host = a % 64 by omega]
      rfl
    · have hhead : heldIn (g :: gs) a = heldIn gs a := by simp [heldIn, hc]
      rw [hhead, if_neg (by omega)]

/-- The state with host memory replaced. -/
def State.withHost (s : State) (m : Memory) : State := { s with host := m }

theorem drainGranule_of_granted {s : State} {part : Nat} {g : Granule} (h : s.granted part g.host 64 true = true) :
    s.drainGranule part g = s.withHost (g.perform s.host) := by
  have hf : (fun (h : Memory) i => match g.bytes.getD i none with | some v => h.setByte (g.host + i) v | none => h) =
      fun h i => (g.bytes.getD i none).elim h (h.setByte (g.host + i)) := by
    funext h i; cases g.bytes.getD i none <;> rfl
  rw [State.drainGranule, if_pos h, Granule.perform, ← hf]
  rfl

theorem foldl_drainGranule {gs : List Granule} {s : State} {part : Nat} (h : ∀ g ∈ gs, s.granted part g.host 64 true = true) :
    gs.foldl (fun s g => s.drainGranule part g) s = s.withHost (gs.foldl (fun m g => g.perform m) s.host) := by
  induction gs generalizing s with
  | nil => rfl
  | cons g gs ih =>
    rw [List.foldl_cons, drainGranule_of_granted (h g (by simp)),
      ih (s := s.withHost (g.perform s.host)) fun x hx => h x (by simp [hx])]
    rfl

/-- Host memory as a `publish` that the card grants leaves it: the granules, then the version counter. -/
def State.published (s : State) (p : Part) : Memory :=
  let m := p.pub.foldl (fun m g => g.perform m) s.host
  if p.pubctr = 0 then m else m.setBytes (p.pubctr * 8) (leBytes (p.pubver + 1).toNat 8)

theorem publishDrain_of_granted {s : State} {part : Nat} (h : ∀ g ∈ (s.part part).pub, s.granted part g.host 64 true = true)
    (hc : (s.part part).pubctr * 8 ≠ 0 → s.granted part ((s.part part).pubctr * 8) 8 true = true) :
    s.publishDrain part =
      (s.setPart part { s.part part with pub := [], pubver := (s.part part).pubver + 1 }).withHost (s.published (s.part part)) := by
  have hw (u : State) (a : Nat) (v : Word) (hg : u.granted part a 8 true = true) :
      u.hostWrite part a (leBytes v.toNat 8) = (true, u.withHost (u.host.setBytes a (leBytes v.toNat 8))) := by
    rw [State.hostWrite, length_leBytes, if_pos hg]; rfl
  rw [State.publishDrain, foldl_drainGranule h, State.published]
  generalize (s.part part).pub.foldl (fun m g => g.perform m) s.host = m
  have hp : (s.withHost m).part part = s.part part := rfl
  by_cases h0 : (s.part part).pubctr = 0
  · simp only [hp, h0, if_true]
    rfl
  · simp only [hp, h0, if_false]
    rw [hw]
    · rfl
    · exact hc (by omega)

/-- The byte at an address of host memory after a `publish` that the card grants. -/
theorem State.byte_published (s : State) {p : Part} (hal : ∀ g ∈ p.pub, g.host % 64 = 0)
    (hne : p.pub.Pairwise fun g h => g.host ≠ h.host) (a : Nat) : (s.published p).byte a =
      if p.pubctr * 8 ≠ 0 ∧ p.pubctr * 8 ≤ a ∧ a < p.pubctr * 8 + 8
      then BitVec.ofNat 8 ((p.pubver + 1).toNat / 2 ^ (8 * (a - p.pubctr * 8))) else (p.heldByte a).getD (s.host.byte a) := by
  have hm := byte_foldl_perform hal hne s.host a
  rw [← Part.heldByte_eq] at hm
  unfold State.published
  by_cases h0 : p.pubctr = 0
  · simp [h0, hm]
  · rw [if_neg h0, Memory.byte_setBytes, length_leBytes, hm]
    by_cases hc : p.pubctr * 8 ≤ a ∧ a < p.pubctr * 8 + 8
    · rw [if_pos hc, if_pos ⟨by omega, hc⟩, leBytes_getD _ _ _ (by omega)]
    · rw [if_neg hc, if_neg fun h => hc h.2]

theorem publish_of_granted {s : State} {part : Nat}
    (hg : ∀ g ∈ (s.part part).pub, g.host % 64 = 0 ∧ g.bytes.length = 64 ∧ s.granted part g.host 64 true = true)
    (hne : (s.part part).pub.Pairwise fun g h => g.host ≠ h.host)
    (hc : (s.part part).pubctr * 8 ≠ 0 → s.granted part ((s.part part).pubctr * 8) 8 true = true) :
    (s.publishDrain part).core = s.core ∧ ((s.publishDrain part).part part).pub = [] ∧
    ((s.publishDrain part).part part).pubver = (s.part part).pubver + 1 ∧ (s.publishDrain part).mem = s.mem ∧
    ∀ a, (s.publishDrain part).host.byte a = if (s.part part).pubctr * 8 ≠ 0 ∧ (s.part part).pubctr * 8 ≤ a ∧ a < (s.part part).pubctr * 8 + 8
      then BitVec.ofNat 8 (((s.part part).pubver + 1).toNat / 2 ^ (8 * (a - (s.part part).pubctr * 8)))
      else ((s.part part).heldByte a).getD (s.host.byte a) := by
  rw [publishDrain_of_granted (fun g h => (hg g h).2.2) hc]
  exact ⟨rfl, congrArg Part.pub (State.part_setPart_same ..), congrArg Part.pubver (State.part_setPart_same ..), rfl,
    State.byte_published s (fun g h => (hg g h).1) hne⟩

/-- An instruction that completes moves the program counter and waits for nothing. -/
theorem core_unblock_skip (s : State) (n : Nat) :
    (s.unblock.skip n).core = { s.core with wait := .none, pc := s.core.pc + BitVec.ofNat 56 n } := by
  rw [State.core_skip, State.unblock, State.core_block]
  rfl

theorem frame_unblock_skip (s : State) (n p : Nat) :
    (s.unblock.skip n).part p = s.part p ∧ (s.unblock.skip n).mem = s.mem ∧ (s.unblock.skip n).host = s.host := ⟨rfl, rfl, rfl⟩

/-! ## Stops of a gang (20 R468, R469) -/

/-- A draining tile that rests for the debugger already stays as it is. -/
theorem Tile.bringToRest_debug {x : Tile} (hp : x.life.phase = .draining) (hr : x.life.rest = some .debug) :
    x.bringToRest .debug = x := by
  simp [Tile.bringToRest, hp, hr, Rest.yieldsTo]

theorem tile_foldl_bringToRest {s : State} {k : Nat} {r : Rest} (h : (s.tile k).bringToRest r = s.tile k) (l : List Nat) :
    (l.foldl (fun s t => s.setTile t ((s.tile t).bringToRest r)) s).tile k = s.tile k := by
  induction l generalizing s with
  | nil => rfl
  | cons t l ih =>
    have ht : (s.setTile t ((s.tile t).bringToRest r)).tile k = s.tile k := by
      by_cases hk : k = t
      · subst hk; simpa using h
      · simp [hk]
    rw [List.foldl_cons, ih (by rw [ht]; exact h), ht]

theorem foldl_bringToRest_cur (l : List Nat) (r : Rest) (s : State) :
    (l.foldl (fun s t => s.setTile t ((s.tile t).bringToRest r)) s).curTile = s.curTile ∧
    (l.foldl (fun s t => s.setTile t ((s.tile t).bringToRest r)) s).curCore = s.curCore := by
  induction l generalizing s with
  | nil => exact ⟨rfl, rfl⟩
  | cons t l ih => exact ih _

theorem stopGang_cur (s : State) (p node kind : Nat) :
    (s.stopGang p node kind).curTile = s.curTile ∧ (s.stopGang p node kind).curCore = s.curCore := by
  unfold State.stopGang
  split
  · exact ⟨rfl, rfl⟩
  · split
    · exact ⟨rfl, rfl⟩
    · exact foldl_bringToRest_cur ..

/-- A tile that rests for the debugger is no further concern of the stop of its gang. -/
theorem tile_stopGang_of_debug {s : State} {k : Nat} (hp : (s.tile k).life.phase = .draining)
    (hr : (s.tile k).life.rest = some .debug) (p node kind : Nat) : (s.stopGang p node kind).tile k = s.tile k := by
  unfold State.stopGang
  split
  · rfl
  · split
    · rfl
    · rename_i n _ _
      exact tile_foldl_bringToRest (s := s.putNode p _) (Tile.bringToRest_debug hp hr) _

/-! ## Taking a fault (06 R146, 18 R421) -/

@[simp] theorem Tile.settle_core (x : Tile) (t now : Nat) (f : FaultRec) (c : CoreId) : (x.settle t now f).core c = x.core c := by
  unfold Tile.settle
  split
  · cases c <;> rfl
  · rfl

/-- A tile that holds no fault has none to give up. -/
theorem Tile.settle_of_noFault {x : Tile} (h : x.life.fault = none) (t now : Nat) (f : FaultRec) : x.settle t now f = x := by
  simp [Tile.settle, Tile.outranked, h]

theorem Tile.takeFault_pc (x : Tile) (f : FaultRec) (c : CoreId) : ((x.takeFault f).core c).pc = (x.core c).pc := by
  cases c <;> rfl

theorem Tile.takeFault_fault {x : Tile} (h : x.life.fault = none) (f : FaultRec) : (x.takeFault f).life.fault = some f := by
  simp [Tile.takeFault, h]

theorem State.me_coreTakes (s : State) (f : FaultRec) : (s.coreTakes f).me =
    ((s.setCore { s.core with did := none }).me.settle s.curTile.val s.seiche f).takeFault { f with tick := s.seiche } :=
  State.tile_setTile_same ..

/-- The program counter of the core that takes a fault stays on the instruction. -/
theorem State.pc_coreTakes (s : State) (f : FaultRec) : (s.coreTakes f).core.pc = s.core.pc := by
  show ((s.coreTakes f).me.core s.curCore).pc = _
  rw [State.me_coreTakes, Tile.takeFault_pc, Tile.settle_core]
  simp

theorem State.fault_coreTakes {s : State} (h : s.me.life.fault = none) (f : FaultRec) :
    (s.coreTakes f).me.life.fault = some { f with tick := s.seiche } := by
  have h' : (s.setCore { s.core with did := none }).me.life.fault = none := by simpa using h
  rw [State.me_coreTakes, Tile.settle_of_noFault h', Tile.takeFault_fault h']

/-! ## Remote stores performed (09 R215) -/

theorem foldl_performRemote_cur (l : List RemoteStore) (s : State) :
    (l.foldl State.performRemote s).curTile = s.curTile ∧ (l.foldl State.performRemote s).curCore = s.curCore := by
  induction l generalizing s with
  | nil => exact ⟨rfl, rfl⟩
  | cons r l ih => exact ih _

/-- The running core stays the running core. -/
theorem flushMine_cur (s : State) : s.flushMine.curTile = s.curTile ∧ s.flushMine.curCore = s.curCore := by
  unfold State.flushMine State.flushRemote
  dsimp only
  split
  · exact ⟨rfl, rfl⟩
  · exact foldl_performRemote_cur ..

/-! ## Code displacements (10 R247) -/

/-- A displacement of 21 bits, in words of 4 bytes, as it is added to the program counter. -/
theorem ofInt_disp (disp : BitVec 21) : 4#56 * disp.signExtend 56 = BitVec.ofInt 56 (4 * disp.toInt) := by
  rw [BitVec.ofInt_mul]
  rfl

/-- The state in which a `brk` that executes under a debugger leaves its tile: it takes the fault and rests for the debugger. -/
def State.breaks (s : State) : State :=
  let u := s.coreTakes { coreRec s.core s.curCore Code.breakpoint 0 with attached := true }
  u.setMe { u.me with life := { u.me.life with rest := some .debug } }

theorem exec_brk_attached {s : State} (h : (s.part s.myPart).dbg.attach = true) :
    ∃ node, exec .brk s = .next (s.breaks.stopGang s.myPart node 3) := ⟨_, congrArg Host.Outcome.next (if_pos h)⟩

theorem State.me_breaks (s : State) : s.breaks.me =
    { (s.coreTakes { coreRec s.core s.curCore Code.breakpoint 0 with attached := true }).me with
      life := { (s.coreTakes { coreRec s.core s.curCore Code.breakpoint 0 with attached := true }).me.life with
        rest := some .debug } } := State.me_setMe ..

theorem Tile.core_setLife (x : Tile) (l : Life) (c : CoreId) : ({ x with life := l } : Tile).core c = x.core c := by
  cases c <;> rfl

theorem State.pc_breaks (s : State) : s.breaks.core.pc = s.core.pc := by
  rw [State.core, State.me_breaks, Tile.core_setLife]
  exact State.pc_coreTakes s _

/-- The stop of the gang that follows a `brk` leaves the tile of the `brk`. -/
theorem State.me_stopGang_breaks (s : State) (p node kind : Nat) : (s.breaks.stopGang p node kind).me = s.breaks.me := by
  have hp : s.breaks.me.life.phase = .draining := by
    rw [State.me_breaks, State.me_coreTakes]
    rfl
  have hr : s.breaks.me.life.rest = some .debug := by rw [State.me_breaks]
  rw [State.me, (stopGang_cur ..).1]
  exact tile_stopGang_of_debug hp hr p node kind

end Sys2Proof.Machine
end

section
open Sys2Proof Sys2Proof.Machine

/-- Settles O25, clause by clause. -/
theorem streamInstructions : Obligations.StreamInstructions := by
  unfold Obligations.StreamInstructions
  intro s n disp
  refine ⟨fun u hh ha hu => ?exit, fun hh ha => ?exitWaits, fun hh => ?exitHolds, fun hd hl => ?yieldOn, rfl,
    fun hd hl l s1 u hu hf => ?yieldStops, rfl, fun ha => ?brk, fun ha => ?brkDebug, fun u m k f hf => ?ending, fun hl => ?publish,
    fun u p ctr hl hu hp hc hg hne hctr => ?published, fun hl => ?publishWaits⟩
  case exit =>
    subst hu
    obtain ⟨ht, hk⟩ := flushMine_cur s
    simp [exec, execExit, hh, ha, ht, hk]
  case exitWaits => simp [exec, execExit, hh, ha]
  case exitHolds => simp [exec, execExit, hh, State.syncMisuse]
  case yieldOn => exact (if_neg hd).trans (if_neg (by simp [hl]))
  case yieldStops =>
    rw [← ofInt_disp] at hf
    refine (if_neg hd).trans ((if_pos hl).trans (congrArg Host.Outcome.next ?_))
    rw [State.yieldStop, hf, hu]
  case brk =>
    refine ⟨s.fault Code.breakpoint 0, by simp [exec, execBrk, ha], rfl, fun hf => ?_⟩
    rw [State.fault, State.fault_coreTakes hf]
    rfl
  case brkDebug =>
    obtain ⟨node, hx⟩ := exec_brk_attached ha
    have hme := State.me_stopGang_breaks s s.myPart node 3
    refine ⟨_, hx, ?_, ?_, ?_, fun hf => ?_⟩
    · rw [hme, State.me_breaks, State.me_coreTakes]
      rfl
    · rw [hme, State.me_breaks]
    · rw [State.core, hme, (stopGang_cur ..).2]
      exact State.pc_breaks s
    · rw [hme, State.me_breaks, State.fault_coreTakes hf]
      rfl
  case ending =>
    rw [State.endingFault, hf]
    simp [FaultRec.breakRest]
  case publish => exact congrArg Host.Outcome.next (if_pos hl)
  case published =>
    subst hu hp
    subst hc
    obtain ⟨hcore, hpub, hver, hmem, hhost⟩ := publish_of_granted hg hne hctr
    refine ⟨_, congrArg Host.Outcome.next (if_pos hl), ?_⟩
    obtain ⟨hp, hm, hh⟩ := frame_unblock_skip (s.flushMine.publishDrain s.myPart) 4 s.myPart
    rw [core_unblock_skip, hcore, hp, hm, hh]
    exact ⟨rfl, rfl, hpub, hver, hmem, hhost⟩
  case publishWaits => exact congrArg Host.Outcome.next (if_neg (by simp [hl]))

end

section
namespace Sys2Proof.Machine

/-! ## The operation at the head of an engine (02 R40, R46, R47; 12 R290, R293, R295) -/

/-- An operation heads its engine on a running tile, with no token pending and waiting for nothing. -/
structure Heads (s : State) (t : Nat) (e : Engine) (o : Op) (rest : List Op) : Prop where
  ops : ((s.tile t).eng e).ops = o :: rest
  phase : (s.tile t).life.phase = .running
  token : o.token = none
  wait : o.wait = .none

/-- Nothing but its own conditions keeps an operation from its start: trace that stalls, a power clamp, an error in its record. -/
structure Unhindered (s : State) (t : Nat) (e : Engine) (o : Op) : Prop where
  trace : (s.tile t).traceStall (3 + e.num) = false
  power : s.hub.power.hold = false
  bad : o.recBad = []
  ce : o.recCe = []

section
variable {s : State} {t : TileId} {e : Engine} {o : Op} {rest : List Op} (h : Heads s t.val e o rest)
include h

theorem Heads.mayStart (hq : o.state = .queued) (hc : o.cancel = false) : o.mayStart = true := by
  simp [Op.mayStart, hq, hc, h.token, h.wait]

theorem Heads.moves : (s.tile t.val).moves = true := by simp [Tile.moves, h.phase]

/-- OPERATION_START starts the operation at the head that is ready and has no stamp. -/
theorem Heads.exec_operationStart (hu : Unhindered s t.val e o) (hq : o.state = .queued) (hc : o.cancel = false)
    (hr : (s.tile t.val).opReady o = true) (hs : o.stamp = none) :
    exec (.operationStart t e) s = .next (s.startNow t.val e o) := by
  simp [exec, execOperationStart, h.ops, h.phase, h.mayStart hq hc, hs, hr, hu.trace, hu.power]

theorem Heads.find_stampDue (hd : o.stampDue s.seiche false = true) :
    ((s.tile t.val).eng e).ops.find? (fun o => o.stampDue s.seiche false) = some o := by
  simp [h.ops, hd]

theorem Heads.stampDue {n : Nat} (hq : o.state = .queued) (hc : o.cancel = false) (ha : o.atStart = false) (hs : o.stamp = some n)
    (hn : n ≤ s.seiche) : o.stampDue s.seiche false = true := by
  simp [Op.stampDue, h.mayStart hq hc, ha, hs, b2n, hn]

/-- STAMP_EXPIRY starts the operation at the head whose tick has come, if it is ready. -/
theorem Heads.exec_stampExpiry_starts (hu : Unhindered s t.val e o) (hr : (s.tile t.val).opReady o = true)
    (hd : o.stampDue s.seiche false = true) (ho : o.stampOver (bit (s.tile t.val).ctl.node.toNat 58) s.seiche = false) :
    exec (.stampExpiry t e) s = .next (s.startNow t.val e o) := by
  simp only [exec, execStampExpiry, State.expireStamp, h.find_stampDue hd]
  simp [h.phase, ho, hu.trace, hu.power, h.ops, hr]

/-- ENGINE_ITERATION runs the head of an engine that runs. -/
theorem Heads.exec_engineIteration (hst : o.state = .running) (hsu : o.suspended = false) (hre : o.atRendezvous = false) :
    exec (.engineIteration t e) s = .next (s.iterate t.val e o false) := by
  simp [exec, execEngineIteration, h.ops, h.moves, hst, h.token, h.wait, hsu, hre]

theorem Heads.exec_queuedCancelComplete (hst : o.state = .queued) (hc : o.cancel = true) :
    exec (.queuedCancelComplete t e) s = .next (s.finishOp t.val e o .cancelled) := by
  have hw : { o with wait := .none } = o := by rw [← h.wait]
  simp only [exec, execQueuedCancelComplete, h.ops, hw]
  rw [if_pos ⟨h.moves, hst, hc, h.token⟩]

end

/-- The first operation whose tick has come misses it where it is over, is not the head, or is not ready. -/
theorem exec_stampExpiry_misses {s : State} {t : TileId} {e : Engine} {o : Op} (hp : (s.tile t.val).life.phase = .running)
    (hf : ((s.tile t.val).eng e).ops.find? (fun o => o.stampDue s.seiche false) = some o)
    (htr : (s.tile t.val).traceStall (3 + e.num) = false) (hpow : s.hub.power.hold = false)
    (hm : o.stampOver (bit (s.tile t.val).ctl.node.toNat 58) s.seiche = true ∨
      ¬(((s.tile t.val).eng e).ops.head?.map (·.seq) = some o.seq ∧ (s.tile t.val).opReady o = true)) :
    exec (.stampExpiry t e) s = .next (s.missOp t.val e o (o.stamp.getD 0)) := by
  simp only [exec, execStampExpiry, State.expireStamp, hf]
  cases ho : o.stampOver (bit (s.tile t.val).ctl.node.toNat 58) s.seiche with
  | true => simp [hp]
  | false =>
    have hm := hm.resolve_left (by simp [ho])
    simp only [hp, htr, hpow]
    simp only [ne_eq, not_true_eq_false, if_false, Bool.false_eq_true, or_self]
    rw [if_neg hm]

/-! ## Starts -/

theorem startOp_of_matrix {o : Op} (h : o.kind.engine = .matrix) (t : Nat) (s : State) : startOp t o s = startMatrix t o s := by
  rw [startOp, h]

section
variable {s s1 : State} {t : Nat} {e : Engine} {o o1 : Op} (hu : Unhindered s t e o)
include hu

theorem Unhindered.countCes : s.countCes t o.recCe.length = s := by simp [hu.ce, State.countCes]

theorem Unhindered.noCe : { o with recCe := [] } = o := by rw [← hu.ce]

/-- A start that stops nowhere leaves the operation running, or retired where it has no iteration to run. -/
theorem Unhindered.startNow_ok (hs : startOp t o s = (.ok o1, s1)) (hk : o1.kind ≠ .mchain) : s.startNow t e o =
    if o1.rcd.total ≤ o1.t then s1.finishOp t e { o1 with state := .running, atStart := false } .retired
    else s1.setOp t e { o1 with state := .running, atStart := false } := by
  simp only [State.startNow, hu.countCes, hu.noCe]
  simp only [hu.bad, hs, hk, if_false]

/-- A start that faults is made again once the fault is resolved. -/
theorem Unhindered.startNow_error {f : FaultRec} (hs : startOp t o s = (.error { f := f }, s1)) :
    s.startNow t e o = s1.opFault t e { o with atStart := true } f := by
  simp only [State.startNow, hu.countCes, hu.noCe]
  simp only [hu.bad, hu.ce, hs]
  rfl

end

/-! ## Iterations -/

section
variable {s s1 : State} {t : Nat} {e : Engine} {o : Op}

/-- A cancel takes an operation at a boundary. -/
theorem iterate_cancelled (hc : o.cancel = true) (hi : o.inIter = false) : s.iterate t e o false = s.finishOp t e o .cancelled := by
  simp [State.iterate, hc, hi]

theorem iterate_ok (hc : o.cancel = false ∨ o.inIter = true) (ha : o.atStart = false) (hs : iterOp t o false s = (.ok (), s1)) :
    s.iterate t e o false = s1.afterIteration t e o := by
  rcases hc with hc | hc <;> simp [State.iterate, hc, ha, hs]

theorem iterate_error {f : FaultRec} (hc : o.cancel = false ∨ o.inIter = true) (ha : o.atStart = false)
    (hs : iterOp t o false s = (.error { f := f }, s1)) : s.iterate t e o false = s1.opFault t e o f := by
  have hstop : s1.stopOp t e o { f := f } = s1.opFault t e o f := rfl
  rcases hc with hc | hc <;> simp [State.iterate, hc, ha, hs, hstop]

end

/-- Only a tile that drains suspends its operations at their boundaries. -/
theorem restsHere_of_not_draining {s : State} {t : Nat} (h : (s.tile t).life.phase ≠ .draining) (o : Op) :
    s.restsHere t o = false := by simp [State.restsHere, h]

/-! ## Ends (02 R45, R47; 06 R140; 12 R309) -/

theorem Op.endToken_eq_none {o : Op} {e : Engine} {how : OpEnd} : o.endToken e how = none ↔ o.rcd.cq.toNat = 31 := by
  unfold Op.endToken
  split <;> simp_all

/-- The tile of an operation that ends: its engine without it, and the pin that it named released unless it faulted. -/
theorem tile_endOp (s : State) (t : Nat) (e : Engine) (o : Op) (how : OpEnd) :
    ((s.endOp t e o how).tile t).eng e = { (s.tile t).eng e with
      ops := ((s.tile t).eng e).ops.filter (·.seq != o.seq), lastTerm := o.seq, ended := true
      fin := SMap.set 2 ((s.tile t).eng e).fin o.seq how.code } ∧
    ((s.endOp t e o how).tile t).queue = (s.tile t).queue := by
  unfold State.endOp
  dsimp only
  split
  · split
    · simp
    · rw [State.tile_setTile_same]
      cases e <;> exact ⟨rfl, rfl⟩
  · simp

theorem pins_endOp {s : State} {t : Nat} {e : Engine} {o : Op} {how : OpEnd} {pin : Nat} (h : o.started.pin = some pin) :
    ((s.endOp t e o how).tile t).mem.pins =
      if how = .faulted then (s.tile t).mem.pins else (s.tile t).mem.pins.filter fun x => x.seq != pin := by
  have hn : o.namedPin ((s.tile t).eng e) = some pin := by simp [Op.namedPin, h]
  simp only [State.endOp, hn, State.tile_setTile_same]
  by_cases hk : how = .faulted <;> simp [OpEnd.keepsPin, hk]

/-- An operation that has left its engine is in the state it ended in, while its number is near. -/
theorem stateCode_of_ended {g : Eng} {seq code : Nat} (h : ∀ p ∈ g.ops, p.seq ≠ seq) (hf : SMap.get 2 g.fin seq = code)
    (hd : seqDist seq g.last < 2 ^ 31) : g.stateCode seq = code := by
  have hn : g.opOf seq = none := List.find?_eq_none.2 fun p hp => by simpa using h p hp
  rw [Eng.stateCode, hn]
  exact (if_pos hd).trans hf

/-- With room on its completion queue, an operation ends as its token is pushed. -/
theorem finishOp_of_room {s : State} {t : Nat} {e : Engine} {o : Op} {how : OpEnd} {w : W32} (hw : o.endToken e how = some w)
    (hq : ((s.tile t).queueAt o.rcd.cq.toNat).full = false) : s.finishOp t e o how =
      (s.setQueue t o.rcd.cq.toNat (((s.tile t).queueAt o.rcd.cq.toNat).push w)).endOp t e o how := by
  simp [State.finishOp, hw, hq]

theorem finishOp_of_full {s : State} {t : Nat} {e : Engine} {o : Op} {how : OpEnd} {w : W32} (hw : o.endToken e how = some w)
    (hq : ((s.tile t).queueAt o.rcd.cq.toNat).full = true) (hr : (s.tile t).life.rest ≠ some .ending) : s.finishOp t e o how =
      s.setOp t e { o with t := o.rcd.total, token := some w, cancel := false, wait := .none } := by
  simp [State.finishOp, hw, hq, hr]

theorem exec_tokenPendingAppend {s : State} {t : TileId} {e : Engine} {o : Op} {w : W32}
    (hf : ((s.tile t.val).eng e).ops.find? (fun p => p.token.isSome) = some o) (hm : (s.tile t.val).moves = true)
    (hw : o.token = some w) (hq : ((s.tile t.val).queueAt o.rcd.cq.toNat).full = false) (hs : o.state ≠ .faulted) :
    exec (.tokenPendingAppend t e) s = .next
      ((s.setQueue t.val o.rcd.cq.toNat (((s.tile t.val).queueAt o.rcd.cq.toNat).push w)).endOp t.val e o
        (if tokType w = 7 then .cancelled else .retired)) := by
  simp only [exec, execTokenPendingAppend, hf]
  simp [hm, hw, hq, hs]

/-- A waiting instruction that tries again executes next. -/
theorem exec_blockedInstructionRetry {s : State} {t : TileId} {c : CoreId} (hp : (s.tile t.val).life.phase = .running)
    (hr : (s.coreAt t.val c).wait.retries = true) : exec (.blockedInstructionRetry t c) s =
      .next { s.setCoreAt t.val c { s.coreAt t.val c with
        wait := if (s.coreAt t.val c).wait = .launch then .launch else .none } with agenda := .core t c :: s.agenda } := by
  simp only [exec, execBlockedInstructionRetry, hp, if_true]
  split
  · rename_i hw; simp [hw, Wait.retries] at hr
  · rename_i hw; simp [hw, Wait.retries] at hr
  · rw [if_pos hr]
    split <;> rename_i hw <;> simp [hw]

end Sys2Proof.Machine
end

section
open Sys2Proof Sys2Proof.Machine

/-- Settles O37: each event is its lemma above, and an operation leaves its engine as `finishOp` and `endOp` say. -/
theorem tokensOfOperations : Obligations.TokensOfOperations := by
  unfold Obligations.TokensOfOperations
  intro s t e o w q c hq hp
  subst hq
  refine ⟨fun how => ⟨Op.endToken_eq_none, fun u hu => ⟨fun hw hfull => ?leaves, fun hw hfull hr => ?keeps⟩⟩, fun how pin h => pins_endOp h,
    fun hf hw hq hs => ?append, exec_blockedInstructionRetry hp, fun rest n d hops htok hwait => ?events⟩
  case leaves =>
    subst hu
    rw [finishOp_of_room hw hfull]
    obtain ⟨heng, hqueue⟩ := tile_endOp (s.setQueue t o.rcd.cq.toNat (((s.tile t).queueAt o.rcd.cq.toNat).push w)) t e o how
    have hout : ∀ p ∈ ((s.tile t).eng e).ops.filter (·.seq != o.seq), p.seq ≠ o.seq := fun p hp => by
      simpa using (List.mem_filter.1 hp).2
    have hops : ((s.setQueue t o.rcd.cq.toNat (((s.tile t).queueAt o.rcd.cq.toNat).push w)).tile t).eng e = (s.tile t).eng e := by
      rw [State.setQueue, State.tile_setTile_same]
      cases e <;> rfl
    rw [hops] at heng
    rw [heng]
    refine ⟨?_, by simp, fun hd => stateCode_of_ended hout (SMap.get_set_same ..) hd⟩
    · rw [Tile.queueAt, hqueue]
      simp [Tile.queueAt, State.setQueue, Queue.push]
  case keeps => exact hu ▸ finishOp_of_full hw hfull hr
  case append =>
    exact exec_tokenPendingAppend hf (by simp [Tile.moves, hp]) hw hq (by simp [hs])
  case events =>
    have h : Heads s t.val e o rest := ⟨hops, hp, htok, hwait⟩
    refine ⟨fun he hk hst hc hr ht hb hce htr hpow => ?start, fun he hk hst hsu hc ha hd => ?iterate, h.exec_queuedCancelComplete⟩
    case start =>
      subst he
      have hu : Unhindered s t.val .matrix o := ⟨htr, hpow, hb, hce⟩
      have hrun : s.startNow t.val .matrix o = s.setOp t.val .matrix { o with state := .running, atStart := false } := by
        have hs : startOp t.val o s = (.ok o, s) := by
          rw [startOp_of_matrix (by rcases hk with hk | hk <;> rw [hk] <;> rfl)]
          rcases hk with hk | hk <;> simp [startMatrix, hk]
        rw [hu.startNow_ok hs (by rcases hk with hk | hk <;> simp [hk]), if_neg (by omega)]
      rw [← hrun]
      refine ⟨h.exec_operationStart hu hst hc hr, fun hs ha hn hlt => ?_⟩
      exact h.exec_stampExpiry_starts hu hr (h.stampDue hst hc ha hs hn) (by simp [Op.stampOver, hs]; omega)
    case iterate =>
      subst he
      have hs : iterOp t.val o false s = (.ok (), s.setMemOf t.val (s.tile t.val).mem.swapPlanes) := by rw [iterOp, hk]; rfl
      refine ⟨_, (s.setMemOf t.val (s.tile t.val).mem.swapPlanes).workedEng t.val .matrix,
        h.exec_engineIteration hst hsu (by simp [Op.atRendezvous, hk]), ?_, ?_, ?_, ?_⟩
      · simp [State.workedEng, State.setEngAt, State.setMemOf, TileMem.swapPlanes]
      · simp [State.workedEng, State.setEngAt, State.setMemOf, TileMem.swapPlanes]
      · intro k hk
        simp [State.workedEng, State.setEngAt, State.setMemOf, hk]
      · rw [iterate_ok (.inl hc) ha hs, State.afterIteration, ← hd, restsHere_of_not_draining]
        · rw [hd]
        · simp [State.workedEng, State.setEngAt, State.setMemOf, hp]

end

section
namespace Sys2Proof.Machine

/-! ## What accesses of the hub, trace writes and posted events leave of the scheduler and of the tick -/

/-- The tick and the schedulers of the partitions are as they were. -/
structure SchedFrame (s t : State) : Prop where
  seiche : t.seiche = s.seiche
  sched : ∀ p, (t.part p).sched = (s.part p).sched

/-- So are the tiles. -/
structure HubFrame (s t : State) : Prop extends SchedFrame s t where
  tiles : t.tiles = s.tiles

theorem SchedFrame.refl (s : State) : SchedFrame s s := ⟨rfl, fun _ => rfl⟩

theorem SchedFrame.trans {s t u : State} (h : SchedFrame s t) (k : SchedFrame t u) : SchedFrame s u :=
  ⟨k.seiche.trans h.seiche, fun p => (k.sched p).trans (h.sched p)⟩

theorem SchedFrame.of_parts {s t : State} (h : t.seiche = s.seiche) (hp : t.parts = s.parts) : SchedFrame s t :=
  ⟨h, fun p => by rw [State.part, hp, State.part]⟩

theorem SchedFrame.foldl {α : Type} {f : State → α → State} (hf : ∀ s a, SchedFrame s (f s a)) (l : List α) (s : State) :
    SchedFrame s (l.foldl f s) := by
  induction l generalizing s with
  | nil => exact .refl s
  | cons a l ih => exact (hf s a).trans (ih _)

theorem SchedFrame.ite {s t u : State} {c : Prop} [Decidable c] (ht : SchedFrame s t) (hu : SchedFrame s u) :
    SchedFrame s (if c then t else u) := by
  split <;> assumption

theorem HubFrame.refl (s : State) : HubFrame s s := ⟨.refl s, rfl⟩

theorem HubFrame.trans {s t u : State} (h : HubFrame s t) (k : HubFrame t u) : HubFrame s u :=
  ⟨h.toSchedFrame.trans k.toSchedFrame, k.tiles.trans h.tiles⟩

theorem HubFrame.foldl {α : Type} {f : State → α → State} (hf : ∀ s a, HubFrame s (f s a)) (l : List α) (s : State) :
    HubFrame s (l.foldl f s) := by
  induction l generalizing s with
  | nil => exact .refl s
  | cons a l ih => exact (hf s a).trans (ih _)

theorem HubFrame.ite {s t u : State} {c : Prop} [Decidable c] (ht : HubFrame s t) (hu : HubFrame s u) :
    HubFrame s (if c then t else u) := by
  split <;> assumption

theorem HubFrame.tile {s t : State} (h : HubFrame s t) (k : Nat) : t.tile k = s.tile k := by rw [State.tile, h.tiles, State.tile]

theorem SchedFrame.findNode {s t : State} (h : SchedFrame s t) (p a : Nat) : t.findNode p a = s.findNode p a := by
  rw [State.findNode, h.sched, State.findNode]

theorem SameButMem.hubFrame {s t : State} (h : SameButMem s t) : HubFrame s t := ⟨.of_parts h.seiche h.parts, h.tiles⟩

/-- A partition replaced by one with the same scheduler. -/
theorem setPart_hubFrame (s : State) (p : Nat) {x : Part} (h : x.sched = (s.part p).sched) : HubFrame s (s.setPart p x) := by
  refine ⟨⟨rfl, fun q => ?_⟩, rfl⟩
  by_cases hq : q = p
  · subst hq; rw [State.part_setPart_same, h]
  · rw [State.part_setPart_other _ _ hq]

theorem setTile_schedFrame (s : State) (t : Nat) (x : Tile) : SchedFrame s (s.setTile t x) := .of_parts rfl rfl

/-! ### Accesses of the hub (18 R417) -/

theorem takeFrame_hubFrame {s t : State} {part n fr : Nat} (e : takeFrame s part n = some (fr, t)) : HubFrame s t := by
  unfold takeFrame at e
  dsimp only at e
  split at e
  · cases e
    have h := setPart_hubFrame s part (x := { s.part part with dataFrames := (fr, n) :: (s.part part).dataFrames }) rfl
    exact ⟨⟨rfl, h.sched⟩, rfl⟩
  · cases e

theorem writeEntry_hubFrame (s : State) (pa e : Nat) : HubFrame s (s.writeEntry pa e) := (sameButMem_writeMem ..).hubFrame

theorem writeLeaves_hubFrame (s : State) (pa frame size : Nat) (rd w x : Bool) : HubFrame s (writeLeaves s pa frame size rd w x) :=
  .ite (.foldl (fun _ _ => writeEntry_hubFrame ..) _ s) (writeEntry_hubFrame ..)

theorem mapExports_hubFrame (s : State) (part a n : Nat) (f : Nat → Nat) : HubFrame s (mapExports s part a n f) := by
  unfold mapExports
  split
  · exact .refl s
  · exact .foldl (fun s _ => .foldl (fun s _ => .ite (writeEntry_hubFrame ..) (.refl s)) _ s) _ s

theorem complete_hubFrame {s t : State} {part va : Nat} (e : complete s part va = some t) : HubFrame s t := by
  unfold complete at e
  dsimp only at e
  split at e
  · cases e
  split at e
  · split at e
    · rename_i ef
      cases e
      exact (takeFrame_hubFrame ef).trans (writeLeaves_hubFrame ..)
    · cases e
  split at e
  · split at e
    · rename_i ef
      cases e
      exact ((takeFrame_hubFrame ef).trans (writeLeaves_hubFrame ..)).trans (mapExports_hubFrame ..)
    · cases e
  · split at e
    · cases e; exact .refl _
    · cases e

theorem HubFrame.of_eq {α : Type} {s t : State} {r : α × State} {a : α} (h : HubFrame s r.2) (e : r = (a, t)) : HubFrame s t := by
  rw [e] at h; exact h

theorem hubTranslate_hubFrame (s : State) (d part va : Nat) (acc : Access) : HubFrame s (hubTranslate s d part va acc).2 := by
  have ht := (translate_same s d part .own va acc).hubFrame
  unfold hubTranslate
  split
  · rename_i e
    have hu := ht.of_eq e
    split
    · exact hu
    · split
      · rename_i ec; exact (hu.trans (complete_hubFrame ec)).trans (translate_same ..).hubFrame
      · exact hu
  · exact ht

theorem hubReadPage_hubFrame (s : State) (d part va n : Nat) : HubFrame s (hubReadPage s d part va n).2 := by
  have ht := hubTranslate_hubFrame s d part va .read
  unfold hubReadPage
  split
  · rename_i e
    have hu := ht.of_eq e
    split
    · exact hu
    · split <;> exact hu
  · rename_i e; exact ht.of_eq e
  · rename_i e; exact ht.of_eq e

theorem hubWritePage_hubFrame (s : State) (d part va : Nat) (l : List Byte) : HubFrame s (hubWritePage s d part va l).2 := by
  have ht := hubTranslate_hubFrame s d part va .write
  unfold hubWritePage
  split
  · rename_i e
    have hu := ht.of_eq e
    split
    · exact hu
    · exact hu.trans (sameButMem_writeMem ..).hubFrame
  · rename_i e; exact ht.of_eq e
  · rename_i e; exact ht.of_eq e

theorem hubWrite_hubFrame (s : State) (d part fuel va : Nat) (l : List Byte) : HubFrame s (hubWrite s d part fuel va l).2 := by
  induction fuel generalizing s va l with
  | zero => exact .refl s
  | succ n ih =>
    have hp := hubWritePage_hubFrame s d part va (l.take (min l.length (4096 - va % 4096)))
    unfold hubWrite
    dsimp only
    split
    · exact .refl s
    · split
      · rename_i e; exact hp.of_eq e
      · rename_i e; exact (hp.of_eq e).trans (ih ..)

theorem writeParts_hubFrame (s : State) (d part base : Nat) (l : List (Nat × List Byte)) :
    HubFrame s (writeParts s d part base l).2 := by
  induction l generalizing s with
  | nil => exact .refl s
  | cons x l ih =>
    have hw := hubWrite_hubFrame s d part (spanFuel x.2.length) (base + x.1) x.2
    unfold writeParts
    split
    · rename_i e; exact hw.of_eq e
    · rename_i e; exact (hw.of_eq e).trans (ih _)

/-- The record of a tile is written to memory. -/
theorem writeRecord_tiles (s : State) (t kind : Nat) (f : FaultRec) (resolved : Bool) : (s.writeRecord t kind f resolved).tiles = s.tiles := by
  unfold State.writeRecord
  split
  · rfl
  · rename_i k _
    dsimp only
    split
    · rfl
    · have hw := hubWrite_hubFrame s (tileDie t) k.part 3 (Rcd.frec (s.nodeOf t).rcd + 256 * k.rank + 8)
        (recordBytes ((s.tile t).recordRest kind f (s.nodeOf t).addr k.part (s.nodeOf t).attempt))
      split
      · rename_i e; exact (hw.of_eq e).tiles
      · rename_i e; exact (hubWrite_hubFrame ..).tiles.trans (hw.of_eq e).tiles

/-! ### Posted events (19 R447) -/

theorem setEvRing_hubFrame (s : State) (o : Option Nat) (r : EvRing) : HubFrame s (s.setEvRing o r) := by
  cases o with
  | none => exact ⟨⟨rfl, fun _ => rfl⟩, rfl⟩
  | some p => exact setPart_hubFrame s p rfl

theorem holdEvent_hubFrame (s : State) (o : Option Nat) (e : Event) : HubFrame s (s.holdEvent o e) :=
  .ite (setEvRing_hubFrame ..) (setEvRing_hubFrame ..)

theorem hostWrite_hubFrame (s : State) (src addr : Nat) (l : List Byte) : HubFrame s (s.hostWrite src addr l).2 := by
  unfold State.hostWrite
  split <;> exact ⟨⟨rfl, fun _ => rfl⟩, rfl⟩

theorem writeEvent_hubFrame (s : State) (o : Option Nat) (e : Event) : HubFrame s (s.writeEvent o e) := by
  have hw := hostWrite_hubFrame s (evSource o) ((s.evRing o).base + 32 * ((s.evRing o).tail % 2 ^ (s.evRing o).log2))
    (e.bytes (s.evRing o).tail (s.evRing o).log2)
  unfold State.writeEvent
  dsimp only
  split
  · rename_i hs; exact (hw.of_eq hs).trans (setEvRing_hubFrame ..)
  · rename_i hs; exact ((hw.of_eq hs).trans (setEvRing_hubFrame ..)).trans (holdEvent_hubFrame ..)

theorem drainEvents_hubFrame (s : State) (o : Option Nat) (fuel : Nat) : HubFrame s (s.drainEvents o fuel) := by
  induction fuel generalizing s with
  | zero => exact .refl s
  | succ n ih =>
    have hw := fun r e => ((setEvRing_hubFrame s o r).trans (writeEvent_hubFrame _ o e)).trans (ih _)
    unfold State.drainEvents
    dsimp only
    split
    · split
      · exact hw ..
      · split
        · exact hw ..
        · exact .refl s
    · exact .refl s

theorem post_hubFrame (s : State) (o : Option Nat) (e : Event) : HubFrame s (s.post o e) :=
  (holdEvent_hubFrame ..).trans (drainEvents_hubFrame ..)

theorem schedWrite_hubFrame (s : State) (p rcd va v : Nat) : HubFrame s (s.schedWrite p rcd va v) := by
  have hw := hubWrite_hubFrame s 0 p 2 va (leBytes v 8)
  unfold State.schedWrite
  split
  · rename_i e; exact hw.of_eq e
  · rename_i e; exact (hw.of_eq e).trans (post_hubFrame ..)

/-! ### Trace writes (20 R476 to R484) -/

theorem setTrace_schedFrame (s : State) (t : Nat) (x : Trace) : SchedFrame s (s.setTrace t x) := setTile_schedFrame ..

theorem traceDw_schedFrame (s : State) (t off v : Nat) : SchedFrame s (s.traceDw t off v) := by
  have hw := hubWritePage_hubFrame s (tileDie t) (s.tile t).partNo ((s.traceBase t + off) % 2 ^ 56) (leBytes v 8)
  unfold State.traceDw
  dsimp only
  split
  · exact .refl s
  · split
    · rename_i e; exact (hw.of_eq e).toSchedFrame
    · rename_i e
      exact ((hw.of_eq e).trans (setPart_hubFrame _ _ (by rfl))).toSchedFrame.trans (setTrace_schedFrame ..)

theorem traceHeader_schedFrame (s : State) (t off : Nat) : SchedFrame s (s.traceHeader t off).2 := by
  have hr := hubReadPage_hubFrame s (tileDie t) (s.tile t).partNo ((s.traceBase t + off) % 2 ^ 56) 8
  unfold State.traceHeader
  split <;> (rename_i e; exact (hr.of_eq e).toSchedFrame)

theorem traceRing_schedFrame (s : State) (t c : Nat) (l : List Nat) : SchedFrame s (s.traceRing t c l) := by
  induction l generalizing s c with
  | nil => exact .refl s
  | cons v l ih => exact (traceDw_schedFrame ..).trans (ih ..)

theorem traceEmit_schedFrame (s : State) (t : Nat) (r : TraceRec) : SchedFrame s (s.traceEmit t r) :=
  .ite (traceRing_schedFrame ..) (((traceRing_schedFrame ..).trans (setTrace_schedFrame ..)).trans (traceDw_schedFrame ..))

theorem traceGap_schedFrame (s : State) (t tick : Nat) : SchedFrame s (s.traceGap t tick) :=
  ((traceEmit_schedFrame ..).trans (setTrace_schedFrame ..)).trans (traceDw_schedFrame ..)

theorem traceReadHead_schedFrame (s : State) (t : Nat) : SchedFrame s (s.traceReadHead t) :=
  ((traceHeader_schedFrame s t 8).trans (setTrace_schedFrame ..)).trans (setTrace_schedFrame ..)

theorem traceRoom_schedFrame (s : State) (t : Nat) (r : TraceRec) : SchedFrame s (s.traceRoom t r) :=
  .ite (.refl s) (traceReadHead_schedFrame ..)

theorem tracePlace_schedFrame (s : State) (t : Nat) (r : TraceRec) : SchedFrame s (s.tracePlace t r) :=
  have hr := traceRoom_schedFrame s t r
  .ite (.refl s) (.ite (hr.trans (traceEmit_schedFrame ..))
    (.ite (hr.trans (setTrace_schedFrame ..)) (hr.trans (traceGap_schedFrame ..))))

theorem traceSettle_schedFrame (s : State) (t : Nat) : SchedFrame s (s.traceSettle t) :=
  .ite (.refl s) ((setTrace_schedFrame ..).trans (.foldl (fun _ _ => tracePlace_schedFrame ..) _ _))

theorem traceAppend_schedFrame (s : State) (t unit : Nat) (dws : List Word) : SchedFrame s (s.traceAppend t unit dws) := by
  have hr := traceRoom_schedFrame s t { unit := unit, tick := s.seiche, dws := dws }
  unfold State.traceAppend
  dsimp only
  split
  · exact .refl s
  · cases (s.part (s.tile t).partNo).dbg.trmode
    · exact .ite (setTrace_schedFrame ..) (setTrace_schedFrame ..)
    · exact .ite (hr.trans (setTrace_schedFrame ..)) (hr.trans (setTrace_schedFrame ..))

theorem flushBr_schedFrame (s : State) (t c : Nat) : SchedFrame s (s.flushBr t c) :=
  have ht := setTrace_schedFrame s t
  .ite (.refl s) (.ite ((ht _).trans (traceAppend_schedFrame ..)) (ht _))

theorem traceFlush_schedFrame (s : State) (t : Nat) : SchedFrame s (s.traceFlush t) :=
  .ite (((flushBr_schedFrame ..).trans (flushBr_schedFrame ..)).trans (flushBr_schedFrame ..)) (.refl s)

theorem traceDropWaiting_schedFrame (s : State) (t : Nat) : SchedFrame s (s.traceDropWaiting t) := by
  unfold State.traceDropWaiting
  split
  · exact .refl s
  · exact ((traceSettle_schedFrame ..).trans (setTrace_schedFrame ..)).trans (traceGap_schedFrame ..)

theorem traceClose_schedFrame (s : State) (t : Nat) : SchedFrame s (s.traceClose t) :=
  ((traceFlush_schedFrame ..).trans (traceSettle_schedFrame ..)).trans (traceDropWaiting_schedFrame ..)

/-! ## A gang that is saved (18 R426) -/

theorem sendAway_hubFrame (s : State) (p a : Nat) : HubFrame s (s.sendAway p a) := ⟨⟨rfl, fun _ => rfl⟩, rfl⟩

theorem freeTile_schedFrame (s : State) (t : Nat) : SchedFrame s (s.freeTile t) := ⟨rfl, fun _ => rfl⟩

theorem writeReady_hubFrame (s : State) (p : Nat) (n : Node) : HubFrame s (s.writeReady p n) := schedWrite_hubFrame ..

/-- A tile that holds no node. -/
def Life.vacant (l : Life) : Prop := l.phase = .free ∧ l.seat = none

theorem freeTile_vacant (s : State) (t : Nat) : ((s.freeTile t).tile t).life.vacant := by
  rw [State.freeTile, State.tile_setTile_same]
  exact ⟨rfl, rfl⟩

theorem freeTile_keeps_vacant {s : State} {t u : Nat} (h : (s.tile u).life.vacant) : ((s.freeTile t).tile u).life.vacant := by
  by_cases e : u = t
  · exact e ▸ freeTile_vacant ..
  · rw [State.freeTile, State.tile_setTile_other _ _ e]
    exact h

theorem foldl_freeTile_vacant (l : List Nat) (s : State) (u : Nat) (h : u ∈ l ∨ (s.tile u).life.vacant) :
    ((l.foldl State.freeTile s).tile u).life.vacant := by
  induction l generalizing s with
  | nil => exact h.resolve_left List.not_mem_nil
  | cons t l ih =>
    refine ih _ ?_
    obtain hu | hu := h
    · obtain rfl | hl := List.mem_cons.mp hu
      · exact .inr (freeTile_vacant ..)
      · exact .inl hl
    · exact .inr (freeTile_keeps_vacant hu)

theorem findNode_setSched (s : State) (p a : Nat) (x : Sched) :
    (s.setSched p x).findNode p a = x.nodes.find? (·.addr == a) := by
  rw [State.findNode, State.setSched, State.part_setPart_same]

theorem findNode_setSched_of_nodes {s : State} {p : Nat} {x : Sched} (a : Nat) (h : x.nodes = (s.part p).sched.nodes) :
    (s.setSched p x).findNode p a = s.findNode p a := by
  rw [findNode_setSched, h, State.findNode]

theorem addr_of_findNode {s : State} {p a : Nat} {n : Node} (h : s.findNode p a = some n) : n.addr = a := by
  unfold State.findNode at h
  exact eq_of_beq (List.find?_some (p := fun m : Node => m.addr == a) h)

/-- A node that replaces the one of its address is the one found there. -/
theorem find?_replace {l : List Node} {n m : Node} (h : l.find? (·.addr == n.addr) = some m) :
    (l.map fun k => if k.addr = n.addr then n else k).find? (·.addr == n.addr) = some n := by
  induction l with
  | nil => cases h
  | cons k l ih =>
    by_cases e : k.addr = n.addr
    · rw [List.map_cons, if_pos e]
      exact List.find?_cons_of_pos (beq_self_eq_true _)
    · rw [List.map_cons, if_neg e]
      rw [List.find?_cons_of_neg (by simpa using e)] at h ⊢
      exact ih h

theorem findNode_putNode {s : State} {p : Nat} {n m : Node} (h : s.findNode p n.addr = some m) :
    (s.putNode p n).findNode p n.addr = some n :=
  (findNode_setSched ..).trans (find?_replace h)

theorem findNode_writeNode {s : State} {p : Nat} {n m : Node} (h : s.findNode p n.addr = some m) :
    (s.writeNode p n).findNode p n.addr = some n :=
  ((schedWrite_hubFrame ..).findNode ..).trans (findNode_putNode h)

theorem writeNode_tiles (s : State) (p : Nat) (n : Node) : (s.writeNode p n).tiles = s.tiles :=
  (schedWrite_hubFrame ..).tiles

/-- The state of a gang's tiles once they are freed for its save. -/
def State.savedAway (s : State) (p : Nat) (n : Node) : State :=
  ((n.tiles.foldl (fun s t => s.traceClose t) s).sendAway p n.addr).freeTiles n

theorem savedAway_schedFrame (s : State) (p : Nat) (n : Node) : SchedFrame s (s.savedAway p n) :=
  ((SchedFrame.foldl traceClose_schedFrame ..).trans (sendAway_hubFrame ..).toSchedFrame).trans (.foldl freeTile_schedFrame ..)

theorem savedAway_vacant (s : State) (p : Nat) {n : Node} {u : Nat} (h : u ∈ n.tiles) : ((s.savedAway p n).tile u).life.vacant :=
  foldl_freeTile_vacant _ _ _ (.inl h)

/-- What a saved node holds. -/
def Node.isSaved (n : Node) (now : Nat) : Prop := n.state = .saved ∧ n.wasSaved = true ∧ n.tiles = [] ∧ n.readyAt = now

/-- A saved node that enters the pool, or waits for room in it, is found as it was saved. -/
theorem poolOrWait_saved {s : State} {p now : Nat} {n : Node} (h : s.findNode p n.addr = some n) (hn : n.isSaved now) :
    let v := if (s.part p).sched.room then s.enterPool p n
      else s.setSched p { (s.part p).sched with waiting := (s.part p).sched.waiting ++ [n.addr] }
    v.tiles = s.tiles ∧ ∃ y, v.findNode p n.addr = some y ∧ y.isSaved now := by
  intro v
  have hq : ∀ x : Sched, x.nodes = (s.part p).sched.nodes → (s.setSched p x).findNode p n.addr = some n :=
    fun x hx => (findNode_setSched_of_nodes _ hx).trans h
  by_cases hr : (s.part p).sched.room = true
  · have hv : v = s.enterPool p n := if_pos hr
    rw [hv, State.enterPool, if_pos hn.1]
    exact ⟨rfl, _, findNode_putNode (n := { n with pooled := true, eprio := n.placedPrio, aged := s.seiche }) (hq _ rfl), hn⟩
  · have hv : v = _ := if_neg hr
    rw [hv]
    exact ⟨rfl, n, hq _ rfl, hn⟩

/-- Held tiles entered, which leaves the nodes and the tiles. -/
theorem heldFor_ite (s : State) (p a : Nat) (b : Bool) (l : List (Nat × Nat)) :
    let v := if b then s.setSched p { (s.part p).sched with heldFor := l } else s
    v.tiles = s.tiles ∧ v.findNode p a = s.findNode p a := by
  cases b with
  | false => exact ⟨rfl, rfl⟩
  | true => exact ⟨rfl, findNode_setSched_of_nodes _ (by rfl)⟩

/-- The save of a gang: its tiles are those freed, and its node is saved. -/
theorem gangSaved_spec {s v : State} {p : Nat} {n m : Node} (h : s.findNode p n.addr = some m) (e : s.gangSaved p n = v) :
    v.tiles = (s.savedAway p n).tiles ∧ ∃ y, v.findNode p n.addr = some y ∧ y.isSaved s.seiche := by
  unfold State.gangSaved at e
  extract_lets saves s1 s2 k s3 x waits s4 at e
  have hf : SchedFrame s s2 := savedAway_schedFrame s p n
  have ht : s2.tiles = (s.savedAway p n).tiles := rfl
  have hk : k.isSaved s.seiche ∧ k.addr = n.addr := ⟨⟨rfl, rfl, rfl, hf.seiche⟩, rfl⟩
  clear_value s2 k
  have hw := writeReady_hubFrame s2 p k
  have h3 : s3.findNode p k.addr = some k :=
    findNode_writeNode ((hw.findNode ..).trans ((hf.findNode ..).trans (hk.2 ▸ h)))
  have ht3 : s3.tiles = s2.tiles := (writeNode_tiles ..).trans hw.tiles
  have h4 : s4.tiles = s3.tiles ∧ s4.findNode p k.addr = s3.findNode p k.addr := heldFor_ite ..
  clear_value s3 s4
  obtain ⟨ht5, y, hy, hd⟩ := poolOrWait_saved (h4.2.trans h3) hk.1
  subst e
  exact ⟨ht5.trans (h4.1.trans (ht3.trans ht)), y, hk.2 ▸ hy, hd⟩

/-! ## Requests and deadlines (02 R53, R55; 06 R143) -/

theorem deadlockDue_of {s : State} {t : Nat} (h : 4096 ≤ (s.tile t).life.deadCount) (hl : s.localDeadlock t = true) :
    s.deadlockDue t = true := by
  rw [State.deadlockDue, hl, decide_eq_true h, Bool.true_and]

theorem not_deadlockDue_of {s : State} {t : Nat} (h : (s.tile t).life.deadCount < 4096 ∨ s.localDeadlock t = false) :
    ¬ s.deadlockDue t = true := by
  rw [State.deadlockDue, Bool.and_eq_true, decide_eq_true_eq]
  rintro ⟨hd, hl⟩
  obtain h | h := h
  · omega
  · rw [h] at hl; cases hl

theorem bringToRest_running {x : Tile} (h : x.life.phase = .running) (r : Rest) :
    x.bringToRest r = { x.drainCores with life := { x.life with phase := .draining, rest := some r } } := if_pos h

theorem traceDropWaiting_none {s : State} {t : Nat} (h : (s.tile t).trace.waiting = []) : s.traceDropWaiting t = s := by
  unfold State.traceDropWaiting
  rw [h]

theorem exec_preemptRequest {s : State} {t : TileId} {k : Seat} (hk : (s.tile t.val).life.seat = some k)
    (hn : (s.nodeOf t.val).preempt = true) (hl : (s.tile t.val).life.latched = none) (hp : (s.tile t.val).life.pending = false) :
    exec (.preemptRequest t) s = .next (s.setTile t.val (if (s.tile t.val).life.phase = .running then
      { s.tile t.val with life := { (s.tile t.val).life with latched := some s.seiche, deadline := (s.tile t.val).prv.pdead } }
      else { s.tile t.val with life := { (s.tile t.val).life with pending := true } })) := by
  refine congrArg Host.Outcome.next ((if_pos ⟨hn, by rw [hk]; rfl, hl, by rw [hp]; rfl⟩).trans ?_)
  split <;> rfl

theorem exec_preemptDeadline {s : State} {t : TileId} {l : Nat} (hl : (s.tile t.val).life.latched = some l) :
    exec (.preemptDeadline t) s = .next (if s.deadlockDue t.val then s.deadlock t.val false
      else if (s.tile t.val).life.phase = .running ∧ l + (s.tile t.val).life.deadline ≤ s.seiche ∧ !(s.tile t.val).allStopped then
        (s.traceDropWaiting t.val).setTile t.val (((s.traceDropWaiting t.val).tile t.val).bringToRest .forced)
      else s) := by
  show execPreemptDeadline t s = _
  unfold execPreemptDeadline
  simp only [hl]

/-- TILE_SAVE of a running tile whose cores have stopped. -/
theorem exec_tileSave_running {s : State} {t : TileId} {k : Seat} (hk : (s.tile t.val).life.seat = some k)
    (hr : (s.tile t.val).life.phase = .running) (hl : (s.tile t.val).life.latched.isSome = true)
    (ha : (s.tile t.val).allStopped = true) :
    exec (.tileSave t) s = .next (if s.deadlockDue t.val then s.deadlock t.val false
      else s.setTile t.val ((s.tile t.val).bringToRest .cooperative)) := by
  show execTileSave t s = _
  unfold execTileSave
  simp only [hk]
  exact congrArg Host.Outcome.next (if_pos ⟨hr, hl, ha⟩)

/-- TILE_SAVE of a tile that has come to rest with its gang. -/
theorem exec_tileSave_rest {s : State} {t : TileId} {k : Seat} (hk : (s.tile t.val).life.seat = some k)
    (hf : (s.tile t.val).life.phase = .frozen) (hr : (s.tile t.val).saveRest = true)
    (hg : ∀ u ∈ (s.nodeOf t.val).tiles, (s.tile u).saveRest = true) :
    exec (.tileSave t) s = .next (s.saveTile t.val k) := by
  show execTileSave t s = _
  unfold execTileSave
  simp only [hk]
  refine congrArg Host.Outcome.next ((if_neg fun h => ?_).trans (if_pos ⟨hf, hr, List.all_eq_true.mpr hg⟩))
  rw [hf] at h
  cases h.1

/-! ## The save of a tile (18 R425, R426) -/

/-- The record of a save or a restore that fails. -/
def State.saveFault (s : State) (t code access va : Nat) : FaultRec :=
  { code := Code.preemptTimeout, source := 2, tick := s.seiche, access := access, vaddr := va
    detail := code + (s.seiche - (s.tile t).life.saveStart) % 2 ^ 32 * 2 ^ 32 }

theorem tile_saveFail (s : State) (t code access va : Nat) : ((s.saveFail t code access va).tile t).life =
    { (s.tile t).life with phase := .frozen, since := s.seiche, fault := some (s.saveFault t code access va), resolved := false } := by
  unfold State.saveFail
  dsimp only
  rw [State.tile, writeRecord_tiles, ← State.tile, State.tile_setTile_same, State.saveFault]

theorem phase_saveFail (s : State) (t code access va : Nat) : ((s.saveFail t code access va).tile t).life.phase = .frozen := by
  rw [tile_saveFail]

theorem fault_saveFail (s : State) (t code access va : Nat) :
    ((s.saveFail t code access va).tile t).life.fault = some (s.saveFault t code access va) := by
  rw [tile_saveFail]

/-- A save that meets poison fails. -/
theorem saveTile_poison {s : State} {t : Nat} {k : Seat}
    (h : (s.tile t).saveArrayPoison ((s.tile t).saveMaps (s.tile t).saveModeOf) Tok.bad = true ∨
      (s.tile t).saveScratchPoison ((s.tile t).saveMaps (s.tile t).saveModeOf) = true) :
    ∃ v : State, s.saveTile t k = v.saveFail t Code.uncorrectable := by
  by_cases ha : (s.tile t).saveArrayPoison ((s.tile t).saveMaps (s.tile t).saveModeOf) Tok.bad = true
  · exact ⟨_, if_pos ha⟩
  · exact ⟨_, (if_neg ha).trans (if_pos (h.resolve_left ha))⟩

/-- What a save whose words are clean writes. -/
theorem saveTile_clean {s s1 s2 : State} {t : Nat} {k : Seat} {m : SaveMaps} {r : Option HubFault}
    (hm : m = (s.tile t).saveMaps (s.tile t).saveModeOf)
    (h1 : s1 = ((s.setTile t { s.tile t with
      life := { (s.tile t).life with saveStart := s.seiche, saveMode := (s.tile t).saveModeOf } }).noteArrays t m).noteSave t m)
    (ha : (s.tile t).saveArrayPoison m Tok.bad = false) (hs : (s.tile t).saveScratchPoison m = false)
    (hw : writeParts s1.draw (tileDie t) k.part (saveBase (s1.nodeOf t) k.rank)
      ((s.tile t).saveParts (s.tile t).saveModeOf m s1.choices) = (r, s2)) :
    s.saveTile t k = r.elim (s2.setTile t { s2.tile t with life := { (s2.tile t).life with phase := .saving } })
      fun f => s2.saveFail t f.code 1 f.vaddr := by
  subst hm h1
  refine (if_neg (ne_true_of_eq_false ha)).trans ((if_neg (ne_true_of_eq_false hs)).trans ?_)
  split <;> (rename_i e; cases hw.symm.trans e; rfl)

/-! ## The end of a save (18 R426, 17 R384) -/

/-- SAVE_COMPLETE in time, of a save without errors in its buffers whose last parts are written. -/
theorem exec_saveComplete {s s1 s2 : State} {t : TileId} {k : Seat} {n : Node} (hk : (s.tile t.val).life.seat = some k)
    (hn : s.findNode k.part k.node = some n) (hp : (s.tile t.val).life.phase = .saving) (hb : (s.tile t.val).life.saveBad = false)
    (hc : (s.tile t.val).life.saveCe = 0) (ht : s.seiche ≤ (s.tile t.val).life.saveStart + (s.tile t.val).prv.savelim)
    (hw : writeParts s (tileDie t.val) k.part (saveBase n k.rank) ((s.tile t.val).saveHead n k.part s.seiche) = (none, s1))
    (h2 : s2 = s1.setTile t.val { s1.tile t.val with life := { (s1.tile t.val).life with phase := .saved } }) :
    exec (.saveComplete t) s = .next
      (if n.tiles.all (fun u => decide ((s2.tile u).life.phase = .saved)) ∧ n.tiles.any (fun u => !(s2.tile u).finished) then
        s2.gangSaved k.part n else s2) := by
  show execSaveComplete t s = _
  unfold execSaveComplete
  simp only [hk, hn]
  refine congrArg Host.Outcome.next ((if_pos ⟨hp, ht⟩).trans ?_)
  subst h2
  simp only [hc, State.countCes, if_true, hb, Bool.false_eq_true, if_false, hw]

/-- The node of the gang is still found once the last parts are written. -/
theorem findNode_saveHead {s s1 : State} {d p a t base : Nat} {l : List (Nat × List Byte)} {x : Tile}
    (hw : writeParts s d p base l = (none, s1)) : (s1.setTile t x).findNode p a = s.findNode p a :=
  (((writeParts_hubFrame ..).of_eq hw).toSchedFrame.trans (setTile_schedFrame ..)).findNode ..

/-! ## Limits and restores (18 R426 to R428) -/

section
variable {s : State} {t : TileId} {k : Seat} {n : Node}

theorem exec_saveLimitExpiry :
    exec (.saveLimitExpiry t) s = .next
      (if ((s.tile t.val).life.phase = .saving ∨ ((s.tile t.val).life.phase = .held ∧ (s.nodeOf t.val).wasSaved)) ∧
        (s.tile t.val).life.saveStart + (s.tile t.val).prv.savelim < s.seiche then s.saveFail t.val 0 else s) := rfl

/-- Past the limit SAVE_COMPLETE does nothing. -/
theorem exec_saveComplete_late (h : (s.tile t.val).life.saveStart + (s.tile t.val).prv.savelim < s.seiche) :
    exec (.saveComplete t) s = .next s := by
  show execSaveComplete t s = _
  unfold execSaveComplete
  dsimp only
  split
  · rfl
  · split
    · rfl
    · rw [if_neg fun c => absurd c.2 (by omega)]

/-- Past the limit GANG_RESTORE does nothing. -/
theorem exec_gangRestore_late (h : (s.tile t.val).life.saveStart + (s.tile t.val).prv.savelim < s.seiche) :
    exec (.gangRestore t) s = .next s := by
  show execGangRestore t s = _
  unfold execGangRestore
  dsimp only
  split
  · rfl
  · split
    · rfl
    · rw [if_neg fun c => absurd c.2.2.2 (by omega)]

theorem exec_gangRestore (hk : (s.tile t.val).life.seat = some k) (hn : s.findNode k.part k.node = some n)
    (hp : (s.tile t.val).life.phase = .held) (hr : n.state = .running) (hw : n.wasSaved = true)
    (hb : (s.tile t.val).life.saveBad = false) (hc : (s.tile t.val).life.saveCe = 0)
    (ht : s.seiche ≤ (s.tile t.val).life.saveStart + (s.tile t.val).prv.savelim) :
    exec (.gangRestore t) s = .next (s.restoreTile t.val k n) := by
  show execGangRestore t s = _
  unfold execGangRestore
  simp only [hk, hn]
  refine congrArg Host.Outcome.next ((if_pos ⟨hp, hr, hw, ht⟩).trans ?_)
  simp only [hc, State.countCes, if_true, hb, Bool.false_eq_true, if_false]

end

end Sys2Proof.Machine
end

section
open Sys2Proof Sys2Proof.Machine

/-- Settles O41: each event by the branch of its definition that its premises select; a failed save leaves its tile frozen
with the record of the failure (`tile_saveFail`), and the gang that is saved keeps its node through the writes of the trace
and of the node (`gangSaved_spec`). -/
theorem preemptionOfTiles : Obligations.PreemptionOfTiles := by
  intro s s1 s2 t k n x m hx hk
  subst hx
  refine ⟨fun hn hl hp => ⟨fun hr => ?_, fun hf => ?_⟩, fun l hr hl => ⟨fun hd hc => ?_, fun ht ha hw hd => ⟨?_, ?_⟩,
    fun ha => ⟨fun hd => ?_, fun hd hc => ?_⟩⟩, fun hf hs hg hm h1 => ⟨fun hp => ?_, fun h ha hb hw => ?_, fun ha hb hw => ?_⟩,
    fun hn hp hb hc ht hw h2 => ?_, fun hp => ⟨fun hl => ⟨exec_saveComplete_late hl, exec_gangRestore_late hl, ?_⟩, fun hl => ?_⟩,
    fun hn hp hr hw hb hc ht => exec_gangRestore hk hn hp hr hw hb hc ht⟩
  · rw [exec_preemptRequest hk hn hl hp, if_pos hr]
  · rw [exec_preemptRequest hk hn hl hp, if_neg (by rw [hf]; exact Phase.noConfusion)]
  · rw [exec_preemptDeadline hl, if_pos (deadlockDue_of hd hc)]
  · rw [exec_preemptDeadline hl, if_neg (not_deadlockDue_of hd), if_pos ⟨hr, ht, by rw [ha]; rfl⟩, traceDropWaiting_none hw]
  · rw [bringToRest_running hr]
    exact ⟨rfl, rfl⟩
  · rw [exec_tileSave_running hk hr (by rw [hl]; rfl) ha, if_neg (not_deadlockDue_of hd)]
  · rw [exec_tileSave_running hk hr (by rw [hl]; rfl) ha, if_pos (deadlockDue_of hd hc)]
  · obtain ⟨v, hv⟩ := saveTile_poison (k := k) (hm ▸ hp)
    refine ⟨_, (exec_tileSave_rest hk hf hs hg).trans (congrArg _ hv), phase_saveFail .., ?_⟩
    rw [fault_saveFail]; rfl
  · refine ⟨_, (exec_tileSave_rest hk hf hs hg).trans (congrArg _ (saveTile_clean hm h1 ha hb hw)), phase_saveFail .., ?_⟩
    rw [Option.elim_some, fault_saveFail]; rfl
  · exact (exec_tileSave_rest hk hf hs hg).trans (congrArg _ (saveTile_clean hm h1 ha hb hw))
  · have he := exec_saveComplete hk hn hp hb hc ht hw h2
    refine ⟨fun h => he.trans (congrArg _ (if_neg ?_)), fun ha hu => ?_⟩
    · rintro ⟨ha, hu⟩
      obtain ⟨u, hu, hne⟩ | hall := h
      · exact hne (of_decide_eq_true (List.all_eq_true.mp ha u hu))
      · obtain ⟨u, hm, hf⟩ := List.any_eq_true.mp hu
        rw [hall u hm] at hf
        cases hf
    · obtain ⟨u, hm, hf⟩ := hu
      have hadr : n.addr = k.node := addr_of_findNode hn
      have hfind : s2.findNode k.part n.addr = some n := by rw [h2, findNode_saveHead hw, hadr, hn]
      obtain ⟨htiles, y, hy, hst, hws, hnt, hra⟩ := gangSaved_spec hfind rfl
      refine ⟨_, he.trans (congrArg _ (if_pos ⟨List.all_eq_true.mpr fun u hu => decide_eq_true (ha u hu),
        List.any_eq_true.mpr ⟨u, hm, by rw [hf]; rfl⟩⟩)), fun u hu => ?_, y, hadr ▸ hy, hst, hws, hnt, hra⟩
      rw [State.tile, htiles, ← State.tile]
      exact savedAway_vacant s2 k.part hu
  · refine ⟨_, exec_saveLimitExpiry.trans (congrArg _ (if_pos ⟨hp, hl⟩)), phase_saveFail .., ?_⟩
    rw [fault_saveFail, State.saveFault, Nat.zero_add]
  · rw [exec_saveLimitExpiry, if_neg fun h => absurd h.2 (by omega)]

end

section
namespace Sys2Proof.Machine

/-! ## Accesses one after another -/

/-- An access that gives a value hands it, with its state, to what follows. -/
theorem Res.bind_of {α β : Type} {r : Res α} {a : α} {s : State} {f : α → State → Res β} (h : r = (.ok a, s)) :
    r.bind f = f a s := by
  rw [h, Res.bind]

/-- What follows an access that stops is not made. -/
theorem Res.bind_of_error {α β : Type} {r : Res α} {x : Stop} {s : State} {f : α → State → Res β} (h : r = (.error x, s)) :
    r.bind f = (.error x, s) := by
  rw [h, Res.bind]

/-! ## The iterations of the load engine (13 R322 to R326, R339) -/

section
variable {s s1 s2 s3 s4 : State} {t : Nat} {o : Op} {g : Bool} {d : Layout} {b : Transfer} {fs n : Nat} {ix : Int}
  {us ua : List UnitAt} {ps : Places} {bs : List Byte}

theorem iterOp_fill (hk : o.kind = .fill) (hr : o.rawRow .d (o.rcd.h .b) s = (.ok us, s))
    (hw : rowWritable t us s = (.ok (), s)) :
    iterOp t o g s = (.ok (), s.writeRow t us (List.replicate (o.rcd.h .b) o.started.pattern).flatten) := by
  have e : iterOp t o g s = iterFill t o s := by simp only [iterOp, iterCopy, hk]
  exact e.trans ((Res.bind_of hr).trans (Res.bind_of hw))

theorem iterOp_xpull (hk : o.kind = .xpull) (hb : o.started.transfer = some b) (hr : o.rawRow .d b.len s = (.ok us, s))
    (hm : o.remoteOff .a b s = (.ok n, s))
    (hl : readRow (b.arg / 2 ^ 21 % 2 ^ 8) (spanUnits n b.len) (64 * b.len) s = (.ok bs, s1))
    (hw : rowWritable t us s1 = (.ok (), s1)) : iterOp t o g s = (.ok (), s1.writeRow t us bs) := by
  have e : iterOp t o g s = iterXpull t o b s := by simp only [iterOp, iterCopy, hk, hb]
  exact e.trans ((Res.bind_of hr).trans ((Res.bind_of hm).trans ((Res.bind_of hl).trans (Res.bind_of hw))))

/-- The row that a load leaves where neither its source nor its destination carries scales. -/
theorem loadImage_of_unscaled (codes scales : List Nat) (hf : Ent.kind fs ≠ 2) (hp : Ent.kind o.pondFmt ≠ 2) :
    o.loadImage fs us codes scales = imageOf o.pondFmt ((List.range codes.length).map fun j =>
      if fs = o.elemEntry .d o.pondFmt us j ∨ 2 ≤ Ent.kind (o.elemEntry .d o.pondFmt us j) then codes.getD j 0
      else o.round 0x02 (o.elemEntry .d o.pondFmt us j) o.ivec j (decodeElem fs (codes.getD j 0))) [] := by
  simp only [Op.loadImage, Op.convert, valueOf, if_neg hf, if_neg hp]

theorem iterOp_load (hk : o.kind = .tload ∨ o.kind = .tgather ∨ o.kind = .rload) (hb : o.started.transfer = some b)
    (hd : o.started.layout = some d) : iterOp t o g s = iterLoad t o d b g s := by
  obtain h | h | h := hk <;> simp only [iterOp, iterCopy, h, hb, hd]

theorem iterLoad_of_reads (hf : fs = entryOf o.latch.fmt d.fidx) (hr : o.loadRow s = (.ok us, s1)) (hi : o.index t s1 = (.ok ix, s2))
    (hp : o.places .a d b ix s2 = (.ok ps, s3)) (hl : readPlaces t d g (placeBytes fs ps) s3 = (.ok bs, s4))
    (hw : rowWritable t us s4 = (.ok (), s4)) :
    iterLoad t o d b g s = (.ok (), s4.writeRow t us (o.loadImage fs us (takeCodes (Ent.width fs) ps bs)
      (takeScales (blockPlaces fs ps) (bs.drop (elemCount fs ps))))) := by
  subst hf
  exact (Res.bind_of hr).trans ((Res.bind_of hi).trans ((Res.bind_of hp).trans ((Res.bind_of hl).trans (Res.bind_of hw))))

theorem iterOp_sload (hk : o.kind = .sload) (hb : o.started.transfer = some b) (hd : o.started.layout = some d)
    (hf : fs = entryOf o.latch.fmt d.fidx) (h0 : 0 ≤ (o.rcd.h .d : Int) + o.stride .d) (h1 : (o.rcd.h .d : Int) + o.stride .d ≤ 63)
    (hp : o.places .a d b 0 s = (.ok ps, s1)) (hl : readPlaces t d g (placeBytes fs ps) s1 = (.ok bs, s2)) :
    ∃ u, iterOp t o g s = (.ok (), u) ∧ (u.tile t).mem.scale =
      (s2.tile t).mem.scale.setBytes (512 * ((o.rcd.h .d : Int) + o.stride .d).toNat) (packBytes 32 (takeCodes 32 ps bs)) ∧
      (u.tile t).mem.scratch = (s2.tile t).mem.scratch := by
  subst hf
  have e : iterOp t o g s = iterSload t o d b g s := by simp only [iterOp, iterCopy, hk, hb, hd]
  have hg : ¬ ((o.rcd.h .d : Int) + o.stride .d < 0 ∨ 63 < (o.rcd.h .d : Int) + o.stride .d) := by omega
  refine ⟨_, e.trans ((if_neg hg).trans ((Res.bind_of hp).trans (Res.bind_of hl))), ?_, ?_⟩ <;>
    rw [State.setMemOf, State.tile_setTile_same]

theorem fabricStop_error {α : Type} (t m off : Nat) (s : State) :
    ∃ w, (fabricStop t m off s : Res α) = (.error { f := opRec 0 0 0, fab := some w }, s) := ⟨_, rfl⟩

/-- `mcred` until its answer: a row that has a place waits for the first member. -/
theorem iterOp_mcred_waits (hk : o.kind = .mcred) (hb : o.started.transfer = some b) (hd : o.started.layout = some d)
    (hr : o.loadRow s = (.ok us, s1)) (hp : o.places .a d b 0 s1 = (.ok ps, s2)) (ha : ps.any (·.isSome) = true)
    (hm : absent (tileDie t) o.started.members s2 = none) :
    ∃ w, iterOp t o false s = (.error { f := opRec 0 0 0, fab := some w }, s2) := by
  have e : iterOp t o false s = iterMcred t o d b false s := by simp only [iterOp, iterCopy, hk, hb, hd]
  obtain ⟨w, hw⟩ := fabricStop_error (α := Unit) t (o.started.members.headD 0) ((placeBytes (entryOf o.latch.fmt d.fidx) ps).headD 0) s2
  refine ⟨w, e.trans ((Res.bind_of hr).trans ((Res.bind_of hp).trans ?_))⟩
  simp only [ha, if_true, hm, Bool.not_false, Bool.and_self]
  exact hw

theorem iterOp_mcred_granted {rows : List (List Nat)} (hk : o.kind = .mcred) (hb : o.started.transfer = some b)
    (hd : o.started.layout = some d) (hf : fs = entryOf o.latch.fmt d.fidx) (hr : o.loadRow s = (.ok us, s1))
    (hp : o.places .a d b 0 s1 = (.ok ps, s2)) (ha : ps.any (·.isSome) = true)
    (hm : absent (tileDie t) o.started.members s2 = none)
    (hl : readMembers (tileDie t) (s.tile t).partNo fs ps o.started.members s2 = (.ok rows, s3))
    (hw : rowWritable t us s3 = (.ok (), s3)) :
    iterOp t o true s = (.ok (), s3.writeRow t us (imageOf o.pondFmt ((List.range b.len).map fun j =>
      if (ps.getD j none).isSome then o.foldMembers b.rop fs (o.elemEntry .d o.pondFmt us j) j (rows.map fun r => r.getD j 0)
      else 0) [])) := by
  subst hf
  have e : iterOp t o true s = iterMcred t o d b true s := by simp only [iterOp, iterCopy, hk, hb, hd]
  refine e.trans ((Res.bind_of hr).trans ((Res.bind_of hp).trans ?_))
  simp only [ha, if_true, hm, Bool.not_true, Bool.and_false, Bool.false_eq_true, if_false]
  refine (Res.bind_of hl).trans ((Res.bind_of hw).trans ?_)
  refine congrArg (fun c => ((.ok (), s3.writeRow t us (imageOf o.pondFmt c [])) : Res Unit)) (List.map_congr_left fun j _ => ?_)
  cases ps.getD j none <;> rfl

end

/-! ## The iterations of the store engine (13 R325, R327, R329 to R331) -/

section
variable {s s1 s2 s3 s4 : State} {t : Nat} {o : Op} {g : Bool} {d : Layout} {b : Transfer} {fd n : Nat} {ix : Int}
  {us ud : List UnitAt} {ps : Places} {l : List Byte} {cs : List Nat × List Nat} {m : List (Nat × Option Nat)}

theorem iterOp_xpush (hk : o.kind = .xpush) (hb : o.started.transfer = some b) (hr : o.rawRow .a b.len s = (.ok us, s))
    (hm : o.remoteOff .d b s = (.ok n, s)) (hw : rowWritable (b.arg / 2 ^ 21 % 2 ^ 8) (spanUnits n b.len) s = (.ok (), s))
    (hl : readRow t us (64 * b.len) s = (.ok l, s1)) :
    iterOp t o g s = (.ok (), s1.writeRow (b.arg / 2 ^ 21 % 2 ^ 8) (spanUnits n b.len) l) := by
  have e : iterOp t o g s = iterXpush t o b s := by simp only [iterOp, iterCopy, hk, hb]
  exact e.trans ((Res.bind_of hr).trans ((Res.bind_of hm).trans ((Res.bind_of hw).trans (Res.bind_of hl))))

theorem iterOp_store (hk : o.kind = .tstore ∨ o.kind = .tscatter ∨ o.kind = .rstore) (hb : o.started.transfer = some b)
    (hd : o.started.layout = some d) : iterOp t o g s = iterStore t o d b g s := by
  obtain h | h | h := hk <;> simp only [iterOp, iterCopy, h, hb, hd]

/-- A store whose row has its places, its destination and its codes writes it. -/
theorem iterStore_of_reads {dst : Dest} (hf : fd = entryOf o.latch.fmt d.fidx) (hu : o.storeUnits d b s = (.ok us, s))
    (hi : o.index t s = (.ok ix, s1)) (hp : o.places .d d b ix s1 = (.ok ps, s1))
    (hd : storeDest t d g (placeBytes fd ps) (if d.space = 1 then partialBytes fd ps else []) s1 = (.ok dst, s2))
    (hc : o.storeCodes t b fd us s2 = (.ok cs, s3)) :
    iterStore t o d b g s = s3.storeRow t o dst (rowWrites fd ps cs.1 cs.2) := by
  subst hf
  exact (Res.bind_of hu).trans ((Res.bind_of hi).trans ((Res.bind_of hp).trans ((Res.bind_of hd).trans (Res.bind_of hc))))

theorem storeDest_mem {as part_ : List Nat} (h0 : d.space = 0)
    (hm : pageMap (tileDie t) (s.tile t).partNo .write as [] s = (.ok m, s1)) :
    storeDest t d g as part_ s = (.ok (.mem m), s1) := by
  simp only [storeDest, h0]
  exact Res.bind_of hm

theorem storeDest_far {as part_ : List Nat} (h2 : 2 ≤ d.space) (ha : absent (tileDie t) [d.modnum] s = none) :
    storeDest t d g as part_ s = (.ok (.far d.modnum), s) := by
  have hn : (if as.isEmpty then none else absent (tileDie t) [d.modnum] s) = none := by
    rw [ha]; exact ite_self _
  unfold storeDest
  dsimp only
  split
  · omega
  · omega
  · rw [hn]

/-- A row posted to another module, behind what is under way. -/
theorem postRow_of_sound (w : List ByteWrite) (hc : (SMap.get {} (s.tile t).es.failed n).code = 0) :
    (s.postRow t n w).mem = s.mem ∧ (s.postRow t n w).tiles = s.tiles ∧
    (s.postRow t n w).posted.map (fun v => (v.tile, v.seat, v.module, v.offset, v.bytes, v.signal)) =
      s.posted.map (fun v => (v.tile, v.seat, v.module, v.offset, v.bytes, v.signal)) ++
      (runsOf w).map fun r => (t, (s.tile t).life.seat, n, r.1, r.2, none) := by
  rw [State.postRow, if_neg (not_not.mpr hc)]
  refine ⟨rfl, rfl, ?_⟩
  rw [List.map_append, List.map_map]
  rfl

theorem iterOp_tred (hk : o.kind = .tred) (hb : o.started.transfer = some b) (hd : o.started.layout = some d)
    (hf : fd = entryOf o.latch.fmt d.fidx) (hu : o.storeUnits d b s = (.ok us, s)) (hp : o.places .d d b 0 s = (.ok ps, s))
    (hm : pageMap (tileDie t) (s.tile t).partNo .atomic (placeBytes fd ps) [] s = (.ok m, s1))
    (hq : memPoison m .atomic (placeBytes fd ps) s1 = (.ok (), s1)) (hc : o.storeCodes t b fd us s1 = (.ok cs, s2)) :
    iterOp t o g s = (.ok (), s2.reduceRow m b.rop o.rm.2 ps cs.1) := by
  subst hf
  have e : iterOp t o g s = iterTred t o d b s := by simp only [iterOp, iterCopy, hk, hb, hd]
  exact e.trans ((Res.bind_of hu).trans ((Res.bind_of hp).trans ((Res.bind_of hm).trans ((Res.bind_of hq).trans (Res.bind_of hc)))))

theorem iterOp_rsig {p sc : Nat} (hk : o.kind = .rsig) (hb : o.started.transfer = some b) (hd : o.started.layout = some d)
    (hf : fd = entryOf o.latch.fmt d.fidx) (ha : absent (tileDie t) [d.modnum] s = none)
    (hp : addressOf d fd (b.coord.take d.rank) = .at_ p sc) (hc : (SMap.get {} (s.tile t).es.failed d.modnum).code = 0) :
    ∃ u w, iterOp t o g s = (.ok (), u) ∧ u.posted = s.posted ++ [w] ∧ w.tile = t ∧ w.seat = (s.tile t).life.seat ∧
      w.module = d.modnum ∧ w.offset = p / 8 ∧ w.signal = some (b.set, BitVec.ofNat 64 b.arg) ∧ u.mem = s.mem ∧ u.tiles = s.tiles := by
  subst hf
  have e : iterOp t o g s = iterRsig t o d b s := by simp only [iterOp, iterCopy, hk, hb, hd]
  rw [e, iterRsig]
  simp only [ha, hp, hc, ne_eq, not_true, if_false]
  exact ⟨_, _, rfl, rfl, rfl, rfl, rfl, rfl, rfl, rfl, rfl⟩

end


/-! ## Rows of units (05 R114) -/

/-- A write of whole words is a plain one: it covers every word that it touches (09 R219). -/
theorem writeKeeping_of_words {bad : List Nat} {lo n : Nat} (hlo : lo % 4 = 0) (hn : n % 4 = 0) (m : Memory) (a : Nat) (l : List Byte)
    (ha : lo ≤ a) (hl : a + l.length ≤ lo + n) : writeKeeping bad lo n m a l = m.setBytes a l := by
  induction l generalizing m a with
  | nil => rfl
  | cons v l ih =>
    rw [List.length_cons] at hl
    have hk : keepByte bad lo n a = false := by
      have h1 : lo ≤ a / 4 * 4 := by omega
      have h2 : a / 4 * 4 + 4 ≤ lo + n := by omega
      simp [keepByte, h1, h2]
    rw [writeKeeping, hk, if_neg Bool.false_ne_true, Memory.setBytes]
    exact ih _ _ (by omega) (by omega)

theorem scratch_writeScratch_unit {x : TileMem} {off : Nat} {l : List Byte} (ho : off % 64 = 0) (hl : l.length = 64) :
    (x.writeScratch off l).scratch = x.scratch.setBytes off l :=
  writeKeeping_of_words (by omega) (by omega) _ _ _ (Nat.le_refl _) (by omega)

theorem scratch_state_writeScratch {s : State} {t off : Nat} {l : List Byte} (ho : off % 64 = 0) (hl : l.length = 64) :
    ((s.writeScratch t off l).tile t).mem.scratch = (s.tile t).mem.scratch.setBytes off l := by
  rw [State.writeScratch, State.tile_setTile_same, scratch_writeScratch_unit ho hl]

theorem writeRow_cons {s : State} {t : Nat} {u : UnitAt} {us : List UnitAt} {l : List Byte} (hl : l ≠ []) :
    s.writeRow t (u :: us) l = (s.writeScratch t u.off (l.take 64)).writeRow t us (l.drop 64) := by
  rw [State.writeRow, if_neg (by simpa using hl)]

/-- A byte outside the units of a row keeps. -/
theorem byte_writeRow_outside {t a : Nat} (us : List UnitAt) (s : State) (l : List Byte) (hl : l.length = 64 * us.length)
    (ho : ∀ u ∈ us, u.off % 64 = 0) (ha : ∀ u ∈ us, a < u.off ∨ u.off + 64 ≤ a) :
    ((s.writeRow t us l).tile t).mem.scratch.byte a = (s.tile t).mem.scratch.byte a := by
  induction us generalizing s l with
  | nil => rfl
  | cons u us ih =>
    rw [List.length_cons] at hl
    have ht : (l.take 64).length = 64 := by rw [List.length_take]; omega
    rw [writeRow_cons (by rintro rfl; simp at hl), ih _ _ (by rw [List.length_drop]; omega) (fun v h => ho v (.tail _ h))
      (fun v h => ha v (.tail _ h)), scratch_state_writeScratch (ho u (.head _)) ht, Memory.byte_setBytes, ht]
    have := ha u (.head _)
    exact if_neg (by omega)

/-- A unit of a row takes its 64 bytes. -/
theorem bytes_writeRow_unit {t : Nat} (us : List UnitAt) (s : State) (l : List Byte) (hl : l.length = 64 * us.length)
    (ho : ∀ u ∈ us, u.off % 64 = 0) (hd : us.Pairwise fun u v => u.off ≠ v.off) {i : Nat} {u : UnitAt} (hu : us[i]? = some u) :
    ((s.writeRow t us l).tile t).mem.scratch.bytes u.off 64 = (l.drop (64 * i)).take 64 := by
  induction us generalizing s l i with
  | nil => cases hu
  | cons v us ih =>
    rw [List.length_cons] at hl
    have ht : (l.take 64).length = 64 := by rw [List.length_take]; omega
    have hr : (l.drop 64).length = 64 * us.length := by rw [List.length_drop]; omega
    obtain ⟨hv, hus⟩ := List.pairwise_cons.mp hd
    rw [writeRow_cons (by rintro rfl; simp at hl)]
    cases i with
    | zero =>
      cases hu
      rw [Memory.bytes_congr fun b hb hb2 => byte_writeRow_outside us _ _ hr (fun w h => ho w (.tail _ h)) fun w h => ?_]
      · have hs := Memory.bytes_setBytes_same (s.tile t).mem.scratch u.off (l.take 64)
        rw [ht] at hs
        rw [scratch_state_writeScratch (ho u (.head _)) ht, hs, Nat.mul_zero, List.drop_zero]
      · have h1 := hv w h
        have h2 := ho w (.tail _ h)
        have h3 := ho u (.head _)
        omega
    | succ i =>
      rw [ih _ _ hr (fun w h => ho w (.tail _ h)) hus hu, List.drop_drop, Nat.mul_succ, Nat.add_comm]


/-! ## What an engine does with the operation at its head (02 R40, R46, R47; 12 R290, R293, R295; 10 R243) -/

theorem Op.atRendezvous_of_cancel {o : Op} (h : o.cancel = true) : o.atRendezvous = false := by
  simp [Op.atRendezvous, h]

theorem Op.stampOver_of {o : Op} {det : Bool} {n now : Nat} (hs : o.stamp = some n) :
    o.stampOver det now = (det && decide (n + 2 ≤ now)) := by
  rw [Op.stampOver, hs]

section
variable {s s1 : State} {t : TileId} {e : Engine} {o o1 run : Op} {rest : List Op} {n : Nat} {f : FaultRec}
  (h : Heads s t.val e o rest)
include h

/-- The start of a ready operation that stops nowhere, at OPERATION_START or at the tick of its stamp. -/
theorem Heads.starts (hu : Unhindered s t.val e o) (hq : o.state = .queued) (hc : o.cancel = false)
    (hr : (s.tile t.val).opReady o = true) (hk : o.kind ≠ .mchain) (hs : startOp t.val o s = (.ok o1, s1)) (hk1 : o1.kind = o.kind)
    (hrun : run = { o1 with state := .running, atStart := false }) :
    (o.stamp = none → exec (.operationStart t e) s = .next (if o1.rcd.total ≤ o1.t
      then s1.finishOp t.val e run .retired else s1.setOp t.val e run)) ∧
    (o.stamp = some n → n ≤ s.seiche → o.atStart = false → (bit (s.tile t.val).ctl.node.toNat 58 = true → s.seiche < n + 2) →
      exec (.stampExpiry t e) s = .next (if o1.rcd.total ≤ o1.t
        then s1.finishOp t.val e run .retired else s1.setOp t.val e run)) := by
  subst hrun
  have hnow := hu.startNow_ok hs (hk1 ▸ hk)
  refine ⟨fun hst => ?_, fun hst hn ha hd => ?_⟩
  · rw [h.exec_operationStart hu hq hc hr hst, hnow]
  · have ho : o.stampOver (bit (s.tile t.val).ctl.node.toNat 58) s.seiche = false := by
      rw [Op.stampOver_of hst, Bool.and_eq_false_iff, decide_eq_false_iff_not]
      by_cases hb : bit (s.tile t.val).ctl.node.toNat 58 = true
      · exact .inr (by have := hd hb; omega)
      · exact .inl (eq_false_of_ne_true hb)
    rw [h.exec_stampExpiry_starts hu hr (h.stampDue hq hc ha hst hn) ho, hnow]

/-- An operation whose tick has come misses it where it is not ready, or where its cycle is over under DET. -/
theorem Heads.misses (hu : Unhindered s t.val e o) (hq : o.state = .queued) (hc : o.cancel = false) (ha : o.atStart = false)
    (hs : o.stamp = some n) (hn : n ≤ s.seiche)
    (hm : (s.tile t.val).opReady o = false ∨ bit (s.tile t.val).ctl.node.toNat 58 = true ∧ n + 2 ≤ s.seiche) :
    exec (.stampExpiry t e) s = .next (s.missOp t.val e o n) := by
  rw [exec_stampExpiry_misses h.phase (h.find_stampDue (h.stampDue hq hc ha hs hn)) hu.trace hu.power, hs, Option.getD_some]
  obtain hr | ⟨hb, hl⟩ := hm
  · exact .inr fun c => by rw [hr] at c; cases c.2
  · exact .inl (by rw [Op.stampOver_of hs, hb, decide_eq_true hl, Bool.and_self])

/-- So does one that is not the head, at once. -/
theorem Heads.misses_behind {o2 : Op} (hu : Unhindered s t.val e o) (hd : o.stampDue s.seiche false = false)
    (hf : rest.find? (·.stampDue s.seiche false) = some o2) (hne : o2.seq ≠ o.seq) :
    exec (.stampExpiry t e) s = .next (s.missOp t.val e o2 (o2.stamp.getD 0)) := by
  refine exec_stampExpiry_misses h.phase ?_ hu.trace hu.power (.inr fun c => hne ?_)
  · rw [h.ops, List.find?_cons_of_neg (by rw [hd]; exact Bool.false_ne_true), hf]
  · rw [h.ops] at c
    exact (Option.some.inj c.1).symm

/-- The head of an engine that runs: its cancel at a boundary, its next iteration, its fault. -/
theorem Heads.iterates {s2 : State} {done_ : Op} (hst : o.state = .running) (hsu : o.suspended = false) :
    (o.cancel = true → o.inIter = false → exec (.engineIteration t e) s = .next (s.finishOp t.val e o .cancelled)) ∧
    (o.cancel = false ∨ o.inIter = true → o.atStart = false → o.atRendezvous = false →
      (iterOp t.val o false s = (.ok (), s1) → done_ = { o with t := o.t + 1, wait := .none, inIter := false, entered := [] } →
        s2 = s1.setEngAt t.val e { s1.engAt t.val e with ended := true } →
        exec (.engineIteration t e) s = .next (if o.rcd.total ≤ o.t + 1 then s2.finishOp t.val e done_ .retired
          else s2.setOp t.val e { done_ with suspended := s2.restsHere t.val done_ })) ∧
      (iterOp t.val o false s = (.error { f := f }, s1) → exec (.engineIteration t e) s = .next (s1.opFault t.val e o f))) := by
  refine ⟨fun hc hi => ?_, fun hc ha hre => ⟨fun hs hd h2 => ?_, fun hs => ?_⟩⟩
  · rw [h.exec_engineIteration hst hsu (Op.atRendezvous_of_cancel hc), iterate_cancelled hc hi]
  · subst hd h2
    rw [h.exec_engineIteration hst hsu hre, iterate_ok hc ha hs, State.afterIteration, State.workedEng]
  · rw [h.exec_engineIteration hst hsu hre, iterate_error hc ha hs]

end


/-! ## The epilogue block (12 R307) -/

section
variable {s : State} {t : Nat} {o : Op}

theorem readEpilogue_none (h : o.rcd.epi = false) : readEpilogue t o s = (.ok [], s) := by
  rw [readEpilogue, h]
  rfl

theorem readEpilogue_outside (h : o.rcd.epi = true) (hb : 0x200000 < 64 * o.rcd.h .b + 1036) :
    readEpilogue t o s = (.error { f := opRec Code.scratchBounds (64 * o.rcd.h .b) 0 }, s) := by
  have hn : scratchSize < 64 * o.rcd.h .b + 1036 := hb
  rw [readEpilogue, h]
  exact (if_neg Bool.false_ne_true).trans (if_pos hn)

/-- A block that lies in the scratchpad and reads without an error: refused for a reserved bit, else its 259 words. -/
theorem readEpilogue_inside (h : o.rcd.epi = true) (hb : 64 * o.rcd.h .b + 1036 ≤ 0x200000)
    (hl : (s.tile t).mem.latentIn (64 * o.rcd.h .b) 1036 = []) (hf : (s.tile t).readFails (64 * o.rcd.h .b) 1036 = none) :
    readEpilogue t o s = if 8 ≤ (s.tile t).mem.scratch.readLE (64 * o.rcd.h .b + 1032) 4
      then (.error { f := opRec Code.recordField 12 0 }, s)
      else (.ok ((List.range 259).foldl (fun e i =>
        SMap.set 0 e i (BitVec.ofNat 32 ((s.tile t).mem.scratch.readLE (64 * o.rcd.h .b + 4 * i) 4))) []), s) := by
  have hn : ¬ scratchSize < 64 * o.rcd.h .b + 1036 := Nat.not_lt.mpr hb
  rw [readEpilogue, h]
  refine (if_neg Bool.false_ne_true).trans ((if_neg hn).trans ?_)
  rw [State.noteRead_clean hl]
  dsimp only
  rw [hf]
  rfl

/-- The words of a block read back as they lie in the scratchpad. -/
theorem toNat_epilogue (m : Memory) (off : Nat) {i : Nat} (hi : i < 259) :
    (SMap.get 0 ((List.range 259).foldl (fun e i => SMap.set 0 e i (BitVec.ofNat 32 (m.readLE (off + 4 * i) 4))) []) i).toNat =
      m.readLE (off + 4 * i) 4 := by
  have hg := SMap.get_foldl_set (w := 32) (fun i => m.readLE (off + 4 * i) 4) 0 i 259 []
  simp only [Nat.zero_add] at hg
  rw [hg, if_pos ⟨Nat.zero_le _, hi⟩, Nat.sub_zero, BitVec.toNat_ofNat]
  refine Nat.mod_eq_of_lt ?_
  have := leNat_lt (m.bytes (off + 4 * i) 4)
  rwa [Memory.length_bytes] at this

/-- A block that is read: its words. -/
theorem readEpilogue_words (h : o.rcd.epi = true) (hb : 64 * o.rcd.h .b + 1036 ≤ 0x200000)
    (hl : (s.tile t).mem.latentIn (64 * o.rcd.h .b) 1036 = []) (hf : (s.tile t).readFails (64 * o.rcd.h .b) 1036 = none)
    (h8 : (s.tile t).mem.scratch.readLE (64 * o.rcd.h .b + 1032) 4 < 8) :
    ∃ e, readEpilogue t o s = (.ok e, s) ∧
      ∀ i, i < 259 → (SMap.get 0 e i).toNat = (s.tile t).mem.scratch.readLE (64 * o.rcd.h .b + 4 * i) 4 :=
  ⟨_, (readEpilogue_inside h hb hl hf).trans (if_neg (Nat.not_le.mpr h8)), fun _ hi => toNat_epilogue _ _ hi⟩

/-! ## Starts of the matrix engine (12 R293, R299, R303, R307, R309) -/

theorem startOp_mdrain {r : Res Epilogue} (hk : o.kind = .mdrain) (he : readEpilogue t o s = r) :
    startOp t o s = r.bind fun e s => (.ok { o with started := { o.started with epilogue := e } }, s) := by
  rw [startOp_of_matrix (by rw [hk]; rfl), startMatrix, hk, ← he]

/-- A direct drain whose block is read, or that has none: it stops at the first row out of range, else it takes its pin. -/
theorem startOp_mdrainDirect {e : Epilogue} (hk : o.kind = .mdrainDirect) (he : readEpilogue t o s = (.ok e, s)) :
    (∀ a, (o.rowsOf .a).find? (fun a => decide (a < 0 ∨ 65535 < a)) = some a →
      startOp t o s = (.error { f := opRec Code.scratchBounds (a % 2 ^ 64).toNat 0 }, s)) ∧
    ((∀ a ∈ o.rowsOf .a, 0 ≤ a ∧ a ≤ 65535) →
      let v := { o with started := { o.started with epilogue := e }, t := o.rcd.total }
      startOp t o s = (.ok v, s.setTile t { s.tile t with mem := { (s.tile t).mem with
        pins := (s.tile t).mem.pins ++ [{ seq := o.seq, op := v }] } })) := by
  have hp : (fun a : Int => decide (a < 0) || decide (65535 < a)) = fun a => decide (a < 0 ∨ 65535 < a) := by
    funext a; rw [Bool.decide_or]
  rw [startOp_of_matrix (by rw [hk]; rfl), startMatrix, hk]
  simp only [he, Res.bind, hp]
  refine ⟨fun a ha => ?_, fun ha => ?_⟩
  · rw [ha]
    rfl
  · have hn : (o.rowsOf .a).find? (fun a => decide (a < 0 ∨ 65535 < a)) = none :=
      List.find?_eq_none.mpr fun a hm => by have := ha a hm; simpa using this
    rw [hn]
    rfl

theorem startOp_mdrainDirect_error {x : Stop} (hk : o.kind = .mdrainDirect) (he : readEpilogue t o s = (.error x, s)) :
    startOp t o s = (.error x, s) := by
  rw [startOp_of_matrix (by rw [hk]; rfl), startMatrix, hk]
  exact Res.bind_of_error he

end


section
variable {s : State} {t : Nat} {o : Op}

/-- A load of weights, or a pass that preloads, clears the shadow plane at its start. -/
theorem startOp_clears {f sp : Nat} (h : o.kind = .wload ∧ f = o.latch.fmtOf o.rcd .a ∧ sp = spOf o.rcd ∨
    (o.kind = .mma ∧ o.rcd.epi = true) ∧ f = o.latch.fmtOf o.rcd .b ∧ sp = 0) :
    startOp t o s = (.ok o, s.setMemOf t ((s.tile t).mem.clearShadow o.latch.fmt f sp)) := by
  obtain ⟨hk, rfl, rfl⟩ | ⟨⟨hk, he⟩, rfl, rfl⟩ := h
  · rw [startOp_of_matrix (by rw [hk]; rfl), startMatrix, hk]
  · rw [startOp_of_matrix (by rw [hk]; rfl), startMatrix, hk]
    simp only [he, if_true]

/-- The other records of the matrix engine but the drains do nothing at their start. -/
theorem startOp_idle (h : o.kind = .wswap ∨ o.kind = .mzero ∨ o.kind = .mchain ∨ o.kind = .mcopy ∨ o.kind = .mmas ∨
    o.kind = .mma ∧ o.rcd.epi = false) : startOp t o s = (.ok o, s) := by
  obtain h | h | h | h | h | ⟨h, he⟩ := h
  all_goals rw [startOp_of_matrix (by rw [h]; rfl), startMatrix, h]
  rw [he]
  rfl

theorem tile_setMemOf (s : State) (t : Nat) (m : TileMem) : (s.setMemOf t m).tile t = { s.tile t with mem := m } := by
  rw [State.setMemOf, State.tile_setTile_same]

theorem mem_setMemOf (s : State) (t : Nat) (m : TileMem) : ((s.setMemOf t m).tile t).mem = m := by
  rw [tile_setMemOf]

end


/-! ## Numbers of a width -/

theorem sInt_eq_toInt (n v : Nat) : sInt n v = (BitVec.ofNat n v).toInt := by
  rw [sInt, BitVec.toInt, BitVec.toNat_ofNat]

theorem wrapOrClamp_eq (sat : Bool) (z : Int) :
    wrapOrClamp sat z = (BitVec.ofInt 32 (if sat then max (-2 ^ 31) (min z (2 ^ 31 - 1)) else z)).toNat := by
  cases sat <;> simp [wrapOrClamp, uMod, BitVec.toNat_ofInt]

/-! ## What a read leaves of the arrays (18 R429) -/

/-- A tile's accumulators, planes and scratchpad, and which accumulator words are poisoned. -/
structure SameArrays (x y : Tile) : Prop where
  acc : y.mem.acc = x.mem.acc
  accBad : y.mem.accBad = x.mem.accBad
  act : y.mem.act = x.mem.act
  shd : y.mem.shd = x.mem.shd
  scratch : y.mem.scratch = x.mem.scratch

theorem SameArrays.refl (x : Tile) : SameArrays x x := ⟨rfl, rfl, rfl, rfl, rfl⟩

theorem SameArrays.trans {x y z : Tile} (h : SameArrays x y) (k : SameArrays y z) : SameArrays x z :=
  ⟨k.acc.trans h.acc, k.accBad.trans h.accBad, k.act.trans h.act, k.shd.trans h.shd, k.scratch.trans h.scratch⟩

theorem sameArrays_foldl_foundWord (ws : List Nat) (x : Tile) : SameArrays x (ws.foldl Tile.foundWord x) := by
  induction ws generalizing x with
  | nil => exact .refl x
  | cons w ws ih => exact SameArrays.trans (y := x.foundWord w) ⟨rfl, rfl, rfl, rfl, rfl⟩ (ih _)

theorem sameArrays_noteRead (s : State) (t off n : Nat) : SameArrays (s.tile t) ((s.noteRead t off n).tile t) := by
  obtain h | h := State.noteRead_state s t off n
  · rw [h]; exact .refl _
  · rw [h, State.tile_setTile_same]; exact sameArrays_foldl_foundWord ..

theorem sameArrays_noteRow (t : Nat) (us : List UnitAt) (s : State) (n : Nat) :
    SameArrays (s.tile t) ((s.noteRow t us n).tile t) := by
  induction us generalizing s n with
  | nil => exact .refl _
  | cons u us ih =>
    have hr := sameArrays_noteRead s t u.off (min 64 n)
    unfold State.noteRow
    dsimp only
    split
    · exact .refl _
    · split
      · exact hr
      · exact hr.trans (ih ..)

theorem sameArrays_readRow {t n : Nat} {us : List UnitAt} {s s1 : State} {l : List Byte} (h : readRow t us n s = (.ok l, s1)) :
    SameArrays (s.tile t) (s1.tile t) := by
  have hn := sameArrays_noteRow t us s n
  unfold readRow at h
  dsimp only at h
  split at h
  · cases h; exact hn
  · cases h

theorem sameArrays_countCes (s : State) (t n : Nat) : SameArrays (s.tile t) ((s.countCes t n).tile t) := by
  unfold State.countCes
  split
  · exact .refl _
  · rw [State.tile_setTile_same]; exact ⟨rfl, rfl, rfl, rfl, rfl⟩

theorem sameArrays_noteAcc (s : State) (t r : Nat) : SameArrays (s.tile t) ((s.noteAcc t r).tile t) := by
  unfold State.noteAcc
  dsimp only
  split
  · exact .refl _
  · refine SameArrays.trans ?_ (sameArrays_countCes ..)
    rw [State.tile_setTile_same]; exact ⟨rfl, rfl, rfl, rfl, rfl⟩

theorem sameArrays_notePass (s : State) (t g : Nat) (p : Plane) : SameArrays (s.tile t) ((s.notePass t p g).tile t) := by
  unfold State.notePass
  dsimp only
  split
  · exact .refl _
  · refine SameArrays.trans ?_ (sameArrays_countCes ..)
    rw [State.tile_setTile_same]; exact ⟨rfl, rfl, rfl, rfl, rfl⟩

theorem noteAcc_clean {s : State} {t r : Nat} (h : ∀ i ∈ (s.tile t).mem.accCe, i / 128 ≠ r) : s.noteAcc t r = s := by
  have hf : (s.tile t).mem.accCe.filter (fun i => decide (i / 128 = r)) = [] :=
    List.filter_eq_nil_iff.mpr fun i hi => by simpa using h i hi
  rw [State.noteAcc, hf]

/-! ## Accumulator rows (05 R119, 12 R292) -/

theorem accRow_ok {o : Op} {x : Opd} {a : Int} (s : State) (ha : a = (o.rcd.h x : Int) + o.stride x) (h0 : 0 ≤ a) (h1 : a ≤ 65535) :
    o.accRow x s = (.ok (a.toNat / 128), s) := by
  subst ha
  exact if_neg (by omega)

/-- The words of a row none of which is poisoned. -/
theorem accWordsOf_ok {t r : Nat} {s : State} (h : ∀ n, n < 128 → 128 * r + n ∉ (s.tile t).mem.accBad) :
    accWordsOf t r s = (.ok ((List.range 128).map (Claims.accWord s t r)), s.noteAcc t r) := by
  have hn := sameArrays_noteAcc s t r
  have hf : (List.range 128).find? (fun n => ((s.noteAcc t r).tile t).mem.accBad.contains (128 * r + n)) = none :=
    List.find?_eq_none.mpr fun n hm => by
      rw [hn.accBad, List.contains_iff_mem]
      exact h n (List.mem_range.mp hm)
  unfold accWordsOf
  dsimp only
  rw [hf, hn.acc]
  rfl

theorem getD_map_range {α : Type} (f : Nat → α) (d : α) {n m : Nat} (h : n < m) : ((List.range m).map f).getD n d = f n := by
  rw [List.getD_eq_getElem?_getD, List.getElem?_map, List.getElem?_range h]
  rfl

/-- A function of a value that each step of a fold keeps. -/
theorem foldl_keeps {α β γ : Type} {f : α → β → α} {F : α → γ} (h : ∀ a b, F (f a b) = F a) (l : List β) (a : α) :
    F (l.foldl f a) = F a := by
  induction l generalizing a with
  | nil => rfl
  | cons b l ih => exact (ih _).trans (h a b)

/-- A row of the accumulators written whole reads back word by word, and every other row as before. -/
theorem writeAcc_get (m : TileMem) (r : Nat) (ws : List Nat) (q n : Nat) (hn : n < 128) :
    SMap.get 0 (m.writeAcc r ws).acc (128 * q + n) = if q = r then BitVec.ofNat 32 (ws.getD n 0) else SMap.get 0 m.acc (128 * q + n) := by
  rw [TileMem.writeAcc, ← List.foldl_hom TileMem.acc (g₂ := fun c n => SMap.set 0 c (128 * r + n) (BitVec.ofNat 32 (ws.getD n 0)))
    (by intros; rfl)]
  exact setPlaneRow_get m.acc r (fun n => ws.getD n 0) q n hn

theorem writeAcc_keeps {γ : Type} (F : TileMem → γ) (hF : ∀ (m : TileMem) a b c, F { m with acc := a, accBad := b, accCe := c } = F m)
    (m : TileMem) (r : Nat) (ws : List Nat) : F (m.writeAcc r ws) = F m :=
  foldl_keeps (fun m _ => hF m _ _ _) _ _


/-! ## Weights written into the shadow plane (03 R83, 12 R299) -/

/-- The entries kept beside a row of weights that is written: of each weight that another entry than the plane's decodes, that and its
scale entry. -/
theorem writeShadow_entries (m : TileMem) (fmt : SMap Word) (f k : Nat) (ent : Nat → Nat) (row j n : Nat) (hn : n < 128) :
    SMap.get 0 (m.writeShadow fmt f k ent row).shd.ents (128 * j + n) =
      (if j = k then (if ent n = f then 0 else BitVec.ofNat 64 (ent n)) else SMap.get 0 m.shd.ents (128 * j + n)) ∧
    SMap.get 0 (m.writeShadow fmt f k ent row).shd.sents (128 * j + n) =
      (if j = k then (if ent n = f then 0 else BitVec.ofNat 64 (scaleEntry fmt (ent n))) else SMap.get 0 m.shd.sents (128 * j + n)) := by
  simp only [TileMem.writeShadow, setPlaneRow_get _ _ _ _ _ hn, apply_ite (BitVec.ofNat 64)]
  exact ⟨rfl, rfl⟩

@[simp] theorem writeSide_act (m : TileMem) (b : Bool) (l : List Byte) : (m.writeSide b l).act = m.act := by cases b <;> rfl
@[simp] theorem writeSide_acc (m : TileMem) (b : Bool) (l : List Byte) : (m.writeSide b l).acc = m.acc := by cases b <;> rfl
@[simp] theorem writeSide_scratch (m : TileMem) (b : Bool) (l : List Byte) : (m.writeSide b l).scratch = m.scratch := by cases b <;> rfl
@[simp] theorem writeSide_codes (m : TileMem) (b : Bool) (l : List Byte) : (m.writeSide b l).shd.codes = m.shd.codes := by cases b <;> rfl
@[simp] theorem writeSide_ents (m : TileMem) (b : Bool) (l : List Byte) : (m.writeSide b l).shd.ents = m.shd.ents := by cases b <;> rfl
@[simp] theorem writeSide_sents (m : TileMem) (b : Bool) (l : List Byte) : (m.writeSide b l).shd.sents = m.shd.sents := by cases b <;> rfl

/-! ## The iterations of the matrix engine but the passes (12 R299, R300, R306 to R310) -/

section
variable {s s1 s2 : State} {t : Nat} {o : Op} {f g n r nb : Nat} {ua ub ud : List UnitAt} {l lb : List Byte}

/-- A row of weights of a plane whose scales and metadata the iteration does not load. -/
theorem iterWload_row (hf : f = o.latch.fmtOf o.rcd .a) (hs : o.t ≠ 0 ∨ spOf o.rcd = 0 ∧ Ent.kind f ≠ 2)
    (ha : o.row .a (o.stride .a) (planeRowBytes f) s = (.ok ua, s)) (hl : readRow t ua (planeRowBytes f) s = (.ok l, s1)) :
    iterWload t o s = (.ok (), s1.setMemOf t
      ((s1.tile t).mem.writeShadow o.latch.fmt f o.t (o.elemEntry .a f ua) (leNat l))) := by
  subst hf
  have hz : (if (decide (o.t = 0) && decide (spOf o.rcd ≠ 0)) = true then planeMetaBytes (spOf o.rcd)
      else if (decide (o.t = 0) && decide (Ent.kind (o.latch.fmtOf o.rcd .a) = 2)) = true
        then planeScaleBytes (o.latch.fmtOf o.rcd .a) else 0) = 0 := by
    obtain h | ⟨h1, h2⟩ := hs
    · simp [h]
    · simp [h1, h2]
  rw [iterWload]
  simp only [hz]
  exact (Res.bind_of ha).trans ((Res.bind_of hl).trans rfl)

/-- The first row, with the scales or the metadata of the plane. -/
theorem iterWload_first (hf : f = o.latch.fmtOf o.rcd .a) (h0 : o.t = 0) (hs : spOf o.rcd ≠ 0 ∨ Ent.kind f = 2)
    (hb : nb = if spOf o.rcd ≠ 0 then 8 * 128 * spGroups (spOf o.rcd) else 128 * 128 / Ent.block f) (hz : nb ≠ 0)
    (ha : o.row .a (o.stride .a) (planeRowBytes f) s = (.ok ua, s)) (hl : readRow t ua (planeRowBytes f) s = (.ok l, s1))
    (hu : o.row .b 0 nb s = (.ok ub, s)) (hm : readRow t ub nb s1 = (.ok lb, s2)) :
    iterWload t o s = (.ok (), s2.setMemOf t
      (((s2.tile t).mem.writeShadow o.latch.fmt f o.t (o.elemEntry .a f ua) (leNat l)).writeSide (decide (spOf o.rcd ≠ 0)) lb)) := by
  subst hf
  have hn : (if (decide (o.t = 0) && decide (spOf o.rcd ≠ 0)) = true then planeMetaBytes (spOf o.rcd)
      else if (decide (o.t = 0) && decide (Ent.kind (o.latch.fmtOf o.rcd .a) = 2)) = true
        then planeScaleBytes (o.latch.fmtOf o.rcd .a) else 0) = nb := by
    rw [hb]
    by_cases h : spOf o.rcd = 0
    · simp [h0, h, hs.resolve_left (not_not.mpr h), planeScaleBytes]
    · simp [h0, h, planeMetaBytes]
  rw [iterWload]
  simp only [hn, if_neg hz]
  exact (Res.bind_of ha).trans ((Res.bind_of hu).trans ((Res.bind_of hl).trans (Res.bind_of hm)))

theorem chainLenOf_eq (r : Rec) : chainLenOf r = r.h .a % 8 + 1 := by simp [chainLenOf, field, Rec.h]
theorem chainPosOf_eq (r : Rec) : chainPosOf r = r.h .a / 8 % 8 := by simp [chainPosOf, field, Rec.h]

theorem bit_zero_iff (v : Nat) : bit v 0 = true ↔ v % 2 = 1 := by simp [bit, field]
theorem bit_one_iff (v : Nat) : bit v 1 = true ↔ v / 2 % 2 = 1 := by simp [bit, field]
theorem bit_two_iff (v : Nat) : bit v 2 = true ↔ v / 4 % 2 = 1 := by simp [bit, field]

/-- The accumulator word that a drain takes, as a value. -/
theorem drainVal_eq (o : Op) (w n : Nat) : drainVal o w n =
    let v := if o.rcd.accsat then Val.ofInt (BitVec.ofNat 32 w).toInt else fp32 w
    if o.rcd.epi then Claims.throughEpilogue (fun i => (SMap.get 0 o.started.epilogue i).toNat) v n else v := by
  unfold drainVal Claims.throughEpilogue
  simp only [bit_zero_iff, bit_one_iff, bit_two_iff, sInt_eq_toInt, epiVal]
  cases o.rcd.epi <;> simp

/-- A drain whose row is clean and without errors to correct. -/
theorem iterDrain_ok {a : Int} (hf : f = o.latch.fmtOf o.rcd .d) (ha : a = (o.rcd.h .a : Int) + o.stride .a) (h0 : 0 ≤ a) (h1 : a ≤ 65535)
    (hr : r = a.toNat / 128) (hc : ∀ n, n < 128 → 128 * r + n ∉ (s.tile t).mem.accBad) (he : ∀ i ∈ (s.tile t).mem.accCe, i / 128 ≠ r)
    (hd : o.row .d (o.stride .d) (planeRowBytes f) s = (.ok ud, s)) (hw : rowWritable t ud s = (.ok (), s)) :
    iterDrain t o s = (.ok (), s.writeRow t ud (packBytes (Ent.width f) ((List.range 128).map fun n =>
      o.round 0x01 (o.elemEntry .d f ud n) o.ivec n (drainVal o (Claims.accWord s t r n) n)))) := by
  subst hf hr
  have hacc := accWordsOf_ok hc
  rw [noteAcc_clean he] at hacc
  refine (Res.bind_of (accRow_ok s ha h0 h1)).trans ((Res.bind_of hd).trans ((Res.bind_of hacc).trans ((Res.bind_of hw).trans ?_)))
  have hcodes : drainCodes o o.t (o.elemEntry .d (o.latch.fmtOf o.rcd .d) ud) ((List.range 128).map (Claims.accWord s t (a.toNat / 128))) =
      (List.range 128).map fun n => o.round 0x01 (o.elemEntry .d (o.latch.fmtOf o.rcd .d) ud n) o.ivec n
        (drainVal o (Claims.accWord s t (a.toNat / 128) n) n) :=
    List.map_congr_left fun n hn => by rw [getD_map_range _ _ (List.mem_range.mp hn), Op.ivec]
  rw [hcodes]

theorem iterMcopy_ok (hn : n = o.rcd.h .b) (hf : f = o.latch.fmtOf o.rcd .a) (hg : g = o.latch.fmtOf o.rcd .d)
    (ha : o.row .a (o.stride .a) (rowBytes n f) s = (.ok ua, s)) (hd : o.row .d (o.stride .d) (rowBytes n g) s = (.ok ud, s))
    (hl : readRow t ua (rowBytes n f) s = (.ok l, s1)) (hw : rowWritable t ud s1 = (.ok (), s1)) :
    iterMcopy t o s = (.ok (), s1.writeRow t ud (packBytes (Ent.width g) ((List.range n).map fun j =>
      o.convert (o.elemEntry .a f ua j) (o.elemEntry .d g ud j) j (codeAt (leNat l) (Ent.width f) j)
        (rowVal o.latch.fmt (leNat l) n f (o.elemEntry .a f ua j) j)))) := by
  subst hn hf hg
  exact (Res.bind_of ha).trans ((Res.bind_of hd).trans ((Res.bind_of hl).trans (Res.bind_of hw)))

end


/-! ## One pass (12 R301 to R303, R305) -/

/-- What a pass of a record works on, from the bytes of its row of activations. -/
def Op.passOf (o : Op) (x : Tile) (ua : List UnitAt) (l : List Byte) (g0 : Nat) : Pass :=
  { plane := x.mem.act, f := o.latch.fmtOf o.rcd .a, fmt := o.latch.fmt, row := leNat l, n := kPositions x.mem.act.sp
    entries := (List.range (kPositions x.mem.act.sp)).map (o.elemEntry .a (o.latch.fmtOf o.rcd .a) ua)
    prof := o.profile (bit x.ctl.node.toNat 58), sat := o.rcd.accsat, g0 := g0, opc := o.kind.opc }

/-- The words that a pass leaves in its accumulator row. -/
def Pass.words (q : Pass) (scale : Memory) (old : List Nat) (c : Nat) : List Nat :=
  if q.plane.loaded ∧ Ent.kind q.f = 1 ∧ Ent.kind q.plane.fmt.toNat = 3 then q.runGroups scale old
  else q.run old fun i => Config.openAcc (c + i)

/-- The memory of a tile after a pass that sends no row on. -/
def TileMem.passed (m : TileMem) (o : Op) (r : Nat) (new : List Nat) (fb : Nat) (pre : List (Nat × (Nat → Nat) × Nat))
    (scales : List Byte) : TileMem :=
  let m := pre.foldl (fun m kr => m.writeShadow o.latch.fmt fb kr.1 kr.2.1 kr.2.2) (m.writeAcc r new)
  if scales.isEmpty then m else m.writeSide false scales

/-- A pass that is not chained. -/
structure Alone (o : Op) : Prop where
  chain : o.rcd.chain = false
  west : o.west = false

/-- Whether a pass preloads, the plane rows that its iteration preloads, and the bytes of scales that it reads for them. -/
def Op.preloads (o : Op) : Bool := o.rcd.epi && decide (o.kind = .mma)
def Op.preloaded (o : Op) : List Nat := if o.preloads then preloadRows o else []
def Op.preloadScales (o : Op) : Nat :=
  if o.preloads && decide (o.t = 0) && decide (Ent.kind (o.latch.fmtOf o.rcd .b) = 2) then planeScaleBytes (o.latch.fmtOf o.rcd .b) else 0

section
variable {s s1 s2 s3 s4 : State} {t : Nat} {o : Op} {r g0 fb : Nat} {ua us : List UnitAt} {l sc : List Byte} {old : List Nat}
  {pre : List (Nat × (Nat → Nat) × Nat)}

theorem passWrites_alone (h : Alone o) (new : List Nat) (row : List Byte) :
    s.passWrites t o r new fb pre sc row = s.setMemOf t ((s.tile t).mem.passed o r new fb pre sc) := by
  unfold State.passWrites State.passRow
  exact if_neg (by rw [h.chain]; exact Bool.false_ne_true)

theorem readActivations_alone (h : Alone o) {f n : Nat} (hl : readRow t ua (rowBytes n f) s = (.ok l, s1)) :
    readActivations t o f n ua s = (.ok (l, (List.range n).map (o.elemEntry .a f ua)), s1) := by
  unfold readActivations
  rw [h.west]
  exact Res.bind_of hl

/-- A pass whose bounds and reads all succeed writes. -/
theorem iterPass_ok (h : Alone o)
    (ha : o.row .a (o.stride .a) (rowBytes (kPositions (s.tile t).mem.act.sp) (o.latch.fmtOf o.rcd .a)) s = (.ok ua, s))
    (hr : o.accRow .d s = (.ok r, s)) (hg : (if o.preloads then Res.ok 0 s else o.groupBase (s.tile t).mem.act s) = (.ok g0, s))
    (hb : boundPreload o (o.latch.fmtOf o.rcd .b) o.preloaded s = (.ok (), s))
    (hu : (if o.preloadScales = 0 then Res.ok [] s else o.row .b
      ((128 * unitsOf (planeRowBytes (o.latch.fmtOf o.rcd .b)) : Nat) : Int) o.preloadScales s) = (.ok us, s))
    (hl : readRow t ua (rowBytes (kPositions (s.tile t).mem.act.sp) (o.latch.fmtOf o.rcd .a)) s = (.ok l, s1))
    (ho : accWordsOf t r s1 = (.ok old, s2)) (hp : (s.tile t).mem.passPoison (s.tile t).mem.act g0 = none)
    (hpre : readPreload t o (o.latch.fmtOf o.rcd .b) o.preloaded (s2.notePass t (s.tile t).mem.act g0) = (.ok pre, s3))
    (hsc : readRow t us o.preloadScales s3 = (.ok sc, s4)) :
    iterPass t o s = (.ok (), ({ s4 with choices := s4.choices + 128 } : State).passWrites t o r
      ((o.passOf (s.tile t) ua l g0).words (s.tile t).mem.scale old s4.choices) (o.latch.fmtOf o.rcd .b) pre sc l) := by
  have hn : ¬ (o.rcd.chain && !s.chainReady t o) = true := by rw [h.chain]; exact Bool.false_ne_true
  have hw : (if o.west then Res.ok [] s else
      o.row .a (o.stride .a) (rowBytes (kPositions (s.tile t).mem.act.sp) (o.latch.fmtOf o.rcd .a)) s) = (.ok ua, s) := by
    rw [h.west]; exact ha
  refine (if_neg hn).trans ((Res.bind_of hw).trans ((Res.bind_of hr).trans ((Res.bind_of hg).trans ((Res.bind_of hb).trans
    ((Res.bind_of hu).trans ((Res.bind_of (readActivations_alone h hl)).trans ((Res.bind_of ho).trans ?_)))))))
  dsimp only
  rw [hp]
  exact (Res.bind_of hpre).trans (Res.bind_of hsc)

/-! ### The rows of a preload (12 R303) -/

section
variable {f : Nat} {ks : List Nat} {ub : Nat → List UnitAt} {lk : Nat → List Byte}

theorem boundPreload_ok (h : ∀ k ∈ ks, o.row .b ((k * unitsOf (planeRowBytes f) : Nat) : Int) (planeRowBytes f) s = (.ok (ub k), s)) :
    boundPreload o f ks s = (.ok (), s) := by
  induction ks with
  | nil => rfl
  | cons k ks ih => exact (Res.bind_of (h k (.head _))).trans (ih fun j hj => h j (.tail _ hj))

theorem readPreload_ok (h : ∀ k ∈ ks, o.row .b ((k * unitsOf (planeRowBytes f) : Nat) : Int) (planeRowBytes f) s = (.ok (ub k), s) ∧
      readRow t (ub k) (planeRowBytes f) s = (.ok (lk k), s)) :
    readPreload t o f ks s = (.ok (ks.map fun k => (k, o.elemEntry .b f (ub k), leNat (lk k))), s) := by
  induction ks with
  | nil => rfl
  | cons k ks ih =>
    obtain ⟨hr, hl⟩ := h k (.head _)
    exact (Res.bind_of hr).trans ((Res.bind_of hl).trans (Res.bind_of (ih fun j hj => h j (.tail _ hj))))

end

theorem mem_preloadRows {o : Op} {k : Nat} : k ∈ preloadRows o ↔ o.t ≤ k ∧ k < 128 ∧ (k = o.t ∨ o.t + 1 = o.rcd.total) := by
  unfold preloadRows
  simp only [List.mem_filter, List.mem_range, decide_eq_true_eq]
  split <;> omega

end

/-! ### What a pass leaves in memory -/

/-- The planes and the words beside the accumulators that a pass does not write. -/
theorem passed_keeps {γ : Type} (F : TileMem → γ) (m : TileMem) (o : Op) (r fb : Nat) (new : List Nat)
    (pre : List (Nat × (Nat → Nat) × Nat)) (sc : List Byte)
    (hacc : ∀ (m : TileMem) a b c, F { m with acc := a, accBad := b, accCe := c } = F m)
    (hrow : ∀ (m : TileMem) fmt f k ent row, F (m.writeShadow fmt f k ent row) = F m)
    (hside : ∀ (m : TileMem) l, F (m.writeSide false l) = F m) : F (m.passed o r new fb pre sc) = F m := by
  have hf : F (pre.foldl (fun m kr => m.writeShadow o.latch.fmt fb kr.1 kr.2.1 kr.2.2) (m.writeAcc r new)) = F m :=
    (foldl_keeps (fun m _ => hrow m _ _ _ _ _) _ _).trans (writeAcc_keeps F hacc m r new)
  unfold TileMem.passed
  dsimp only
  split
  · exact hf
  · exact (hside _ _).trans hf

theorem passed_act (m : TileMem) (o : Op) (r fb : Nat) (new : List Nat) (pre : List (Nat × (Nat → Nat) × Nat)) (sc : List Byte) :
    (m.passed o r new fb pre sc).act = m.act :=
  passed_keeps TileMem.act m o r fb new pre sc (fun _ _ _ _ => rfl) (fun _ _ _ _ _ _ => rfl) fun _ _ => rfl

theorem passed_scratch (m : TileMem) (o : Op) (r fb : Nat) (new : List Nat) (pre : List (Nat × (Nat → Nat) × Nat)) (sc : List Byte) :
    (m.passed o r new fb pre sc).scratch = m.scratch :=
  passed_keeps TileMem.scratch m o r fb new pre sc (fun _ _ _ _ => rfl) (fun _ _ _ _ _ _ => rfl) fun _ _ => rfl

/-- The accumulators after a pass: its row takes the new words. -/
theorem passed_acc (m : TileMem) (o : Op) (r fb : Nat) (new : List Nat) (pre : List (Nat × (Nat → Nat) × Nat)) (sc : List Byte)
    (q n : Nat) (hn : n < 128) : SMap.get 0 (m.passed o r new fb pre sc).acc (128 * q + n) =
      if q = r then BitVec.ofNat 32 (new.getD n 0) else SMap.get 0 m.acc (128 * q + n) := by
  have hf : (pre.foldl (fun m kr => m.writeShadow o.latch.fmt fb kr.1 kr.2.1 kr.2.2) (m.writeAcc r new)).acc = (m.writeAcc r new).acc :=
    foldl_keeps (F := TileMem.acc) (fun m _ => TileMem.writeShadow_acc m _ _ _ _ _) _ _
  have hp : (m.passed o r new fb pre sc).acc = (m.writeAcc r new).acc := by
    unfold TileMem.passed
    dsimp only
    split
    · exact hf
    · exact (writeSide_acc ..).trans hf
  rw [hp, writeAcc_get _ _ _ _ _ hn]

theorem passed_plain_shd (m : TileMem) (o : Op) (r fb : Nat) (new : List Nat) : (m.passed o r new fb [] []).shd = m.shd :=
  writeAcc_keeps TileMem.shd (fun _ _ _ _ => rfl) m r new

/-- The weights of the shadow plane after rows are written into it, each from its own entries and number. -/
theorem foldl_writeShadow_weights (fmt : SMap Word) (f : Nat) (ent : Nat → Nat → Nat) (row : Nat → Nat) (ks : List Nat) (m : TileMem)
    (k n : Nat) (hn : n < 128) :
    let m2 := (ks.map fun k => (k, ent k, row k)).foldl (fun m kr => m.writeShadow fmt f kr.1 kr.2.1 kr.2.2) m
    m2.shd.code k n = (if k ∈ ks then codeAt (row k) (Ent.width f) n % 2 ^ 32 else m.shd.code k n) ∧
    SMap.get 0 m2.shd.ents (128 * k + n) = (if k ∈ ks then (if ent k n = f then 0 else BitVec.ofNat 64 (ent k n))
      else SMap.get 0 m.shd.ents (128 * k + n)) ∧
    SMap.get 0 m2.shd.sents (128 * k + n) = (if k ∈ ks then (if ent k n = f then 0 else BitVec.ofNat 64 (scaleEntry fmt (ent k n)))
      else SMap.get 0 m.shd.sents (128 * k + n)) := by
  induction ks generalizing m with
  | nil => exact ⟨rfl, rfl, rfl⟩
  | cons j ks ih =>
    obtain ⟨hc, he, hs⟩ := ih (m.writeShadow fmt f j (ent j) (row j))
    obtain ⟨he2, hs2⟩ := writeShadow_entries m fmt f j (ent j) (row j) k n hn
    refine ⟨hc.trans ?_, he.trans ?_, hs.trans ?_⟩
    · rw [TileMem.writeShadow_code _ _ _ _ _ _ _ _ hn]
      by_cases h : k = j <;> simp [h]
    · rw [he2]
      by_cases h : k = j <;> simp [h]
    · rw [hs2]
      by_cases h : k = j <;> simp [h]

/-! ### The iteration of a pass -/

theorem tile_countMac (s : State) (t n k : Nat) : (s.countMac t n).tile k = s.tile k := by
  unfold State.countMac
  split
  · split <;> rfl
  · rfl

/-- The iteration of a pass that succeeds: its tile is as the pass leaves it. -/
theorem iterOp_pass {s s2 : State} {t : Nat} {o : Op} {r fb : Nat} {new : List Nat} {pre : List (Nat × (Nat → Nat) × Nat)}
    {sc l : List Byte} (hk : o.kind = .mma ∨ o.kind = .mmas) (h : Alone o)
    (hp : iterPass t o s = (.ok (), s2.passWrites t o r new fb pre sc l)) :
    ∃ u, iterOp t o false s = (.ok (), u) ∧ (u.tile t).mem = (s2.tile t).mem.passed o r new fb pre sc := by
  have hi : iterOp t o false s = (iterPass t o s).bind fun _ r => (.ok (), r.countMac t (passMacs (s.tile t).mem.act.sp)) := by
    obtain hk | hk := hk <;> simp only [iterOp, hk]
  refine ⟨_, hi.trans (Res.bind_of hp), ?_⟩
  rw [tile_countMac, passWrites_alone h, mem_setMemOf]


/-! ## What a pass adds to a column (04 R92 to R100) -/

/-- A running sum is the sum of a list. -/
theorem foldl_add_map {α : Type} (f : α → Int) (l : List α) (c : Int) : l.foldl (fun a k => a + f k) c = c + (l.map f).sum := by
  induction l generalizing c with
  | nil => simp
  | cons k l ih => rw [List.foldl_cons, ih, List.map_cons, List.sum_cons, Int.add_assoc]

section
variable {o : Op} {x : Tile} {ua : List UnitAt} {l : List Byte} {g0 : Nat}

/-- The activations of a pass: each element by the entry that its bank names. -/
theorem passOf_vals : (o.passOf x ua l g0).vals = (List.range (kPositions x.mem.act.sp)).map fun k =>
    rowVal o.latch.fmt (leNat l) (kPositions x.mem.act.sp) (o.latch.fmtOf o.rcd .a) (o.elemEntry .a (o.latch.fmtOf o.rcd .a) ua k) k :=
  List.map_congr_left fun k hk => by
    have hk : k < kPositions x.mem.act.sp := List.mem_range.mp hk
    simp only [Op.passOf, getD_map_range _ _ hk]

theorem passOf_ints : (o.passOf x ua l g0).ints = (List.range (kPositions x.mem.act.sp)).map fun k =>
    decodeInt (o.elemEntry .a (o.latch.fmtOf o.rcd .a) ua k) (codeAt (leNat l) (Ent.width (o.latch.fmtOf o.rcd .a)) k) :=
  List.map_congr_left fun k hk => by
    have hk : k < kPositions x.mem.act.sp := List.mem_range.mp hk
    simp only [Op.passOf, getD_map_range _ _ hk]

end

theorem kPositions_dense {sp : Nat} (h : sp = 0) : kPositions sp = 128 := if_pos h
theorem kPositions_sparse {sp : Nat} (h : sp ≠ 0) : kPositions sp = 24 * spGroups sp := if_neg h

section
variable {p : Plane} {n : Nat}

/-- The terms of a column over a KIND 0 or KIND 2 plane. -/
theorem terms_of_column (x : Nat → Val) :
    (if p.sp ≠ 0 then sparseTerms p ((List.range (kPositions p.sp)).map x) n else denseTerms p ((List.range (kPositions p.sp)).map x) n) =
      Claims.passTerms p x n := by
  by_cases h : p.sp = 0
  · rw [if_neg (not_not.mpr h), Claims.passTerms, if_pos h, kPositions_dense h, denseTerms]
    exact congrArg _ (List.map_congr_left fun k hk => by rw [getD_map_range _ _ (List.mem_range.mp hk)])
  · rw [if_pos h, Claims.passTerms, if_neg h, kPositions_sparse h, sparseTerms]
    refine List.map_congr_left fun g hg => List.map_congr_left fun a _ => ?_
    have hg := List.mem_range.mp hg
    split
    · rw [getD_map_range _ _ (by omega)]
    · rfl

/-- The sum of a column over a KIND 1 plane. -/
theorem sum_of_column (x : Nat → Int) :
    (if p.sp ≠ 0 then sparseSum p ((List.range (kPositions p.sp)).map x) n else denseSum p ((List.range (kPositions p.sp)).map x) n) =
      Claims.passSum p x n := by
  by_cases h : p.sp = 0
  · rw [if_neg (not_not.mpr h), Claims.passSum, if_pos h, kPositions_dense h, denseSum, foldl_add_map, Int.zero_add]
    exact congrArg _ (List.map_congr_left fun k hk => by rw [getD_map_range _ _ (List.mem_range.mp hk)])
  · rw [if_pos h, Claims.passSum, if_neg h, kPositions_sparse h, sparseSum]
    have hin : ∀ g, (fun (a : Int) (b : Nat × Nat) => if b.1 ≤ 23 then
        a + ((List.range (24 * spGroups p.sp)).map x).getD (24 * g + b.1) 0 * p.int b.2 n else a) =
        fun a b => a + if b.1 ≤ 23 then ((List.range (24 * spGroups p.sp)).map x).getD (24 * g + b.1) 0 * p.int b.2 n else 0 := by
      intro g
      funext a b
      split <;> simp
    simp only [hin, foldl_add_map, Int.zero_add]
    refine congrArg _ (List.map_congr_left fun g hg => congrArg _ (List.map_congr_left fun a _ => ?_))
    have hg := List.mem_range.mp hg
    split
    · rw [getD_map_range _ _ (by omega)]
    · rfl

/-- The terms of a column over a KIND 3 plane. -/
theorem groups_of_column (scale : Memory) (g0 m : Nat) (x : Nat → Int) (h : p.sp = 0) :
    groupTerms p scale g0 m ((List.range (kPositions p.sp)).map x) n = Claims.passGroups p scale g0 m x n := by
  rw [kPositions_dense h, groupTerms, Claims.passGroups]
  refine List.map_congr_left fun j hj => ?_
  have hj := List.mem_range.mp hj
  have hx : ∀ k ∈ (List.range m).map (m * j + ·), ((List.range 128).map x).getD k 0 = x k := fun k hk => by
    obtain ⟨i, hi, rfl⟩ := List.mem_map.mp hk
    have hi := List.mem_range.mp hi
    have h1 : m * (j + 1) ≤ m * (128 / m) := Nat.mul_le_mul_left m hj
    have h2 := Nat.mul_div_le 128 m
    exact getD_map_range _ _ (by rw [Nat.mul_succ] at h1; omega)
  simp only [foldl_add_map, Int.zero_add]
  rw [List.map_congr_left (f := fun k => p.int k n * ((List.range 128).map x).getD k 0) (g := fun k => p.int k n * x k)
      fun k hk => by rw [hx k hk], List.map_congr_left (f := fun k => ((List.range 128).map x).getD k 0) (g := x) hx]
  simp only [groupScale, groupZero, field, sInt_eq_toInt, Nat.pow_zero, Nat.div_one]
  have hz : BitVec.ofNat 16 (scale.readLE (512 * (g0 + m * j / Ent.block p.fmt.toNat) + 4 * n) 4 / 2 ^ 16 % 2 ^ 16) =
      BitVec.ofNat 16 (scale.readLE (512 * (g0 + m * j / Ent.block p.fmt.toNat) + 4 * n) 4 / 2 ^ 16) :=
    BitVec.eq_of_toNat_eq (by simp)
  rw [hz]

end

/-! ### The words that a pass leaves -/

section
variable {q : Pass} {scale : Memory} {old : List Nat} {c n : Nat}

/-- Values meet values: the terms are accumulated under the profile. -/
theorem words_of_values (hl : q.plane.loaded = true) (h3 : Ent.kind q.plane.fmt.toNat ≠ 3) (hf : Ent.kind q.f = 0 ∨ Ent.kind q.f = 2)
    (hp : Ent.kind q.plane.fmt.toNat = 0 ∨ Ent.kind q.plane.fmt.toNat = 2) (hn : n < 128) : (q.words scale old c).getD n 0 =
      accumulate q.prof q.opc (BitVec.ofNat 64 q.f) q.plane.fmt (old.getD n 0)
        (if q.plane.sp ≠ 0 then sparseTerms q.plane q.vals n else denseTerms q.plane q.vals n) := by
  have h1 : Ent.kind q.f ≠ 1 := by omega
  have hv : Ent.kind q.f ≠ 3 := by omega
  rw [Pass.words, if_neg (fun h => h3 h.2.2), Pass.run]
  simp only [hl, Bool.not_true, Bool.false_eq_true, if_false, h1, false_and, hv, hp, ne_eq, not_false_eq_true, and_self, if_true]
  rw [getD_map_range _ _ hn]
  by_cases h : q.plane.sp = 0 <;> simp [h]

/-- Integers meet integers: their sum is added, modulo 2^32 or clamped. -/
theorem words_of_integers (hl : q.plane.loaded = true) (hf : Ent.kind q.f = 1) (hp : Ent.kind q.plane.fmt.toNat = 1) (hn : n < 128) :
    (q.words scale old c).getD n 0 = accInt q.sat (old.getD n 0)
      (if q.plane.sp ≠ 0 then sparseSum q.plane q.ints n else denseSum q.plane q.ints n) := by
  rw [Pass.words, if_neg (fun h => by rw [hp] at h; cases h.2.2), Pass.run]
  simp only [hl, Bool.not_true, Bool.false_eq_true, if_false, hf, hp, and_self, if_true]
  rw [getD_map_range _ _ hn]
  by_cases h : q.plane.sp = 0 <;> simp [h]

/-- Integers meet a KIND 3 plane: the group terms are accumulated. -/
theorem words_of_groups (hl : q.plane.loaded = true) (hf : Ent.kind q.f = 1) (hp : Ent.kind q.plane.fmt.toNat = 3) (hn : n < 128) :
    (q.words scale old c).getD n 0 = accumulate q.prof q.opc (BitVec.ofNat 64 q.f) q.plane.fmt (old.getD n 0)
      (groupTerms q.plane scale q.g0 (if q.prof = 2 then 32 else Ent.block q.plane.fmt.toNat) q.ints n) := by
  rw [Pass.words, if_pos ⟨hl, hf, hp⟩, Pass.runGroups, getD_map_range _ _ hn]

/-- A plane that was not loaded adds zeros. -/
theorem words_of_unloaded (hl : q.plane.loaded = false) (hs : q.plane.sp = 0) (hn : n < 128) : (q.words scale old c).getD n 0 =
    if Ent.kind q.f = 1 then accInt q.sat (old.getD n 0) 0
    else accumulate q.prof q.opc (BitVec.ofNat 64 q.f) q.plane.fmt (old.getD n 0) (List.replicate 4 [Val.zero]) := by
  rw [Pass.words, if_neg (fun h => by rw [hl] at h; cases h.1), Pass.run]
  simp only [hl, Bool.not_false, if_true, hs, ne_eq, not_true_eq_false, decide_false, Bool.false_eq_true, if_false]
  split <;> exact getD_map_range _ _ hn

end

theorem accInt_eq (sat : Bool) (w : Nat) (z : Int) : accInt sat w z =
    (BitVec.ofInt 32 (if sat then max (-2 ^ 31) (min ((BitVec.ofNat 32 w).toInt + z) (2 ^ 31 - 1))
      else (BitVec.ofNat 32 w).toInt + z)).toNat := by
  rw [accInt, wrapOrClamp_eq, sInt_eq_toInt]

/-- A word to which zeros are added keeps. -/
theorem accInt_zero (sat : Bool) {w : Nat} (h : w < 2 ^ 32) : accInt sat w 0 = w := by
  have hw : (BitVec.ofInt 32 (BitVec.ofNat 32 w).toInt).toNat = w := by
    rw [BitVec.ofInt_toInt, BitVec.toNat_ofNat, Nat.mod_eq_of_lt h]
  have hlo := BitVec.le_toInt (BitVec.ofNat 32 w)
  have hhi := BitVec.toInt_lt (x := BitVec.ofNat 32 w)
  rw [accInt_eq, Int.add_zero]
  cases sat with
  | false => exact hw
  | true =>
    rw [if_pos rfl, min_eq_left (by omega), max_eq_right (by omega), hw]


/-! ## FP32 words (03 R61, R69; 04 R94, R95) -/

theorem entFp32_fields : Ent.kind entFp32 = 0 ∧ Ent.policy entFp32 = 0 ∧ Ent.ew entFp32 = 8 ∧ Ent.fw entFp32 = 23 ∧
    Ent.bias entFp32 = 127 ∧ Ent.sign entFp32 = true ∧ Ent.width entFp32 = 32 := by decide

theorem maxCode_fp32 : Ent.maxCode entFp32 = 255 * 2 ^ 23 - 1 := by decide

/-- An FP32 word of a sign, an exponent field and a significand field. -/
def fp32Word (neg : Bool) (e t : Nat) : Nat := b2n neg * 2 ^ 31 + e * 2 ^ 23 + t

theorem exists_fp32Word {w : Nat} (h : w < 2 ^ 32) : ∃ neg e t, w = fp32Word neg e t ∧ e < 256 ∧ t < 2 ^ 23 := by
  refine ⟨decide (2 ^ 31 ≤ w), w / 2 ^ 23 % 256, w % 2 ^ 23, ?_, by omega, by omega⟩
  rw [fp32Word, b2n]
  by_cases hw : 2 ^ 31 ≤ w
  · rw [if_pos (decide_eq_true hw)]; omega
  · rw [if_neg (by simpa using hw)]; omega

theorem fp32_fp32Word {neg : Bool} {e t : Nat} (he : e < 256) (ht : t < 2 ^ 23) : fp32 (fp32Word neg e t) =
    if e = 255 then (if t = 0 then .inf neg else .nan) else if e = 0 then .fin neg t (-149)
    else .fin neg (2 ^ 23 + t) (e - 150) := by
  obtain ⟨_, hp, hew, hfw, hb, hs, _⟩ := entFp32_fields
  have hn : b2n neg < 2 := by cases neg <;> decide
  have h1 : field (fp32Word neg e t) 0 23 = t := by rw [field, fp32Word]; omega
  have h2 : field (fp32Word neg e t) 23 8 = e := by rw [field, fp32Word]; omega
  have h3 : bit (fp32Word neg e t) 31 = neg := by
    have : field (fp32Word neg e t) 31 1 = b2n neg := by rw [field, fp32Word]; omega
    rw [bit, this]
    cases neg <;> rfl
  simp only [fp32, decodeFloat, hp, hew, hfw, hb, hs, h1, h2, h3]
  by_cases h255 : e = 255
  · simp [h255]
  · by_cases h0 : e = 0
    · simp [h0]
    · simp [h255, h0]; omega

theorem roundFp32_fin {neg : Bool} {m : Nat} {e : Int} (hm : m ≠ 0) :
    roundFp32 (.fin neg m e) = roundFloat entFp32 neg m e 0 0 false := by
  obtain ⟨hk, hp, _⟩ := entFp32_fields
  simp [roundFp32, Machine.round, hk, hp, hm]

/-- A finite value whose significand lies on the grid of its binade rounds to itself. -/
theorem roundFloat_exact {neg : Bool} {m c : Nat} {e : Int} (hx : max (-126) (valLog m e) - 23 = e) (he : -149 ≤ e)
    (hc : (e + 149).toNat * 2 ^ 23 + m = c) (hm : c ≤ 255 * 2 ^ 23 - 1) :
    roundFloat entFp32 neg m e 0 0 false = b2n neg * 2 ^ 31 + c := by
  obtain ⟨_, hp, _, hfw, hb, _, hw⟩ := entFp32_fields
  have hg : gridInt m e e neg 0 0 = m := by simp [gridInt]
  have hmax : max (1 - (127 : Int)) (valLog m e) = e + 23 := by omega
  simp only [roundFloat, hb, hfw, hmax, maxCode_fp32]
  rw [show e + 23 - ((23 : Nat) : Int) = e by omega, hg, show (e + 23 - (1 - 127)).toNat = (e + 149).toNat by omega, hc,
    if_neg (by omega), if_neg (by rw [hp]; omega), signed, hw]
  cases neg <;> simp [b2n, Nat.add_comm]

/-- Every FP32 word but a NaN and a zero rounds to itself. -/
theorem roundFp32_fp32Word {neg : Bool} {e t : Nat} (he : e < 256) (ht : t < 2 ^ 23) (hn : e = 255 → t = 0) (hz : e = 0 → t ≠ 0) :
    roundFp32 (fp32 (fp32Word neg e t)) = fp32Word neg e t := by
  rw [fp32_fp32Word he ht]
  by_cases h255 : e = 255
  · obtain rfl := hn h255
    subst h255
    cases neg <;> rfl
  · rw [if_neg h255]
    by_cases h0 : e = 0
    · have ht0 := hz h0
      subst h0
      have hlog : Nat.log2 t < 23 := (Nat.log2_lt ht0).mpr ht
      rw [if_pos rfl, roundFp32_fin ht0, roundFloat_exact (c := t) (by rw [valLog]; omega) (by omega) (by omega) (by omega), fp32Word]
      omega
    · have hm : 2 ^ 23 + t ≠ 0 := by omega
      have hlog : Nat.log2 (2 ^ 23 + t) = 23 := (Nat.log2_eq_iff hm).mpr ⟨by omega, by omega⟩
      rw [if_neg h0, roundFp32_fin hm, roundFloat_exact (c := e * 2 ^ 23 + t) (by rw [valLog, hlog]; omega) (by omega) (by omega)
        (by omega), fp32Word, Nat.add_assoc]

/-! ### Zeros added to a word -/

/-- A zero of positive sign. -/
theorem add_zero_of_not_zero {v : Val} (k : Int) (h : v.isZero = false) : v.add (.fin false 0 k) = v := by
  cases v with
  | nan => rfl
  | inf => rfl
  | fin neg m e =>
    have hm : m ≠ 0 := by simpa [Val.isZero] using h
    simp [Val.add, hm]

theorem add_zero_of_zero {v : Val} (k : Int) (h : v.isZero = true) : v.add (.fin false 0 k) = .fin false 0 0 := by
  cases v with
  | nan => cases h
  | inf => cases h
  | fin neg m e =>
    have hm : m = 0 := by simpa [Val.isZero] using h
    simp [Val.add, hm]

/-- An FP32 word to which a zero was added: -0 becomes +0, a NaN the canonical one, any other keeps. -/
theorem roundFp32_add_zero {w : Nat} (k : Int) (h : w < 2 ^ 32) : roundFp32 ((fp32 w).add (.fin false 0 k)) =
    if w = 2 ^ 31 then 0 else if (fp32 w).isNan = true then 0x7FC00000 else w := by
  obtain ⟨neg, e, t, rfl, he, ht⟩ := exists_fp32Word h
  have hw := fp32_fp32Word (neg := neg) he ht
  by_cases hz : e = 0 ∧ t = 0
  · obtain ⟨rfl, rfl⟩ := hz
    rw [add_zero_of_zero k (by rw [hw]; rfl)]
    cases neg <;> rfl
  · have h31 : fp32Word neg e t ≠ 2 ^ 31 := by cases neg <;> simp only [fp32Word, b2n] <;> simp <;> omega
    rw [if_neg h31]
    by_cases hn : e = 255 ∧ t ≠ 0
    · rw [if_pos hn.1, if_neg hn.2] at hw
      rw [hw]
      rfl
    · have hr := roundFp32_fp32Word (neg := neg) he ht (fun h => by omega) fun h => by omega
      have hv : (fp32 (fp32Word neg e t)).isZero = false ∧ (fp32 (fp32Word neg e t)).isNan = false := by
        rw [hw]
        by_cases h255 : e = 255
        · rw [if_pos h255, if_pos (by omega)]; exact ⟨rfl, rfl⟩
        · rw [if_neg h255]
          split
          · exact ⟨decide_eq_false (by omega), rfl⟩
          · exact ⟨decide_eq_false (by omega), rfl⟩
      rw [add_zero_of_not_zero k hv.1, hr, hv.2, if_neg Bool.false_ne_true]


/-! ## Accumulation under the profiles (04 R94, R95, Table 4.2) -/

theorem accumulate_exact (op w : Nat) (g h : Word) (bs : List (List Val)) :
    accumulate 1 op g h w bs = roundFp32 (Val.sum (fp32 w) bs.flatten) := rfl

theorem foldRounded_eq (a : Val) (l : List Val) : foldRounded a l = l.foldl (fun v w => fp32 (roundFp32 (v.add w))) a := by
  induction l generalizing a with
  | nil => rfl
  | cons x l ih => exact ih _

theorem accumulate_blocks (op w : Nat) (g h : Word) (b : List Val) (rest : List (List Val)) :
    accumulate 2 op g h w (b :: rest) = roundFp32 ((fp32 w).add ((rest.map blockSum).foldl
      (fun v w => fp32 (roundFp32 (v.add w))) (blockSum b))) := by
  rw [← foldRounded_eq]
  rfl

/-- The tree of one term has one node, its root, which takes the two addends in either order. -/
theorem accumulate_tree_pair (op w : Nat) (g h : Word) (x : Val) :
    accumulate 0 op g h w [[x]] = roundFp32 ((fp32 w).add x) ∨ accumulate 0 op g h w [[x]] = roundFp32 (x.add (fp32 w)) := by
  have hi : Config.treePick op g h (2 * 0) 2 % 2 < 2 := Nat.mod_lt _ (by decide)
  have he : accumulate 0 op g h w [[x]] = roundFp32 (treeSum op g h 2 0 [fp32 w, x]) := rfl
  rw [he, treeSum]
  · simp only [List.length_cons, List.length_nil, Nat.zero_add, Nat.reduceAdd]
    obtain h0 | h1 : Config.treePick op g h (2 * 0) 2 % 2 = 0 ∨ Config.treePick op g h (2 * 0) 2 % 2 = 1 := by omega
    · rw [h0]
      simp [treeSum, Nat.mod_one]
    · rw [h1]
      simp [treeSum, Nat.mod_one]
  · intro c; cases c
  · intro _ c; cases c

/-- Zeros are one addend: the first of them settles the sign of a zero. -/
theorem sum_zeros (v : Val) : Val.sum v [Val.zero, Val.zero, Val.zero, Val.zero] = v.add Val.zero := by
  cases hz : v.isZero with
  | false => simp only [Val.sum, Val.zero, add_zero_of_not_zero 0 hz]
  | true => rw [Val.sum, show v.add Val.zero = Val.zero from add_zero_of_zero 0 hz]; rfl

theorem blocks_of_zeros : foldRounded (blockSum [Val.zero]) [blockSum [Val.zero], blockSum [Val.zero], blockSum [Val.zero]] =
    .fin false 0 (-149) := by decide

theorem accumulate_zeros (op w : Nat) (g h : Word) (hw : w < 2 ^ 32) {k : Nat} (hk : k = 1 ∨ k = 2) :
    accumulate k op g h w (List.replicate 4 [Val.zero]) =
      if w = 2 ^ 31 then 0 else if (fp32 w).isNan = true then 0x7FC00000 else w := by
  obtain rfl | rfl := hk
  · rw [accumulate_exact]
    exact (congrArg roundFp32 (sum_zeros _)).trans (roundFp32_add_zero 0 hw)
  · refine (congrArg (fun v => roundFp32 ((fp32 w).add v)) blocks_of_zeros).trans (roundFp32_add_zero (-149) hw)

/-! ## Sparse pairs (04 R100) -/

/-- Elements sorted by a key below a bound are the elements themselves in another order. -/
theorem perm_flatMap_filter {α : Type} (key : α → Nat) (m : Nat) (l : List α) (h : ∀ a ∈ l, key a < m) :
    ((List.range m).flatMap fun i => l.filter fun a => key a == i).Perm l := by
  induction m generalizing l with
  | zero =>
    cases l with
    | nil => exact .refl _
    | cons a l => exact absurd (h a (.head _)) (Nat.not_lt_zero _)
  | succ m ih =>
    have hlow := ih (l.filter fun a => !(key a == m)) fun a ha => by
      have h1 := h a (List.mem_filter.mp ha).1
      have h2 : ¬ key a = m := by simpa using (List.mem_filter.mp ha).2
      omega
    have hsame : (List.range m).flatMap (fun i => (l.filter fun a => !(key a == m)).filter fun a => key a == i) =
        (List.range m).flatMap fun i => l.filter fun a => key a == i := by
      refine List.flatMap_congr fun i hi => ?_
      rw [List.filter_filter]
      refine List.filter_congr fun a _ => ?_
      have := List.mem_range.mp hi
      by_cases hk : key a = i
      · simp [hk]; omega
      · simp [hk]
    rw [hsame] at hlow
    rw [List.range_succ, List.flatMap_append, List.flatMap_cons, List.flatMap_nil, List.append_nil]
    exact (List.perm_append_comm.trans (hlow.append_left _)).trans (List.filter_append_perm _ l)

theorem sparsePairs_perm (p : Plane) (h n : Nat) : (sparsePairs p h n).Perm ((List.range (spN p.sp)).map fun i =>
    (p.meta_.readLE (8 * (128 * h + n)) 8 / 2 ^ (5 * i) % 32, spN p.sp * h + i)) := by
  refine perm_flatMap_filter Prod.fst 32 _ fun a ha => ?_
  obtain ⟨i, _, rfl⟩ := List.mem_map.mp ha
  exact Nat.mod_lt _ (by decide)

/-! ## The weights of a plane (03 R83) -/

theorem plane_weight (q : Plane) (k n : Nat) {e sf : Word} (h : (e, sf) = (if SMap.get 0 q.ents (128 * k + n) = 0 then (q.fmt, q.sfmt)
      else (SMap.get 0 q.ents (128 * k + n), SMap.get 0 q.sents (128 * k + n)))) :
    q.ent k n = e.toNat ∧ q.scaleEnt k n = sf.toNat := by
  by_cases h0 : SMap.get 0 q.ents (128 * k + n) = 0
  · have ha : q.apart k n = false := decide_eq_false (not_not.mpr h0)
    rw [if_pos h0] at h
    cases h
    rw [Plane.ent, Plane.scaleEnt, ha]
    exact ⟨rfl, rfl⟩
  · have ha : q.apart k n = true := decide_eq_true h0
    rw [if_neg h0] at h
    cases h
    rw [Plane.ent, Plane.scaleEnt, ha]
    exact ⟨rfl, rfl⟩


/-! ## Passes without a preload (12 R302, R305) -/

section
variable {s s1 : State} {t : TileId} {o : Op} {p : Plane} {f r g0 : Nat} {l : List Byte} {ua : List UnitAt}

theorem preloads_false (h : o.kind = .mma ∧ o.rcd.epi = false ∨ o.kind = .mmas) : o.preloads = false := by
  obtain ⟨_, he⟩ | h := h
  · rw [Op.preloads, he, Bool.false_and]
  · rw [Op.preloads, h]
    exact Bool.and_false _

/-- A plane that takes no groups from the scale memory. -/
theorem groupBase_none (h : ¬ (p.loaded = true ∧ Ent.kind p.fmt.toNat = 3)) : o.groupBase p s = (.ok 0, s) :=
  if_neg (by rw [Bool.and_eq_true, decide_eq_true_eq]; exact h)

theorem groupBase_some (hl : p.loaded = true) (h3 : Ent.kind p.fmt.toNat = 3) (hg : (g0 : Int) = (o.rcd.h .b : Int) + o.stride .b)
    (h : g0 + 128 / Ent.block p.fmt.toNat ≤ 64) : o.groupBase p s = (.ok g0, s) := by
  refine (if_pos (by rw [hl, h3]; rfl)).trans ?_
  dsimp only
  rw [← hg, if_neg (by omega), if_neg (by omega), Int.toNat_natCast]

theorem passPoison_none {m : TileMem} (hb : ∀ i ∈ m.planeBad, p.reads i = false) (h : p.loaded = true → Ent.kind p.fmt.toNat = 3 →
      ∀ i ∈ m.scaleBad, i < 512 * g0 ∨ 512 * (g0 + 128 / Ent.block p.fmt.toNat) ≤ i) : m.passPoison p g0 = none := by
  have hf : m.planeBad.find? p.reads = none := List.find?_eq_none.mpr fun i hi => by rw [hb i hi]; exact Bool.false_ne_true
  rw [TileMem.passPoison, hf]
  dsimp only
  split
  · rename_i hc
    rw [Bool.and_eq_true, decide_eq_true_eq] at hc
    rw [List.find?_eq_none.mpr fun i hi => ?_]
    · rfl
    · have := h hc.1 hc.2 i hi
      simp only [Bool.and_eq_true, decide_eq_true_eq]
      omega
  · rfl

/-- A pass without a preload whose new words are known. -/
theorem passGives_of_words (h : Claims.PassReads s s1 t o p f r l ua) (hk : o.preloads = false) (hg : o.groupBase p s = (.ok g0, s))
    (hp : (s.tile t.val).mem.passPoison p g0 = none) {w : Nat → Nat}
    (hw : ∀ c n, n < 128 → ((o.passOf (s.tile t.val) ua l g0).words (s.tile t.val).mem.scale
      ((List.range 128).map (Claims.accWord s t.val r)) c).getD n 0 % 2 ^ 32 = w n) : Claims.PassGives s s1 t o r w := by
  obtain ⟨hkind, hch, hwest, rfl, rfl, hrow, hread, h0, h1, rfl, _, hc1⟩ := h
  have ha : Alone o := ⟨hch, hwest⟩
  have hs1 := sameArrays_readRow hread
  have hn : o.preloaded = [] ∧ o.preloadScales = 0 := by
    rw [Op.preloaded, Op.preloadScales, hk]
    exact ⟨rfl, rfl⟩
  have hacc := accWordsOf_ok (r := (((o.rcd.h .d : Int) + o.stride .d).toNat / 128)) hc1.1
  have hold : (List.range 128).map (Claims.accWord s1 t.val (((o.rcd.h .d : Int) + o.stride .d).toNat / 128)) =
      (List.range 128).map (Claims.accWord s t.val (((o.rcd.h .d : Int) + o.stride .d).toNat / 128)) :=
    List.map_congr_left fun n _ => by rw [Claims.accWord, hs1.acc]; rfl
  rw [hold] at hacc
  have hpass := iterPass_ok (us := []) (sc := []) (pre := []) ha hrow (accRow_ok s rfl h0 h1) (by rw [hk]; exact hg)
    (by rw [hn.1]; rfl) (by rw [hn.2]; rfl) hread hacc hp (by rw [hn.1]; rfl) (by rw [hn.2]; rfl)
  obtain ⟨u, hu, hm⟩ := iterOp_pass (hkind.imp And.left And.left) ha hpass
  have hsame := hs1.trans ((sameArrays_noteAcc s1 t.val (((o.rcd.h .d : Int) + o.stride .d).toNat / 128)).trans
    (sameArrays_notePass _ t.val g0 (s.tile t.val).mem.act))
  have hscr := ((sameArrays_noteAcc s1 t.val (((o.rcd.h .d : Int) + o.stride .d).toNat / 128)).trans
    (sameArrays_notePass _ t.val g0 (s.tile t.val).mem.act)).scratch
  refine ⟨u, hu, ?_, ?_, ?_, fun q n hq => ?_⟩
  · rw [hm, passed_scratch]; exact hscr
  · rw [hm, passed_act]; exact hsame.act
  · rw [hm, passed_plain_shd]; exact hsame.shd
  · rw [Claims.accWord, hm, passed_acc _ _ _ _ _ _ _ _ _ hq]
    split
    · rw [BitVec.toNat_ofNat, hw _ n hq]
    · rw [Claims.accWord, ← hsame.acc]; rfl

end


/-! ## The words of a column, in the terms of its activations -/

section
variable {o : Op} {x : Tile} {ua : List UnitAt} {l : List Byte} {g0 c n : Nat} {scale : Memory} {old : List Nat}

/-- The activations of a pass as values, and as integers. -/
def Op.actVal (o : Op) (x : Tile) (ua : List UnitAt) (l : List Byte) (k : Nat) : Val :=
  rowVal o.latch.fmt (leNat l) (kPositions x.mem.act.sp) (o.latch.fmtOf o.rcd .a) (o.elemEntry .a (o.latch.fmtOf o.rcd .a) ua k) k
def Op.actInt (o : Op) (ua : List UnitAt) (l : List Byte) (k : Nat) : Int :=
  decodeInt (o.elemEntry .a (o.latch.fmtOf o.rcd .a) ua k) (codeAt (leNat l) (Ent.width (o.latch.fmtOf o.rcd .a)) k)

/-- Accumulation as a pass of the record makes it. -/
def Op.accumulates (o : Op) (x : Tile) (w : Nat) (blocks : List (List Val)) : Nat :=
  accumulate (o.profile (bit x.ctl.node.toNat 58)) o.kind.opc (BitVec.ofNat 64 (o.latch.fmtOf o.rcd .a)) x.mem.act.fmt w blocks

theorem column_of_values (hl : x.mem.act.loaded = true) (h3 : Ent.kind x.mem.act.fmt.toNat ≠ 3)
    (hf : Ent.kind (o.latch.fmtOf o.rcd .a) = 0 ∨ Ent.kind (o.latch.fmtOf o.rcd .a) = 2)
    (hp : Ent.kind x.mem.act.fmt.toNat = 0 ∨ Ent.kind x.mem.act.fmt.toNat = 2) (hn : n < 128) :
    ((o.passOf x ua l g0).words scale old c).getD n 0 =
      o.accumulates x (old.getD n 0) (Claims.passTerms x.mem.act (o.actVal x ua l) n) :=
  (words_of_values hl h3 hf hp hn).trans (congrArg _ ((by rw [passOf_vals]; rfl : _ = _).trans (terms_of_column (o.actVal x ua l))))

theorem column_of_integers (hl : x.mem.act.loaded = true) (hf : Ent.kind (o.latch.fmtOf o.rcd .a) = 1)
    (hp : Ent.kind x.mem.act.fmt.toNat = 1) (hn : n < 128) : ((o.passOf x ua l g0).words scale old c).getD n 0 =
      accInt o.rcd.accsat (old.getD n 0) (Claims.passSum x.mem.act (o.actInt ua l) n) :=
  (words_of_integers hl hf hp hn).trans (congrArg _ ((by rw [passOf_ints]; rfl : _ = _).trans (sum_of_column (o.actInt ua l))))

theorem column_of_groups (hl : x.mem.act.loaded = true) (hf : Ent.kind (o.latch.fmtOf o.rcd .a) = 1)
    (hp : Ent.kind x.mem.act.fmt.toNat = 3) (hs : x.mem.act.sp = 0) (hn : n < 128) :
    ((o.passOf x ua l g0).words scale old c).getD n 0 = o.accumulates x (old.getD n 0)
      (Claims.passGroups x.mem.act scale g0 (if o.profile (bit x.ctl.node.toNat 58) = 2 then 32 else Ent.block x.mem.act.fmt.toNat)
        (o.actInt ua l) n) :=
  (words_of_groups hl hf hp hn).trans (congrArg _ ((by rw [passOf_ints]; rfl : _ = _).trans (groups_of_column scale g0 _ (o.actInt ua l) hs)))

theorem column_of_unloaded (hl : x.mem.act.loaded = false) (hs : x.mem.act.sp = 0) (hn : n < 128) :
    ((o.passOf x ua l g0).words scale old c).getD n 0 = if Ent.kind (o.latch.fmtOf o.rcd .a) = 1 then accInt o.rcd.accsat (old.getD n 0) 0
      else o.accumulates x (old.getD n 0) (List.replicate 4 [Val.zero]) :=
  words_of_unloaded hl hs hn

end

/-- The word of an integer column. -/
theorem accInt_lt (sat : Bool) (w : Nat) (z : Int) : accInt sat w z < 2 ^ 32 := by
  rw [accInt_eq]
  exact BitVec.isLt _

/-! ## The preload of a pass (12 R303) -/

/-- A plane none of whose errors a pass finds. -/
theorem notePass_clean {s : State} {t g0 : Nat} {p : Plane} (h : ∀ i ∈ (s.tile t).mem.planeCe, p.reads i = false)
    (h3 : Ent.kind p.fmt.toNat ≠ 3) : s.notePass t p g0 = s := by
  have ha : (s.tile t).mem.planeCe.filter p.reads = [] := List.filter_eq_nil_iff.mpr fun i hi => by rw [h i hi]; exact Bool.false_ne_true
  have hb : (s.tile t).mem.scaleCe.filter (fun w => (p.loaded && decide (Ent.kind p.fmt.toNat = 3)) && decide (512 * g0 ≤ w) &&
      decide (w < 512 * (g0 + 128 / Ent.block p.fmt.toNat))) = [] :=
    List.filter_eq_nil_iff.mpr fun i _ => by simp [h3]
  unfold State.notePass
  dsimp only
  rw [ha, hb]

section
variable {m : TileMem} {o : Op} {r fb : Nat} {new : List Nat} {ent : Nat → Nat → Nat} {row : Nat → Nat} {ks : List Nat} {sc : List Byte}

/-- The weights after a pass that preloads some rows. -/
theorem passed_weights (k : Nat) {n : Nat} (hn : n < 128) :
    let d := (m.passed o r new fb (ks.map fun k => (k, ent k, row k)) sc).shd
    d.code k n = (if k ∈ ks then codeAt (row k) (Ent.width fb) n % 2 ^ 32 else m.shd.code k n) ∧
    SMap.get 0 d.ents (128 * k + n) = (if k ∈ ks then (if ent k n = fb then 0 else BitVec.ofNat 64 (ent k n))
      else SMap.get 0 m.shd.ents (128 * k + n)) ∧
    SMap.get 0 d.sents (128 * k + n) = (if k ∈ ks then (if ent k n = fb then 0 else BitVec.ofNat 64 (scaleEntry o.latch.fmt (ent k n)))
      else SMap.get 0 m.shd.sents (128 * k + n)) := by
  have hw := foldl_writeShadow_weights o.latch.fmt fb ent row ks (m.writeAcc r new) k n hn
  rw [writeAcc_keeps TileMem.shd (fun _ _ _ _ => rfl) m r new] at hw
  unfold TileMem.passed
  dsimp only
  split
  · exact hw
  · simp only [Plane.code, writeSide_codes, writeSide_ents, writeSide_sents]
    exact hw

theorem passed_scale (pre : List (Nat × (Nat → Nat) × Nat)) : (m.passed o r new fb pre sc).shd.scale =
    if sc = [] then m.shd.scale else Memory.setBytes [] 0 sc := by
  have hf : (pre.foldl (fun m kr => m.writeShadow o.latch.fmt fb kr.1 kr.2.1 kr.2.2) (m.writeAcc r new)).shd.scale = m.shd.scale :=
    (foldl_keeps (F := fun m : TileMem => m.shd.scale) (fun m _ => TileMem.writeShadow_shd_scale m _ _ _ _ _) _ _).trans
      (writeAcc_keeps (fun m : TileMem => m.shd.scale) (fun _ _ _ _ => rfl) m r new)
  cases sc with
  | nil => exact hf
  | cons => rfl

end

/-- The scales that a preload reads beside its rows: those of a KIND 2 plane at its first pass. -/
theorem preloadScales_read {s : State} {t fb : Nat} {o : Op} {us : List UnitAt} {sc : List Byte} (hp : o.preloads = true)
    (hfb : fb = o.latch.fmtOf o.rcd .b)
    (h : Ent.kind fb = 2 → o.t = 0 → o.row .b ((128 * unitsOf (planeRowBytes fb) : Nat) : Int) (planeScaleBytes fb) s = (.ok us, s) ∧
      readRow t us (planeScaleBytes fb) s = (.ok sc, s) ∧ sc ≠ [] ∧ planeScaleBytes fb ≠ 0) :
    ∃ us2 sc2, (if o.preloadScales = 0 then Res.ok [] s else o.row .b
        ((128 * unitsOf (planeRowBytes (o.latch.fmtOf o.rcd .b)) : Nat) : Int) o.preloadScales s) = (.ok us2, s) ∧
      readRow t us2 o.preloadScales s = (.ok sc2, s) ∧
      (if sc2 = [] then (s.tile t).mem.shd.scale else Memory.setBytes [] 0 sc2) =
        if Ent.kind fb = 2 ∧ o.t = 0 then Memory.setBytes [] 0 sc else (s.tile t).mem.shd.scale := by
  subst hfb
  by_cases hc : Ent.kind (o.latch.fmtOf o.rcd .b) = 2 ∧ o.t = 0
  · obtain ⟨hr, hl, hne, hz⟩ := h hc.1 hc.2
    have hs : o.preloadScales = planeScaleBytes (o.latch.fmtOf o.rcd .b) := if_pos (by rw [hp, hc.1, hc.2]; rfl)
    rw [hs, if_neg hz, if_pos hc]
    exact ⟨us, sc, hr, hl, if_neg hne⟩
  · have hs : o.preloadScales = 0 := if_neg fun h => by
      simp only [Bool.and_eq_true, decide_eq_true_eq] at h
      exact hc ⟨h.2, h.1.2⟩
    rw [hs, if_neg hc]
    exact ⟨[], [], rfl, rfl, rfl⟩

/-- An accumulator word of a tile whose memory a pass has left. -/
theorem accWord_of_passed {s u : State} {t r fb q n : Nat} {o : Op} {new : List Nat} {pre : List (Nat × (Nat → Nat) × Nat)}
    {sc : List Byte} (h : (u.tile t).mem = (s.tile t).mem.passed o r new fb pre sc) (hn : n < 128) :
    Claims.accWord u t q n = if q = r then new.getD n 0 % 2 ^ 32 else Claims.accWord s t q n := by
  rw [Claims.accWord, h, passed_acc _ _ _ _ _ _ _ _ _ hn]
  split
  · exact BitVec.toNat_ofNat ..
  · rfl

/-- What a pass leaves in each column, where it preloads nothing. -/
theorem passGives_columns {s s1 : State} {t : TileId} {o : Op} {p : Plane} {f r : Nat} {l : List Byte} {ua : List UnitAt}
    (h : Claims.PassReads s s1 t o p f r l ua) (hk : o.preloads = false) :
    (p.loaded = true → Ent.kind p.fmt.toNat ≠ 3 → Ent.kind f = 0 ∨ Ent.kind f = 2 → Ent.kind p.fmt.toNat = 0 ∨ Ent.kind p.fmt.toNat = 2 →
      Claims.PassGives s s1 t o r fun n =>
        o.accumulates (s.tile t.val) (Claims.accWord s t.val r n) (Claims.passTerms p (o.actVal (s.tile t.val) ua l) n) % 2 ^ 32) ∧
    (p.loaded = true → Ent.kind f = 1 → Ent.kind p.fmt.toNat = 1 → Claims.PassGives s s1 t o r fun n =>
      accInt o.rcd.accsat (Claims.accWord s t.val r n) (Claims.passSum p (o.actInt ua l) n)) ∧
    (∀ g0 : Nat, p.loaded = true → Ent.kind f = 1 → Ent.kind p.fmt.toNat = 3 → p.sp = 0 →
      (g0 : Int) = (o.rcd.h .b : Int) + o.stride .b → g0 + 128 / Ent.block p.fmt.toNat ≤ 64 →
      (∀ i ∈ (s.tile t.val).mem.scaleBad, i < 512 * g0 ∨ 512 * (g0 + 128 / Ent.block p.fmt.toNat) ≤ i) →
      Claims.PassGives s s1 t o r fun n => o.accumulates (s.tile t.val) (Claims.accWord s t.val r n)
        (Claims.passGroups p (s.tile t.val).mem.scale g0 (if o.profile (bit (s.tile t.val).ctl.node.toNat 58) = 2 then 32
          else Ent.block p.fmt.toNat) (o.actInt ua l) n) % 2 ^ 32) ∧
    (p.loaded = false → p.sp = 0 → Claims.PassGives s s1 t o r fun n => if Ent.kind f = 1 then Claims.accWord s t.val r n
      else o.accumulates (s.tile t.val) (Claims.accWord s t.val r n) (List.replicate 4 [Val.zero]) % 2 ^ 32) := by
  obtain ⟨_, _, _, hp, hf, _, _, _, _, _, ⟨_, hbad⟩, _⟩ := id h
  subst hp hf
  refine ⟨fun hl h3 hf hp => ?_, fun hl hf hp => ?_, fun g0 hl hf hp hs hg hle hsb => ?_, fun hl hs => ?_⟩
  · refine passGives_of_words h hk (groupBase_none fun c => h3 c.2) (passPoison_none hbad fun _ c => absurd c h3) fun c n hn => ?_
    rw [column_of_values hl h3 hf hp hn, getD_map_range _ _ hn]
  · have h3 : Ent.kind (s.tile t.val).mem.act.fmt.toNat ≠ 3 := by omega
    refine passGives_of_words h hk (groupBase_none fun c => h3 c.2) (passPoison_none hbad fun _ c => absurd c h3) fun c n hn => ?_
    rw [column_of_integers hl hf hp hn, getD_map_range _ _ hn, Nat.mod_eq_of_lt (accInt_lt ..)]
  · refine passGives_of_words h hk (groupBase_some hl hp hg hle) (passPoison_none hbad fun _ _ => hsb) fun c n hn => ?_
    rw [column_of_groups hl hf hp hs hn, getD_map_range _ _ hn]
  · refine passGives_of_words h hk (groupBase_none fun c => by rw [hl] at c; cases c.1)
      (passPoison_none hbad fun c => by rw [hl] at c; cases c) fun c n hn => ?_
    rw [column_of_unloaded hl hs hn, getD_map_range _ _ hn]
    have hw : Claims.accWord s t.val r n < 2 ^ 32 := BitVec.isLt _
    split
    · rw [accInt_zero _ hw, Nat.mod_eq_of_lt hw]
    · rfl

/-- A pass that preloads: its columns, and the rows of the shadow plane that it fills. -/
theorem iterOp_preload {s : State} {t : TileId} {o : Op} {p : Plane} {f fb r : Nat} {l sc : List Byte} {ua us : List UnitAt}
    {ub : Nat → List UnitAt} {lk : Nat → List Byte} (h : Claims.PassReads s s t o p f r l ua)
    (hce : ∀ i ∈ (s.tile t.val).mem.accCe, i / 128 ≠ r) (hpce : ∀ i ∈ (s.tile t.val).mem.planeCe, p.reads i = false)
    (hk : o.preloads = true) (hfb : fb = o.latch.fmtOf o.rcd .b) (h3 : Ent.kind p.fmt.toNat ≠ 3)
    (hrows : ∀ k ∈ preloadRows o, o.row .b ((k * unitsOf (planeRowBytes fb) : Nat) : Int) (planeRowBytes fb) s = (.ok (ub k), s) ∧
      readRow t.val (ub k) (planeRowBytes fb) s = (.ok (lk k), s))
    (hscale : Ent.kind fb = 2 → o.t = 0 → o.row .b ((128 * unitsOf (planeRowBytes fb) : Nat) : Int) (planeScaleBytes fb) s = (.ok us, s) ∧
      readRow t.val us (planeScaleBytes fb) s = (.ok sc, s) ∧ sc ≠ [] ∧ planeScaleBytes fb ≠ 0) :
    ∃ u sc2 c, iterOp t.val o false s = (.ok (), u) ∧ (u.tile t.val).mem = (s.tile t.val).mem.passed o r
        ((o.passOf (s.tile t.val) ua l 0).words (s.tile t.val).mem.scale ((List.range 128).map (Claims.accWord s t.val r)) c) fb
        ((preloadRows o).map fun k => (k, o.elemEntry .b fb (ub k), leNat (lk k))) sc2 ∧
      (if sc2 = [] then (s.tile t.val).mem.shd.scale else Memory.setBytes [] 0 sc2) =
        if Ent.kind fb = 2 ∧ o.t = 0 then Memory.setBytes [] 0 sc else (s.tile t.val).mem.shd.scale := by
  obtain ⟨hkind, hch, hwest, rfl, rfl, hrow, hread, h0, h1, rfl, ⟨hbad, hpb⟩, _⟩ := h
  obtain ⟨us2, sc2, hus, hsc, hse⟩ := preloadScales_read hk hfb hscale
  subst hfb
  have hpr : o.preloaded = preloadRows o := if_pos hk
  have hacc := accWordsOf_ok hbad
  rw [noteAcc_clean hce] at hacc
  have hpass := iterPass_ok (g0 := 0) ⟨hch, hwest⟩ hrow (accRow_ok s rfl h0 h1) (by rw [hk]; rfl)
    (by rw [hpr]; exact boundPreload_ok fun k hk => (hrows k hk).1) hus hread hacc (passPoison_none hpb fun _ c => absurd c h3)
    (by rw [hpr, notePass_clean hpce h3]; exact readPreload_ok hrows) hsc
  obtain ⟨u, hu, hm⟩ := iterOp_pass (hkind.imp And.left And.left) ⟨hch, hwest⟩ hpass
  exact ⟨u, sc2, _, hu, hm, hse⟩

end Sys2Proof.Machine
end

section
open Sys2Proof Sys2Proof.Machine

/-- The iterations of the load engine. -/
theorem loadIterations : Claims.LoadIterations := by
  intro s s1 s2 s3 s4 t o g d b fs n ix us ua ps bs
  refine ⟨fun hk hn hr hw => ?_, fun hb => ⟨fun hk hr hm hu hl hw => ?_, fun hd hf => ⟨fun hk hr hi hp hl hw h1 h2 => ?_,
    fun hk h0 h1 hp hl => iterOp_sload hk hb hd hf h0 h1 hp hl, fun rows hk hr hp ha hm => ⟨fun hg => ?_, fun hg hl hw => ?_⟩⟩⟩⟩
  · subst hn
    exact iterOp_fill hk hr hw
  · subst hu
    exact iterOp_xpull hk hb hr hm hl hw
  · rw [iterOp_load hk hb hd, iterLoad_of_reads hf hr hi hp hl hw, loadImage_of_unscaled _ _ h1 h2]
  · subst hg
    exact iterOp_mcred_waits hk hb hd hr hp ha hm
  · subst hg
    exact iterOp_mcred_granted hk hb hd hf hr hp ha hm hl hw

/-- The iterations of the store engine. -/
theorem storeIterations : Claims.StoreIterations := by
  intro s s1 s2 s3 s4 t o g d b fd n ix us ud ps l cs m hb
  refine ⟨fun hk hr hm hu hw hl => ?_, fun hd hf => ⟨fun hk hu hi hp => ⟨fun h0 hm hc => ?_, fun h2 ha hc hz => ?_⟩,
    fun hk hu hp hm hq hc => iterOp_tred hk hb hd hf hu hp hm hq hc,
    fun p sc hk ha hp hz => iterOp_rsig hk hb hd hf ha hp hz⟩⟩
  · subst hu
    exact iterOp_xpush hk hb hr hm hw hl
  · rw [iterOp_store hk hb hd, iterStore_of_reads hf hu hi hp (storeDest_mem h0 hm) hc, State.storeRow]
  · exact ⟨_, (iterOp_store hk hb hd).trans (iterStore_of_reads hf hu hi hp (storeDest_far h2 ha) hc), postRow_of_sound _ hz⟩

/-- A row of units, written one after another. -/
theorem rowsWritten : Claims.RowsWritten := fun s _ us l hl ho hd =>
  ⟨fun _ _ hu => bytes_writeRow_unit us s l hl ho hd hu, fun _ ha => byte_writeRow_outside us s l hl ho ha⟩

/-- The starts of the matrix engine. -/
theorem matrixStarts : Claims.MatrixStarts := by
  intro s t o off x
  refine ⟨fun hk => ?_, fun hk => ?_, fun hk he hoff hx => ⟨fun hb => ?_, fun hb hl hf => ?_⟩,
    fun hk he => (startOp_mdrainDirect hk (readEpilogue_none he)).symm.imp (fun h ha => ⟨_, _, h ha, rfl, rfl⟩) id⟩
  · have hs : ∃ f sp, (o.kind = .wload ∧ f = o.latch.fmtOf o.rcd .a ∧ sp = spOf o.rcd ∨
        (o.kind = .mma ∧ o.rcd.epi = true) ∧ f = o.latch.fmtOf o.rcd .b ∧ sp = 0) :=
      hk.elim (fun h => ⟨_, _, .inl ⟨h, rfl, rfl⟩⟩) fun h => ⟨_, _, .inr ⟨h, rfl, rfl⟩⟩
    obtain ⟨f, sp, hs⟩ := hs
    have hf : f = if o.kind = .wload then o.latch.fmtOf o.rcd .a else o.latch.fmtOf o.rcd .b := by
      obtain ⟨h, hf, _⟩ | ⟨⟨h, _⟩, hf, _⟩ := hs <;> rw [h, hf] <;> rfl
    have hsp : sp = if o.kind = .wload then spOf o.rcd else 0 := by
      obtain ⟨h, _, hf⟩ | ⟨⟨h, _⟩, _, hf⟩ := hs <;> rw [h, hf] <;> rfl
    refine ⟨_, f, startOp_clears hs, hf, ?_, ?_, fun k n => ?_, fun q n => ?_⟩
    · rw [mem_setMemOf, ← hsp]; rfl
    · rw [mem_setMemOf]; rfl
    · rw [mem_setMemOf]; rfl
    · rw [Claims.accWord, mem_setMemOf]; rfl
  · obtain h | h | h | h | h | h | ⟨h, he⟩ := hk
    · exact ⟨o, startOp_idle (.inl h), rfl, fun _ => rfl⟩
    · exact ⟨o, startOp_idle (.inr (.inl h)), rfl, fun _ => rfl⟩
    · exact ⟨o, startOp_idle (.inr (.inr (.inl h))), rfl, fun _ => rfl⟩
    · exact ⟨o, startOp_idle (.inr (.inr (.inr (.inl h)))), rfl, fun _ => rfl⟩
    · exact ⟨o, startOp_idle (.inr (.inr (.inr (.inr (.inl h))))), rfl, fun _ => rfl⟩
    · exact ⟨o, startOp_idle (.inr (.inr (.inr (.inr (.inr h))))), rfl, fun _ => rfl⟩
    · exact ⟨_, startOp_mdrain h (readEpilogue_none he), rfl, fun hn => absurd h hn⟩
  · subst hoff
    obtain h | h := hk
    · exact startOp_mdrain h (readEpilogue_outside he hb)
    · exact startOp_mdrainDirect_error h (readEpilogue_outside he hb)
  · subst hoff
    have h258 : (s.tile t.val).mem.scratch.readLE (64 * o.rcd.h .b + 1032) 4 = x 258 := (hx 258).symm
    refine ⟨fun h8 => ?_, fun h8 hm => ?_, fun h8 hm ha => ?_⟩
    · have hr := (readEpilogue_inside he hb hl hf).trans (if_pos (h258 ▸ h8))
      obtain h | h := hk
      · exact startOp_mdrain h hr
      · exact startOp_mdrainDirect_error h hr
    · obtain ⟨e, hr, hw⟩ := readEpilogue_words he hb hl hf (h258 ▸ h8)
      exact ⟨_, startOp_mdrain hm hr, rfl, fun i hi => (hw i hi).trans (hx i).symm⟩
    · obtain ⟨e, hr, hw⟩ := readEpilogue_words he hb hl hf (h258 ▸ h8)
      exact ⟨_, _, (startOp_mdrainDirect hm hr).2 ha, rfl, fun i hi => (hw i hi).trans (hx i).symm, rfl⟩

/-- The iterations of the matrix engine but the passes. -/
theorem matrixIterations : Claims.MatrixIterations := by
  intro s s1 s2 t o f r nb a ua ub ud l lb
  refine ⟨fun hk hf ha hl => ?_, fun hk => ?_, fun hk ha h0 h1 => ?_, fun hk hf ha h0 h1 hr hc he hd hw => ?_,
    fun g n hk hn hf hg ha hd hl hw => ?_, fun hk => ?_⟩
  · have hi : iterOp t.val o false s = iterWload t.val o s := by simp only [iterOp, hk]
    refine ⟨fun hs => ⟨_, hi.trans (iterWload_row hf hs ha hl), ?_⟩,
      fun h0 hs hb hz hu hm => ⟨_, hi.trans (iterWload_first hf h0 hs hb hz ha hl hu hm), ?_⟩⟩
    · simp only [Claims.WeightEntries, mem_setMemOf, decide_eq_true_eq]
      exact ⟨rfl, rfl, ⟨fun k n hn => TileMem.writeShadow_code _ _ _ _ _ _ _ _ hn,
        fun k n hn => writeShadow_entries _ _ _ _ _ _ _ _ hn⟩, rfl, rfl⟩
    · simp only [Claims.WeightEntries, mem_setMemOf, decide_eq_true_eq, writeSide_act, writeSide_scratch, writeSide_ents, writeSide_sents]
      refine ⟨rfl, rfl, ⟨fun k n hn => ?_, fun k n hn => writeShadow_entries _ _ _ _ _ _ _ _ hn⟩, ?_⟩
      · rw [Plane.code, writeSide_codes]
        exact TileMem.writeShadow_code _ _ _ _ _ _ _ _ hn
      · by_cases h : spOf o.rcd = 0
        · simp only [h, ne_eq, not_true_eq_false, decide_false, if_false]
          exact ⟨rfl, rfl⟩
        · simp only [h, ne_eq, not_false_eq_true, decide_true, if_true]
          exact ⟨rfl, rfl⟩
  · have hi : iterOp t.val o false s = iterWswap t.val s := by simp only [iterOp, hk]
    refine ⟨_, hi, ?_⟩
    simp only [Claims.accWord, mem_setMemOf]
    exact ⟨rfl, rfl, fun _ _ => rfl⟩
  · have hi : iterOp t.val o false s = iterZero t.val o s := by simp only [iterOp, hk]
    refine ⟨_, hi.trans (Res.bind_of (accRow_ok s ha h0 h1)), fun q n hn => ?_⟩
    rw [Claims.accWord, mem_setMemOf, writeAcc_get _ _ _ _ _ hn]
    split <;> rfl
  · have hi : iterOp t.val o false s = iterDrain t.val o s := by simp only [iterOp, hk]
    intro word
    rw [hi, iterDrain_ok hf ha h0 h1 hr hc.1 he hd hw]
    simp only [drainVal_eq]
    rfl
  · have hi : iterOp t.val o false s = iterMcopy t.val o s := by simp only [iterOp, hk]
    rw [hi, iterMcopy_ok hn hf hg ha hd hl hw]
    rfl
  · have hi : iterOp t.val o false s = (.ok (), s.setChain t.val o.rcd) := by simp only [iterOp, hk]
    refine ⟨_, hi, ?_⟩
    rw [State.setChain, mem_setMemOf]
    exact ⟨chainLenOf_eq _, chainPosOf_eq _, rfl⟩

/-- The passes, and what they are made of. -/
theorem passIterations : Claims.PassIterations := by
  intro s s1 t o f fb r ua us l sc p ub lk e x xi prof acc
  refine ⟨fun h hk => ?_, fun h hce hpce hk he hfb h3 hrows hscale => ?_, fun q h n k => ⟨sparsePairs_perm q h n, fun e sf hes => ?_⟩,
    by decide, fun op w g h bs => ⟨rfl, fun b rest hb => hb ▸ accumulate_blocks op w g h b rest, fun hb => hb ▸ rfl,
      fun x hb => hb ▸ accumulate_tree_pair op w g h x, fun hw hb k hk => hb ▸ accumulate_zeros op w g h hw hk⟩⟩
  · obtain ⟨hval, hint, hgroup, hun⟩ := passGives_columns h (preloads_false hk)
    obtain ⟨hkind, _, _, hp, hf, _⟩ := id h
    subst hp hf
    refine ⟨fun hl h3 => ⟨fun hf hp => hval hl h3 (hf.imp id And.left) (hp.imp id And.left), fun hf hp => ?_⟩,
      fun g0 hm hl hf hp hg hle hsb => hgroup g0 hl hf hp ?_ hg hle hsb, fun hl hs => ⟨fun hf => ?_, fun hf => ?_⟩⟩
    · have hi := hint hl hf hp
      simp only [accInt_eq] at hi
      exact hi
    · obtain ⟨_, hs⟩ | ⟨hm2, _⟩ := hkind
      · exact hs
      · rw [hm] at hm2; cases hm2
    · have hz := hun hl hs
      simp only [if_pos hf] at hz
      exact hz
    · have hz := hun hl hs
      simp only [if_neg (show ¬ Ent.kind (o.latch.fmtOf o.rcd .a) = 1 by omega)] at hz
      exact hz
  · have hpre : o.preloads = true := by rw [Op.preloads, he, hk]; rfl
    obtain ⟨u, sc2, c, hu, hm, hse⟩ := iterOp_preload h hce hpce hpre hfb h3
      (fun k hk => by obtain ⟨ht, h128, hc⟩ := mem_preloadRows.mp hk; exact hrows k ht h128 hc) hscale
    have hcol := fun q n (hn : n < 128) => accWord_of_passed (q := q) hm hn
    obtain ⟨_, _, _, hp, hf, _⟩ := id h
    subst hp hf
    refine ⟨u, hu, ?_, fun k n hk hn => ?_, fun k n hn => ?_, ?_, fun q n hn hq => ?_, fun hl hf hp n hn => ?_, fun hl hf hp n hn => ?_⟩
    · rw [hm, passed_act]
    · rw [hm, (passed_weights k hn).1]
      simp only [mem_preloadRows, hk, true_and]
    · rw [hm]
      obtain ⟨_, hents, hsents⟩ := passed_weights (m := (s.tile t.val).mem) (o := o) (r := r) (fb := fb)
        (ent := fun k => o.elemEntry .b fb (ub k)) (row := fun k => leNat (lk k)) (ks := preloadRows o) (sc := sc2)
        (new := (o.passOf (s.tile t.val) ua l 0).words (s.tile t.val).mem.scale ((List.range 128).map (Claims.accWord s t.val r)) c) k hn
      refine ⟨hents.trans ?_, hsents.trans ?_⟩ <;>
        simp only [mem_preloadRows, Bool.and_eq_true, Bool.or_eq_true, decide_eq_true_eq, and_assoc]
    · rw [hm, passed_scale, hse]
    · rw [hcol q n hn, if_neg hq]
    · rw [hcol r n hn, if_pos rfl, column_of_values hl h3 hf hp hn, getD_map_range _ _ hn]
      rfl
    · rw [hcol r n hn, if_pos rfl, column_of_integers hl hf hp hn, getD_map_range _ _ hn, Nat.mod_eq_of_lt (accInt_lt ..), accInt_eq]
      rfl
  · obtain ⟨he, hs⟩ := plane_weight q k n hes
    refine ⟨by simp only [Plane.val, he, hs], fun hkind => ?_⟩
    simp only [Plane.int, he, hkind, if_true]

/-- Settles O36: the head of an engine by its state (`Heads.starts`, `Heads.misses`, `Heads.iterates`), and of each record what
its start and its iterations do, by the accesses that they make one after another (`Res.bind_of`). -/
theorem enginesRunOperations : Obligations.EnginesRunOperations := by
  refine ⟨fun s s1 s2 t e o o1 o2 run done_ rest n f hops hph htok hwait => ?_, matrixStarts, passIterations, matrixIterations,
    rowsWritten, loadIterations, storeIterations⟩
  have h : Heads s t.val e o rest := ⟨hops, hph, htok, hwait⟩
  refine ⟨fun htr hpow hbad hce => ?_, fun hst hsu => h.iterates hst hsu, h.exec_queuedCancelComplete⟩
  have hu : Unhindered s t.val e o := ⟨htr, hpow, hbad, hce⟩
  refine ⟨fun hq hc hr hk => ⟨fun hs hk1 hrun => h.starts hu hq hc hr hk hs hk1 hrun, fun hs hst => ?_⟩,
    fun hq hc ha hs hn hm => h.misses hu hq hc ha hs hn hm, fun hd hf hne => h.misses_behind hu hd hf hne⟩
  rw [h.exec_operationStart hu hq hc hr hst, hu.startNow_error hs]

end

section
namespace Sys2Proof.Machine

/-! ## The words of `rndk` (08 R183, 10 R256) -/

/-- The first word of a unit in memory. -/
theorem wordsOf_leBytes_take_four {w n : Nat} (hw : w < 2 ^ 32) : wordsOf ((leBytes w (n + 4)).take 4) = [w] := by
  have h : wordsOf ((leBytes w (n + 4)).take 4) = [leNat (leBytes w 4)] := rfl
  rw [h, leNat_leBytes, Nat.mod_eq_of_lt (show w < 256 ^ 4 from hw)]

/-- The word of an instruction that breaks a rule of its operands decodes to nothing. -/
theorem decodeTableWord_of_illFormed {i : Instr} {w : Nat} (he : encode i = [w]) (hfits : Laws.Fits.Statement i)
    (hp : parse [w] = .ok i) (hwf : i.wellFormed = false) : decodeTableWord 32 w = none := by
  obtain ⟨hu, hw⟩ : unitWords w = 1 ∧ w < 2 ^ 32 := by
    simpa [Laws.Fits.Statement, he] using hfits
  have hd : decodeWords [w] = .error .limit := by simp [decodeWords, hp, hwf]
  have h : decode (leBytes w 64) = .error .limit := by
    simp [decode, wordsOf_leBytes_take_four (n := 60) hw, hu, hd]
  rw [decodeTableWord, Nat.mod_eq_of_lt hw, h]

/-- The fields of a format T word are those that it is put together from (08 Table 8.4). -/
theorem fields_formatT {op func w : Nat} {gd ga gb : Reg} (he : encT op gd.val ga.val gb.val func = [w]) (hop : op < 64)
    (hf : func < 2 ^ 11) : field w 26 6 = op ∧ gdOf w = gd ∧ gaOf w = ga ∧ gbOf w = gb ∧ w % 2 ^ 11 = func := by
  obtain rfl : op * 2 ^ 26 + gd.val * 2 ^ 21 + ga.val * 2 ^ 16 + gb.val * 2 ^ 11 + func = w := List.singleton_inj.mp he
  have hgd := gd.isLt
  have hga := ga.isLt
  have hgb := gb.isLt
  refine ⟨?_, Fin.ext ?_, Fin.ext ?_, Fin.ext ?_, by omega⟩ <;> simp only [gdOf, gaOf, gbOf, regAt, field, Fin.ofNat] <;> omega

/-- The words of `rndk` parse to it, whatever GB is. -/
theorem parse_rndk {gd ga gb : Reg} {w : Nat} (hi : Bool) (he : encT 0x38 gd.val ga.val gb.val (0x60 + b2n hi) = [w]) :
    parse [w] = .ok (if hi then .rndkHi gd ga gb else .rndkLo gd ga gb) := by
  have hb := Laws.Fits.b2n_lt hi
  obtain ⟨hop, hgd, hga, hgb, hf⟩ := fields_formatT he (by decide) (by omega)
  have h7 : field w 4 7 = 6 := by simp only [field]; omega
  have h0 : bit w 0 = hi := by
    have : w % 2 = b2n hi := by omega
    cases hi <;> simp [bit, field, this, b2n]
  cases hi <;> simp [parse, wordAt, hop, parseSystem, h7, h0, hgd, hga, hgb]

/-- 10 R256: a word with GB 31 is no `rndk`, of either half. -/
theorem decodeTableWord_rndk_gb_31 (gd ga : Reg) (hi : Bool) :
    decodeTableWord 32 (0x38 * 2 ^ 26 + gd.val * 2 ^ 21 + ga.val * 2 ^ 16 + 31 * 2 ^ 11 + 0x60 + b2n hi) = none := by
  rw [Nat.add_assoc _ 0x60]
  have hp := parse_rndk (gd := gd) (ga := ga) (gb := 31) hi rfl
  cases hi with
  | false => exact decodeTableWord_of_illFormed rfl (Laws.Fits.rndkLo gd ga 31) hp rfl
  | true => exact decodeTableWord_of_illFormed rfl (Laws.Fits.rndkHi gd ga 31) hp rfl

/-! ## What the instructions of this family do with clean sources -/

theorem withSources_of_clean {rs : List Reg} {s : State} (hc : Claims.clean s rs) (f : State → State) :
    withSources rs s f = .next (f s) :=
  withSources_clean f hc.1 hc.2

section
variable {s : State} {ga : Reg} (hc : Claims.clean s [ga])
include hc

theorem exec_fmtset_clean (f : Fin 16) : exec (.fmtset f ga) s = .next
    (if Ent.v (s.g ga).toNat && !Ent.legal (s.g ga).toNat then s.fault Code.illegalFormatEntry f.val
     else (s.setCtl { s.me.ctl with fmt := SMap.set 0 s.me.ctl.fmt f.val (s.g ga) }).skip 4) := by
  have hd : fmtDetail f.val false = f.val := rfl
  simp only [exec, execFmtset, withSources_of_clean hc, hd]

theorem exec_pondWrite_clean (p : Fin 16) : exec (.pondWrite p ga) s = .next (s.writePondReg p.val (s.g ga)) := by
  simp only [exec, execPondWrite, withSources_of_clean hc]

theorem exec_spillWrite_clean : exec (.spillWrite ga) s = .next (s.writeSpill (.ctlwr 0x024 ga) (s.g ga)) := by
  simp only [exec, execSpillWrite, withSources_of_clean hc]

theorem exec_perfClear_clean : exec (.perfClear ga) s = .next (s.writePerf (s.g ga)) := by
  simp only [exec, execPerfClear, withSources_of_clean hc]

theorem exec_perfFreeze_clean : exec (.perfFreeze ga) s = .next (s.writePerf (s.g ga)) := by
  simp only [exec, execPerfFreeze, withSources_of_clean hc]

end

/-! ## The generator (10 R256) -/

theorem nextReg_eq {gb gn : Reg} (h : gn.val = gb.val + 1) : nextReg gb = gn :=
  Fin.ext (by have := gn.isLt; simp only [nextReg, Fin.ofNat]; omega)

/-- A half of the draw from clean registers: the counter is the pair that GB and the register after it hold. -/
theorem drawRand_clean {s : State} {ga gb gn : Reg} (i : Instr) (shift : Nat) (gd : Reg) (hn : gn.val = gb.val + 1)
    (hc : Claims.clean s [ga, gb, gn]) : drawRand i shift gd ga gb s = .next (Claims.wrote s gd
      (BitVec.ofNat 64 (rand (s.g ga).toNat ((s.g gn).toNat * 2 ^ 64 + (s.g gb).toNat) / 2 ^ shift)) 4) := by
  have h31 : gb.val ≠ 31 := by have := gn.isLt; omega
  rw [drawRand, if_neg h31, nextReg_eq hn]
  exact withSources_of_clean hc _

/-! ## The writes of `ctl.pondp` and `ctl.spill` (05 R112, 08 R178) -/

theorem Pond.v_iff (w : Word) : Pond.v w.toNat = true ↔ w.toNat / 2 ^ 63 = 1 := by
  have h : w.toNat / 2 ^ 63 < 2 := by omega
  rw [Pond.v, bit, field, decide_eq_true_eq, Nat.pow_one, Nat.mod_eq_of_lt h]

theorem pondFails_eq_none_iff {p v : Nat} : pondFails p v = none ↔
    Pond.slotSz v ≠ 0 ∧ Pond.slotSz v ≤ 1024 ∧ Pond.base v + Pond.slots v * Pond.slotSz v ≤ 1024 ∧ p + 2 ^ Pond.group v ≤ 16 := by
  have := Nat.two_pow_pos (Pond.group v)
  unfold pondFails
  split_ifs <;> simp <;> omega

/-- A write that releases a pond, or meets the three conditions of 05 R112, changes the pond table alone. -/
theorem State.writePondReg_of_admitted {p : Nat} {v : Word} (s : State)
    (h : Pond.v v.toNat = true → pondFails p v.toNat = none) :
    s.writePondReg p v = (s.setCtl { s.me.ctl with pond := writePond s.me.ctl.pond p v.toNat }).skip 4 := by
  have hn : (if Pond.v v.toNat then pondFails p v.toNat else none) = none := by
    split
    · exact h ‹_›
    · rfl
  rw [State.writePondReg, hn]

/-- A write that 08 R178 admits moves the spill area, and SPTR to its base. -/
theorem State.writeSpill_of_admitted {s : State} {v : Word} (i : Instr) (hb : field v.toNat 0 21 % 8 = 0)
    (hl : field v.toNat 32 22 % 8 = 0) (hle : field v.toNat 0 21 ≤ field v.toNat 32 22) (htop : field v.toNat 32 22 ≤ 0x200000)
    (hs : s.core.sptr = s.core.spillBase) :
    s.writeSpill i v = (s.setCore { s.core with
      spillBase := field v.toNat 0 21, spillLimit := field v.toNat 32 22, sptr := field v.toNat 0 21 }).skip 4 :=
  if_neg (by omega)

/-! ## The writes of `ctl.perf.ctl` (20 R473, R474) -/

theorem Perf.settle_eq_perfSettled (p : Perf) : p.settle = Claims.perfSettled p := by
  unfold Perf.settle Claims.perfSettled
  cases p.next with
  | none => rfl
  | some w => cases hc : w.clear <;> simp [hc, Perf.clear]

/-- A write of `ctl.perf.ctl` settles the core's own earlier write, and joins one of another core (log 89). -/
theorem State.writePerf_eq (s : State) (v : Word) :
    s.writePerf v = (s.setMe { s.me with perf := Claims.perfWritten s v.toNat }).skip 4 := by
  have hp : (if s.me.perf.next.any (·.cores.contains s.curCore) then s.me.perf.settle else s.me.perf) =
      if Claims.perfOwn s then Claims.perfSettled s.me.perf else s.me.perf := by
    rw [Perf.settle_eq_perfSettled]
    rfl
  have hfreeze : bit v.toNat 0 = decide (v.toNat % 2 = 1) := Bool.eq_iff_iff.mpr (by simp [bit_zero_iff])
  have hclear : bit v.toNat 1 = decide (v.toNat / 2 % 2 = 1) := Bool.eq_iff_iff.mpr (by simp [bit_one_iff])
  rw [State.writePerf, Claims.perfWritten, hp, hfreeze, hclear]
  generalize (if Claims.perfOwn s then Claims.perfSettled s.me.perf else s.me.perf) = p
  cases p.next <;> simp

end Sys2Proof.Machine
end

section
open Sys2Proof Sys2Proof.Machine

/-- Settles O26, clause by clause: what a write of the format table, a draw and the three register writes do with clean sources,
and that no word with GB 31 is an `rndk`. -/
theorem tableGeneratorAndRegisterSteps : Obligations.TableGeneratorAndRegisterSteps := by
  unfold Obligations.TableGeneratorAndRegisterSteps
  refine ⟨fun s f gd ga gb gn => ⟨fun hc h => ?stored, fun hc hv hl => ?refused, rfl, rfl, fun hn hc => ⟨?lo, ?hi⟩,
    decodeTableWord_rndk_gb_31 gd ga⟩, fun s p ga v hc hv => ?_⟩
  case stored =>
    rw [exec_fmtset_clean hc, if_neg (by obtain h | h := h <;> simp [h])]
    rfl
  case refused => rw [exec_fmtset_clean hc, if_pos (by simp [hv, hl])]
  case lo =>
    have h := drawRand_clean (.rndkLo gd ga gb) 0 gd hn hc
    rwa [Nat.pow_zero, Nat.div_one] at h
  case hi => exact drawRand_clean (.rndkHi gd ga gb) 64 gd hn hc
  subst hv
  refine ⟨fun h => ?pond, fun hb hl hle htop hs => ?spill, ?clear, ?freeze⟩
  case pond =>
    have hadm : Pond.v (s.g ga).toNat = true → pondFails p.val (s.g ga).toNat = none := fun hV =>
      pondFails_eq_none_iff.mpr (h ((Pond.v_iff (s.g ga)).mp hV))
    rw [exec_pondWrite_clean hc, s.writePondReg_of_admitted hadm]
    rfl
  case spill =>
    have hf : field (s.g ga).toNat 0 21 = (s.g ga).toNat % 2 ^ 21 := by rw [field, Nat.pow_zero, Nat.div_one]
    rw [← hf] at hb hle ⊢
    rw [exec_spillWrite_clean hc, State.writeSpill_of_admitted _ hb hl hle htop hs]
    rfl
  case clear => rw [exec_perfClear_clean hc, State.writePerf_eq]
  case freeze => rw [exec_perfFreeze_clean hc, State.writePerf_eq]

end

section
namespace Sys2Proof.Machine

/-! # Token queues, gang tokens, faults and resumes (06) -/

/-! ## Words pushed and tokens due (06 R135, R139) -/

/-- A field of the low 32 bits of a register is that of the register. -/
theorem field_truncate (w : Word) {lo n : Nat} (h : lo + n ≤ 32) : field (w.truncate 32 : W32).toNat lo n = field w.toNat lo n := by
  obtain ⟨k, hk⟩ : ∃ k, 32 = lo + k := Nat.exists_eq_add_of_le (by omega)
  rw [BitVec.truncate_eq_setWidth, BitVec.toNat_setWidth, field, field, hk, Nat.pow_add, Nat.mod_mul_right_div_self,
    Nat.mod_mod_of_dvd _ (Nat.pow_dvd_pow 2 (by omega))]

theorem tokType_truncate (w : Word) : tokType (w.truncate 32) = w.toNat / 2 ^ 28 % 16 := field_truncate w (by decide)

theorem pushable_iff (w : Word) : pushable (w.truncate 32) = true ↔ 1 ≤ w.toNat / 2 ^ 28 % 16 ∧ w.toNat / 2 ^ 28 % 16 ≤ 8 := by
  rw [pushable, tokType_truncate, Bool.and_eq_true, decide_eq_true_eq, decide_eq_true_eq]

theorem Queue.full_iff (k : Queue) : k.full = true ↔ k.depth ≤ k.toks.length := by simp [Queue.full]

theorem Tile.tokenDue_iff (x : Tile) (q : Nat) :
    x.tokenDue q = true ↔ ∃ e, ∃ o ∈ (x.eng e).ops, o.token.isSome = true ∧ o.rcd.cq.toNat = q := by
  have hall (P : Engine → Prop) : (∃ e, P e) ↔ P .load ∨ P .matrix ∨ P .store :=
    ⟨fun ⟨e, h⟩ => by cases e <;> simp [h], fun h => by rcases h with h | h | h <;> exact ⟨_, h⟩⟩
  rw [hall]
  simp [Tile.tokenDue, Tile.eng]

/-! ## qpush (06 R137, R139) -/

section
variable {s : State} {q : Fin 16} {gs : Reg}

/-- What a local queue takes from a core: a word of a token type that the queue's producer pushes. -/
def State.mayPush (s : State) (q : Fin 16) (gs : Reg) : Prop :=
  q.val < 12 ∧ s.curCore.num = producerOf q.val ∧ 1 ≤ (s.g gs).toNat / 2 ^ 28 % 16 ∧ (s.g gs).toNat / 2 ^ 28 % 16 ≤ 8

theorem State.not_mayPush_iff : ¬ s.mayPush q gs ↔
    12 ≤ q.val ∨ s.curCore.num ≠ producerOf q.val ∨ (!pushable ((s.g gs).truncate 32)) = true := by
  have h := pushable_iff (s.g gs)
  rw [Bool.not_eq_true', ← Bool.not_eq_true, h, State.mayPush]
  omega

/-- A word that the queue does not take is misuse, whatever stands in the queue. -/
theorem exec_qpush_misuse (hc : Claims.clean s [gs]) (h : ¬ s.mayPush q gs) :
    exec (.qpush q gs) s = .next (s.fault Code.queueMisuse ((s.g gs).toNat % 2 ^ 32 + q.val * 2 ^ 32)) := by
  have hw : ((s.g gs).truncate 32).toNat = (s.g gs).toNat % 2 ^ 32 := BitVec.toNat_setWidth ..
  simp only [exec, execQpush, withSources_of_clean hc, if_pos (State.not_mayPush_iff.mp h), State.queueMisuse, hw]

/-- A push waits for room, and for the token that an engine owes the queue. -/
theorem exec_qpush_waits (hc : Claims.clean s [gs]) (h : s.mayPush q gs)
    (hw : (s.me.queueAt q.val).full = true ∨ s.me.tokenDue q.val = true) :
    exec (.qpush q gs) s = .next (s.block (.push q.val)).markBlocked := by
  have hn := mt State.not_mayPush_iff.mpr (not_not.mpr h)
  have hor : ((s.me.queueAt q.val).full || s.me.tokenDue q.val) = true := Bool.or_eq_true_iff.mpr hw
  simp only [exec, execQpush, withSources_of_clean hc, if_neg hn, if_pos hor]

/-- A push with room appends the token, after the core's own remote stores. -/
theorem exec_qpush_appends (hc : Claims.clean s [gs]) (h : s.mayPush q gs) (hf : (s.me.queueAt q.val).full = false)
    (hd : s.me.tokenDue q.val = false) :
    exec (.qpush q gs) s = .next (((s.flushMine.setQueue s.curTile.val q.val
      ((s.flushMine.me.queueAt q.val).push ((s.g gs).truncate 32))).skip 4).traceToken q.val true) := by
  have hn := mt State.not_mayPush_iff.mpr (not_not.mpr h)
  have hor : ¬ ((s.me.queueAt q.val).full || s.me.tokenDue q.val) = true := by rw [hf, hd]; decide
  simp only [exec, execQpush, withSources_of_clean hc, if_neg hn, if_neg hor, (flushMine_cur s).1]

end

/-! ## Queues of a tile -/

@[simp] theorem State.setQueue_curTile (s : State) (t q : Nat) (k : Queue) : (s.setQueue t q k).curTile = s.curTile := rfl

theorem State.me_setQueue_cur (s : State) (q : Nat) (k : Queue) :
    (s.setQueue s.curTile.val q k).me = { s.me with queue := SMap.put s.me.queue q k } := State.me_setTile_cur ..

theorem State.queueAt_setQueue (s : State) (t q : Nat) (k : Queue) (j : Nat) :
    ((s.setQueue t q k).tile t).queueAt j = if j = q then k else (s.tile t).queueAt j := by
  by_cases h : j = q <;> simp [State.setQueue, Tile.queueAt, h]

/-- The place of a queue's head follows from the depths and the heads alone. -/
theorem Tile.tokenPlace_congr {x y : Tile} (q : Nat)
    (h : ∀ j, (y.queueAt j).depth = (x.queueAt j).depth ∧ (y.queueAt j).head = (x.queueAt j).head) : y.tokenPlace q = x.tokenPlace q := by
  simp only [Tile.tokenPlace, fun j => (h j).1, fun j => (h j).2]

theorem State.tokenPlace_countUe_setQueue (s : State) {q : Nat} {k : Queue} (hd : k.depth = (s.me.queueAt q).depth)
    (hh : k.head = (s.me.queueAt q).head) :
    ((s.setQueue s.curTile.val q k).countUe s.curTile.val).me.tokenPlace q = s.me.tokenPlace q := by
  refine Tile.tokenPlace_congr q fun j => ?_
  have h : ((s.setQueue s.curTile.val q k).countUe s.curTile.val).me.queueAt j = if j = q then k else s.me.queueAt j := by
    refine Eq.trans ?_ (State.queueAt_setQueue s s.curTile.val q k j)
    simp [State.countUe, State.me, Tile.queueAt]
  rw [h]
  split
  · next e => exact e ▸ ⟨hd, hh⟩
  · exact ⟨rfl, rfl⟩

/-! ## qpop, qtry, qpeek (06 R137, R138, R141; 05 R117; 18 R429) -/

section
variable {s : State} {gd : Reg} {q : Fin 16} {k : Tok} {rest : List Tok}

/-- A core that is not the consumer misuses the queue by each of the three. -/
theorem exec_take_misuse (h : s.curCore.num ≠ s.me.consumerOf q.val) :
    exec (.qpop gd q) s = .next (s.fault Code.queueMisuse (q.val * 2 ^ 32)) ∧
    exec (.qtry gd q) s = .next (s.fault Code.queueMisuse (q.val * 2 ^ 32)) ∧
    exec (.qpeek gd q) s = .next (s.fault Code.queueMisuse (q.val * 2 ^ 32)) := by
  have hm : s.queueMisuse 0 q.val = s.fault Code.queueMisuse (q.val * 2 ^ 32) := by rw [State.queueMisuse, Nat.zero_add]
  simp only [exec, execQpop, execQtry, execQpeek, if_pos h, hm, and_self]

/-- The consumer of an empty queue: a `qpop` waits, the two others give 0. -/
theorem exec_take_empty (h : s.curCore.num = s.me.consumerOf q.val) (he : (s.me.queueAt q.val).toks = []) :
    exec (.qpop gd q) s = .next (s.block (.pop q.val)).markBlocked ∧
    exec (.qtry gd q) s = .next (Claims.wrote s gd 0 4) ∧ exec (.qpeek gd q) s = .next (Claims.wrote s gd 0 4) := by
  simp [exec, execQpop, execQtry, execQpeek, h, he, Claims.wrote]

/-- The consumer of a queue with a head. -/
theorem exec_take_head (h : s.curCore.num = s.me.consumerOf q.val) (hk : (s.me.queueAt q.val).toks = k :: rest) :
    exec (.qpop gd q) s = .next (s.popToken gd q.val k) ∧ exec (.qtry gd q) s = .next (s.popToken gd q.val k) ∧
    exec (.qpeek gd q) s = .next (Claims.wrote (s.noteToken q.val k) gd (k.w.zeroExtend 64) 4) := by
  simp [exec, execQpop, execQtry, execQpeek, h, hk, Claims.wrote]

theorem State.noteToken_sound (hc : k.ce = false) (hl : k.latent = false) : s.noteToken q.val k = s := by
  simp [State.noteToken, hc, hl]

theorem State.noteToken_latent (hk : (s.me.queueAt q.val).toks = k :: rest) (hc : k.ce = false) (hl : k.latent = true) :
    s.noteToken q.val k = (s.setQueue s.curTile.val q.val
      { s.me.queueAt q.val with toks := { k with latent := false } :: rest }).countUe s.curTile.val := by
  obtain ⟨w, bad, ce, latent⟩ := k
  cases hc
  cases hl
  simp [State.noteToken, hk, State.countCes, b2n]

theorem State.popToken_bad {u : State} (hu : s.noteToken q.val k = u) (hb : k.bad = true) :
    s.popToken gd q.val k = u.fault Code.uncorrectable (uncDetail 3 (u.me.tokenPlace q.val)) := by
  simp [State.popToken, hu, hb]

theorem State.popToken_stale (hu : s.noteToken q.val k = s) (hb : k.bad = false) (hs : stale s.me.ctl.pond k.w = true) :
    s.popToken gd q.val k = s.fault Code.staleSlot (k.w.toNat + q.val * 2 ^ 32) := by
  simp [State.popToken, hu, hb, hs]

theorem State.popToken_sound (hu : s.noteToken q.val k = s) (hb : k.bad = false) (hs : stale s.me.ctl.pond k.w = false) :
    s.popToken gd q.val k = (Claims.wrote (s.setQueue s.curTile.val q.val (s.me.queueAt q.val).pop) gd
      (k.w.zeroExtend 64) 4).traceToken q.val false := by
  simp [State.popToken, hu, hb, hs, Claims.wrote]

end

end Sys2Proof.Machine
end

section
open Sys2Proof Sys2Proof.Machine

/-- Settles O17, clause by clause: first the instructions that complete, then those that wait or fault. -/
theorem tokenInstructions : Obligations.TokenInstructions := by
  unfold Obligations.TokenInstructions
  refine ⟨fun s q gs gd k rest => ⟨fun hc h12 hp h1 h8 hroom hdue => ?push, fun hcons hk hb hce hl => ?take, fun hcons he =>
      (exec_take_empty hcons he).2, rfl⟩, fun s q gs gd k rest => ⟨fun hc h => ?misuse, fun hc h12 hp h1 h8 h => ?waits,
      exec_take_misuse, fun hcons he => (exec_take_empty hcons he).1, fun hcons hk hce => ?faults⟩⟩
  case push =>
    refine exec_qpush_appends hc ⟨h12, hp, h1, h8⟩ ?_ ?_
    · rw [← Bool.not_eq_true, Queue.full_iff]; omega
    · rw [← Bool.not_eq_true, Tile.tokenDue_iff]; rintro ⟨e, o, ho, ht, hq⟩; exact hdue e o ho ht hq
  case take =>
    obtain ⟨hpop, htry, hpeek⟩ := exec_take_head (gd := gd) hcons hk
    have hn : s.noteToken q.val k = s := State.noteToken_sound hce hl
    rw [hn] at hpeek
    exact ⟨hpeek, fun hs => ⟨by rw [hpop, State.popToken_sound hn hb hs], htry.trans hpop.symm⟩⟩
  case misuse => exact exec_qpush_misuse hc (by rw [State.mayPush]; omega)
  case waits => exact exec_qpush_waits hc ⟨h12, hp, h1, h8⟩ (by rwa [Queue.full_iff, Tile.tokenDue_iff])
  case faults =>
    obtain ⟨hpop, -, hpeek⟩ := exec_take_head (gd := gd) hcons hk
    refine ⟨fun hb hl => ?_, fun u hb hl hu => ?_, fun hb hl hs => ?_⟩
    · rw [hpop, State.popToken_bad (State.noteToken_sound hce hl) hb]
    · have hn : s.noteToken q.val k = u := (State.noteToken_latent hk hce hl).trans hu.symm
      have hplace : u.me.tokenPlace q.val = s.me.tokenPlace q.val := by
        rw [hu]
        exact State.tokenPlace_countUe_setQueue s rfl rfl
      rw [hpop, State.popToken_bad hn hb, hplace, hpeek, hn]
      exact ⟨rfl, rfl⟩
    · rw [hpop, State.popToken_stale (State.noteToken_sound hce hl) hb hs]

end

section
namespace Sys2Proof.Machine

/-! ## Gang queues (06 R142, R148) -/

section
variable {s : State} {q : Fin 16} {gs gr : Reg}

/-- A word that no gang queue takes from a core, or one for a rank that the gang has not. -/
theorem exec_qpushx_misuse (hc : Claims.clean s [gs, gr]) (h : q.val < 12 ∨ 256 ≤ (s.g gr).toNat ∨ s.me.gsize ≤ (s.g gr).toNat ∨
      pushable ((s.g gs).truncate 32) = false) :
    exec (.qpushx gs q gr) s = .next (s.fault Code.queueMisuse ((s.g gs).toNat % 2 ^ 32 + q.val * 2 ^ 32)) := by
  have hw : ((s.g gs).truncate 32).toNat = (s.g gs).toNat % 2 ^ 32 := BitVec.toNat_setWidth ..
  rw [← Bool.not_eq_true'] at h
  simp only [exec, execQpushx, withSources_of_clean hc, if_pos h, State.queueMisuse, hw]

/-- Any other goes to the tile of its rank: it enters at once, or its core waits. -/
theorem exec_qpushx (hc : Claims.clean s [gs, gr]) (h12 : 12 ≤ q.val) (hr : (s.g gr).toNat < 256) (hg : (s.g gr).toNat < s.me.gsize)
    (hp : pushable ((s.g gs).truncate 32) = true) {k : Nat} (hk : k = s.me.rankTile (s.g gr).toNat) :
    exec (.qpushx gs q gr) s = .next
      (if k / 8 = s.curTile.val / 8 ∧ (s.flushMine.tile k).moves = true ∧ ((s.flushMine.tile k).queueAt q.val).full = false ∧
          s.flushMine.gangWaiters k q.val = [] then
        ((s.flushMine.gangAccept k q.val s.flushMine.me.rank ((s.g gs).truncate 32)).skip 4).traceToken q.val true
      else (s.flushMine.block (.gangPush q.val (s.g gr).toNat ((s.g gs).truncate 32))).markBlocked) := by
  have hn : ¬ (q.val < 12 ∨ 256 ≤ (s.g gr).toNat ∨ s.me.gsize ≤ (s.g gr).toNat ∨
      pushable ((s.g gs).truncate 32) = false) := by
    rw [hp]
    simp only [Bool.true_eq_false, or_false]
    omega
  subst hk
  simp only [exec, execQpushx, withSources_of_clean hc, if_neg hn, (flushMine_cur s).1, sameCluster, Bool.and_eq_true, beq_iff_eq,
    Bool.not_eq_true', List.isEmpty_iff, and_assoc]

end

/-- GANG_TOKEN_ACCEPT of a queue with room takes the first waiter in rank order, whose core goes on. -/
theorem exec_gangTokenAccept {s : State} {t : TileId} {q : Fin 16} {r u : Nat} {c : CoreId} {w : W32}
    (hf : ((s.tile t.val).queueAt q.val).full = false) (hm : (s.tile t.val).moves = true)
    (hw : firstWaiter (s.tile t.val).gsize (((s.tile t.val).queueAt q.val).lastRank.getD ((s.tile t.val).gsize - 1))
      (s.gangWaiters t.val q.val) = some (r, u, c, w)) :
    exec (.gangTokenAccept t q) s = .next ((({ s.gangAccept t.val q.val r w with
      curTile := Fin.ofNat 256 u, curCore := c }).unblock.skip 4).traceToken q.val true) := by
  simp [exec, execGangTokenAccept, hf, hm, hw]

/-- Of some waiters the first one is the one whose rank lies least far after the last accepted. -/
theorem firstWaiter_least (n last : Nat) {l : List (Nat × Nat × CoreId × W32)} (h : l ≠ []) :
    ∃ a ∈ l, firstWaiter n last l = some a ∧ ∀ b ∈ l, rankDistance n last a.1 ≤ rankDistance n last b.1 := by
  induction l with
  | nil => exact absurd rfl h
  | cons x l ih =>
    by_cases hl : l = []
    · subst hl
      exact ⟨x, by simp, rfl, by simp⟩
    · obtain ⟨a, ha, hfirst, hleast⟩ := ih hl
      by_cases hx : rankDistance n last x.1 ≤ rankDistance n last a.1
      · refine ⟨x, by simp, by simp [firstWaiter, hfirst, hx], fun b hb => ?_⟩
        rcases List.mem_cons.mp hb with rfl | hb
        · exact le_rfl
        · exact hx.trans (hleast b hb)
      · refine ⟨a, by simp [ha], by simp [firstWaiter, hfirst, hx], fun b hb => ?_⟩
        rcases List.mem_cons.mp hb with rfl | hb
        · exact (Nat.lt_of_not_le hx).le
        · exact hleast b hb

end Sys2Proof.Machine
end

section
open Sys2Proof Sys2Proof.Machine

/-- Settles O19, clause by clause. -/
theorem gangTokens : Obligations.GangTokens := by
  unfold Obligations.GangTokens
  intro s q gs gr k r t u c w
  refine ⟨fun hc h12 hr h256 hg hk h1 h8 hcl hm hf hw => ?accepted, fun hc h12 hr h256 hg hk h1 h8 h => ?waits,
    fun hc h => exec_qpushx_misuse hc ?misuse, exec_gangTokenAccept, fun ⟨a, ha, _⟩ => firstWaiter_least _ _ (List.ne_nil_of_mem ha)⟩
  case accepted =>
    subst hr
    rw [exec_qpushx hc h12 h256 hg ((pushable_iff _).mpr ⟨h1, h8⟩) hk, if_pos ⟨hcl, hm, hf, hw⟩]
    rfl
  case waits =>
    subst hr
    rw [exec_qpushx hc h12 h256 hg ((pushable_iff _).mpr ⟨h1, h8⟩) hk, if_neg]
    rintro ⟨hcl, hm, hf, hw⟩
    simp [hcl, hm, hf, hw] at h
  case misuse =>
    have hp := pushable_iff (s.g gs)
    rw [← Bool.not_eq_true, hp]
    omega

end

section
namespace Sys2Proof.Machine

/-! ## What a fault leaves of the tile that takes it (06 R146, 18 R421) -/

@[simp] theorem Tile.settle_mem (x : Tile) (t now : Nat) (f : FaultRec) : (x.settle t now f).mem = x.mem := by
  unfold Tile.settle
  split <;> rfl

/-- Of the core that takes a fault the drain changes what it waits for and what it counts for. -/
theorem State.core_coreTakes (s : State) (f : FaultRec) : (s.coreTakes f).core = { s.core with did := none }.drain := by
  have h (x : Tile) (g : FaultRec) (c : CoreId) : (x.takeFault g).core c = (x.core c).drain := by cases c <;> rfl
  change (s.coreTakes f).me.core s.curCore = _
  rw [State.me_coreTakes, h, Tile.settle_core, State.me_setCore, Tile.core_setCore_same]

theorem State.phase_coreTakes (s : State) (f : FaultRec) : (s.coreTakes f).me.life.phase = .draining := by
  rw [State.me_coreTakes]
  rfl

theorem State.tileMem_coreTakes (s : State) (f : FaultRec) : (s.coreTakes f).me.mem = s.me.mem := by
  rw [State.me_coreTakes]
  change (Tile.settle _ _ _ _).mem = _
  simp

theorem State.tile_coreTakes_other (s : State) (f : FaultRec) {k : Nat} (h : k ≠ s.curTile.val) :
    (s.coreTakes f).tile k = s.tile k := by
  rw [State.coreTakes, State.takeFault, State.tile_setTile_other _ _ h, State.tile_setCore_other _ _ h]

theorem Tile.takeFault_held {x : Tile} {g : FaultRec} (h : x.life.fault = some g) (f : FaultRec) :
    (x.takeFault f).life.fault = some g := by
  simp [Tile.takeFault, h]

/-- What ranks before the fault that a tile holds has arisen in the same tick, and its unit comes first. -/
theorem Tile.outranked_imp {x : Tile} {g f : FaultRec} {t now : Nat} (h : x.life.fault = some g) (ho : x.outranked t now f = true) :
    g.tick = now ∧ f.order < g.order ∧ x.life.phase = .draining := by
  simp only [Tile.outranked, h, Bool.and_eq_true, decide_eq_true_eq] at ho
  obtain ⟨⟨⟨⟨ht, hf⟩, hp⟩, -⟩, -⟩ := ho
  exact ⟨ht, hf, hp⟩

/-- The fault that a tile holds stays recorded, unless the new one ranks before it. -/
theorem State.fault_coreTakes_held {s : State} {g : FaultRec} (h : s.me.life.fault = some g) (f : FaultRec) :
    (s.coreTakes f).me.life.fault = some g ∨ (g.tick = s.seiche ∧ f.order < g.order ∧ s.me.life.phase = .draining ∧
      (s.coreTakes f).me.life.fault = some { f with tick := s.seiche }) := by
  have hlife : (s.setCore { s.core with did := none }).me.life = s.me.life := by simp
  rw [State.me_coreTakes, Tile.settle]
  split
  · next ho =>
    obtain ⟨ht, hf, hp⟩ := Tile.outranked_imp (hlife ▸ h) ho
    exact .inr ⟨ht, hf, hlife ▸ hp, Tile.takeFault_fault rfl _⟩
  · exact .inl (Tile.takeFault_held (hlife ▸ h) _)

theorem canFetch_of_not_running {s : State} {t : Nat} (h : (s.tile t).life.phase ≠ .running) (c : CoreId) : canFetch s t c = false := by
  simp [canFetch, h]

/-! ## The running core and the tiles through what the trace writes (20 R476 to R484) -/

/-- The tile and the core whose instruction runs. -/
def State.running (s : State) : TileId × CoreId := (s.curTile, s.curCore)

theorem SameButMem.running {s t : State} (h : SameButMem s t) : t.running = s.running := Prod.ext h.curTile h.curCore

theorem running_takeFrame {s t : State} {part n fr : Nat} (e : takeFrame s part n = some (fr, t)) : t.running = s.running := by
  unfold takeFrame at e
  dsimp only at e
  split at e <;> cases e
  rfl

theorem running_writeEntry (s : State) (pa e : Nat) : (s.writeEntry pa e).running = s.running := (sameButMem_writeMem ..).running

theorem running_writeLeaves (s : State) (pa frame size : Nat) (rd w x : Bool) :
    (writeLeaves s pa frame size rd w x).running = s.running := by
  unfold writeLeaves
  split
  · exact foldl_keeps (F := State.running) (fun _ _ => running_writeEntry ..) _ _
  · exact running_writeEntry ..

theorem running_mapExports (s : State) (part a n : Nat) (f : Nat → Nat) : (mapExports s part a n f).running = s.running := by
  unfold mapExports
  split
  · rfl
  · refine foldl_keeps (F := State.running) (fun s t => foldl_keeps (F := State.running) (fun s i => ?_) _ _) _ _
    dsimp only
    split <;> rfl

theorem running_complete {s t : State} {part va : Nat} (e : complete s part va = some t) : t.running = s.running := by
  unfold complete at e
  dsimp only at e
  split at e
  · cases e
  split at e
  · split at e <;> cases e
    next ef => exact (running_writeLeaves ..).trans (running_takeFrame ef)
  split at e
  · split at e <;> cases e
    next ef => exact ((running_mapExports ..).trans (running_writeLeaves ..)).trans (running_takeFrame ef)
  · split at e <;> cases e
    rfl

theorem running_hubTranslate (s : State) (d part va : Nat) (acc : Access) : (hubTranslate s d part va acc).2.running = s.running := by
  have ht := (translate_same s d part .own va acc).running
  unfold hubTranslate
  split
  · next e =>
    rw [e] at ht
    split
    · exact ht
    · split
      · next ec => exact ((translate_same ..).running.trans (running_complete ec)).trans ht
      · exact ht
  · exact ht

theorem running_hubReadPage (s : State) (d part va n : Nat) : (hubReadPage s d part va n).2.running = s.running := by
  have ht := running_hubTranslate s d part va .read
  unfold hubReadPage
  split
  · next e =>
    rw [e] at ht
    split
    · exact ht
    · split <;> exact ht
  · next e => rwa [e] at ht
  · next e => rwa [e] at ht

theorem running_hubWritePage (s : State) (d part va : Nat) (l : List Byte) : (hubWritePage s d part va l).2.running = s.running := by
  have ht := running_hubTranslate s d part va .write
  unfold hubWritePage
  split
  · next e =>
    rw [e] at ht
    split
    · exact ht
    · exact (sameButMem_writeMem ..).running.trans ht
  · next e => rwa [e] at ht
  · next e => rwa [e] at ht

/-- The running core is the same, and every tile is as it was but for its trace. -/
structure TraceFrame (s t : State) : Prop where
  running : t.running = s.running
  tile : ∀ k, ∃ x, t.tile k = { s.tile k with trace := x }

theorem TraceFrame.of_hub {s t : State} (h : HubFrame s t) (hr : t.running = s.running) : TraceFrame s t :=
  ⟨hr, fun k => ⟨(s.tile k).trace, h.tile k⟩⟩

theorem TraceFrame.refl (s : State) : TraceFrame s s := .of_hub (.refl s) rfl

theorem TraceFrame.trans {s t u : State} (h : TraceFrame s t) (k : TraceFrame t u) : TraceFrame s u := by
  refine ⟨k.running.trans h.running, fun i => ?_⟩
  obtain ⟨x, hx⟩ := h.tile i
  obtain ⟨y, hy⟩ := k.tile i
  exact ⟨y, by rw [hy, hx]⟩

theorem TraceFrame.ite {s t u : State} {c : Prop} [Decidable c] (ht : TraceFrame s t) (hu : TraceFrame s u) :
    TraceFrame s (if c then t else u) := by
  split <;> assumption

theorem TraceFrame.foldl {α : Type} {f : State → α → State} (hf : ∀ s a, TraceFrame s (f s a)) (l : List α) (s : State) :
    TraceFrame s (l.foldl f s) := by
  induction l generalizing s with
  | nil => exact .refl s
  | cons a l ih => exact (hf s a).trans (ih _)

theorem setTrace_traceFrame (s : State) (t : Nat) (x : Trace) : TraceFrame s (s.setTrace t x) := by
  refine ⟨rfl, fun k => ?_⟩
  by_cases h : k = t
  · exact ⟨x, by rw [State.setTrace, h, State.tile_setTile_same]⟩
  · exact ⟨(s.tile k).trace, by rw [State.setTrace, State.tile_setTile_other _ _ h]⟩

theorem setPart_traceFrame (s : State) (p : Nat) (x : Part) : TraceFrame s (s.setPart p x) :=
  ⟨rfl, fun k => ⟨(s.tile k).trace, rfl⟩⟩

theorem traceDw_traceFrame (s : State) (t off v : Nat) : TraceFrame s (s.traceDw t off v) := by
  have hw := TraceFrame.of_hub (hubWritePage_hubFrame s (tileDie t) (s.tile t).partNo ((s.traceBase t + off) % 2 ^ 56) (leBytes v 8))
    (running_hubWritePage ..)
  unfold State.traceDw
  dsimp only
  split
  · exact .refl s
  · split
    · next e => rwa [e] at hw
    · next u e =>
      rw [e] at hw
      exact (hw.trans (setPart_traceFrame ..)).trans (setTrace_traceFrame ..)

theorem traceHeader_traceFrame (s : State) (t off : Nat) : TraceFrame s (s.traceHeader t off).2 := by
  have hr := TraceFrame.of_hub (hubReadPage_hubFrame s (tileDie t) (s.tile t).partNo ((s.traceBase t + off) % 2 ^ 56) 8)
    (running_hubReadPage ..)
  unfold State.traceHeader
  split
  · next e => rwa [e] at hr
  · next e => rwa [e] at hr

theorem traceRing_traceFrame (s : State) (t c : Nat) (l : List Nat) : TraceFrame s (s.traceRing t c l) := by
  induction l generalizing s c with
  | nil => exact .refl s
  | cons v l ih => exact (traceDw_traceFrame ..).trans (ih ..)

theorem traceEmit_traceFrame (s : State) (t : Nat) (r : TraceRec) : TraceFrame s (s.traceEmit t r) :=
  .ite (traceRing_traceFrame ..) (((traceRing_traceFrame ..).trans (setTrace_traceFrame ..)).trans (traceDw_traceFrame ..))

theorem traceGap_traceFrame (s : State) (t tick : Nat) : TraceFrame s (s.traceGap t tick) :=
  ((traceEmit_traceFrame ..).trans (setTrace_traceFrame ..)).trans (traceDw_traceFrame ..)

theorem traceRoom_traceFrame (s : State) (t : Nat) (r : TraceRec) : TraceFrame s (s.traceRoom t r) :=
  .ite (.refl s) (((traceHeader_traceFrame s t 8).trans (setTrace_traceFrame ..)).trans (setTrace_traceFrame ..))

theorem tracePlace_traceFrame (s : State) (t : Nat) (r : TraceRec) : TraceFrame s (s.tracePlace t r) :=
  have hr := traceRoom_traceFrame s t r
  .ite (.refl s) (.ite (hr.trans (traceEmit_traceFrame ..))
    (.ite (hr.trans (setTrace_traceFrame ..)) (hr.trans (traceGap_traceFrame ..))))

theorem traceSettle_traceFrame (s : State) (t : Nat) : TraceFrame s (s.traceSettle t) :=
  .ite (.refl s) ((setTrace_traceFrame ..).trans (.foldl (fun _ _ => tracePlace_traceFrame ..) _ _))

theorem tracePut_traceFrame (s : State) (t unit : Nat) (dws : List Word) : TraceFrame s (s.tracePut t unit dws) := by
  unfold State.tracePut
  dsimp only
  split
  · have h := (traceRoom_traceFrame s t { unit := unit, tick := s.seiche, dws := dws }).trans (traceSettle_traceFrame _ t)
    exact .ite (h.trans (setTrace_traceFrame ..)) (h.trans (tracePlace_traceFrame ..))
  · exact tracePlace_traceFrame ..

theorem traceAppend_traceFrame (s : State) (t unit : Nat) (dws : List Word) : TraceFrame s (s.traceAppend t unit dws) := by
  have hr : TraceFrame s (if (s.part (s.tile t).partNo).dbg.trmode then
      s.traceRoom t { unit := unit, tick := s.seiche, dws := dws } else s) := .ite (traceRoom_traceFrame ..) (.refl s)
  exact .ite (.refl s) (.ite (hr.trans (setTrace_traceFrame ..)) (hr.trans (setTrace_traceFrame ..)))

theorem flushBr_traceFrame (s : State) (t c : Nat) : TraceFrame s (s.flushBr t c) :=
  have ht := setTrace_traceFrame s t
  .ite (.refl s) (.ite ((ht _).trans (traceAppend_traceFrame ..)) (ht _))

theorem traceCore_traceFrame (s : State) (t c : Nat) (dws : List Word) : TraceFrame s (s.traceCore t c dws) :=
  .ite ((flushBr_traceFrame ..).trans (traceAppend_traceFrame ..)) (.refl s)

theorem traceToken_traceFrame (s : State) (q : Nat) (push : Bool) : TraceFrame s (s.traceToken q push) := by
  unfold State.traceToken
  dsimp only
  split
  · exact .refl s
  · have h := setTrace_traceFrame s s.curTile.val
    exact .ite ((h _).trans (traceCore_traceFrame ..)) (h _)

theorem traceRestart_traceFrame (s : State) (t : Nat) : TraceFrame s (s.traceRestart t) :=
  have hbrs (u : State) : TraceFrame u (u.flushBrs t) :=
    ((flushBr_traceFrame u t 0).trans (flushBr_traceFrame ..)).trans (flushBr_traceFrame ..)
  have hmk (u : State) : TraceFrame u (u.traceMk t 3) :=
    .ite (((hbrs u).trans (traceSettle_traceFrame ..)).trans (tracePut_traceFrame ..)) (.refl u)
  .ite ((setTrace_traceFrame ..).trans (hmk _)) (.refl s)

/-! ## Resuming (06 R148, 18 R422, R423) -/

theorem Op.resume_runs (o : Op) : o.resume.state ≠ .faulted ∧ o.resume.suspended = false := by
  refine ⟨?_, rfl⟩
  change (if o.state = .faulted then OpState.running else o.state) ≠ .faulted
  split
  · decide
  · assumption

/-- A tile that resumes is the tile that `Tile.resume` gives, its clock ungated, but for its trace. -/
theorem tile_resumeTile (s : State) (t : Nat) : ∃ x l,
    (s.resumeTile t).tile t = { (s.tile t).resume s.seiche with trace := x, life := l } ∧ l.phase = .running ∧ l.fault = none := by
  obtain ⟨x, hx⟩ := (traceRestart_traceFrame (s.setTile t { (s.tile t).resume s.seiche with
    life := { ((s.tile t).resume s.seiche).life with gatedClock := false } }) t).tile t
  rw [State.tile_setTile_same] at hx
  exact ⟨x, _, hx, rfl, rfl⟩

/-- TILE_RESUME of a tile on no chain. -/
theorem exec_tileResume_alone {s : State} {t : TileId} (hp : (s.tile t.val).life.phase = .frozen)
    (hf : (s.tile t.val).life.fault.isSome = true) (hr : (s.tile t.val).life.resolved = true)
    (hrest : (s.tile t.val).life.rest = none) (hc : (s.tile t.val).mem.chainLen ≤ 1) :
    exec (.tileResume t) s = .next (s.resumeTile t.val) := by
  have hm : s.mates t.val = [] := if_pos hc
  simp [exec, execTileResume, hp, hf, hr, hrest, hm]

end Sys2Proof.Machine
end

section
open Sys2Proof Sys2Proof.Machine

/-- Settles O39: first the fault that is taken, then the resume. -/
theorem faultsDrainAndResume : Obligations.FaultsDrainAndResume := by
  unfold Obligations.FaultsDrainAndResume
  rintro s u code detail t
  refine ⟨?taken, fun hp hf hr hrest _ hc => ⟨_, exec_tileResume_alone hp hf hr hrest hc, ?resumed⟩⟩
  case taken =>
    rintro rfl
    have hcore := State.core_coreTakes s (coreRec s.core s.curCore code detail)
    have hphase := State.phase_coreTakes s (coreRec s.core s.curCore code detail)
    refine ⟨fun h => State.fault_coreTakes h _, fun g h => State.fault_coreTakes_held h _, hphase, State.pc_coreTakes s _,
      fun r => (congrArg (Core.read · r) hcore).trans rfl, (congrArg Core.frames hcore).trans rfl, State.tileMem_coreTakes s _, rfl, rfl,
      fun k h => State.tile_coreTakes_other s _ h, canFetch_of_not_running ?_ _⟩
    exact fun h => absurd (hphase.symm.trans h) (by decide)
  case resumed =>
    obtain ⟨x, l, hx, hp, hf⟩ := tile_resumeTile s t.val
    refine ⟨by rw [hx]; exact hp, by rw [hx]; exact hf, fun c => ?_, by rw [hx]; rfl, fun e o ho => ?_⟩
    · rw [State.coreAt, hx, State.coreAt]
      cases c <;> rfl
    · rw [hx] at ho
      have hops : ({ (s.tile t.val).resume s.seiche with trace := x, life := l } : Tile).eng e = ((s.tile t.val).eng e).resume := by
        cases e <;> rfl
      rw [hops] at ho
      obtain ⟨a, -, rfl⟩ := List.mem_map.mp ho
      exact a.resume_runs

end

section
namespace Sys2Proof.Machine

/-! ## A token's way through a local queue (06 R131, R137; 05 R117) -/

/-- A token that is no SLOT or FREE, or whose pond has its slot, is not stale. -/
theorem stale_eq_false {m : SMap Word} {w : Word}
    (h : w.toNat / 2 ^ 28 % 16 ≤ 2 → ∀ p b, p = w.toNat / 2 ^ 24 % 16 → b = pondOf m p →
      Pond.v b = true ∧ isFollower m p = false ∧ w.toNat / 2 ^ 21 % 8 = Pond.gen b ∧
      w.toNat / 2 ^ 17 % 16 < Pond.slots b ∧ w.toNat % 2 ^ 17 * 64 ≤ slotBytes m p) : stale m (w.truncate 32) = false := by
  have hf {lo n : Nat} (hn : lo + n ≤ 32) := field_truncate w hn
  simp only [stale, tokType_truncate, hf (lo := 24) (n := 4) (by decide), hf (lo := 21) (n := 3) (by decide),
    hf (lo := 17) (n := 4) (by decide), hf (lo := 0) (n := 17) (by decide)]
  by_cases ht : w.toNat / 2 ^ 28 % 16 = 1 ∨ w.toNat / 2 ^ 28 % 16 = 2
  · obtain ⟨hv, hfol, hgen, hslot, hbytes⟩ := h (by omega) (field w.toNat 24 4) _ rfl rfl
    have hgen' : field w.toNat 21 3 = Pond.gen (pondOf m (field w.toNat 24 4)) := hgen
    have hslot' : field w.toNat 17 4 < Pond.slots (pondOf m (field w.toNat 24 4)) := hslot
    have hbytes' : field w.toNat 0 17 * 64 ≤ slotBytes m (field w.toNat 24 4) := by rwa [field, Nat.pow_zero, Nat.div_one]
    simp [hv, hfol, hgen', hslot', hbytes']
  · simp only [ht, decide_false, Bool.false_and]

/-- Remote stores performed leave every tile's queues and control registers. -/
theorem flushMine_queues (s : State) (k : Nat) :
    (s.flushMine.tile k).queue = (s.tile k).queue ∧ (s.flushMine.tile k).ctl = (s.tile k).ctl := by
  have hset (u : State) (t : Nat) (x : Tile) (hq : x.queue = (u.tile t).queue) (hc : x.ctl = (u.tile t).ctl) :
      (((u.setTile t x).tile k).queue, ((u.setTile t x).tile k).ctl) = ((u.tile k).queue, (u.tile k).ctl) := by
    by_cases h : k = t
    · subst h; rw [State.tile_setTile_same, hq, hc]
    · rw [State.tile_setTile_other _ _ h]
  have hperf (u : State) (r : RemoteStore) :
      (((u.performRemote r).tile k).queue, ((u.performRemote r).tile k).ctl) = ((u.tile k).queue, (u.tile k).ctl) :=
    hset u _ _ rfl rfl
  rw [← Prod.mk.injEq]
  unfold State.flushMine State.flushRemote
  dsimp only
  split
  · rfl
  · exact (foldl_keeps (F := fun u : State => ((u.tile k).queue, (u.tile k).ctl)) hperf _ _).trans
      (hset s _ _ (Tile.setCore_queue ..) (Tile.setCore_ctl ..))

theorem TraceFrame.curTile {s t : State} (h : TraceFrame s t) : t.curTile = s.curTile := congrArg Prod.fst h.running

theorem TraceFrame.me {s t : State} (h : TraceFrame s t) : ∃ x, t.me = { s.me with trace := x } := by
  rw [State.me, h.curTile]
  exact h.tile _

theorem TraceFrame.g {s t : State} (h : TraceFrame s t) (r : Reg) : t.g r = s.g r := by
  obtain ⟨x, hx⟩ := h.me
  have hc : t.curCore = s.curCore := congrArg Prod.snd h.running
  rw [State.g, State.core, hx, hc]
  cases hs : s.curCore <;> simp only [State.g, State.core, hs] <;> rfl

/-- The tile of a `qpush` that completes: its queue has the token at the tail, its control registers are as they were. -/
theorem tile_of_qpush {s t : State} {q : Fin 16} {gs : Reg} (hc : Claims.clean s [gs]) (h : s.mayPush q gs)
    (hf : (s.me.queueAt q.val).full = false) (hd : s.me.tokenDue q.val = false) (ht : exec (.qpush q gs) s = .next t) :
    t.me.queueAt q.val = (s.me.queueAt q.val).push ((s.g gs).truncate 32) ∧ t.me.ctl = s.me.ctl := by
  obtain rfl := Host.Outcome.next.inj ((exec_qpush_appends hc h hf hd).symm.trans ht)
  obtain ⟨x, hx⟩ := (traceToken_traceFrame (((s.flushMine.setQueue s.curTile.val q.val
    ((s.flushMine.me.queueAt q.val).push ((s.g gs).truncate 32))).skip 4)) q.val true).me
  obtain ⟨hq, hctl⟩ := flushMine_queues s s.curTile.val
  have hcur := (flushMine_cur s).1
  have hold : s.flushMine.me.queueAt q.val = s.me.queueAt q.val := by rw [Tile.queueAt, State.me, hcur, hq]; rfl
  rw [hx, hold, ← hcur, State.skip, State.me_setCore, State.me_setQueue_cur]
  exact ⟨by simp [Tile.queueAt], by simp [State.me, hcur, hctl]⟩

/-- The consumer's pop of a sound head: gd takes the token, and the queue is without it. -/
theorem exec_qpop_sound {s : State} {gd : Reg} {q : Fin 16} {w : W32} {rest : List Tok} (h : s.curCore.num = s.me.consumerOf q.val)
    (hk : (s.me.queueAt q.val).toks = { w := w } :: rest) (hs : stale s.me.ctl.pond w = false) :
    ∃ u, exec (.qpop gd q) s = .next u ∧ (gd ≠ 0 → u.g gd = w.zeroExtend 64) ∧ u.me.queueAt q.val = (s.me.queueAt q.val).pop := by
  have hpop := (exec_take_head (gd := gd) h hk).1
  rw [State.popToken_sound (State.noteToken_sound rfl rfl) rfl hs] at hpop
  have hframe := traceToken_traceFrame (Claims.wrote (s.setQueue s.curTile.val q.val (s.me.queueAt q.val).pop) gd
    (w.zeroExtend 64) 4) q.val false
  refine ⟨_, hpop, fun hgd => ?_, ?_⟩
  · have h0 : ¬ gd.val = 0 := fun h0 => hgd (Fin.ext h0)
    rw [hframe.g]
    simp [Claims.wrote, State.g, Core.read_write_same, h0]
  · obtain ⟨x, hx⟩ := hframe.me
    rw [hx, Claims.wrote, State.skip, State.me_setCore, State.setG, State.me_setCore, State.me_setQueue_cur]
    simp [Tile.queueAt]

/-- The consumer of a local queue is fixed (06 Table 6.1). -/
theorem Tile.consumerOf_local {q : Nat} (h : q < 12) (x y : Tile) : x.consumerOf q = y.consumerOf q := by
  have hl : q < [1, 1, 2, 2, 0, 0, 0, 0, 1, 1, 2, 2].length := h
  rw [Tile.consumerOf, Tile.consumerOf, List.getD_eq_getElem _ _ hl, List.getD_eq_getElem _ _ hl]

end Sys2Proof.Machine
end

section
open Sys2Proof Sys2Proof.Machine

/-- Settles O18: the tile after the push, then the pop of its only token. -/
theorem tokenPassesThroughQueue : Obligations.TokenPassesThroughQueue := by
  unfold Obligations.TokenPassesThroughQueue
  intro s t q gs gd c hc h12 hp h1 h8 hpond hdue hdepth hempty hcons ht
  have hfull : (s.me.queueAt q.val).full = false := by rw [← Bool.not_eq_true, Queue.full_iff, hempty]; simp; omega
  have htok : s.me.tokenDue q.val = false := by
    rw [← Bool.not_eq_true, Tile.tokenDue_iff]
    rintro ⟨e, o, ho, hs, hq⟩
    exact hdue e o ho hs hq
  obtain ⟨hq, hctl⟩ := tile_of_qpush hc ⟨h12, hp, h1, h8⟩ hfull htok ht
  have hme : ({ t with curCore := c } : State).me = t.me := rfl
  have htoks : (t.me.queueAt q.val).toks = [{ w := (s.g gs).truncate 32 }] := by rw [hq, Queue.push, hempty]; rfl
  have hsound : stale t.me.ctl.pond ((s.g gs).truncate 32) = false := by rw [hctl]; exact stale_eq_false hpond
  obtain ⟨u, hu, hg, hpop⟩ := exec_qpop_sound (s := { t with curCore := c }) (gd := gd)
    (hcons.trans (Tile.consumerOf_local h12 ..)) htoks hsound
  rw [hme, hq] at hpop
  refine ⟨u, hu, hg, ?_, ?_, ?_⟩ <;> rw [hpop]
  · simp [Queue.push, Queue.pop, hempty]
  · rfl
  · rfl

end

section
namespace Sys2Proof.Machine

/-! ## A fault that firmware delivers (18 R417; 20 R475) -/

/-- Tile 0 of the reset machine, its L-core in a scalar unit that waits for firmware to complete page 0, which no table maps. -/
def missedLoad : State :=
  { State.reset with tiles := [(0, { cl := { wait := .firmware { code := Code.notPresent } 0, did := some 0 } })] }

theorem firmwareCore_missedLoad : (missedLoad.tile 0).firmwareCore = some (.l, { code := Code.notPresent }, 0) := rfl

theorem complete_missedLoad : complete missedLoad (missedLoad.tile 0).partNo 0 = none := rfl

/-- The core's unit does not complete: the delivery of its fault leaves no leaf of it to be counted. -/
theorem exec_firmwareResolve_missedLoad : ∃ u, exec (.firmwareResolve 0) missedLoad = .next u ∧ (u.coreAt 0 .l).did = none :=
  ⟨_, rfl, rfl⟩

end Sys2Proof.Machine
end

section
open Sys2Proof Sys2Proof.Machine

/-- Refutes O40: where firmware cannot complete the translation a core waits for, FIRMWARE_RESOLVE also clears `did`, the leaf in
which the unit under way counts (20 R475), and the statement has the core keep it. -/
theorem not_freezingAndFirmware : ¬ Obligations.FreezingAndFirmware := by
  unfold Obligations.FreezingAndFirmware
  intro h
  have o : Op := { seq := 0, kind := .tload, rcd := parseRec [], owner := .l, attached := true, prio := 0, latch := {} }
  obtain ⟨-, -, hcore, -⟩ := h missedLoad missedLoad 0 .l .load o { code := Code.notPresent } 0 .cancel
    { part := 0, node := 0, rank := 0, attempt := 0 } { addr := 0 }
  have hclaimed := (hcore firmwareCore_missedLoad).2 complete_missedLoad
  obtain ⟨u, hu, hdid⟩ := exec_firmwareResolve_missedLoad
  have hkept : (u.coreAt 0 .l).did = some 0 := by
    rw [Host.Outcome.next.inj (hu.symm.trans hclaimed)]
    rfl
  exact absurd (hdid.symm.trans hkept) (by decide)

end

section
namespace Sys2Proof.Machine

/-! # Sync cells, bound regions, sigwait, posted writes (07) -/

/-! ## The word of a sync cell (07 Table 7.4) -/

theorem readLE_lt_two_pow (m : Memory) (a n : Nat) : m.readLE a n < 2 ^ (8 * n) := by
  have h := leNat_lt (m.bytes a n)
  rwa [Memory.length_bytes, show (256 : Nat) = 2 ^ 8 from rfl, ← Nat.pow_mul] at h

theorem readLE_eight_lt (m : Memory) (a : Nat) : m.readLE a 8 < 2 ^ 64 := readLE_lt_two_pow m a 8

theorem Cell.next_of_lt {v : Nat} (h : v < 2 ^ 64) : Cell.next v = v / 2 ^ 48 := by
  simp only [Cell.next, field]; omega

theorem cellFields_setNext {v : Nat} (h : v < 2 ^ 64) (x : Nat) : setField v 48 16 x < 2 ^ 64 ∧
    Claims.cellFields (setField v 48 16 x) = (x % 2 ^ 16, v / 2 ^ 32 % 2 ^ 16, v / 2 ^ 16 % 2 ^ 16, v % 2 ^ 16) := by
  simp only [Claims.cellFields, setField, field, Prod.mk.injEq]; omega

theorem cellFields_setServe {v : Nat} (h : v < 2 ^ 64) (x : Nat) : setField v 32 16 x < 2 ^ 64 ∧
    Claims.cellFields (setField v 32 16 x) = (v / 2 ^ 48, x % 2 ^ 16, v / 2 ^ 16 % 2 ^ 16, v % 2 ^ 16) := by
  simp only [Claims.cellFields, setField, field, Prod.mk.injEq]; omega

theorem cellFields_setReaders {v : Nat} (h : v < 2 ^ 64) (x : Nat) : setField v 16 16 x < 2 ^ 64 ∧
    Claims.cellFields (setField v 16 16 x) = (v / 2 ^ 48, v / 2 ^ 32 % 2 ^ 16, x % 2 ^ 16, v % 2 ^ 16) := by
  simp only [Claims.cellFields, setField, field, Prod.mk.injEq]; omega

/-- The word of a cell to which one more reader is admitted. -/
theorem cellFields_admitReader {v : Nat} (h : v < 2 ^ 64) :
    setField (setField v 16 16 (Cell.readers v + 1)) 32 16 (Cell.serve v + 1) < 2 ^ 64 ∧
    Claims.cellFields (setField (setField v 16 16 (Cell.readers v + 1)) 32 16 (Cell.serve v + 1)) =
      (v / 2 ^ 48, (v / 2 ^ 32 + 1) % 2 ^ 16, (v / 2 ^ 16 + 1) % 2 ^ 16, v % 2 ^ 16) := by
  obtain ⟨hlt, hreaders⟩ := cellFields_setReaders h (Cell.readers v + 1)
  obtain ⟨hlt', hserve⟩ := cellFields_setServe hlt (Cell.serve v + 1)
  refine ⟨hlt', hserve.trans ?_⟩
  simp only [Claims.cellFields, Prod.mk.injEq] at hreaders
  obtain ⟨h1, -, h3, h4⟩ := hreaders
  rw [h1, h3, h4, Cell.serve, Cell.readers, field, field, Nat.mod_add_mod, Nat.mod_add_mod]

/-- The word of a cell that a holder, exclusive or not, gives back. -/
theorem cellFields_released {v : Nat} (h : v < 2 ^ 64) (excl : Prop) [Decidable excl] :
    (if excl then setField v 32 16 (Cell.serve v + 1) else setField v 16 16 (Cell.readers v + 2 ^ 16 - 1)) < 2 ^ 64 ∧
    Claims.cellFields (if excl then setField v 32 16 (Cell.serve v + 1) else setField v 16 16 (Cell.readers v + 2 ^ 16 - 1)) =
      if excl then (v / 2 ^ 48, (v / 2 ^ 32 + 1) % 2 ^ 16, v / 2 ^ 16 % 2 ^ 16, v % 2 ^ 16)
      else (v / 2 ^ 48, v / 2 ^ 32 % 2 ^ 16, (v / 2 ^ 16 + 2 ^ 16 - 1) % 2 ^ 16, v % 2 ^ 16) := by
  split
  · obtain ⟨hlt, hserve⟩ := cellFields_setServe h (Cell.serve v + 1)
    exact ⟨hlt, by rw [hserve, Cell.serve, field, Nat.mod_add_mod]⟩
  · obtain ⟨hlt, hreaders⟩ := cellFields_setReaders h (Cell.readers v + 2 ^ 16 - 1)
    refine ⟨hlt, hreaders.trans ?_⟩
    simp only [Cell.readers, field, Prod.mk.injEq, true_and, and_true]
    omega

/-- The granules that a write leaves poisoned are among those that were. -/
theorem badGranule_clearGranules {bad : List Nat} {pa n : Nat} (h : badGranule bad pa n = none) (a k : Nat) :
    badGranule (clearGranules bad a k) pa n = none := by
  rw [badGranule, List.find?_eq_none] at h ⊢
  exact fun g hg => h g (List.mem_of_mem_filter hg)

/-- A word written whole at a sound place reads back. -/
theorem read8_writeMem {s : State} {pa w : Nat} (hb : badGranule s.memBad pa 8 = none) (hw : w < 2 ^ 64) :
    (s.writeMem pa (leBytes w 8)).read8 pa = w := by
  rw [State.read8, State.readLE_writeMem _ _ _ _ hb]
  exact Nat.mod_eq_of_lt hw

theorem byte_writeWord_other (s : State) {pa a : Nat} (w : Nat) (h : a < pa ∨ pa + 8 ≤ a) :
    (s.writeMem pa (leBytes w 8)).mem.byte a = s.mem.byte a :=
  State.byte_writeMem_other _ _ (by rwa [length_leBytes])

@[simp] theorem State.core_writeMem (s : State) (pa : Nat) (l : List Byte) : (s.writeMem pa l).core = s.core :=
  (sameButMem_writeMem s pa l).core

/-! ## The hold table (07 R167) -/

@[simp] theorem Core.putHold_pc (k : Core) (h : Hold) : (k.putHold h).pc = k.pc := by unfold Core.putHold; split <;> rfl
@[simp] theorem Core.putHold_wait (k : Core) (h : Hold) : (k.putHold h).wait = k.wait := by unfold Core.putHold; split <;> rfl

@[simp] theorem Core.holdOf_skip (k : Core) (n va : Nat) : (k.skip n).holdOf va = k.holdOf va := rfl

/-- A cell that the table does not name takes a new entry. -/
theorem Core.putHold_new {k : Core} {h : Hold} (hn : k.holdOf h.cell = none) : k.putHold h = { k with hold := k.hold ++ [h] } := by
  simp [Core.putHold, hn]

/-- The last entry, of a cell that no other entry names, is the one that a second entry of the cell replaces. -/
theorem Core.hold_putHold_last {k : Core} {l : List Hold} {g h : Hold} (hk : k.hold = l ++ [g]) (hg : g.cell = h.cell)
    (hl : l.find? (·.cell == h.cell) = none) : (k.putHold h).hold = l ++ [h] := by
  have hsome : (k.holdOf h.cell).isSome = true := by simp [Core.holdOf, hk, hg]
  have hmap : l.map (fun x => if x.cell = h.cell then h else x) = l :=
    (List.map_congr_left fun x hx => if_neg (by simpa using List.find?_eq_none.mp hl x hx)).trans (List.map_id l)
  rw [Core.putHold, if_pos hsome]
  simp [hk, hmap, hg]

/-- The entry of a cell that the table names is replaced. -/
theorem Core.holdOf_putHold_of_some {k : Core} {g h : Hold} (hg : k.holdOf h.cell = some g) :
    (k.putHold h).holdOf h.cell = some h := by
  have hf : ∀ l : List Hold, l.find? (·.cell == h.cell) = some g →
      (l.map fun x => if x.cell = h.cell then h else x).find? (·.cell == h.cell) = some h := by
    intro l hl
    induction l with
    | nil => simp at hl
    | cons x l ih =>
      by_cases hx : x.cell = h.cell
      · simp [hx]
      · simp only [List.map_cons, if_neg hx]
        rw [List.find?_cons_of_neg (by simpa using hx)] at hl ⊢
        exact ih hl
  rw [Core.putHold, if_pos (by simp [hg])]
  exact hf _ hg

theorem Core.holdOf_filter (k : Core) (va : Nat) :
    ({ k with hold := k.hold.filter fun h => h.cell != va } : Core).holdOf va = none := by
  simp [Core.holdOf]

/-! ## Acquires (07 R167, R168) -/

/-- The state once a new entry has drawn its ticket. -/
def State.drawTicket (s : State) (va pa : Nat) (w : HoldState) : State :=
  (s.setCore (s.core.putHold { cell := va, state := w, ticket := Cell.next (s.read8 pa) })).writeMem pa
    (leBytes (setField (s.read8 pa) 48 16 (Cell.next (s.read8 pa) + 1)) 8)

/-- CheckHold of a cell that the core neither holds nor waits for: it draws a ticket, where the table has room. -/
theorem checkHold_new {s : State} {va : Nat} (pa : Nat) (w : HoldState) (hn : s.core.holdOf va = none) (hl : s.core.hold.length < 8) :
    checkHold s va pa w = .ok (Cell.next (s.read8 pa), s.drawTicket va pa w) := by
  rw [checkHold, hn]
  exact if_neg hl.not_ge

theorem checkHold_full {s : State} {va : Nat} (pa : Nat) (w : HoldState) (hn : s.core.holdOf va = none) (hl : 8 ≤ s.core.hold.length) :
    checkHold s va pa w = .error 1 := by
  rw [checkHold, hn]
  exact if_pos hl

theorem checkHold_held {s : State} {va : Nat} {w : HoldState} {h : Hold} (pa : Nat) (hh : s.core.holdOf va = some h) (hs : h.state ≠ w) :
    checkHold s va pa w = .error 0 := by
  rw [checkHold, hh]
  exact if_neg hs

section
variable {s s1 : State} {ga : Reg} {va pa : Nat} (hc : Claims.clean s [ga]) (hcell : cellWord s (s.g ga) .atomic = (.ok (va, pa), s1))
include hc hcell

theorem acquireCell_of_ok {excl : Bool} {u : State} {ticket : Nat}
    (h : checkHold s1 va pa (if excl then .waitX else .waitS) = .ok (ticket, u)) :
    acquireCell excl ga s = .next (u.grantCell excl va pa ticket) := by
  rw [acquireCell, withSources_of_clean hc, hcell]
  simp only [h]

theorem acquireCell_of_error {excl : Bool} {case_ : Nat}
    (h : checkHold s1 va pa (if excl then .waitX else .waitS) = .error case_) :
    acquireCell excl ga s = .next (s1.fault Code.syncMisuse case_) := by
  rw [acquireCell, withSources_of_clean hc, hcell]
  simp only [h, State.syncMisuse]

/-- `rel` of a cell held: the entry goes, and SERVE goes on or READERS goes down. -/
theorem execRel_held {h : Hold} (hh : s1.core.holdOf va = some h) (hs : h.state = .exclusive ∨ h.state = .shared) :
    execRel ga s = .next (((s1.setCore { s1.core with hold := s1.core.hold.filter fun h => h.cell != va }).writeMem pa
      (leBytes (if h.state = .exclusive then setField (s1.read8 pa) 32 16 (Cell.serve (s1.read8 pa) + 1)
        else setField (s1.read8 pa) 16 16 (Cell.readers (s1.read8 pa) + 2 ^ 16 - 1)) 8)).skip 4) := by
  rw [execRel, withSources_of_clean hc, hcell]
  rcases hs with hs | hs <;> simp [hh, hs]

theorem execRel_misuse (h : ∀ h, s1.core.holdOf va = some h → h.state ≠ .exclusive ∧ h.state ≠ .shared) :
    execRel ga s = .next (s1.fault Code.syncMisuse 2) := by
  rw [execRel, withSources_of_clean hc, hcell]
  cases hh : s1.core.holdOf va with
  | none => simp [hh, State.syncMisuse]
  | some g =>
    obtain ⟨hx, hs⟩ := h g hh
    cases hg : g.state <;> simp_all [State.syncMisuse]

end

/-- What the draw of a ticket does: an entry more in the hold table, and NEXT one further on. -/
theorem drawTicket_spec {s : State} {va pa : Nat} (w : HoldState) (hn : s.core.holdOf va = none)
    (hb : badGranule s.memBad pa 8 = none) :
    (s.drawTicket va pa w).core = { s.core with hold := s.core.hold ++ [{ cell := va, state := w, ticket := Cell.next (s.read8 pa) }] } ∧
    (s.drawTicket va pa w).read8 pa = setField (s.read8 pa) 48 16 (Cell.next (s.read8 pa) + 1) ∧
    badGranule (s.drawTicket va pa w).memBad pa 8 = none ∧
    ∀ a, a < pa ∨ pa + 8 ≤ a → (s.drawTicket va pa w).mem.byte a = s.mem.byte a := by
  refine ⟨?_, read8_writeMem hb (cellFields_setNext (readLE_eight_lt ..) _).1, badGranule_clearGranules hb _ _,
    fun a ha => byte_writeWord_other _ _ ha⟩
  rw [State.drawTicket, State.core_writeMem, State.core_setCore, Core.putHold_new hn]

/-- The test of an acquire (07 R167): its ticket is served, and for `acqx` no reader is left. -/
def Cell.serves (v : Nat) (excl : Bool) (ticket : Nat) : Prop := Cell.serve v = ticket ∧ (excl = true → Cell.readers v = 0)

section
variable {s : State} {excl : Bool} {va pa ticket : Nat}

theorem grantCell_of_not_served (h : ¬ Cell.serves (s.read8 pa) excl ticket) : s.grantCell excl va pa ticket = s.block (.cell excl va) :=
  if_neg h

/-- An exclusive grant writes nothing. -/
theorem grantCell_exclusive (h : Cell.serves (s.read8 pa) true ticket) : s.grantCell true va pa ticket =
    (s.unblock.setCore (s.unblock.core.putHold { cell := va, state := .exclusive, ticket := ticket })).skip 4 := if_pos h

/-- A shared grant admits the next ticket and counts a reader. -/
theorem grantCell_shared (h : Cell.serves (s.read8 pa) false ticket) : s.grantCell false va pa ticket =
    ((s.unblock.setCore (s.unblock.core.putHold { cell := va, state := .shared, ticket := ticket })).writeMem pa
      (leBytes (setField (setField (s.read8 pa) 16 16 (Cell.readers (s.read8 pa) + 1)) 32 16 (Cell.serve (s.read8 pa) + 1)) 8)).skip 4 :=
  if_pos h

/-- The core of a hold that is granted goes on with its entry. -/
theorem core_grantCell_of_served (h : Cell.serves (s.read8 pa) excl ticket) : (s.grantCell excl va pa ticket).core =
    (({ s.core with wait := .none } : Core).putHold
      { cell := va, state := if excl then .exclusive else .shared, ticket := ticket }).skip 4 := by
  cases excl with
  | true => rw [grantCell_exclusive h]; simp [State.unblock]
  | false => rw [grantCell_shared h]; simp [State.unblock]

end

/-- The ticket drawn does not change whether one is served. -/
theorem Cell.serves_setNext_iff {v : Nat} (h : v < 2 ^ 64) (x : Nat) (excl : Bool) (ticket : Nat) :
    Cell.serves (setField v 48 16 x) excl ticket ↔ v / 2 ^ 32 % 2 ^ 16 = ticket ∧ (excl = true → v / 2 ^ 16 % 2 ^ 16 = 0) := by
  obtain ⟨-, hf⟩ := cellFields_setNext h x
  have hserve : Cell.serve (setField v 48 16 x) = v / 2 ^ 32 % 2 ^ 16 := congrArg (·.2.1) hf
  have hread : Cell.readers (setField v 48 16 x) = v / 2 ^ 16 % 2 ^ 16 := congrArg (·.2.2.1) hf
  rw [Cell.serves, hserve, hread]

section
variable {s s1 : State} {ga : Reg} {va pa v : Nat} (hc : Claims.clean s [ga]) (hcell : cellWord s (s.g ga) .atomic = (.ok (va, pa), s1))
  (hn : s1.core.holdOf va = none) (hl : s1.core.hold.length < 8) (hb : badGranule s1.memBad pa 8 = none) (hv : s1.read8 pa = v)
include hc hcell hn hl hb hv

/-- A new acquire whose ticket is served at once holds the cell. -/
theorem acquireCell_granted (excl : Bool) (hs : v / 2 ^ 32 % 2 ^ 16 = v / 2 ^ 48) (hr : excl = true → v / 2 ^ 16 % 2 ^ 16 = 0) :
    ∃ t, acquireCell excl ga s = .next t ∧ t.core.pc = s1.core.pc + 4 ∧
      t.core.hold = s1.core.hold ++ [{ cell := va, state := if excl then .exclusive else .shared, ticket := v / 2 ^ 48 }] ∧
      Claims.cellFields (t.mem.readLE pa 8) = ((v / 2 ^ 48 + 1) % 2 ^ 16,
        (if excl then v / 2 ^ 32 else v / 2 ^ 32 + 1) % 2 ^ 16, (if excl then 0 else v / 2 ^ 16 + 1) % 2 ^ 16, v % 2 ^ 16) ∧
      ∀ a, a < pa ∨ pa + 8 ≤ a → t.mem.byte a = s1.mem.byte a := by
  have hlt : v < 2 ^ 64 := hv ▸ readLE_eight_lt ..
  have hacq := acquireCell_of_ok hc hcell (checkHold_new pa (if excl then .waitX else .waitS) hn hl)
  obtain ⟨hcore, hword, hbad, hbytes⟩ := drawTicket_spec (if excl then .waitX else .waitS) hn hb
  rw [hv, Cell.next_of_lt hlt] at hacq hcore hword
  generalize s1.drawTicket va pa _ = u at hacq hcore hword hbad hbytes
  have hserves : Cell.serves (u.read8 pa) excl (v / 2 ^ 48) := by rw [hword, Cell.serves_setNext_iff hlt]; exact ⟨hs, hr⟩
  obtain ⟨hlt', hfields⟩ := cellFields_setNext hlt (v / 2 ^ 48 + 1)
  refine ⟨_, hacq, ?_, ?_, ?_⟩
  · rw [core_grantCell_of_served hserves, hcore]
    simp [Core.skip]
  · rw [core_grantCell_of_served hserves, hcore]
    exact Core.hold_putHold_last rfl rfl hn
  · cases excl with
    | true =>
      rw [grantCell_exclusive hserves]
      have hmem : Claims.cellFields (u.mem.readLE pa 8) = _ := (congrArg Claims.cellFields hword).trans hfields
      exact ⟨hmem.trans (by rw [hr rfl]; rfl), hbytes⟩
    | false =>
      rw [grantCell_shared hserves, hword, State.skip_mem]
      obtain ⟨hlt2, hfields2⟩ := cellFields_admitReader hlt'
      refine ⟨?_, fun a ha => (byte_writeWord_other _ _ ha).trans (hbytes a ha)⟩
      rw [← State.read8, read8_writeMem (s := u.unblock.setCore _) hbad hlt2, hfields2]
      simp only [Claims.cellFields, Prod.mk.injEq] at hfields
      simp only [Prod.mk.injEq, Bool.false_eq_true, if_false]
      omega

/-- A new acquire whose ticket is not served, or an `acqx` while a reader is left, waits with its entry. -/
theorem acquireCell_waits (excl : Bool) (hs : v / 2 ^ 32 % 2 ^ 16 = v / 2 ^ 48 → excl = true ∧ v / 2 ^ 16 % 2 ^ 16 ≠ 0) :
    ∃ t, acquireCell excl ga s = .next t ∧ t.core.pc = s1.core.pc ∧ t.core.wait = .cell excl va ∧
      t.core.hold = s1.core.hold ++ [{ cell := va, state := if excl then .waitX else .waitS, ticket := v / 2 ^ 48 }] ∧
      Claims.cellFields (t.mem.readLE pa 8) =
        ((v / 2 ^ 48 + 1) % 2 ^ 16, v / 2 ^ 32 % 2 ^ 16, v / 2 ^ 16 % 2 ^ 16, v % 2 ^ 16) := by
  have hlt : v < 2 ^ 64 := hv ▸ readLE_eight_lt ..
  have hacq := acquireCell_of_ok hc hcell (checkHold_new pa (if excl then .waitX else .waitS) hn hl)
  obtain ⟨hcore, hword, -, -⟩ := drawTicket_spec (if excl then .waitX else .waitS) hn hb
  rw [hv, Cell.next_of_lt hlt] at hacq hcore hword
  generalize s1.drawTicket va pa _ = u at hacq hcore hword
  have hserves : ¬ Cell.serves (u.read8 pa) excl (v / 2 ^ 48) := by
    rw [hword, Cell.serves_setNext_iff hlt]
    exact fun ⟨h, hr⟩ => (hs h).2 (hr (hs h).1)
  rw [grantCell_of_not_served hserves] at hacq
  have hmem : (u.block (.cell excl va)).mem.readLE pa 8 = setField v 48 16 (v / 2 ^ 48 + 1) := hword
  refine ⟨_, hacq, ?_, ?_, ?_, ?_⟩
  · rw [State.core_block, hcore]
  · rw [State.core_block]
  · rw [State.core_block, hcore]
  · rw [hmem, (cellFields_setNext hlt _).2]

end

/-- BLOCKED_INSTRUCTION_RETRY of a core that waits for a cell tests the ticket of its entry once more. -/
theorem exec_retry_cell {s s1 : State} {t : TileId} {c : CoreId} {excl : Bool} {va pa : Nat} {h : Hold}
    (hp : (s.tile t.val).life.phase = .running) (hw : (s.coreAt t.val c).wait = .cell excl va)
    (hc : cellAt { s with curTile := t, curCore := c } va .atomic = (.ok pa, s1)) (hh : s1.core.holdOf va = some h) :
    exec (.blockedInstructionRetry t c) s = .next (s1.grantCell excl va pa h.ticket) := by
  have hturn : State.cellTurn { s with curTile := t, curCore := c } excl va = s1.grantCell excl va pa h.ticket := by
    rw [State.cellTurn, hc]
    simp [hh]
  simp [exec, execBlockedInstructionRetry, hp, hw, hturn]

end Sys2Proof.Machine
end

section
open Sys2Proof Sys2Proof.Machine

/-- Settles O22: first the acquires of a cell not named in the hold table and the releases, then misuse, then the retries of a wait. -/
theorem syncCells : Obligations.SyncCells := by
  unfold Obligations.SyncCells
  refine ⟨fun s s1 ga va pa v hc hcell hb hv => ⟨fun hn hl => ?acquire, fun h hh hst => ?rel⟩,
    fun s s1 ga va pa hc hcell => ⟨fun hn hl => ⟨acquireCell_of_error (excl := true) hc hcell (checkHold_full pa _ hn hl),
        acquireCell_of_error (excl := false) hc hcell (checkHold_full pa _ hn hl)⟩,
      fun h hh => ⟨fun hs => acquireCell_of_error (excl := true) hc hcell (checkHold_held pa hh hs),
        fun hs => acquireCell_of_error (excl := false) hc hcell (checkHold_held pa hh hs), fun hst => ?relWaits⟩, fun hn => ?relNone⟩,
    fun s s1 u t c excl va pa v h hp hw hu hcell hh hv => ?retry⟩
  case acquire =>
    have hgrant := acquireCell_granted hc hcell hn hl hb hv.symm
    have hwait := acquireCell_waits hc hcell hn hl hb hv.symm
    exact ⟨fun hs hr => hgrant true hs fun _ => hr, fun hs => hgrant false hs nofun,
      fun h => hwait true fun hs => ⟨rfl, h.resolve_left (absurd hs)⟩, fun h => hwait false fun hs => absurd hs h⟩
  case rel =>
    have hlt : v < 2 ^ 64 := hv ▸ readLE_eight_lt ..
    have hv' : s1.read8 pa = v := hv.symm
    have hrel := execRel_held hc hcell hh hst
    rw [hv'] at hrel
    obtain ⟨hw, hfields⟩ := cellFields_released hlt (h.state = .exclusive)
    refine ⟨_, hrel, ?_, ?_, ?_, fun a ha => byte_writeWord_other _ _ ha⟩
    · simp [Core.skip]
    · simpa using Core.holdOf_filter s1.core va
    · rw [← hfields]
      exact congrArg Claims.cellFields (read8_writeMem (s := s1.setCore _) hb hw)
  case relWaits =>
    refine execRel_misuse hc hcell fun g hg => ?_
    obtain rfl : h = g := Option.some.inj (hh.symm.trans hg)
    rcases hst with hst | hst <;> simp [hst]
  case relNone => exact execRel_misuse hc hcell (by simp [hn])
  case retry =>
    subst hu
    have hx := exec_retry_cell hp hw hcell hh
    have hserves : Cell.serves (s1.read8 pa) excl h.ticket ↔
        v / 2 ^ 32 % 2 ^ 16 = h.ticket ∧ (excl = true → v / 2 ^ 16 % 2 ^ 16 = 0) := by rw [hv]; rfl
    refine ⟨fun hs hr => ⟨_, hx, ?_⟩, fun hno => ?_⟩
    · rw [core_grantCell_of_served (hserves.mpr ⟨hs, hr⟩)]
      refine ⟨by simp, by simp [Core.skip], ?_⟩
      exact Core.holdOf_putHold_of_some (h := ⟨va, _, _⟩) hh
    · rw [hx, grantCell_of_not_served]
      rw [hserves]
      rintro ⟨hs, hr⟩
      exact hno.elim (absurd hs) fun ⟨he, hne⟩ => hne (hr he)

end

section
namespace Sys2Proof.Machine

/-! ## Bound regions (07 R169) -/

section
variable {s s1 : State} {ga gb : Reg} {cell lo hi : Nat} (hc : Claims.clean s [ga, gb])
  (hop : bindOperands s (s.g ga) (s.g gb) = (.ok (cell, lo, hi), s1))
include hc hop

/-- `bind` enters its region where the table has room and no region of another cell overlaps it. -/
theorem exec_bind_enters (hroom : (s1.part s1.myPart).regions.length < 256)
    (hfree : ∀ r ∈ (s1.part s1.myPart).regions, r.cell = cell ∨ hi ≤ r.lo ∨ r.hi ≤ lo) :
    exec (.bind ga gb) s = .next ((s1.setRegions ((s1.part s1.myPart).regions ++ [{ lo := lo, hi := hi, cell := cell }])).skip 4) := by
  have hover : ¬ ((s1.part s1.myPart).regions.any fun r => r.cell != cell && decide (r.lo < hi) && decide (lo < r.hi)) = true := by
    simp only [List.any_eq_true, Bool.and_eq_true, bne_iff_ne, decide_eq_true_eq]
    rintro ⟨r, hr, ⟨hne, hlo⟩, hhi⟩
    have := hfree r hr
    omega
  simp only [exec, execBind, withSources_of_clean hc, hop, if_neg hroom.not_ge, if_neg hover]

/-- `unbind` takes out one entry with exactly its region and cell. -/
theorem exec_unbind_erases (hmem : { lo := lo, hi := hi, cell := cell } ∈ (s1.part s1.myPart).regions) :
    exec (.unbind ga gb) s =
      .next ((s1.setRegions ((s1.part s1.myPart).regions.erase { lo := lo, hi := hi, cell := cell })).skip 4) := by
  simp only [exec, execUnbind, withSources_of_clean hc, hop, List.contains_iff_mem, if_pos hmem]

end

/-! ## sigwait (10 R238) -/

section
variable {s s2 : State} {t0 va len want : Nat} {gd : Reg} {l : List Byte}
  (hread : nodeRead s s.myDie s.myPart va 8 .read = (.ok l, s2))
include hread

/-- A turn that finds its word large enough, or its limit passed, ends with the word. -/
theorem sigwaitTurn_ends (h : want ≤ leNat l ∨ s2.g gd ≠ BitVec.allOnes 64 ∧ (s2.g gd).toNat ≤ s2.seiche - t0) :
    s.sigwaitTurn t0 va gd len want = Claims.wrote s2.unblock gd (BitVec.ofNat 64 (leNat l)) len := by
  rw [State.sigwaitTurn, hread]
  dsimp only
  split_ifs with hw hd
  · rfl
  · rfl
  · exact absurd (h.resolve_left hw) hd

/-- Any other turn waits on. -/
theorem sigwaitTurn_waits (hw : leNat l < want) (hd : s2.g gd = BitVec.allOnes 64 ∨ s2.seiche - t0 < (s2.g gd).toNat) :
    s.sigwaitTurn t0 va gd len want = s2.block (.sigwait t0 va gd len want) := by
  have hd' : ¬ (s2.g gd ≠ BitVec.allOnes 64 ∧ (s2.g gd).toNat ≤ s2.seiche - t0) := fun ⟨h, hle⟩ =>
    hd.elim h hle.not_gt
  rw [State.sigwaitTurn, hread]
  simp only [if_neg hw.not_ge, if_neg hd']

end

/-- `sigwait` of a word in SPACE 0 takes its first turn. -/
theorem exec_sigwait_resolved {s s1 : State} {gd ga gb : Reg} {va : Nat} (hc : Claims.clean s [ga, gb, gd])
    (hword : resolveWord s (s.g ga) 0 = (.ok (0, va), s1)) :
    exec (.sigwait gd ga gb) s = .next (s1.sigwaitTurn s1.seiche va gd 4 (s1.g gb).toNat) := by
  simp only [exec, execSigwait, doSigwait, withSources_of_clean hc, hword, ne_eq, not_true_eq_false, if_false]

/-- BLOCKED_INSTRUCTION_RETRY of a core in a `sigwait` takes one more turn. -/
theorem exec_retry_sigwait {s : State} {t : TileId} {c : CoreId} {t0 va len want : Nat} {gd : Reg}
    (hp : (s.tile t.val).life.phase = .running) (hw : (s.coreAt t.val c).wait = .sigwait t0 va gd len want) :
    exec (.blockedInstructionRetry t c) s = .next (State.sigwaitTurn { s with curTile := t, curCore := c } t0 va gd len want) := by
  simp only [exec, execBlockedInstructionRetry, if_pos hp, hw]

/-- SIGWAIT_TIMEOUT once the limit has passed. -/
theorem exec_sigwaitTimeout_passed {s s1 s2 : State} {t : TileId} {c : CoreId} {t0 va len want : Nat} {gd : Reg} {l : List Byte}
    (hw : (s.coreAt t.val c).wait = .sigwait t0 va gd len want) (hs1 : s1 = { s with curTile := t, curCore := c })
    (hd : s1.g gd ≠ BitVec.allOnes 64 ∧ (s1.g gd).toNat ≤ s.seiche - t0)
    (hread : nodeRead s1 s1.myDie s1.myPart va 8 .read = (.ok l, s2)) :
    exec (.sigwaitTimeout t c) s = .next (Claims.wrote s2.unblock gd (BitVec.ofNat 64 (leNat l)) len) := by
  subst hs1
  simp only [exec, execSigwaitTimeout, hw, if_pos hd, hread]
  rfl

end Sys2Proof.Machine
end

section
open Sys2Proof Sys2Proof.Machine

/-- Settles O23, clause by clause. -/
theorem regionsAndSignals : Obligations.RegionsAndSignals := by
  unfold Obligations.RegionsAndSignals
  intro s s1 s2 gd ga gb cell lo hi va l t c t0 len want
  refine ⟨fun hc hop => ⟨exec_bind_enters hc hop, exec_unbind_erases hc hop⟩, fun hc hword hread h => ?ends,
    fun hc hword hread hw hd => ?waits, fun hp hw hs1 hread hle => ?retry,
    fun hw hs1 hd hle hread => exec_sigwaitTimeout_passed hw hs1 ⟨hd, hle⟩ hread⟩
  case ends =>
    rw [exec_sigwait_resolved hc hword, sigwaitTurn_ends hread (h.imp_right fun h0 => ?_)]
    rw [h0]
    exact ⟨by decide, Nat.zero_le _⟩
  case waits => rw [exec_sigwait_resolved hc hword, sigwaitTurn_waits hread hw hd]
  case retry =>
    subst hs1
    rw [exec_retry_sigwait hp hw, sigwaitTurn_ends hread (.inl hle)]

end

section
namespace Sys2Proof.Machine

/-! ## Posted writes at their target (07 R171, R172) -/

/-- The posted writes replaced. -/
def State.withPosted (s : State) (l : List Posted) : State := { s with posted := l }

/-- What a posted write or signal makes of the memory of its target. -/
def Posted.apply (w : Posted) (m : Memory) : Memory :=
  match w.signal with
  | none => mergeBytes m w.offset w.bytes
  | some (set, arg) => m.writeLE w.offset 8 (signalNew set arg (m.readLE w.offset 8))

/-- The state with a posted write made at another module. -/
def State.reach (s : State) (w : Posted) : State := s.setFarMem w.part w.module (w.apply (s.farMem w.part w.module))

theorem deliver_far {s : State} {w : Posted} (h : w.module ≠ s.hub.modnum) : s.deliver w = (none, s.reach w) := by
  unfold State.deliver State.reach Posted.apply
  cases w.signal with
  | none => simp only [farWrite, if_neg h]
  | some x => simp only [farRmw, if_neg h]

theorem performPosted_far {s : State} {w : Posted} (h : w.module ≠ s.hub.modnum) :
    s.performPosted w = (s.reach w).withPosted (s.posted.replace w { w with done := true }) := by
  rw [State.performPosted, deliver_far h]
  rfl

theorem Posted.of_iff {w : Posted} {t m : Nat} : w.of t m = true ↔ w.tile = t ∧ w.module = m := by simp [Posted.of]

theorem Posted.same_iff {w v : Posted} :
    w.same v = true ↔ v.tile = w.tile ∧ v.module = w.module ∧ v.seat = w.seat ∧ v.orphan = w.orphan ∧ v.away = w.away := by
  simp [Posted.same, Posted.of, and_assoc]

theorem Posted.same_self (w : Posted) : w.same w = true := by simp [Posted.same_iff]

/-- An entry is of one engine with another whether performed or not. -/
@[simp] theorem Posted.same_done (w v : Posted) (b : Bool) : w.same { v with done := b } = w.same v := rfl

/-- An entry of the engine of `w` marked as performed. -/
def Posted.mark (w v : Posted) : Posted := if w.same v then { v with done := true } else v

/-- Entries of `w`'s engine that its target has all performed. -/
def Posted.AllDone (w : Posted) (l : List Posted) : Prop := ∀ v ∈ l, w.same v = true → v.done = true

theorem Posted.allDone_map_mark (w : Posted) (l : List Posted) : w.AllDone (l.map w.mark) := by
  intro v hv hs
  obtain ⟨x, -, rfl⟩ := List.mem_map.mp hv
  unfold Posted.mark at hs ⊢
  split
  · rfl
  · next h => rw [if_neg h] at hs; exact absurd hs h

/-- The oldest entry of `w`'s engine that is not yet performed. -/
theorem nextPosted_append {s : State} {w v : Posted} {pre l : List Posted} (hp : s.posted = pre ++ v :: l) (hpre : w.AllDone pre)
    (hs : w.same v = true) (hd : v.done = false) : s.nextPosted w = some v := by
  have hnone : pre.find? (fun v => w.same v && !v.done) = none := by
    rw [List.find?_eq_none]
    intro x hx hc
    simp only [Bool.and_eq_true, Bool.not_eq_true'] at hc
    exact absurd (hpre x hx hc.1) (by simp [hc.2])
  rw [State.nextPosted, hp, List.find?_append, hnone, Option.none_or, List.find?_cons_of_pos (by simp [hs, hd])]

theorem Posted.not_mem_of_allDone {w v : Posted} {pre : List Posted} (hpre : w.AllDone pre) (hs : w.same v = true)
    (hd : v.done = false) : v ∉ pre := fun hm => absurd (hpre v hm hs) (by simp [hd])

theorem Posted.allDone_append_singleton {w v : Posted} {pre : List Posted} (hpre : w.AllDone pre)
    (hv : w.same v = true → v.done = true) : w.AllDone (pre ++ [v]) := by
  intro x hx
  rcases List.mem_append.mp hx with hx | hx
  · exact hpre x hx
  · rw [List.mem_singleton.mp hx]
    exact hv

/-- The place of the oldest entry not yet performed takes its mark. -/
theorem replace_first {w v : Posted} {pre : List Posted} (hpre : w.AllDone pre) (hs : w.same v = true) (hd : v.done = false)
    (x : Posted) (l : List Posted) : (pre ++ v :: l).replace v x = pre ++ x :: l := by
  rw [List.replace_append, if_neg (Posted.not_mem_of_allDone hpre hs hd), List.replace_cons_self]

theorem performPosted_first {s : State} {w v : Posted} {pre l : List Posted} (hm : v.module ≠ s.hub.modnum) (hpre : w.AllDone pre)
    (hs : w.same v = true) (hd : v.done = false) :
    (s.withPosted (pre ++ v :: l)).performPosted v = (s.reach v).withPosted (pre ++ { v with done := true } :: l) :=
  (performPosted_far (s := s.withPosted (pre ++ v :: l)) hm).trans
    (congrArg (s.reach v).withPosted (replace_first hpre hs hd { v with done := true } l))

/-- The earlier writes of a signal's engine are made at the target in order, and marked. -/
theorem performEarlier_spec {w : Posted} {b : List Posted} (hw : w.done = false) (hsig : w.signal ≠ none) (a : List Posted) :
    ∀ (s : State) (pre : List Posted) (fuel : Nat), a.length ≤ fuel → w.module ≠ s.hub.modnum → w.AllDone pre →
      (∀ v ∈ a, w.same v = true → v.done = false → v.signal = none) →
      (s.withPosted (pre ++ (a ++ w :: b))).performEarlier w fuel =
        ((a.filter fun v => w.same v && !v.done).foldl State.reach s).withPosted (pre ++ (a.map w.mark ++ w :: b)) := by
  induction a with
  | nil =>
    intro s pre fuel _ _ hpre _
    cases fuel with
    | zero => rfl
    | succ n =>
      have hnext : (s.withPosted (pre ++ w :: b)).nextPosted w = some w := nextPosted_append rfl hpre w.same_self hw
      have hno : ¬ w.signal.isNone = true := by simpa using hsig
      simp only [List.nil_append, State.performEarlier, hnext, if_neg hno]
      rfl
  | cons v a ih =>
    intro s pre fuel hf hm hpre hsigs
    have hsigs' := fun x hx => hsigs x (List.mem_cons_of_mem v hx)
    have happ (y : Posted) (l : List Posted) : pre ++ y :: l = pre ++ [y] ++ l := by simp
    by_cases hv : w.same v = true ∧ v.done = false
    · obtain ⟨hs, hd⟩ := hv
      obtain ⟨n, rfl⟩ : ∃ n, fuel = n + 1 := Nat.exists_eq_add_one_of_ne_zero (by simp at hf; omega)
      have hnext : (s.withPosted (pre ++ v :: (a ++ w :: b))).nextPosted w = some v := nextPosted_append rfl hpre hs hd
      have hmark : w.mark v = { v with done := true } := if_pos hs
      have hkeep : (w.same v && !v.done) = true := by simp [hs, hd]
      have hi := ih (s.reach v) (pre ++ [{ v with done := true }]) n (by simpa using hf) hm
        (Posted.allDone_append_singleton hpre fun _ => rfl) hsigs'
      rw [List.cons_append, State.performEarlier, hnext]
      dsimp only
      rw [hsigs v List.mem_cons_self hs hd, Option.isNone_none, if_pos rfl,
        performPosted_first ((Posted.same_iff.mp hs).2.1 ▸ hm) hpre hs hd, happ, hi, ← happ,
        List.filter_cons_of_pos (p := fun v => w.same v && !v.done) hkeep, List.map_cons, hmark]
      rfl
    · have hdone : w.same v = true → v.done = true := fun hs => Bool.eq_true_of_not_eq_false fun hd => hv ⟨hs, hd⟩
      have hmark : w.mark v = v := by
        unfold Posted.mark
        split
        · next hs => rw [← hdone hs]
        · rfl
      have hdrop : ¬ (w.same v && !v.done) = true := by simpa using hv
      rw [List.cons_append, happ, ih _ _ fuel (by simp at hf; omega) hm (Posted.allDone_append_singleton hpre hdone) hsigs', ← happ,
        List.filter_cons_of_neg (p := fun v => w.same v && !v.done) hdrop, List.map_cons, hmark]
      rfl

theorem hub_foldl_reach (l : List Posted) (s : State) : (l.foldl State.reach s).hub = s.hub :=
  foldl_keeps (f := State.reach) (F := State.hub) (fun _ _ => rfl) l s

/-- A tile owes a module no signal where its entries to it are performed or are no signals. -/
theorem find?_signal_eq_none {l : List Posted} {t m : Nat} (h : ∀ v ∈ l, v.of t m = true → v.done = true ∨ v.signal = none) :
    l.find? (fun v => v.of t m && v.signal.isSome && !v.done) = none := by
  rw [List.find?_eq_none]
  intro v hv hc
  simp only [Bool.and_eq_true, Bool.not_eq_true'] at hc
  obtain ⟨⟨hof, hsig⟩, hd⟩ := hc
  rcases h v hv hof with h | h
  · exact absurd h (by simp [hd])
  · simp [h] at hsig

/-- SIGNAL_PERFORM: the earlier writes of the signal's engine, then the signal. -/
theorem exec_signalPerform {s : State} {t : TileId} {m : BitVec 10} {w : Posted} {a b : List Posted} (hm : m.toNat ≠ s.hub.modnum)
    (hp : s.posted = a ++ w :: b) (ha : ∀ v ∈ a, v.of t.val m.toNat = true → v.done = true ∨ v.signal = none)
    (hof : w.of t.val m.toNat = true) (hd : w.done = false) (hsig : w.signal ≠ none) :
    exec (.signalPerform t m) s = .next ((((a.filter fun v => w.same v && !v.done).foldl State.reach s).reach w).withPosted
      (a.map w.mark ++ b)) := by
  obtain ⟨htile, hmod⟩ := Posted.of_iff.mp hof
  have hsame (v : Posted) (hs : w.same v = true) : v.of t.val m.toNat = true := by
    obtain ⟨h1, h2, -⟩ := Posted.same_iff.mp hs
    exact Posted.of_iff.mpr ⟨h1.trans htile, h2.trans hmod⟩
  have hfind : s.posted.find? (fun v => v.of t.val m.toNat && v.signal.isSome && !v.done) = some w := by
    rw [hp, List.find?_append, find?_signal_eq_none ha, Option.none_or,
      List.find?_cons_of_pos (by simp [hof, hd, Option.isSome_iff_ne_none, hsig])]
  have hearlier : s.performEarlier w s.posted.length =
      ((a.filter fun v => w.same v && !v.done).foldl State.reach s).withPosted (a.map w.mark ++ w :: b) := by
    have h := performEarlier_spec (b := b) hd hsig a s [] s.posted.length (by simp [hp]) (hmod ▸ hm) (by simp [Posted.AllDone])
      fun v hv hs hvd => (ha v hv (hsame v hs)).resolve_left (by simp [hvd])
    rwa [List.nil_append, ← hp] at h
  generalize hu : (a.filter fun v => w.same v && !v.done).foldl State.reach s = u at hearlier ⊢
  have hall := Posted.allDone_map_mark w a
  have hnext : (u.withPosted (a.map w.mark ++ w :: b)).nextPosted w = some w := nextPosted_append rfl hall w.same_self hd
  have hdel : (u.withPosted (a.map w.mark ++ w :: b)).deliver w = (none, (u.withPosted (a.map w.mark ++ w :: b)).reach w) := by
    refine deliver_far ?_
    show w.module ≠ u.hub.modnum
    rw [← hu, hub_foldl_reach, hmod]
    exact hm
  have herase : (a.map w.mark ++ w :: b).erase w = a.map w.mark ++ b := by
    rw [List.erase_append_right _ (Posted.not_mem_of_allDone hall w.same_self hd), List.erase_cons_head]
  simp only [exec, execSignalPerform, hfind, hearlier, hnext, hdel]
  exact congrArg (fun l => Host.Outcome.next ((u.reach w).withPosted l)) herase

theorem exec_signalPerform_none {s : State} {t : TileId} {m : BitVec 10}
    (h : ∀ v ∈ s.posted, v.of t.val m.toNat = true → v.done = true ∨ v.signal = none) : exec (.signalPerform t m) s = .next s := by
  simp only [exec, execSignalPerform, find?_signal_eq_none h]

/-! ## Posted failures (07 R172, 13 R337) -/

/-- What two states have in common when, of the posted writes, at most some of `w`'s engine have been performed between them, and nothing
has been done but that. -/
structure Acked (w : Posted) (s u : State) : Prop where
  tiles : u.tiles = s.tiles
  parts : u.parts = s.parts
  hub : u.hub = s.hub
  reachable : ∀ m, (u.peer m).noRoute = (s.peer m).noRoute ∧ (u.peer m).ready = (s.peer m).ready
  others : (u.posted.filter fun v => !w.same v) = s.posted.filter fun v => !w.same v

theorem Acked.refl (w : Posted) (s : State) : Acked w s s := ⟨rfl, rfl, rfl, fun _ => ⟨rfl, rfl⟩, rfl⟩

theorem Acked.trans {w : Posted} {s t u : State} (h : Acked w s t) (k : Acked w t u) : Acked w s u :=
  ⟨k.tiles.trans h.tiles, k.parts.trans h.parts, k.hub.trans h.hub,
    fun m => ⟨(k.reachable m).1.trans (h.reachable m).1, (k.reachable m).2.trans (h.reachable m).2⟩, k.others.trans h.others⟩

/-- Writing the memory of a module that this one sees says nothing about the way to it. -/
theorem peer_setFarMem (s : State) (p k : Nat) (x : Memory) (m : Nat) :
    ((s.setFarMem p k x).peer m).noRoute = (s.peer m).noRoute ∧ ((s.setFarMem p k x).peer m).ready = (s.peer m).ready := by
  by_cases h : m = k
  · subst h; simp [State.setFarMem, State.setPeer, State.peer]
  · simp [State.setFarMem, State.setPeer, State.peer, h]

/-- A value replaced by another of which the filter keeps neither. -/
theorem filter_replace {α : Type} [BEq α] [LawfulBEq α] (p : α → Bool) {x y : α} (hx : p x = false) (hy : p y = false) (l : List α) :
    (l.replace x y).filter p = l.filter p := by
  induction l with
  | nil => rfl
  | cons a l ih =>
    rw [List.replace_cons]
    split
    · next h => obtain rfl := eq_of_beq h; simp [hx, hy]
    · simp [List.filter_cons, ih]

theorem performPosted_acked {s : State} {w v : Posted} (hs : w.same v = true) (hm : w.module ≠ s.hub.modnum) :
    Acked w s (s.performPosted v) := by
  rw [performPosted_far ((Posted.same_iff.mp hs).2.1 ▸ hm)]
  exact ⟨rfl, rfl, rfl, peer_setFarMem s v.part v.module _,
    filter_replace (fun v => !w.same v) (by simp [hs]) (by simp [hs]) s.posted⟩

theorem draw_acked (w : Posted) (s : State) : Acked w s s.draw := ⟨rfl, rfl, rfl, fun _ => ⟨rfl, rfl⟩, rfl⟩

theorem lostAcks_acked {w : Posted} (fuel : Nat) : ∀ {s : State}, w.module ≠ s.hub.modnum → Acked w s (s.lostAcks w fuel) := by
  induction fuel with
  | zero => exact fun _ => .refl ..
  | succ n ih =>
    intro s hm
    cases hv : s.nextPosted w with
    | none => simpa only [State.lostAcks, hv] using Acked.refl w s
    | some v =>
      obtain ⟨hs, -⟩ := Bool.and_eq_true_iff.mp (List.find?_some (p := fun v => w.same v && !v.done) hv)
      simp only [State.lostAcks, hv]
      split
      · have hp := (draw_acked w s).trans (performPosted_acked (s := s.draw) hs hm)
        exact hp.trans (ih (by rwa [hp.hub]))
      · exact draw_acked w s

/-- The failure that an engine keeps of two: the first, where code 0 is none (log 48). -/
def FarFault.first (old g : FarFault) : FarFault := if old.code = 0 then g else old

theorem FarFault.first_first (old g : FarFault) : (old.first g).first g = old.first g := by
  unfold FarFault.first
  split_ifs <;> rfl

theorem Eng.failed_postFailure (e : Eng) (m : Nat) (g : FarFault) :
    SMap.get {} (e.postFailure m g).failed m = (SMap.get {} e.failed m).first g := by
  by_cases h : (SMap.get ({} : FarFault) e.failed m).code = 0 <;> simp [Eng.postFailure, FarFault.first, h]

/-- The failure of a module that the store engine of a tile holds. -/
def State.failedAt (s : State) (t m : Nat) : FarFault := SMap.get {} (s.tile t).es.failed m

theorem tile_of_tiles {s u : State} (h : u.tiles = s.tiles) (t : Nat) : u.tile t = s.tile t := by rw [State.tile, h, State.tile]

theorem failedAt_of_tile {s u : State} {t : Nat} (h : u.tile t = s.tile t) (m : Nat) : u.failedAt t m = s.failedAt t m := by
  rw [State.failedAt, h, State.failedAt]

theorem peer_of_peers {s u : State} (h : u.peers = s.peers) (m : Nat) : u.peer m = s.peer m := by rw [State.peer, h, State.peer]

theorem findNode_of_parts {s u : State} (h : u.parts = s.parts) (p a : Nat) : u.findNode p a = s.findNode p a := by
  simp only [State.findNode, State.part, h]

/-- A failure recorded in a saved context leaves every tile. -/
theorem recordAway_frame (s : State) (k : Seat) (m : Nat) (g : FarFault) :
    (s.recordAway k m g).tiles = s.tiles ∧ (s.recordAway k m g).posted = s.posted ∧ (s.recordAway k m g).hub = s.hub ∧
    (s.recordAway k m g).peers = s.peers := by
  unfold State.recordAway
  split <;> exact ⟨rfl, rfl, rfl, rfl⟩

/-- A node with a failure noted in the saved context of a rank. -/
def Node.noteFailure (n : Node) (rank m : Nat) (g : FarFault) : Node :=
  let x := SMap.get {} n.saves rank
  { n with saves := SMap.put n.saves rank { x with es := x.es.postFailure m g } }

theorem recordAway_of_findNode {s : State} {k : Seat} {n : Node} (h : s.findNode k.part k.node = some n) (m : Nat) (g : FarFault) :
    s.recordAway k m g = s.putNode k.part (n.noteFailure k.rank m g) := by
  simp only [State.recordAway, h, Node.noteFailure]

theorem failed_recordAway {s : State} {k : Seat} {n : Node} (h : s.findNode k.part k.node = some n) (m : Nat) (g : FarFault) :
    ∃ n', (s.recordAway k m g).findNode k.part k.node = some n' ∧
      SMap.get {} (SMap.get {} n'.saves k.rank).es.failed m = (SMap.get {} (SMap.get {} n.saves k.rank).es.failed m).first g := by
  have haddr : (n.noteFailure k.rank m g).addr = k.node := (addr_of_findNode h :)
  refine ⟨n.noteFailure k.rank m g, ?_, ?_⟩
  · rw [recordAway_of_findNode h, ← haddr]
    exact findNode_putNode (m := n) (haddr ▸ h)
  · rw [Node.noteFailure, SMap.get_put_same]
    exact Eng.failed_postFailure ..

theorem recordFailure_orphan {s : State} {w : Posted} (h : w.orphan = true) (g : FarFault) : s.recordFailure w g = s := if_pos h

theorem recordFailure_away {s : State} {w : Posted} {k : Seat} (ho : w.orphan = false) (ha : w.away = true) (hk : w.seat = some k)
    (g : FarFault) : s.recordFailure w g = s.recordAway k w.module g := by
  simp [State.recordFailure, ho, ha, hk]

theorem recordFailure_here {s : State} {w : Posted} (ho : w.orphan = false) (h : w.away = false ∨ w.seat = none) (g : FarFault) :
    s.recordFailure w g = s.setEngAt w.tile .store ((s.engAt w.tile .store).postFailure w.module g) := by
  rcases h with h | h
  · simp [State.recordFailure, ho, h]
  · cases ha : w.away <;> simp [State.recordFailure, ho, h, ha]

/-- Where the failure of a write is recorded: nowhere, in a saved context, or with its tile's engine. -/
theorem recordFailure_cases (s : State) (w : Posted) (g : FarFault) : s.recordFailure w g = s ∨
    (∃ k, s.recordFailure w g = s.recordAway k w.module g) ∨
    s.recordFailure w g = s.setEngAt w.tile .store ((s.engAt w.tile .store).postFailure w.module g) := by
  cases ho : w.orphan with
  | true => exact .inl (recordFailure_orphan ho g)
  | false =>
    cases ha : w.away with
    | false => exact .inr (.inr (recordFailure_here ho (.inl ha) g))
    | true =>
      cases hk : w.seat with
      | none => exact .inr (.inr (recordFailure_here ho (.inr hk) g))
      | some k => exact .inr (.inl ⟨k, recordFailure_away ho ha hk g⟩)

theorem recordFailure_frame (s : State) (w : Posted) (g : FarFault) :
    (s.recordFailure w g).posted = s.posted ∧ (s.recordFailure w g).hub = s.hub ∧ (s.recordFailure w g).peers = s.peers ∧
    ∀ t, t ≠ w.tile → (s.recordFailure w g).tile t = s.tile t := by
  rcases recordFailure_cases s w g with h | ⟨k, h⟩ | h <;> rw [h]
  · exact ⟨rfl, rfl, rfl, fun _ _ => rfl⟩
  · obtain ⟨ht, hp, hh, hr⟩ := recordAway_frame s k w.module g
    exact ⟨hp, hh, hr, fun t _ => tile_of_tiles ht t⟩
  · exact ⟨rfl, rfl, rfl, fun t ht => State.tile_setTile_other _ _ ht⟩

theorem failedAt_setEngAt (s : State) (t m : Nat) (g : FarFault) :
    (s.setEngAt t .store ((s.engAt t .store).postFailure m g)).failedAt t m = (s.failedAt t m).first g := by
  rw [State.failedAt, State.setEngAt, State.tile_setTile_same]
  exact Eng.failed_postFailure ..

/-- No tile's engine changes what it holds of the module but to keep this failure as its first. -/
theorem failedAt_recordFailure (s : State) (w : Posted) (g : FarFault) (t : Nat) :
    (s.recordFailure w g).failedAt t w.module = s.failedAt t w.module ∨
    (s.recordFailure w g).failedAt t w.module = (s.failedAt t w.module).first g := by
  rcases recordFailure_cases s w g with h | ⟨k, h⟩ | h <;> rw [h]
  · exact .inl rfl
  · exact .inl (failedAt_of_tile (tile_of_tiles (recordAway_frame s k w.module g).1 t) _)
  · by_cases ht : t = w.tile
    · exact .inr (ht ▸ failedAt_setEngAt ..)
    · exact .inl (failedAt_of_tile (State.tile_setTile_other _ _ ht) _)

/-- How `s` stands once the entry `w` has failed with `g`: it and its engine's other entries to the module are discarded, and the
engine has the failure, in its tile or in its saved context. -/
structure PostedFailed (w : Posted) (g : FarFault) (s u : State) : Prop where
  posted : u.posted = s.posted.filter fun v => !w.same v
  hub : u.hub = s.hub
  reachable : ∀ m, (u.peer m).noRoute = (s.peer m).noRoute ∧ (u.peer m).ready = (s.peer m).ready
  others : ∀ t, t ≠ w.tile → u.tile t = s.tile t
  keeps : ∀ t, u.failedAt t w.module = s.failedAt t w.module ∨ u.failedAt t w.module = (s.failedAt t w.module).first g
  orphan : w.orphan = true → u.tiles = s.tiles
  here : w.orphan = false → w.away = false → u.failedAt w.tile w.module = (s.failedAt w.tile w.module).first g
  away : ∀ k n, w.orphan = false → w.away = true → w.seat = some k → s.findNode k.part k.node = some n →
    ∃ n', u.findNode k.part k.node = some n' ∧
      SMap.get {} (SMap.get {} n'.saves k.rank).es.failed w.module = (SMap.get {} (SMap.get {} n.saves k.rank).es.failed w.module).first g

/-- A failure after which some of the engine's entries turn out to have been performed. -/
theorem failPosted_of_acked {w : Posted} {s u : State} (h : Acked w s u) (g : FarFault) : PostedFailed w g s (u.failPosted w g) := by
  have hx : Acked w s (u.withPosted (u.posted.filter fun v => !w.same v)) :=
    h.trans ⟨rfl, rfl, rfl, fun _ => ⟨rfl, rfl⟩, List.filter_filter.trans (List.filter_congr fun v _ => Bool.and_self _)⟩
  have hposted : (u.withPosted (u.posted.filter fun v => !w.same v)).posted = s.posted.filter fun v => !w.same v := h.others
  change PostedFailed w g s ((u.withPosted (u.posted.filter fun v => !w.same v)).recordFailure w g)
  generalize u.withPosted (u.posted.filter fun v => !w.same v) = x at hx hposted
  have hfailed (t : Nat) : x.failedAt t w.module = s.failedAt t w.module := failedAt_of_tile (tile_of_tiles hx.tiles t) _
  obtain ⟨hp, hh, hr, ht⟩ := recordFailure_frame x w g
  refine ⟨hp.trans hposted, hh.trans hx.hub, fun m => ?_, fun t hne => (ht t hne).trans (tile_of_tiles hx.tiles t), fun t => ?_,
    fun ho => ?_, fun ho ha => ?_, fun k n ho ha hk hn => ?_⟩
  · rw [peer_of_peers hr]
    exact hx.reachable m
  · rw [← hfailed]
    exact failedAt_recordFailure ..
  · rw [recordFailure_orphan ho, hx.tiles]
  · rw [recordFailure_here ho (.inl ha), failedAt_setEngAt, hfailed]
  · rw [recordFailure_away ho ha hk]
    exact failed_recordAway ((findNode_of_parts hx.parts ..).trans hn) w.module g

theorem losePosted_failed {w : Posted} {s : State} (hm : w.module ≠ s.hub.modnum) (code : Nat) :
    PostedFailed w { code := code, detail := w.module } s (s.losePosted w code) :=
  failPosted_of_acked (lostAcks_acked _ hm) _

/-- POSTED_FAILURE of the oldest entry: a fault of its target, or a target that does not answer. -/
theorem exec_postedFailure {s : State} {t : TileId} {m : BitVec 10} {w : Posted} {f : FabFault} {g : FarFault}
    (hm : m.toNat ≠ s.hub.modnum) (hw : s.posted.find? (fun v => v.of t.val m.toNat) = some w)
    (hg : (w.done = false ∧ (f.code.toNat = Code.notPresent ∨ f.code.toNat = Code.permission ∨ f.code.toNat = Code.uncorrectable) ∧
        g = farFault f) ∨
      ((f.code.toNat = Code.fabricPeerAbsent ∨ (f.code.toNat = Code.fabricTimeout ∧ w.since + w.limit < s.seiche)) ∧
        g = { code := f.code.toNat, detail := m.toNat })) :
    ∃ u, exec (.postedFailure t m f) s = .next u ∧ PostedFailed w g s u := by
  obtain ⟨-, hmod⟩ := Posted.of_iff.mp (List.find?_some (p := fun v : Posted => v.of t.val m.toNat) hw)
  have hold : s.oldestPosted t.val m.toNat = some w := hw
  simp only [exec, execPostedFailure, hold]
  rcases hg with ⟨hd, hc, rfl⟩ | ⟨hc, rfl⟩
  · have hret : returned f.code.toNat = true ∧ (!w.done) = true := by
      refine ⟨?_, by simp [hd]⟩
      rw [returned]
      simpa [or_assoc] using hc
    rw [if_pos hret]
    exact ⟨_, rfl, failPosted_of_acked (.refl w s) _⟩
  · have hret : ¬ (returned f.code.toNat = true ∧ (!w.done) = true) := by
      rintro ⟨hr, -⟩
      rcases hc with hc | ⟨hc, -⟩ <;> rw [hc] at hr <;> exact absurd hr (by decide)
    rw [if_neg hret, if_pos hc, ← hmod]
    exact ⟨_, rfl, losePosted_failed (hmod ▸ hm) _⟩

end Sys2Proof.Machine
end

section
namespace Sys2Proof.Machine

/-! ## Route loss (13 R335, R337) -/

/-- One entry as a route loss meets it: it fails where its module and its die are those of the loss and its tile's entries still stand. -/
def State.loseRoute (m : Nat) (why : PeerLoss) (s : State) (w : Posted) : State :=
  if w.module = m ∧ lossTouches why (tileDie w.tile) ∧ (s.oldestPosted w.tile m).isSome then s.losePosted w Code.fabricPeerAbsent else s

/-- What the loss of the routes to module `m` does through the posted writes: nothing comes in, the tiles it does not touch keep their
entries, and what an engine holds of the module changes at most to this failure as its first. -/
structure RouteLost (m : Nat) (why : PeerLoss) (s u : State) : Prop where
  hub : u.hub = s.hub
  reachable : ∀ k, (u.peer k).noRoute = (s.peer k).noRoute ∧ (u.peer k).ready = (s.peer k).ready
  posted : ∀ v ∈ u.posted, v ∈ s.posted
  untouched : ∀ t, lossTouches why (tileDie t) = false → u.tile t = s.tile t ∧ ∀ v ∈ s.posted, v.tile = t → v ∈ u.posted
  failed : ∀ t, u.failedAt t m = s.failedAt t m ∨
    u.failedAt t m = (s.failedAt t m).first { code := Code.fabricPeerAbsent, detail := m }

theorem RouteLost.refl (m : Nat) (why : PeerLoss) (s : State) : RouteLost m why s s :=
  ⟨rfl, fun _ => ⟨rfl, rfl⟩, fun _ h => h, fun _ _ => ⟨rfl, fun _ h _ => h⟩, fun _ => .inl rfl⟩

theorem RouteLost.trans {m : Nat} {why : PeerLoss} {s t u : State} (h : RouteLost m why s t) (k : RouteLost m why t u) :
    RouteLost m why s u := by
  refine ⟨k.hub.trans h.hub, fun i => ?_, fun v hv => h.posted v (k.posted v hv), fun i hi => ?_, fun i => ?_⟩
  · exact ⟨(k.reachable i).1.trans (h.reachable i).1, (k.reachable i).2.trans (h.reachable i).2⟩
  · obtain ⟨ht, hp⟩ := h.untouched i hi
    obtain ⟨kt, kp⟩ := k.untouched i hi
    exact ⟨kt.trans ht, fun v hv hvt => kp v (hp v hv hvt) hvt⟩
  · rcases k.failed i with e | e <;> rcases h.failed i with f | f <;> rw [e, f]
    · exact .inl rfl
    · exact .inr rfl
    · exact .inr rfl
    · exact .inr (FarFault.first_first ..)

section
variable {m : Nat} {why : PeerLoss}

theorem loseRoute_of_touched {s : State} {w : Posted} (hm : m ≠ s.hub.modnum) (hw : w.module = m)
    (ht : lossTouches why (tileDie w.tile) = true) (hold : (s.oldestPosted w.tile m).isSome = true) :
    PostedFailed w { code := Code.fabricPeerAbsent, detail := m } s (s.loseRoute m why w) := by
  rw [State.loseRoute, if_pos ⟨hw, ht, hold⟩]
  subst hw
  exact losePosted_failed hm _

theorem loseRoute_lost {s : State} (hm : m ≠ s.hub.modnum) (w : Posted) : RouteLost m why s (s.loseRoute m why w) := by
  by_cases h : w.module = m ∧ lossTouches why (tileDie w.tile) = true ∧ (s.oldestPosted w.tile m).isSome = true
  · obtain ⟨hw, ht, hold⟩ := h
    have hf := loseRoute_of_touched hm hw ht hold
    refine ⟨hf.hub, hf.reachable, fun v hv => ?_, fun t hno => ?_, hw ▸ hf.keeps⟩
    · rw [hf.posted] at hv
      exact List.mem_of_mem_filter hv
    · have hne : t ≠ w.tile := by
        rintro rfl
        simp [hno] at ht
      refine ⟨hf.others t hne, fun v hv hvt => ?_⟩
      rw [hf.posted, List.mem_filter]
      refine ⟨hv, ?_⟩
      rw [Bool.not_eq_true', ← Bool.not_eq_true, Posted.same_iff]
      rintro ⟨h, -⟩
      exact hne (hvt.symm.trans h)
  · rw [State.loseRoute, if_neg h]
    exact .refl ..

theorem foldl_loseRoute_lost (l : List Posted) {s : State} (hm : m ≠ s.hub.modnum) :
    RouteLost m why s (l.foldl (State.loseRoute m why) s) := by
  induction l generalizing s with
  | nil => exact .refl ..
  | cons w l ih =>
    have h := loseRoute_lost (why := why) hm w
    exact h.trans (ih (by rwa [h.hub]))

/-- No entry that the loss meets stays. -/
theorem not_mem_foldl_loseRoute {l : List Posted} {s : State} {w : Posted} (hm : m ≠ s.hub.modnum) (hl : w ∈ l) (hw : w.module = m)
    (ht : lossTouches why (tileDie w.tile) = true) : w ∉ (l.foldl (State.loseRoute m why) s).posted := by
  induction l generalizing s with
  | nil => simp at hl
  | cons v l ih =>
    intro hmem
    have h := loseRoute_lost (why := why) hm v
    have hm' : m ≠ (s.loseRoute m why v).hub.modnum := by rwa [h.hub]
    rcases List.mem_cons.mp hl with rfl | hl
    · have hmem' := (foldl_loseRoute_lost l hm').posted w hmem
      have hold : (s.oldestPosted w.tile m).isSome = true :=
        List.find?_isSome.mpr ⟨w, h.posted w hmem', Posted.of_iff.mpr ⟨rfl, hw⟩⟩
      rw [(loseRoute_of_touched hm hw ht hold).posted, List.mem_filter] at hmem'
      simp [w.same_self] at hmem'
    · exact ih hm' hl hmem

/-- The engine of an entry that the loss meets has the failure. -/
theorem failedAt_foldl_loseRoute {l : List Posted} {s : State} {w : Posted} (hm : m ≠ s.hub.modnum) (hl : w ∈ l) (hs : w ∈ s.posted)
    (hw : w.module = m) (ht : lossTouches why (tileDie w.tile) = true) (ho : w.orphan = false) (ha : w.away = false) :
    (l.foldl (State.loseRoute m why) s).failedAt w.tile m =
      (s.failedAt w.tile m).first { code := Code.fabricPeerAbsent, detail := m } := by
  induction l generalizing s with
  | nil => simp at hl
  | cons v l ih =>
    have h := loseRoute_lost (why := why) hm v
    have hm' : m ≠ (s.loseRoute m why v).hub.modnum := by rwa [h.hub]
    have hrest := (foldl_loseRoute_lost (why := why) l hm').failed w.tile
    rw [List.foldl_cons]
    -- Once the entry's engine has the failure, the entries after it leave it.
    have hdone (hv : (s.loseRoute m why v).failedAt w.tile m =
        (s.failedAt w.tile m).first { code := Code.fabricPeerAbsent, detail := m }) :
        (l.foldl (State.loseRoute m why) (s.loseRoute m why v)).failedAt w.tile m =
          (s.failedAt w.tile m).first { code := Code.fabricPeerAbsent, detail := m } := by
      rcases hrest with e | e <;> rw [e, hv]
      exact FarFault.first_first ..
    by_cases hvw : v.same w = true ∧ v.module = m ∧ lossTouches why (tileDie v.tile) = true ∧ (s.oldestPosted v.tile m).isSome = true
    · obtain ⟨hsame, hvm, hvt, hold⟩ := hvw
      obtain ⟨htile, -, -, horph, haway⟩ := Posted.same_iff.mp hsame
      have hhere := (loseRoute_of_touched hm hvm hvt hold).here (horph ▸ ho) (haway ▸ ha)
      rw [hvm, ← htile] at hhere
      exact hdone hhere
    · have hkept : w ∈ (s.loseRoute m why v).posted := by
        by_cases hlost : v.module = m ∧ lossTouches why (tileDie v.tile) = true ∧ (s.oldestPosted v.tile m).isSome = true
        · obtain ⟨hvm, hvt, hold⟩ := hlost
          rw [(loseRoute_of_touched hm hvm hvt hold).posted, List.mem_filter]
          exact ⟨hs, by simpa using fun hsame => hvw ⟨hsame, hvm, hvt, hold⟩⟩
        · rwa [State.loseRoute, if_neg hlost]
      have hl' : w ∈ l := by
        refine (List.mem_cons.mp hl).resolve_left ?_
        rintro rfl
        exact hvw ⟨w.same_self, hw, ht, List.find?_isSome.mpr ⟨w, hs, Posted.of_iff.mpr ⟨rfl, hw⟩⟩⟩
      rw [ih hm' hl' hkept]
      rcases h.failed w.tile with e | e <;> rw [e]
      exact FarFault.first_first ..

end

/-! ### The units that wait for the module -/

/-- What the fault of a unit of tile `t` leaves alone. -/
structure UnitFaulted (t : Nat) (s u : State) : Prop where
  posted : u.posted = s.posted
  peers : u.peers = s.peers
  failed : ∀ k, (u.tile k).es.failed = (s.tile k).es.failed
  others : ∀ k, k ≠ t → u.tile k = s.tile k

theorem UnitFaulted.refl (t : Nat) (s : State) : UnitFaulted t s s := ⟨rfl, rfl, fun _ => rfl, fun _ _ => rfl⟩

theorem UnitFaulted.trans {t : Nat} {s u v : State} (h : UnitFaulted t s u) (k : UnitFaulted t u v) : UnitFaulted t s v :=
  ⟨k.posted.trans h.posted, k.peers.trans h.peers, fun i => (k.failed i).trans (h.failed i),
    fun i hi => (k.others i hi).trans (h.others i hi)⟩

theorem UnitFaulted.foldl {α : Type} {t : Nat} {f : State → α → State} (hf : ∀ s a, UnitFaulted t s (f s a)) (l : List α) (s : State) :
    UnitFaulted t s (l.foldl f s) := by
  induction l generalizing s with
  | nil => exact .refl ..
  | cons a l ih => exact (hf s a).trans (ih _)

theorem UnitFaulted.ite {t : Nat} {s u v : State} {c : Prop} [Decidable c] (hu : UnitFaulted t s u) (hv : UnitFaulted t s v) :
    UnitFaulted t s (if c then u else v) := by
  split <;> assumption

theorem UnitFaulted.setTile {s u : State} {t : Nat} {x : Tile} (h : UnitFaulted t s u) (hx : x.es.failed = (u.tile t).es.failed) :
    UnitFaulted t s (u.setTile t x) := by
  refine h.trans ⟨rfl, rfl, fun k => ?_, fun k hk => State.tile_setTile_other _ _ hk⟩
  by_cases hk : k = t
  · subst hk
    rw [State.tile_setTile_same, hx]
  · rw [State.tile_setTile_other _ _ hk]

theorem Tile.settle_failed (x : Tile) (t now : Nat) (f : FaultRec) : (x.settle t now f).es.failed = x.es.failed := by
  unfold Tile.settle
  split <;> rfl

section
variable {s u : State} {t : Nat} (h : UnitFaulted t s u)
include h

theorem UnitFaulted.takeFault (f : FaultRec) : UnitFaulted t s (u.takeFault t f) :=
  h.setTile (Tile.settle_failed (u.tile t) t u.seiche f)

theorem UnitFaulted.setOp (e : Engine) (o : Op) : UnitFaulted t s (u.setOp t e o) := h.setTile (by cases e <;> rfl)

theorem UnitFaulted.setQueue (q : Nat) (k : Queue) : UnitFaulted t s (u.setQueue t q k) := h.setTile rfl

theorem UnitFaulted.poisonRow (o : Op) : UnitFaulted t s (u.poisonRow t o) := by
  unfold State.poisonRow
  split
  · exact h.setTile rfl
  · exact h.setTile rfl
  · exact h

theorem UnitFaulted.opFault (e : Engine) (o : Op) (f : FaultRec) : UnitFaulted t s (u.opFault t e o f) := by
  have hs (g : FaultRec) : UnitFaulted t s (u.setTile t ((u.tile t).settle t u.seiche g)) := h.setTile (Tile.settle_failed ..)
  have hp (g : FaultRec) (p : Op) (c : Bool) : UnitFaulted t s
      (if c then (u.setTile t ((u.tile t).settle t u.seiche g)).poisonRow t p else u.setTile t ((u.tile t).settle t u.seiche g)) :=
    .ite ((hs g).poisonRow p) (hs g)
  exact .ite ((hs _).setOp _ _)
    (.takeFault (.ite (.ite ((hp ..).setOp _ _) (((hp ..).setQueue _ _).setOp _ _)) ((hp ..).setOp _ _)) _)

end

theorem setCore_unitFaulted (s : State) (k : Core) : UnitFaulted s.curTile.val s (s.setCore k) :=
  (UnitFaulted.refl _ s).setTile (congrArg Eng.failed (Tile.setCore_es ..))

theorem fabricFaultCore_unitFaulted (s : State) (f : FabWait) (code : Nat) : UnitFaulted s.curTile.val s (s.fabricFaultCore f code) :=
  ((setCore_unitFaulted s _).trans (setCore_unitFaulted (s.setCore _) _)).takeFault _

/-- A core, and an engine, of tile `t` whose request to module `m` is under way faults. -/
def State.absentCore (m t : Nat) (s : State) (c : CoreId) : State :=
  match (s.coreAt t c).wait with
  | .fabric f =>
    if f.module = m then State.fabricFaultCore { s with curTile := Fin.ofNat 256 t, curCore := c } f Code.fabricPeerAbsent else s
  | _ => s

def State.absentEngine (m t : Nat) (s : State) (e : Engine) : State :=
  match (s.engAt t e).fabricOp with
  | some (o, f) => if o.asks f m then s.opFault t e o (opRec Code.fabricPeerAbsent m 0) else s
  | none => s

/-- The requests of tile `t` to module `m` that are under way. -/
def State.absentTile (m : Nat) (s : State) (t : Nat) : State :=
  [Engine.load, .matrix, .store].foldl (State.absentEngine m t) ([CoreId.l, .x, .w].foldl (State.absentCore m t) s)

theorem absentCore_unitFaulted {t : Nat} (ht : t < 256) (m : Nat) (s : State) (c : CoreId) : UnitFaulted t s (s.absentCore m t c) := by
  have hcur : (Fin.ofNat 256 t : TileId).val = t := Nat.mod_eq_of_lt ht
  unfold State.absentCore
  split
  · split
    · have hrun : UnitFaulted t s { s with curTile := Fin.ofNat 256 t, curCore := c } := ⟨rfl, rfl, fun _ => rfl, fun _ _ => rfl⟩
      refine hrun.trans ?_
      nth_rw 1 [← hcur]
      exact fabricFaultCore_unitFaulted { s with curTile := Fin.ofNat 256 t, curCore := c } _ _
    · exact .refl ..
  · exact .refl ..

theorem absentEngine_unitFaulted (m t : Nat) (s : State) (e : Engine) : UnitFaulted t s (s.absentEngine m t e) := by
  unfold State.absentEngine
  split
  · split
    · exact (UnitFaulted.refl t s).opFault ..
    · exact .refl ..
  · exact .refl ..

theorem absentTile_unitFaulted {t : Nat} (ht : t < 256) (m : Nat) (s : State) : UnitFaulted t s (s.absentTile m t) :=
  (UnitFaulted.foldl (absentCore_unitFaulted ht m) _ s).trans (.foldl (absentEngine_unitFaulted m t) _ _)

/-- The requests of some tiles fail: no posted write, no module seen and no failure recorded changes, and no other tile. -/
theorem foldl_absentTile (m : Nat) {l : List Nat} (hl : ∀ t ∈ l, t < 256) (s : State) :
    (l.foldl (State.absentTile m) s).posted = s.posted ∧ (l.foldl (State.absentTile m) s).peers = s.peers ∧
    (∀ k, ((l.foldl (State.absentTile m) s).tile k).es.failed = (s.tile k).es.failed) ∧
    ∀ k, k ∉ l → (l.foldl (State.absentTile m) s).tile k = s.tile k := by
  induction l generalizing s with
  | nil => exact ⟨rfl, rfl, fun _ => rfl, fun _ _ => rfl⟩
  | cons t l ih =>
    have h := absentTile_unitFaulted (hl t List.mem_cons_self) m s
    obtain ⟨hp, hr, hf, ho⟩ := ih (fun x hx => hl x (List.mem_cons_of_mem t hx)) (s.absentTile m t)
    rw [List.foldl_cons]
    refine ⟨hp.trans h.posted, hr.trans h.peers, fun k => (hf k).trans (h.failed k), fun k hk => ?_⟩
    rw [List.mem_cons, not_or] at hk
    exact (ho k hk.2).trans (h.others k hk.1)

/-- What this module knows of another whose routes it loses. -/
def Peer.lose (x : Peer) (why : PeerLoss) : Peer :=
  match why with
  | .route die => { x with noRoute := x.noRoute ||| BitVec.ofNat 4 (2 ^ die.val) }
  | _ => { x with ready := false }

/-- The tiles that a loss touches. -/
def touchedTiles (why : PeerLoss) : List Nat := (List.range 256).filter fun t => lossTouches why (tileDie t)

theorem lossTouches_iff {why : PeerLoss} {k : Nat} :
    lossTouches why k = true ↔ (∀ d, why ≠ .route d) ∨ ∃ d : DieId, why = .route d ∧ d.val = k := by
  cases why <;> simp [lossTouches]

/-- A loss of a die's routes is entered, and any other makes the module one that is not ready. -/
theorem Peer.lose_spec (x : Peer) (why : PeerLoss) :
    (∀ d, why = .route d → (x.lose why).noRoute.getLsbD d.val = true) ∧ ((∀ d, why ≠ .route d) → (x.lose why).ready = false) := by
  cases why with
  | route d =>
    refine ⟨fun k hk => ?_, fun h => absurd rfl (h d)⟩
    obtain rfl : d = k := PeerLoss.route.inj hk
    have hbit : ∀ d : DieId, (BitVec.ofNat 4 (2 ^ d.val)).getLsbD d.val = true := by decide
    rw [Peer.lose, BitVec.getLsbD_or, hbit, Bool.or_true]
  | reset => exact ⟨nofun, fun _ => rfl⟩
  | notReady => exact ⟨nofun, fun _ => rfl⟩

theorem exec_fabricRouteLoss {s : State} {m : BitVec 10} (hm : m.toNat ≠ s.hub.modnum) (why : PeerLoss) :
    exec (.fabricRouteLoss m why) s = .next ((touchedTiles why).foldl (State.absentTile m.toNat)
      (s.posted.foldl (State.loseRoute m.toNat why) (s.setPeer m.toNat ((s.peer m.toNat).lose why)))) :=
  congrArg Host.Outcome.next (if_neg hm)

end Sys2Proof.Machine
end

section
namespace Sys2Proof.Machine

/-! ## Requests that arrive (13 R327, 18 R409, 19 R455) -/

theorem byte_mergeBytes (m : Memory) (a b : Nat) (l : List (Byte × Byte)) : (mergeBytes m a l).byte b =
    if a ≤ b ∧ b < a + l.length then overByte (m.byte b) (l.getD (b - a) (0, 0)).1 (l.getD (b - a) (0, 0)).2 else m.byte b := by
  induction l generalizing m a with
  | nil => simp [mergeBytes]
  | cons x l ih =>
    obtain ⟨v, k⟩ := x
    rw [mergeBytes, ih, List.length_cons]
    by_cases hb : b = a
    · subst hb
      simp [overByte]
    · rw [Memory.byte_setByte_other _ _ hb]
      by_cases h : a + 1 ≤ b ∧ b < a + 1 + l.length
      · rw [if_pos h, if_pos (by omega), show b - a = b - (a + 1) + 1 by omega, List.getD_cons_succ]
      · rw [if_neg h, if_neg (by omega)]

/-- Bytes merged whole are bytes written. -/
theorem mergeBytes_wholeBytes (m : Memory) (a : Nat) (l : List Byte) : mergeBytes m a (wholeBytes l) = m.setBytes a l := by
  induction l generalizing m a with
  | nil => rfl
  | cons v l ih =>
    have hv : (m.byte a &&& ~~~0xFF#8) ||| (v &&& 0xFF#8) = v := by
      have h0 : ~~~0xFF#8 = 0#8 := by decide
      have h1 : (0xFF#8 : Byte) = BitVec.allOnes 8 := by decide
      rw [h0, h1, BitVec.and_zero, BitVec.zero_or, BitVec.and_allOnes]
    exact (congrArg (fun x => mergeBytes (m.setByte a x) (a + 1) (wholeBytes l)) hv).trans (ih _ _)

theorem range_succ_map_add (a n : Nat) : (List.range (n + 1)).map (a + ·) = a :: (List.range n).map (a + 1 + ·) := by
  rw [List.range_succ_eq_map, List.map_cons, List.map_map]
  exact congrArg (a :: ·) (List.map_congr_left fun i _ => by simp only [Function.comp_apply]; omega)

/-- The granule of a byte in a sound place is not poisoned. -/
theorem not_mem_of_badGranule {bad : List Nat} {a n b : Nat} (h : badGranule bad a n = none) (hb : a ≤ b ∧ b < a + n) :
    b / 32 * 32 ∉ bad := by
  intro hm
  have := List.find?_eq_none.mp h _ hm
  simp only [Bool.and_eq_true, decide_eq_true_eq] at this
  omega

/-- Masked bytes at consecutive places merge as one row. -/
theorem foldl_overByte {bad : List Nat} (l : List (Byte × Byte)) : ∀ (m : Memory) (a : Nat),
    (∀ b, a ≤ b ∧ b < a + l.length → b / 32 * 32 ∉ bad) →
    (((List.range l.length).map (a + ·)).zip l).foldl (fun m (x : ByteWrite) =>
      if bad.contains (x.1 / 32 * 32) then m else m.setByte x.1 (overByte (m.byte x.1) x.2.1 x.2.2)) m = mergeBytes m a l := by
  induction l with
  | nil => exact fun _ _ _ => rfl
  | cons x l ih =>
    intro m a hb
    obtain ⟨v, k⟩ := x
    have hhead : ¬ bad.contains (a / 32 * 32) = true := by simpa using hb a (by simp)
    rw [List.length_cons, range_succ_map_add, List.zip_cons_cons, List.foldl_cons, if_neg hhead,
      ih _ _ fun b h => hb b (by rw [List.length_cons]; omega), mergeBytes]
    rfl

/-- Bytes merged at consecutive sound places of module memory. -/
theorem mem_mergeAt {s : State} {a : Nat} {l : List (Byte × Byte)} (h : badGranule s.memBad a l.length = none) :
    (s.mergeAt ((List.range l.length).map (a + ·)) l).mem = mergeBytes s.mem a l :=
  foldl_overByte l s.mem a fun _ hb hm => not_mem_of_badGranule h hb (List.mem_of_mem_filter hm)

theorem map_byte_range (m : Memory) (a n : Nat) : ((List.range n).map (a + ·)).map m.byte = m.bytes a n := by
  induction n generalizing a with
  | zero => rfl
  | succ n ih => rw [range_succ_map_add, List.map_cons, ih, Memory.bytes]

/-- A read-modify-write that a request makes at consecutive sound places. -/
theorem readLE_exportRmw {s s1 : State} {d p off n a : Nat} {f : Nat → Option Nat}
    (hp : exportPlaces s d p off .atomic n = (.ok ((List.range n).map (a + ·)), s1)) (hb : badGranule s1.memBad a n = none)
    (hf : ∀ v, f (s1.mem.readLE a n) = some v → v < 256 ^ n) :
    (exportRmw s d p off n f).2.mem.readLE a n = (f (s1.mem.readLE a n)).getD (s1.mem.readLE a n) := by
  have hnone : ((List.range n).map (a + ·)).findSome? (fun a => badGranule s1.memBad a 1) = none := by
    rw [List.findSome?_eq_none_iff]
    intro b hm
    obtain ⟨i, hi, rfl⟩ := List.mem_map.mp hm
    rw [List.mem_range] at hi
    rw [badGranule, List.find?_eq_none] at hb ⊢
    intro g hg
    have := hb g hg
    simp only [Bool.and_eq_true, decide_eq_true_eq] at this ⊢
    omega
  have hold : leNat (((List.range n).map (a + ·)).map s1.mem.byte) = s1.mem.readLE a n := by rw [map_byte_range, Memory.readLE]
  simp only [exportRmw, hp, hnone, hold]
  cases hv : f (s1.mem.readLE a n) with
  | none => rfl
  | some v =>
    have hlen : (wholeBytes (leBytes v n)).length = n := by simp [wholeBytes]
    have hmem := mem_mergeAt (l := wholeBytes (leBytes v n)) (by rw [hlen]; exact hb)
    rw [hlen, mergeBytes_wholeBytes] at hmem
    have hread := Memory.readLE_writeLE_same s1.mem a n v
    rw [Nat.mod_eq_of_lt (hf v hv)] at hread
    exact (congrArg (Memory.readLE · a n) hmem).trans hread

/-- An atomic on numbers of a width gives a number of it. -/
theorem atomNew_lt {op : Aop} {w old x d v : Nat} (hold : old < 2 ^ w) (hx : x < 2 ^ w) (h : atomNew op w old x d = some v) :
    v < 2 ^ w := by
  cases op <;> simp only [atomNew, Option.some.injEq] at h
  case add => exact h ▸ Nat.mod_lt _ (Nat.two_pow_pos w)
  case min => subst h; split <;> assumption
  case max => subst h; split <;> assumption
  case minn => exact h ▸ (Nat.min_le_left ..).trans_lt hold
  case maxn => exact h ▸ Nat.max_lt.mpr ⟨hold, hx⟩
  case and => exact h ▸ Nat.and_lt_two_pow _ hx
  case or => exact h ▸ Nat.or_lt_two_pow hold hx
  case xor => exact h ▸ Nat.xor_lt_two_pow hold hx
  case xchg => exact h ▸ hx
  case cas =>
    split at h
    · exact Option.some.inj h ▸ hx
    · exact absurd h (by simp)

section
variable {s : State} {die : DieId} {tag : BitVec 16} {off : BitVec 46} (hup : s.hub.fabricUp = true)
include hup

theorem exec_fabricRequestArrival {p : Nat} (hx : s.exportOf die.val tag.toNat = some p) {q : FabReq} (hq : ∀ n dw v, q ≠ .group n dw v) :
    exec (.fabricRequestArrival die tag off q) s = .next (s.serveFabric die.val p off.toNat q) := by
  cases q <;> simp_all [exec, execFabricRequestArrival]

theorem exec_fabricRequestArrival_unmapped (hx : s.exportOf die.val tag.toNat = none) {q : FabReq} (hq : ∀ n dw v, q ≠ .group n dw v) :
    exec (.fabricRequestArrival die tag off q) s = .next s := by
  cases q <;> simp_all [exec, execFabricRequestArrival]

end

end Sys2Proof.Machine
end

section
open Sys2Proof Sys2Proof.Machine

/-- Settles O44, clause by clause: signals, failures of posted writes, the loss of routes, requests that arrive. -/
theorem postedWritesAndSignals : Obligations.PostedWritesAndSignals := by
  unfold Obligations.PostedWritesAndSignals
  intro s s1 t m w arg set f g old hm
  refine ⟨fun a b hp ha hof hd hsig hs1 => ?signal, fun v => ?same, exec_signalPerform_none, fun hw hg => ?failure, fun hnone => ?noPosted,
    fun why => ?loss, fun die tag off hdown q => ?down, fun die tag off n dw v hup => ?group,
    fun die tag off hup hx q hq => exec_fabricRequestArrival_unmapped hup hx hq,
    fun die tag off p a hup hx => ⟨fun l hl hplaces hb => ?write, fun op wide x e hb hplaces => ?rmw, fun hb hplaces => ?set⟩⟩
  case signal =>
    obtain ⟨htile, hmod⟩ := Posted.of_iff.mp hof
    have hfold : (a.filter fun v => w.same v && !v.done).foldl State.reach s = s1 := by
      rw [hs1]
      refine List.foldl_ext _ _ _ fun x v hv => ?_
      obtain ⟨hva, hv⟩ := List.mem_filter.mp hv
      obtain ⟨hsame, hvd⟩ := Bool.and_eq_true_iff.mp hv
      obtain ⟨hvt, hvm, -⟩ := Posted.same_iff.mp hsame
      have hnone := (ha v hva (Posted.of_iff.mpr ⟨hvt.trans htile, hvm.trans hmod⟩)).resolve_left (by simpa using hvd)
      rw [State.reach, Posted.apply, hnone, hvm.trans hmod]
    rw [exec_signalPerform hm hp ha hof hd (by simp [hsig]), hfold, State.reach, Posted.apply, hsig, hmod]
    rfl
  case same => rw [Posted.same_iff]
  case failure =>
    obtain ⟨u, hu, hf⟩ := exec_postedFailure hm hw hg
    obtain ⟨htile, hmod⟩ := Posted.of_iff.mp (List.find?_some (p := fun v : Posted => v.of t.val m.toNat) hw)
    refine ⟨u, hu, fun v hv => ?_, fun v hv hs => ?_, fun ho => ?_, fun ho ha hold => ?_, fun k n ho ha hk hn hold => ?_⟩
    · rw [hf.posted] at hv
      simpa using (List.mem_filter.mp hv).2
    · rw [hf.posted]
      exact List.mem_filter.mpr ⟨hv, by simp [hs]⟩
    · rw [tile_of_tiles (hf.orphan ho)]
    · rw [hold, ← htile, ← hmod]
      exact hf.here ho ha
    · rw [hold, ← hmod]
      exact hf.away k n ho ha hk hn
  case noPosted =>
    have hold : s.oldestPosted t.val m.toNat = none := hnone
    simp only [exec, execPostedFailure, hold]
  case loss =>
    obtain ⟨hroute, hready⟩ := (s.peer m.toNat).lose_spec why
    have hpeer : (s.setPeer m.toNat ((s.peer m.toNat).lose why)).peer m.toNat = (s.peer m.toNat).lose why := SMap.get_put_same ..
    have hm' : m.toNat ≠ (s.setPeer m.toNat ((s.peer m.toNat).lose why)).hub.modnum := hm
    have hlost := foldl_loseRoute_lost (why := why) s.posted hm'
    obtain ⟨hp, hr, hf, ho⟩ := foldl_absentTile m.toNat (l := touchedTiles why)
      (fun k hk => List.mem_range.mp (List.mem_of_mem_filter hk))
      (s.posted.foldl (State.loseRoute m.toNat why) (s.setPeer m.toNat ((s.peer m.toNat).lose why)))
    obtain ⟨hnoRoute, hnotReady⟩ := hlost.reachable m.toNat
    refine ⟨_, exec_fabricRouteLoss hm why, fun d hd => ?_, fun hd => ?_, fun htouch => ⟨fun v hv => ?_, fun hw hof horph haway hold => ?_⟩,
      fun d hd hne => ?_⟩
    · rw [peer_of_peers hr, hnoRoute, hpeer]
      exact hroute d hd
    · rw [peer_of_peers hr, hnotReady, hpeer]
      exact hready hd
    · rw [hp] at hv
      rw [← Bool.not_eq_true, Posted.of_iff]
      rintro ⟨hvt, hvm⟩
      exact not_mem_foldl_loseRoute hm' (hlost.posted v hv) hvm (hvt ▸ lossTouches_iff.mpr htouch) hv
    · obtain ⟨hwt, hwm⟩ := Posted.of_iff.mp hof
      rw [hf, hold]
      have h := failedAt_foldl_loseRoute hm' hw hw hwm (hwt ▸ lossTouches_iff.mpr htouch) horph haway
      rwa [hwt] at h
    · have hno : lossTouches why (tileDie t.val) = false := by
        rw [← Bool.not_eq_true, lossTouches_iff]
        rintro (h | ⟨k, hk, hkt⟩)
        · exact h d hd
        · exact hne (PeerLoss.route.inj (hd.symm.trans hk) ▸ hkt)
      obtain ⟨htile, hkept⟩ := hlost.untouched t.val hno
      refine ⟨(ho t.val fun hmem => ?_).trans htile, fun v hv hvof => ?_⟩
      · simp [touchedTiles, hno] at hmem
      · rw [hp]
        exact hkept v hv (Posted.of_iff.mp hvof).1
  case down => simp [exec, execFabricRequestArrival, hdown]
  case group => simp [exec, execFabricRequestArrival, hup]
  case write =>
    have hwhole : ¬ (l.any fun b => b.2 == 0) = true := by
      rw [List.any_eq_true]
      exact fun ⟨x, hmem, h0⟩ => hl x hmem (eq_of_beq h0)
    refine ⟨_, exec_fabricRequestArrival hup hx nofun, fun i v k hi => ?_⟩
    obtain ⟨hlt, hget⟩ := List.getElem?_eq_some_iff.mp hi
    have hmem : (s.serveFabric die.val p off.toNat (.write l)).mem = mergeBytes s1.mem a l := by
      simp only [State.serveFabric, if_neg hwhole, exportWrite, hplaces]
      exact mem_mergeAt hb
    rw [hmem, byte_mergeBytes, if_pos (by omega), Nat.add_sub_cancel_left, List.getD_eq_getElem _ _ hlt, hget, overByte]
  case rmw =>
    have hbytes : 2 ^ (8 * atomBytes wide) = if wide = true then 2 ^ 64 else 2 ^ 32 := by cases wide <;> rfl
    have hwidth : 8 * atomBytes wide = if wide = true then 64 else 32 := by cases wide <;> rfl
    refine ⟨_, exec_fabricRequestArrival hup hx nofun, ?_⟩
    rw [← hbytes, ← hwidth]
    refine readLE_exportRmw hplaces hb fun v hv => ?_
    have h := atomNew_lt (readLE_lt_two_pow ..) (Nat.mod_lt _ (Nat.two_pow_pos _)) hv
    rwa [Nat.pow_mul] at h
  case set =>
    refine ⟨_, exec_fabricRequestArrival hup hx nofun, readLE_exportRmw hplaces hb fun v hv => ?_⟩
    obtain rfl := Option.some.inj hv
    rw [signalNew]
    split
    · exact arg.isLt
    · exact Nat.mod_lt _ (by decide)

end

section
namespace Sys2Proof.Machine

/-! # Scalar instructions (09) -/

/-! ## Instructions that compute on registers (09 R202, R203) -/

section
variable {s : State} {gd ga gb : Reg}

theorem writeResult_of_clean {rs : List Reg} (hc : Claims.clean s rs) (n : Nat) (v : State → Word) :
    writeResult rs gd n v s = .next (Claims.wrote s gd (v s) n) :=
  withSources_of_clean hc _

theorem alu2_of_clean {f : Word → Word → Word} {v : Word} (hc : Claims.clean s [ga, gb]) (hv : f (s.g ga) (s.g gb) = v) :
    alu2 f gd ga gb s = .next (Claims.wrote s gd v 4) :=
  hv ▸ writeResult_of_clean hc 4 _

theorem alu1_of_clean {f : Word → Word} {v : Word} (hc : Claims.clean s [ga]) (hv : f (s.g ga) = v) :
    alu1 f gd ga s = .next (Claims.wrote s gd v 4) :=
  hv ▸ writeResult_of_clean hc 4 _

end

/-! ## Words as numbers -/

theorem add_eq_ofInt (a b : Word) : a + b = BitVec.ofInt 64 (a.toInt + b.toInt) := by
  rw [BitVec.ofInt_add, BitVec.ofInt_toInt, BitVec.ofInt_toInt]

theorem sub_eq_ofInt (a b : Word) : a - b = BitVec.ofInt 64 (a.toInt - b.toInt) := by
  rw [Int.sub_eq_add_neg, BitVec.ofInt_add, BitVec.ofInt_neg, BitVec.ofInt_toInt, BitVec.ofInt_toInt, BitVec.sub_eq_add_neg]

theorem shiftL_eq_ofNat (a : Word) (n : Nat) : shiftL a n = BitVec.ofNat 64 (a.toNat * 2 ^ n) :=
  BitVec.eq_of_toNat_eq (by simp [shiftL, Nat.shiftLeft_eq])

theorem shiftR_eq_ofNat (a : Word) (n : Nat) : shiftR a n = BitVec.ofNat 64 (a.toNat / 2 ^ n) := by
  refine BitVec.eq_of_toNat_eq ?_
  have h := Nat.div_le_self a.toNat (2 ^ n)
  rw [shiftR, BitVec.toNat_ushiftRight, Nat.shiftRight_eq_div_pow, BitVec.toNat_ofNat, Nat.mod_eq_of_lt (by omega)]

theorem rotL_eq_rotateLeft (a : Word) {n : Nat} (h : n < 64) : rotL a n = a.rotateLeft n := by
  rw [BitVec.rotateLeft_def, Nat.mod_eq_of_lt h, rotL]

/-- The smaller and the larger of two signed words. -/
theorem minS_eq_ofInt (a b : Word) : (if ltS b a then b else a) = BitVec.ofInt 64 (min a.toInt b.toInt) := by
  simp only [ltS, decide_eq_true_eq]
  split
  · next h => rw [min_eq_right h.le, BitVec.ofInt_toInt]
  · next h => rw [min_eq_left (not_lt.mp h), BitVec.ofInt_toInt]

theorem maxS_eq_ofInt (a b : Word) : (if ltS a b then b else a) = BitVec.ofInt 64 (max a.toInt b.toInt) := by
  simp only [ltS, decide_eq_true_eq]
  split
  · next h => rw [max_eq_right h.le, BitVec.ofInt_toInt]
  · next h => rw [max_eq_left (not_lt.mp h), BitVec.ofInt_toInt]

/-- The smaller and the larger of two unsigned words. -/
theorem minU_eq_ofNat (a b : Word) : (if ltU b a then b else a) = BitVec.ofNat 64 (min a.toNat b.toNat) := by
  simp only [ltU, decide_eq_true_eq]
  split
  · next h => rw [min_eq_right h.le, BitVec.ofNat_toNat, BitVec.setWidth_eq]
  · next h => rw [min_eq_left (not_lt.mp h), BitVec.ofNat_toNat, BitVec.setWidth_eq]

theorem maxU_eq_ofNat (a b : Word) : (if ltU a b then b else a) = BitVec.ofNat 64 (max a.toNat b.toNat) := by
  simp only [ltU, decide_eq_true_eq]
  split
  · next h => rw [max_eq_right h.le, BitVec.ofNat_toNat, BitVec.setWidth_eq]
  · next h => rw [max_eq_left (not_lt.mp h), BitVec.ofNat_toNat, BitVec.setWidth_eq]

theorem boolWord_decide (p : Prop) [Decidable p] : boolWord (decide p) = if p then 1 else 0 := by
  simp [boolWord]

/-- A signed immediate, extended to a word, is the word of its value. -/
theorem signExtend_eq_ofInt {n : Nat} (v : BitVec n) : v.signExtend 64 = BitVec.ofInt 64 v.toInt := rfl

theorem zeroExtend_eq_ofNat {n : Nat} (v : BitVec n) : v.zeroExtend 64 = BitVec.ofNat 64 v.toNat :=
  (BitVec.ofNat_toNat 64 v).symm

theorem add_signExtend_eq_ofInt {n : Nat} (a : Word) (v : BitVec n) : a + v.signExtend 64 = BitVec.ofInt 64 (a.toInt + v.toInt) := by
  rw [BitVec.ofInt_add, BitVec.ofInt_toInt, signExtend_eq_ofInt]

theorem mul_add_eq_ofNat (a b c : Word) : a * b + c = BitVec.ofNat 64 (a.toNat * b.toNat + c.toNat) :=
  BitVec.eq_of_toNat_eq (by simp)

theorem lih_eq_ofNat (d : Word) (imm : BitVec 21) :
    d * BitVec.ofNat 64 (2 ^ 21) + imm.zeroExtend 64 = BitVec.ofNat 64 (d.toNat * 2 ^ 21 + imm.toNat) := by
  rw [zeroExtend_eq_ofNat, BitVec.ofNat_add, BitVec.ofNat_mul, show BitVec.ofNat 64 d.toNat = d by simp]

end Sys2Proof.Machine
end

section
open Sys2Proof Sys2Proof.Machine

/-- Settles O1: each result is the model's own word, written as a number. -/
theorem arithmeticAndLogicResults : Obligations.ArithmeticAndLogicResults := by
  unfold Obligations.ArithmeticAndLogicResults
  intro s gd ga gb hc
  simp only [exec]
  refine ⟨alu2_of_clean hc ?add, alu2_of_clean hc ?sub, alu2_of_clean hc ?mul, alu2_of_clean hc rfl, alu2_of_clean hc rfl,
    alu2_of_clean hc rfl, alu2_of_clean hc rfl, alu2_of_clean hc rfl, alu2_of_clean hc rfl⟩
  case add => exact add_eq_ofInt ..
  case sub => exact sub_eq_ofInt ..
  case mul => exact BitVec.eq_of_toNat_eq (by simp)

end

section
open Sys2Proof Sys2Proof.Machine

/-- Settles O3: first the instructions of two registers, then the immediate ones, `li`, `lih` and `madd`. -/
theorem shiftCompareAndImmediateResults : Obligations.ShiftCompareAndImmediateResults := by
  unfold Obligations.ShiftCompareAndImmediateResults
  simp only [exec]
  refine ⟨fun s gd ga gb hc => ?registers, fun s gd ga gb gc imm n wide => ⟨fun hc => ?immediate, ?li, fun hc => ?lih, fun hc => ?madd⟩⟩
  case registers =>
    refine ⟨alu2_of_clean hc ?shl, alu2_of_clean hc ?shr, alu2_of_clean hc rfl, alu2_of_clean hc ?rotl, alu2_of_clean hc ?min,
      alu2_of_clean hc ?max, alu2_of_clean hc ?minn, alu2_of_clean hc ?maxn, alu2_of_clean hc ?slt, alu2_of_clean hc ?sltn,
      alu2_of_clean hc ?seq⟩
    case shl => exact shiftL_eq_ofNat ..
    case shr => exact shiftR_eq_ofNat ..
    case rotl => exact rotL_eq_rotateLeft _ (Nat.mod_lt _ (by decide))
    case min => exact minS_eq_ofInt ..
    case max => exact maxS_eq_ofInt ..
    case minn => exact minU_eq_ofNat ..
    case maxn => exact maxU_eq_ofNat ..
    case slt => exact boolWord_decide _
    case sltn => exact boolWord_decide _
    case seq => simp [boolWord]
  case immediate =>
    refine ⟨alu1_of_clean hc ?addi, alu1_of_clean hc ?andi, alu1_of_clean hc ?ori, alu1_of_clean hc ?xori, alu1_of_clean hc ?shli,
      alu1_of_clean hc ?shri, alu1_of_clean hc rfl, alu1_of_clean hc ?slti⟩
    case addi => exact add_signExtend_eq_ofInt ..
    case andi => rw [zeroExtend_eq_ofNat]
    case ori => rw [zeroExtend_eq_ofNat]
    case xori => rw [zeroExtend_eq_ofNat]
    case shli => exact shiftL_eq_ofNat ..
    case shri => exact shiftR_eq_ofNat ..
    case slti => rw [ltS, BitVec.toInt_signExtend_of_le (by decide), boolWord_decide]
  case li => exact writeResult_of_clean ⟨rfl, by simp [Core.foundRegs]⟩ 4 _
  case lih => exact lih_eq_ofNat (s.g gd) wide ▸ writeResult_of_clean hc 4 _
  case madd => exact mul_add_eq_ofNat (s.g ga) (s.g gb) (s.g gc) ▸ writeResult_of_clean hc 4 _

end

section
namespace Sys2Proof.Machine

/-! ## Division (09 R204) -/

/-- The one division of signed words whose quotient is no signed word, by its numbers and by its words. -/
theorem overflows_iff (a b : Word) :
    a.toInt = -2 ^ 63 ∧ b.toInt = -1 ↔ a = BitVec.ofNat 64 (2 ^ 63) ∧ b = BitVec.allOnes 64 := by
  rw [← BitVec.toInt_inj, ← BitVec.toInt_inj]
  exact Iff.rfl

section
variable {a b : Word} (h0 : b ≠ 0)
include h0

theorem divU_toNat : (divU a b).toNat = a.toNat / b.toNat := by
  have h := Nat.div_le_self a.toNat b.toNat
  rw [divU, if_neg h0, BitVec.toNat_ofNat, Nat.mod_eq_of_lt (by omega)]

theorem remU_toNat : (remU a b).toNat = a.toNat - b.toNat * (a.toNat / b.toNat) := by
  rw [remU, if_neg h0, BitVec.toNat_ofNat, Nat.mod_eq_of_lt (by omega)]

variable (ho : ¬(a.toInt = -2 ^ 63 ∧ b.toInt = -1))
include ho

theorem divS_toInt : (divS a b).toInt = a.toInt.tdiv b.toInt := by
  have hq := BitVec.toInt_sdiv_of_ne_or_ne a b (not_and_or.mp ((overflows_iff a b).not.mp ho))
  rw [divS, if_neg h0, if_neg ((overflows_iff a b).not.mp ho), ← hq, BitVec.ofInt_toInt]

theorem remS_toInt : (remS a b).toInt = a.toInt - b.toInt * a.toInt.tdiv b.toInt := by
  rw [remS, if_neg h0, if_neg ((overflows_iff a b).not.mp ho), ← Int.tmod_def, ← BitVec.toInt_srem, BitVec.ofInt_toInt]

end

/-- A non-zero remainder takes the sign of the dividend. -/
theorem remS_neg_iff {a b : Word} (h : remS a b ≠ 0) : (remS a b).toInt < 0 ↔ a.toInt < 0 := by
  by_cases h0 : b = 0
  · rw [remS, if_pos h0]
  by_cases ho : a.toInt = -2 ^ 63 ∧ b.toInt = -1
  · exact absurd (by rw [remS, if_neg h0, if_pos ((overflows_iff a b).mp ho)]) h
  · have hr := remS_toInt h0 ho
    rw [← Int.tmod_def] at hr
    have hne : a.toInt.tmod b.toInt ≠ 0 := fun e => h (BitVec.eq_of_toInt_eq (hr.trans e))
    have hsign := Int.sign_tmod a.toInt b.toInt
    rw [if_neg fun hd => hne (Int.tmod_eq_zero_of_dvd hd)] at hsign
    rw [hr, ← Int.sign_eq_neg_one_iff_neg, hsign, Int.sign_eq_neg_one_iff_neg]

/-- Quotient and remainder give the dividend back, at the edges too. -/
theorem eq_mul_divS_add_remS (a b : Word) : a = b * divS a b + remS a b := by
  by_cases h0 : b = 0
  · simp [remS, h0]
  by_cases ho : a = BitVec.ofNat 64 (2 ^ 63) ∧ b = BitVec.allOnes 64
  · rw [divS, remS, if_neg h0, if_neg h0, if_pos ho, if_pos ho, ho.1, ho.2]
    decide
  · rw [divS, remS, if_neg h0, if_neg h0, if_neg ho, if_neg ho, sub_eq_add_neg, BitVec.ofInt_add, BitVec.ofInt_neg, BitVec.ofInt_mul,
      BitVec.ofInt_toInt, BitVec.ofInt_toInt, add_comm a, add_neg_cancel_left]

theorem eq_mul_divU_add_remU (a b : Word) : a = b * divU a b + remU a b := by
  by_cases h0 : b = 0
  · simp [remU, h0]
  refine BitVec.eq_of_toNat_eq ?_
  have h := Nat.mul_div_le a.toNat b.toNat
  rw [BitVec.toNat_add, BitVec.toNat_mul, divU_toNat h0, remU_toNat h0, Nat.mod_add_mod, Nat.add_sub_cancel' h, Nat.mod_eq_of_lt a.isLt]

end Sys2Proof.Machine
end

section
open Sys2Proof Sys2Proof.Machine

/-- Settles O2: the edges first, then every other divisor. -/
theorem divisionResults : Obligations.DivisionResults := by
  unfold Obligations.DivisionResults
  simp only [exec]
  intro s gd ga gb hc
  refine ⟨_, _, _, _, alu2_of_clean hc rfl, alu2_of_clean hc rfl, alu2_of_clean hc rfl, alu2_of_clean hc rfl, ?results,
    remS_neg_iff, eq_mul_divS_add_remS .., eq_mul_divU_add_remU ..⟩
  case results =>
    split
    case isTrue h0 => simp [divS, remS, divU, remU, h0]
    case isFalse h0 =>
      refine ⟨?_, divU_toNat h0, remU_toNat h0⟩
      split
      case isTrue ho =>
        have hw := (overflows_iff _ _).mp ho
        rw [divS, remS, if_neg h0, if_neg h0, if_pos hw, if_pos hw]
        exact ⟨rfl, rfl⟩
      case isFalse ho => exact ⟨divS_toInt h0 ho, remS_toInt h0 ho⟩

end

section
namespace Sys2Proof.Machine

/-! ## Branches (09 R209 to R212) -/

theorem target_eq {n : Nat} (pc : VAddr) (disp : BitVec n) : target pc disp = pc + BitVec.ofInt 56 (4 * disp.toInt) := by
  rw [BitVec.ofInt_mul]
  rfl

theorem branch_of_clean {cond : Word → Word → Bool} {s : State} {ga gb : Reg} {taken : Bool} (disp : BitVec 16)
    (hc : Claims.clean s [ga, gb]) (ht : cond (s.g ga) (s.g gb) = taken) :
    branch cond ga gb disp s = .next (Claims.branched s disp taken) := by
  subst ht
  rw [branch, withSources_of_clean hc, target_eq]
  cases cond (s.g ga) (s.g gb) <;> simp [Claims.branched]

theorem execLoop_of_clean {s : State} {ga : Reg} (disp : BitVec 16) (h0 : ga ≠ 0) (hc : Claims.clean s [ga]) :
    execLoop ga disp s = .next (Claims.branched (s.setG ga (s.g ga - 1)) disp (decide (s.g ga ≠ 1))) := by
  rw [execLoop, if_neg h0, withSources_of_clean hc]
  by_cases h : s.g ga = 1#64
  · simp [Claims.branched, h]
  · have hz : s.g ga - 1#64 ≠ 0#64 := sub_ne_zero.mpr h
    simp [Claims.branched, target_eq, h, hz]

theorem execJr_of_clean {s : State} {ga : Reg} (hc : Claims.clean s [ga]) :
    execJr ga s = .next (if (s.g ga).toNat % 4 = 0 ∧ (s.g ga).toNat < 2 ^ 56
      then (s.goto ((s.g ga).truncate 56)).traceJump (s.g ga).toNat else s.fault Code.alignment (s.g ga).toNat) := by
  rw [execJr, withSources_of_clean hc]
  dsimp only
  by_cases h : (s.g ga).toNat % 4 = 0 ∧ (s.g ga).toNat < 2 ^ 56
  · rw [if_pos h, if_neg (by omega), BitVec.truncate, BitVec.ofNat_toNat]
  · rw [if_neg h, if_pos (by omega)]

end Sys2Proof.Machine
end

section
open Sys2Proof Sys2Proof.Machine

/-- Settles O5, in the order of the statement. -/
theorem branchTargets : Obligations.BranchTargets := by
  unfold Obligations.BranchTargets
  simp only [exec]
  intro s ga gb disp far
  refine ⟨fun hc => ⟨branch_of_clean disp hc ?beq, branch_of_clean disp hc ?bne, branch_of_clean disp hc rfl,
    branch_of_clean disp hc ?bge, branch_of_clean disp hc rfl, branch_of_clean disp hc ?bgen⟩, execLoop_of_clean disp, ?b,
    execJr_of_clean⟩
  case beq => exact Bool.beq_eq_decide_eq ..
  case bne => rw [Bool.beq_eq_decide_eq, decide_not]
  case bge => exact Bool.eq_iff_iff.mpr (by simp [ltS])
  case bgen => exact Bool.eq_iff_iff.mpr (by simp [ltU])
  case b => rw [execB, target_eq]

end

section
namespace Sys2Proof.Machine

/-! ## Sources (18 R429, R430) -/

theorem Core.badReg_eq_none_iff {k : Core} {rs : List Reg} :
    k.badReg rs = none ↔ ∀ r ∈ rs, r.val ≠ 0 → ∀ w ∈ k.gBad, w / 2 ≠ r.val := by
  rw [Core.badReg, List.findSome?_eq_none_iff]
  refine forall₂_congr fun r _ => ?_
  by_cases h : r.val = 0 <;> simp [h]

theorem Core.foundRegs_eq_nil_iff {k : Core} {rs : List Reg} : k.foundRegs rs = [] ↔ ∀ w ∈ k.gCe, ∀ r ∈ rs, r.val ≠ w / 2 := by
  simp [Core.foundRegs, List.filter_eq_nil_iff]

/-- Registers all of which are among clean ones are clean. -/
theorem clean_of_subset {s : State} {rs qs : List Reg} (hc : Claims.clean s rs) (h : ∀ r ∈ qs, r ∈ rs) : Claims.clean s qs :=
  ⟨Core.badReg_eq_none_iff.mpr fun r hr => Core.badReg_eq_none_iff.mp hc.1 r (h r hr),
   Core.foundRegs_eq_nil_iff.mpr fun w hw r hr => Core.foundRegs_eq_nil_iff.mp hc.2 w hw r (h r hr)⟩

theorem clean_append {s : State} {rs qs : List Reg} (h : Claims.clean s rs) (k : Claims.clean s qs) : Claims.clean s (rs ++ qs) := by
  refine ⟨Core.badReg_eq_none_iff.mpr fun r hr => ?_, Core.foundRegs_eq_nil_iff.mpr fun w hw r hr => ?_⟩
  · obtain hr | hr := List.mem_append.mp hr
    · exact Core.badReg_eq_none_iff.mp h.1 r hr
    · exact Core.badReg_eq_none_iff.mp k.1 r hr
  · obtain hr | hr := List.mem_append.mp hr
    · exact Core.foundRegs_eq_nil_iff.mp h.2 w hw r hr
    · exact Core.foundRegs_eq_nil_iff.mp k.2 w hw r hr

/-! ## Writes of a scratchpad (05 R106, 09 R219) -/

theorem keepByte_of_sound {bad : List Nat} {off n a : Nat} (h : badWord bad off n = none) (ha : off ≤ a) (han : a < off + n) :
    keepByte bad off n a = false := by
  have hn : a / 4 * 4 ∉ bad := fun hm => by
    have := List.find?_eq_none.mp h _ hm
    simp only [Bool.and_eq_true, decide_eq_true_eq] at this
    omega
  simp [keepByte, hn]

/-- Where no word is poisoned a write is a plain one. -/
theorem writeKeeping_of_sound {bad : List Nat} {off n : Nat} (h : badWord bad off n = none) (m : Memory) (a : Nat) (l : List Byte)
    (ha : off ≤ a) (hl : a + l.length ≤ off + n) : writeKeeping bad off n m a l = m.setBytes a l := by
  induction l generalizing m a with
  | nil => rfl
  | cons v l ih =>
    rw [List.length_cons] at hl
    rw [writeKeeping, keepByte_of_sound h ha (by omega), if_neg Bool.false_ne_true, Memory.setBytes]
    exact ih _ _ (by omega) (by omega)

theorem TileMem.scratch_writeScratch_of_sound {x : TileMem} {off : Nat} {l : List Byte}
    (h : badWord x.scratchBad off l.length = none) : (x.writeScratch off l).scratch = x.scratch.setBytes off l :=
  writeKeeping_of_sound h _ _ _ (Nat.le_refl _) (Nat.le_refl _)

/-- A number written at a sound place reads back. -/
theorem TileMem.readLE_writeScratch {x : TileMem} {off n : Nat} (v : Nat) (h : badWord x.scratchBad off n = none) :
    (x.writeScratch off (leBytes v n)).scratch.readLE off n = v % 2 ^ (8 * n) := by
  rw [TileMem.scratch_writeScratch_of_sound (by rwa [length_leBytes]), ← Memory.writeLE, Memory.readLE_writeLE_same,
    show (256 : Nat) = 2 ^ 8 from rfl, ← Nat.pow_mul]

theorem TileMem.byte_writeScratch_of_sound {x : TileMem} {off n j : Nat} (v : Nat) (h : badWord x.scratchBad off n = none) (hj : j < n) :
    (x.writeScratch off (leBytes v n)).scratch.byte (off + j) = BitVec.ofNat 8 (v / 2 ^ (8 * j)) := by
  rw [TileMem.scratch_writeScratch_of_sound (by rwa [length_leBytes]), Memory.byte_setBytes, if_pos (by rw [length_leBytes]; omega),
    Nat.add_sub_cancel_left, leBytes_getD _ _ _ hj]

theorem TileMem.byte_writeScratch_other (x : TileMem) {off a : Nat} {l : List Byte} (h : a < off ∨ off + l.length ≤ a) :
    (x.writeScratch off l).scratch.byte a = x.scratch.byte a :=
  byte_writeKeeping_other _ _ _ _ _ h

/-- What a write leaves poisoned, or latent, was so before. -/
theorem badWord_clearWords {bad : List Nat} {off n : Nat} (h : badWord bad off n = none) (lo k : Nat) :
    badWord (clearWords bad lo k) off n = none :=
  List.find?_eq_none.mpr fun w hw => List.find?_eq_none.mp h w (List.mem_of_mem_filter hw)

theorem TileMem.latentIn_writeScratch {x : TileMem} {off n : Nat} (h : x.latentIn off n = []) (lo : Nat) (l : List Byte) :
    (x.writeScratch lo l).latentIn off n = [] :=
  List.filter_eq_nil_iff.mpr fun w hw => List.filter_eq_nil_iff.mp h w (List.mem_of_mem_filter hw)

@[simp] theorem State.core_writeScratch (s : State) (t off : Nat) (l : List Byte) : (s.writeScratch t off l).core = s.core := by
  have h (x : Tile) (m : TileMem) (c : CoreId) : ({ x with mem := m } : Tile).core c = x.core c := by cases c <;> rfl
  by_cases ht : s.curTile.val = t
  · simp [State.core, State.me, State.writeScratch, ht, h]
  · simp [State.core, State.me, State.writeScratch, ht]

theorem State.tile_writeScratch_other (s : State) {t k : Nat} (off : Nat) (l : List Byte) (h : k ≠ t) :
    (s.writeScratch t off l).tile k = s.tile k :=
  State.tile_setTile_other _ _ h

@[simp] theorem State.me_skip (s : State) (n : Nat) : (s.skip n).me = s.me.setCore s.curCore (s.core.skip n) := State.me_setCore ..

/-- Writing the running core leaves every store of every tile. -/
theorem State.tileMem_setCore (s : State) (c : Core) (k : Nat) : ((s.setCore c).tile k).mem = (s.tile k).mem := by
  by_cases hk : k = s.curTile.val
  · subst hk
    exact (congrArg Tile.mem (State.me_setCore ..)).trans (Tile.setCore_mem ..)
  · rw [State.tile_setCore_other _ _ hk]

/-! ## Remote stores performed (09 R215; 07 R160) -/

/-- The state is as it was but for the contents of the scratchpads, and for the remote stores that the running core had on its way,
which are performed. -/
structure FlushFrame (s t : State) : Prop where
  state : t = { s with tiles := t.tiles }
  tile : ∀ k, t.tile k = { s.tile k with
    cl := (t.tile k).cl, cx := (t.tile k).cx, cw := (t.tile k).cw, mem := (t.tile k).mem }
  core : ∀ k c, (t.tile k).core c =
    if k = s.curTile.val ∧ c = s.curCore then { s.core with remote := [] } else (s.tile k).core c

namespace FlushFrame
variable {s t : State} (h : FlushFrame s t)
include h

theorem performRemote (r : RemoteStore) : FlushFrame s (t.performRemote r) := by
  have hcore (x : Tile) (m : TileMem) (c : CoreId) : ({ x with mem := m } : Tile).core c = x.core c := by cases c <;> rfl
  have htile (k : Nat) : ∃ m, (t.performRemote r).tile k = { t.tile k with mem := m } := by
    by_cases hk : k = r.tile
    · subst hk
      exact ⟨_, State.tile_setTile_same ..⟩
    · exact ⟨_, State.tile_writeScratch_other _ _ _ hk⟩
  refine ⟨(congrArg (fun u : State => { u with tiles := (t.performRemote r).tiles }) h.state).trans rfl, fun k => ?_, fun k c => ?_⟩
  · obtain ⟨m, hm⟩ := htile k
    rw [hm]
    exact (congrArg (fun x : Tile => { x with mem := m }) (h.tile k)).trans rfl
  · obtain ⟨m, hm⟩ := htile k
    rw [hm, hcore, h.core]

theorem foldl (l : List RemoteStore) : FlushFrame s (l.foldl State.performRemote t) := by
  induction l generalizing t with
  | nil => exact h
  | cons r l ih => exact ih (h.performRemote r)

theorem curTile : t.curTile = s.curTile := by rw [h.state]
theorem curCore : t.curCore = s.curCore := by rw [h.state]
theorem mem : t.mem = s.mem := by rw [h.state]
theorem memBad : t.memBad = s.memBad := by rw [h.state]
theorem host : t.host = s.host := by rw [h.state]
theorem parts : t.parts = s.parts := by rw [h.state]

theorem me : t.me = t.tile s.curTile.val := by rw [State.me, h.curTile]

theorem myCore : t.core = { s.core with remote := [] } := by
  rw [State.core, h.me, h.curCore, h.core, if_pos ⟨rfl, rfl⟩]

theorem coreOther {c : CoreId} (hc : c ≠ s.curCore) : t.me.core c = s.me.core c := by
  rw [h.me, h.core, if_neg fun e => hc e.2]
  rfl

theorem g (r : Reg) : t.g r = s.g r := by rw [State.g, h.myCore]; rfl
theorem life (k : Nat) : (t.tile k).life = (s.tile k).life := by rw [h.tile]
theorem prv (k : Nat) : (t.tile k).prv = (s.tile k).prv := by rw [h.tile]
theorem ctl (k : Nat) : (t.tile k).ctl = (s.tile k).ctl := by rw [h.tile]
theorem queue (k : Nat) : (t.tile k).queue = (s.tile k).queue := by rw [h.tile]
theorem eng (k : Nat) (e : Engine) : (t.tile k).eng e = (s.tile k).eng e := by rw [h.tile]; cases e <;> rfl

theorem retiredHit (k off n : Nat) : (t.tile k).retiredHit off n = (s.tile k).retiredHit off n := by
  rw [Tile.retiredHit, h.prv, Tile.retiredHit]

theorem myRetiredHit (off n : Nat) : t.me.retiredHit off n = s.me.retiredHit off n := by
  rw [h.me, h.retiredHit]
  rfl

theorem myPart : t.myPart = s.myPart := by
  rw [State.myPart, h.me, Tile.partNo, h.life]
  rfl

theorem part (p : Nat) : t.part p = s.part p := by rw [State.part, h.parts, State.part]

end FlushFrame

theorem State.flushMine_of_none {s : State} (h : s.core.remote = []) : s.flushMine = s := by
  have h' : (s.coreAt s.curTile.val s.curCore).remote = [] := h
  simp [State.flushMine, State.flushRemote, h']

theorem State.flushMine_of_some {s : State} (h : s.core.remote ≠ []) :
    s.flushMine = s.core.remote.foldl State.performRemote (s.setCore { s.core with remote := [] }) := by
  have h' : (s.coreAt s.curTile.val s.curCore).remote.isEmpty = false := List.isEmpty_eq_false_iff.mpr h
  simp only [State.flushMine, State.flushRemote, h', Bool.false_eq_true, if_false]
  rfl

theorem flushFrame_of_none {s : State} (h : s.core.remote = []) : FlushFrame s s := by
  refine ⟨rfl, fun _ => rfl, fun k c => ?_⟩
  split
  · next hk =>
    obtain ⟨rfl, rfl⟩ := hk
    exact (congrArg (fun l => { s.core with remote := l }) h)
  · rfl

theorem flushMine_frame (s : State) : FlushFrame s s.flushMine := by
  by_cases h : s.core.remote = []
  · rw [State.flushMine_of_none h]
    exact flushFrame_of_none h
  · rw [State.flushMine_of_some h]
    refine FlushFrame.foldl ⟨rfl, fun k => ?_, fun k c => ?_⟩ _
    · by_cases hk : k = s.curTile.val
      · subst hk
        have e : (s.setCore { s.core with remote := [] }).tile s.curTile.val = s.me.setCore s.curCore { s.core with remote := [] } :=
          State.me_setCore ..
        rw [e]
        cases s.curCore <;> rfl
      · rw [State.tile_setCore_other _ _ hk]
    · by_cases hk : k = s.curTile.val
      · subst hk
        change (s.setCore _).me.core c = _
        rw [State.me_setCore]
        by_cases hc : c = s.curCore
        · subst hc
          rw [Tile.core_setCore_same, if_pos ⟨rfl, rfl⟩]
        · rw [Tile.core_setCore_other _ _ hc, if_neg fun e => hc e.2]
          rfl
      · rw [State.tile_setCore_other _ _ hk, if_neg fun e => hk e.1]

/-- A write is a release that performs the core's remote stores, or the state is as it was. -/
theorem State.beforeWrite_cases (s : State) (m : Modifier) : s.beforeWrite m = s.flushMine ∨ s.beforeWrite m = s := by
  unfold State.beforeWrite
  split
  · exact .inl rfl
  · exact .inr rfl

theorem State.beforeWrite_of_none {s : State} (h : s.core.remote = []) (m : Modifier) : s.beforeWrite m = s := by
  obtain h' | h' := s.beforeWrite_cases m
  · rw [h', State.flushMine_of_none h]
  · exact h'

/-- A bank is retired before a write as it was. -/
theorem State.retiredHit_beforeWrite (s : State) (m : Modifier) (off n : Nat) :
    (s.beforeWrite m).me.retiredHit off n = s.me.retiredHit off n := by
  obtain h | h := s.beforeWrite_cases m
  · rw [h, (flushMine_frame s).myRetiredHit]
  · rw [h]

theorem State.curTile_beforeWrite (s : State) (m : Modifier) : (s.beforeWrite m).curTile = s.curTile := by
  obtain h | h := s.beforeWrite_cases m
  · rw [h, (flushMine_frame s).curTile]
  · rw [h]

/-- The bytes that no remote store of the running core names are as they were. -/
theorem byte_flushMine {s : State} {k a : Nat} (h : ∀ r ∈ s.core.remote, k ≠ r.tile ∨ a < r.off ∨ r.off + r.bytes.length ≤ a) :
    (s.flushMine.tile k).mem.scratch.byte a = (s.tile k).mem.scratch.byte a := by
  by_cases he : s.core.remote = []
  · rw [State.flushMine_of_none he]
  rw [State.flushMine_of_some he, ← s.tileMem_setCore { s.core with remote := [] } k]
  generalize s.setCore { s.core with remote := [] } = u
  revert h
  generalize s.core.remote = l
  intro h
  induction l generalizing u with
  | nil => rfl
  | cons r l ih =>
    rw [List.foldl_cons, ih _ fun x hx => h x (List.mem_cons_of_mem _ hx)]
    by_cases hk : k = r.tile
    · have hb := (h r List.mem_cons_self).resolve_left (not_not.mpr hk)
      rw [hk, State.performRemote, State.writeScratch, State.tile_setTile_same, TileMem.byte_writeScratch_other _ hb]
    · rw [State.performRemote, State.tile_writeScratch_other _ _ _ hk]

/-! ## Loads and stores of a scratchpad (09 R214, R219) -/

theorem scratchOff_eq (a : Word) (disp : BitVec 13) : scratchOff a disp = (BitVec.ofInt 64 (a.toInt + disp.toInt)).toNat :=
  congrArg BitVec.toNat (add_signExtend_eq_ofInt a disp)

theorem extendLoad_eq_loaded (sx : Bool) (n v : Nat) : extendLoad sx n v = Claims.loaded sx n v := by
  rw [extendLoad, sInt_eq_toInt, Claims.loaded]

theorem scratchCheck_eq_none {off n : Nat} (hb : off + n ≤ 0x200000) (ha : off % n = 0) : scratchCheck off n = none := by
  rw [scratchCheck, if_neg (by simpa [scratchSize] using hb), if_neg (not_not.mpr ha)]

theorem scratchCheck_bounds {off n : Nat} (hb : 0x200000 < off + n) : scratchCheck off n = some Code.scratchBounds := if_pos hb

theorem scratchCheck_alignment {off n : Nat} (hb : off + n ≤ 0x200000) (ha : off % n ≠ 0) :
    scratchCheck off n = some Code.alignment := by
  rw [scratchCheck, if_neg (by simpa [scratchSize] using hb), if_pos ha]

theorem Tile.readFails_eq_none_iff {x : Tile} {off n : Nat} :
    x.readFails off n = none ↔ x.retiredHit off n = none ∧ badWord x.mem.scratchBad off n = none := by
  unfold Tile.readFails
  split
  · next h => simp [h]
  · next h => simp [h]

theorem Tile.readFails_eq_some_iff {x : Tile} {off n w : Nat} : x.readFails off n = some w ↔
    x.retiredHit off n = some w ∨ x.retiredHit off n = none ∧ badWord x.mem.scratchBad off n = some w := by
  unfold Tile.readFails
  split
  · next h => simp [h]
  · next h => simp [h]

section
variable {s : State} {t off n : Nat} (hl : Claims.noLatent s t off n) (len : Nat) (sx : Bool) (gd : Reg)
include hl

theorem loadScratch_of_sound (h : (s.tile t).readFails off n = none) :
    loadScratch len t off n sx gd s = Claims.wrote s gd (Claims.loaded sx n ((s.tile t).mem.scratch.readLE off n)) len := by
  simp only [loadScratch, State.noteRead_clean hl, h, extendLoad_eq_loaded, Claims.wrote]

theorem loadScratch_of_bad {w : Nat} (h : (s.tile t).readFails off n = some w) :
    loadScratch len t off n sx gd s = s.faultA 0 Code.uncorrectable (uncDetail 0 w) := by
  simp only [loadScratch, State.noteRead_clean hl, h]

end

section
variable {s : State} {off n v : Nat} (len : Nat)

theorem storeScratch_of_sound (h : s.me.retiredHit off n = none) :
    storeScratch len off (leBytes v n) s = (s.writeScratch s.curTile.val off (leBytes v n)).skip len := by
  rw [storeScratch, length_leBytes, h]

theorem storeScratch_of_retired {w : Nat} (h : s.me.retiredHit off n = some w) :
    storeScratch len off (leBytes v n) s = s.faultA 1 Code.uncorrectable (uncDetail 0 w) := by
  rw [storeScratch, length_leBytes, h]

end

section
variable {s : State} {sz : Size} {gd ga : Reg} {disp : BitVec 13} {off : Nat}
  (hoff : off = (BitVec.ofInt 64 ((s.g ga).toInt + disp.toInt)).toNat)
include hoff

theorem exec_ld_refused (hc : Claims.clean s [ga]) (sx : Bool) (gd : Reg) {code : Nat} (h : scratchCheck off sz.bytes = some code) :
    exec (.ld sz sx gd ga disp) s = .next (s.faultA 0 code off) := by
  rw [← scratchOff_eq] at hoff
  simp only [exec, execLd, doLd, withSources_of_clean hc, ← hoff, h]

theorem exec_ld_admitted (hc : Claims.clean s [ga]) (sx : Bool) (gd : Reg) (h : scratchCheck off sz.bytes = none) :
    exec (.ld sz sx gd ga disp) s = .next (loadScratch 4 s.curTile.val off sz.bytes sx gd s) := by
  rw [← scratchOff_eq] at hoff
  simp only [exec, execLd, doLd, withSources_of_clean hc, ← hoff, h]

theorem exec_st_refused (hc : Claims.clean s [gd, ga]) {code : Nat} (h : scratchCheck off sz.bytes = some code) :
    exec (.st sz gd ga disp) s = .next (s.faultA 1 code off) := by
  rw [← scratchOff_eq] at hoff
  simp only [exec, execSt, doSt, withSources_of_clean hc, ← hoff, h]

theorem exec_st_admitted (hc : Claims.clean s [gd, ga]) (h : scratchCheck off sz.bytes = none) :
    exec (.st sz gd ga disp) s =
      .next (storeScratch 4 off (leBytes (s.g gd).toNat sz.bytes) (s.beforeWrite s.core.memdef)) := by
  rw [← scratchOff_eq] at hoff
  simp only [exec, execSt, doSt, withSources_of_clean hc, ← hoff, h]

end

end Sys2Proof.Machine
end

section
open Sys2Proof Sys2Proof.Machine

/-- Settles O9: first the accesses that pass the checks, then those that are refused. -/
theorem scratchpadLoadAndStore : Obligations.ScratchpadLoadAndStore := by
  unfold Obligations.ScratchpadLoadAndStore
  refine ⟨fun s sz sx gd ga disp off n hn hoff hb ha => ?admitted, fun s sz sx gd ga disp off hoff hc => ?refused⟩
  case admitted =>
    subst hn
    have hcheck := scratchCheck_eq_none hb ha
    refine ⟨fun hc hl hr => ?_, fun hc hr => ?_, fun w hc hl hw => ?_, fun w hc hw => ?_⟩
    · rw [exec_ld_admitted hoff hc sx gd hcheck, loadScratch_of_sound hl 4 sx gd hr]
      rfl
    · rw [exec_st_admitted hoff hc hcheck, storeScratch_of_sound 4 ((State.retiredHit_beforeWrite ..).trans hr),
        State.curTile_beforeWrite]
    · rw [exec_ld_admitted hoff hc sx gd hcheck, loadScratch_of_bad hl 4 sx gd (Tile.readFails_eq_some_iff.mpr hw)]
    · rw [exec_st_admitted hoff hc hcheck, storeScratch_of_retired 4 ((State.retiredHit_beforeWrite ..).trans hw)]
  case refused =>
    have hca : Claims.clean s [ga] := clean_of_subset hc (by simp)
    exact ⟨fun h => ⟨exec_ld_refused hoff hca sx gd (scratchCheck_bounds h), exec_st_refused hoff hc (scratchCheck_bounds h)⟩,
      fun hb ha => ⟨exec_ld_refused hoff hca sx gd (scratchCheck_alignment hb ha),
        exec_st_refused hoff hc (scratchCheck_alignment hb ha)⟩⟩

end

section
namespace Sys2Proof.Machine

/-! ## A store, and a load of the same place (09 R214, 07 R156; log 2) -/

theorem State.me_writeScratch (s : State) (off : Nat) (l : List Byte) :
    (s.writeScratch s.curTile.val off l).me = { s.me with mem := s.me.mem.writeScratch off l } :=
  State.me_setTile_cur ..

/-- The state after a store to the own scratchpad, as core `c` of the tile finds it. -/
def State.stored (s : State) (off : Nat) (l : List Byte) (c : CoreId) : State :=
  { (s.writeScratch s.curTile.val off l).skip 4 with curCore := c }

theorem State.me_stored (s : State) (off : Nat) (l : List Byte) (c : CoreId) :
    (s.stored off l c).me = ({ s.me with mem := s.me.mem.writeScratch off l } : Tile).setCore s.curCore (s.core.skip 4) := by
  have h := State.me_skip (s.writeScratch s.curTile.val off l) 4
  rw [State.me_writeScratch, State.core_writeScratch] at h
  exact h

/-- A core finds its registers after a store as before. -/
theorem State.core_stored (s : State) (off : Nat) (l : List Byte) (c : CoreId) :
    (s.stored off l c).core = s.me.core c ∨ (s.stored off l c).core = (s.me.core c).skip 4 := by
  have hcore (x : Tile) (m : TileMem) : ({ x with mem := m } : Tile).core c = x.core c := by cases c <;> rfl
  change (s.stored off l c).me.core c = _ ∨ (s.stored off l c).me.core c = _
  rw [State.me_stored]
  by_cases hc : c = s.curCore
  · subst hc
    exact .inr (Tile.core_setCore_same ..)
  · rw [Tile.core_setCore_other _ _ hc, hcore]
    exact .inl rfl

end Sys2Proof.Machine
end

section
open Sys2Proof Sys2Proof.Machine

/-- Settles O10: the load finds the scratchpad as the store left it. -/
theorem storeThenLoad : Obligations.StoreThenLoad := by
  unfold Obligations.StoreThenLoad
  intro s t sz gd ga gr gb disp disp' off c hc hoff hb ha hret hlat hbad hrem hst hoff' hsrc hce
  have hcheck := scratchCheck_eq_none hb ha
  rw [exec_st_admitted hoff hc hcheck, State.beforeWrite_of_none hrem, storeScratch_of_sound 4 hret] at hst
  obtain rfl := Host.Outcome.next.inj hst
  change ∃ u, exec _ (s.stored off (leBytes (s.g gd).toNat sz.bytes) c) = .next u ∧ _
  have hme := State.me_stored s off (leBytes (s.g gd).toNat sz.bytes) c
  have hcore := State.core_stored s off (leBytes (s.g gd).toNat sz.bytes) c
  generalize s.stored off (leBytes (s.g gd).toNat sz.bytes) c = u at hme hcore ⊢
  have hmem : u.me.mem = s.me.mem.writeScratch off (leBytes (s.g gd).toNat sz.bytes) := by rw [hme, Tile.setCore_mem]
  have hclean : Claims.clean u [gb] := by
    obtain h | h := hcore <;> exact ⟨by rw [h]; exact hsrc, by rw [h]; exact hce⟩
  have hg : u.g gb = (s.me.core c).read gb := by
    obtain h | h := hcore
    · rw [State.g, h]
    · rw [State.g, h, Core.read_skip]
  have hlatent : Claims.noLatent u u.curTile.val off sz.bytes := by
    change u.me.mem.latentIn _ _ = []
    rw [hmem]
    exact TileMem.latentIn_writeScratch hlat _ _
  have hsound : u.me.readFails off sz.bytes = none := by
    refine Tile.readFails_eq_none_iff.mpr ⟨?_, ?_⟩
    · rw [hme, Tile.retiredHit, Tile.setCore_prv]
      exact hret
    · rw [hmem]
      exact badWord_clearWords hbad _ _
  refine ⟨_, (exec_ld_admitted (hg ▸ hoff') hclean false gr hcheck).trans
    (congrArg _ (loadScratch_of_sound hlatent 4 false gr hsound)), ?_⟩
  have hread : (u.tile u.curTile.val).mem.scratch.readLE off sz.bytes = (s.g gd).toNat % 2 ^ (8 * sz.bytes) := by
    change u.me.mem.scratch.readLE _ _ = _
    rw [hmem, TileMem.readLE_writeScratch _ hbad]
  rw [Claims.wrote, State.g, State.core_skip, State.core_setG, Core.read_skip, Core.read_write_same, hread, Claims.loaded,
    if_neg Bool.false_ne_true, Nat.mod_mod]
  simp only [Fin.val_eq_zero_iff]

end

section
namespace Sys2Proof.Machine

/-! ## Other tiles' scratchpads (09 R215) -/

/-- A remote address that no check of 09 R215 refuses names its tile and offset. -/
theorem remoteTarget_of_admitted {s : State} {ra n : Nat} (hra : ra < 2 ^ 29) (hb : ra % 2 ^ 21 + n ≤ 0x200000)
    (ha : ra % 2 ^ 21 % n = 0) (hd : ra / 2 ^ 21 % 2 ^ 8 / 64 = s.curTile.val / 64)
    (hnode : sameNode s.me (s.tile (ra / 2 ^ 21 % 2 ^ 8)) = true) :
    remoteTarget s ra n = .ok (ra / 2 ^ 21 % 2 ^ 8, ra % 2 ^ 21) := by
  have h0 : field ra 0 21 = ra % 2 ^ 21 := by rw [field, Nat.pow_zero, Nat.div_one]
  have h29 : field ra 29 35 = 0 := by rw [field, Nat.div_eq_of_lt hra, Nat.zero_mod]
  have hsz : ¬ scratchSize < ra % 2 ^ 21 + n := by simpa [scratchSize] using hb
  have hd' : tileDie (ra / 2 ^ 21 % 2 ^ 8) = s.myDie := hd
  simp only [remoteTarget, h0, h29, ha, show field ra 21 8 = ra / 2 ^ 21 % 2 ^ 8 from rfl, hnode, hd', hsz, ne_eq, not_true,
    false_or, if_false, Bool.not_true, Bool.false_eq_true]

/-- One that they refuse raises the fault of the first that does. -/
theorem remoteTarget_of_refused {s : State} {ra n : Nat} (hlt : ra < 2 ^ 64)
    (h : 2 ^ 29 ≤ ra ∨ 0x200000 < ra % 2 ^ 21 + n ∨ ra % 2 ^ 21 % n ≠ 0 ∨ ra / 2 ^ 21 % 2 ^ 8 / 64 ≠ s.curTile.val / 64 ∨
      sameNode s.me (s.tile (ra / 2 ^ 21 % 2 ^ 8)) = false) :
    remoteTarget s ra n = .error (if 2 ^ 29 ≤ ra ∨ 0x200000 < ra % 2 ^ 21 + n then (Code.scratchBounds, ra)
      else if ra % 2 ^ 21 % n ≠ 0 then (Code.alignment, ra) else (Code.permission, 16)) := by
  have h0 : field ra 0 21 = ra % 2 ^ 21 := by rw [field, Nat.pow_zero, Nat.div_one]
  have h29 : field ra 29 35 ≠ 0 ↔ 2 ^ 29 ≤ ra := by rw [field]; omega
  simp only [remoteTarget, h0, h29, scratchSize]
  by_cases h1 : 2 ^ 29 ≤ ra ∨ 0x200000 < ra % 2 ^ 21 + n
  · rw [if_pos h1, if_pos h1]
  by_cases h2 : ra % 2 ^ 21 % n ≠ 0
  · rw [if_neg h1, if_neg h1, if_pos h2, if_pos h2]
  · have h3 : tileDie (field ra 21 8) ≠ s.myDie ∨ (!sameNode s.me (s.tile (field ra 21 8))) = true := by
      rw [Bool.not_eq_true']
      exact (((or_assoc.mpr h).resolve_left h1).resolve_left h2)
    rw [if_neg h1, if_neg h1, if_neg h2, if_neg h2, if_pos h3]

section
variable {s : State} {sz : Size} {gd ga : Reg} {disp : BitVec 13} {ra : Nat}
  (hra : ra = (BitVec.ofInt 64 ((s.g ga).toInt + disp.toInt)).toNat)
include hra

theorem exec_ldx_refused (hc : Claims.clean s [ga]) (sx : Bool) (gd : Reg) {code detail : Nat}
    (h : remoteTarget s ra sz.bytes = .error (code, detail)) :
    exec (.ldx sz sx gd ga disp) s = .next (s.faultA 0 code detail) := by
  rw [← scratchOff_eq] at hra
  simp only [exec, execLdx, doLdx, withSources_of_clean hc, ← hra, h]

theorem exec_ldx_admitted (hc : Claims.clean s [ga]) (sx : Bool) (gd : Reg) {t off : Nat}
    (h : remoteTarget s ra sz.bytes = .ok (t, off)) :
    exec (.ldx sz sx gd ga disp) s = .next (loadScratch 4 t off sz.bytes sx gd s.flushMine) := by
  rw [← scratchOff_eq] at hra
  simp only [exec, execLdx, doLdx, withSources_of_clean hc, ← hra, h]

variable (hc : Claims.clean s [gd, ga])
include hc

theorem exec_stx_refused {code detail : Nat} (h : remoteTarget s ra sz.bytes = .error (code, detail)) :
    exec (.stx sz gd ga disp) s = .next (s.faultA 1 code detail) := by
  rw [← scratchOff_eq] at hra
  simp only [exec, execStx, doStx, withSources_of_clean hc, ← hra, h]

theorem exec_stx_own {off : Nat} (h : remoteTarget s ra sz.bytes = .ok (s.curTile.val, off)) :
    exec (.stx sz gd ga disp) s =
      .next (storeScratch 4 off (leBytes (s.g gd).toNat sz.bytes) (s.beforeWrite s.core.memdef)) := by
  rw [← scratchOff_eq] at hra
  simp only [exec, execStx, doStx, withSources_of_clean hc, ← hra, h, if_true]

theorem exec_stx_other {t off : Nat} (h : remoteTarget s ra sz.bytes = .ok (t, off)) (ht : t ≠ s.curTile.val)
    (hr : (s.tile t).retiredHit off sz.bytes = none) :
    exec (.stx sz gd ga disp) s = .next (((s.beforeWrite s.core.memdef).setCore { (s.beforeWrite s.core.memdef).core with
      remote := (s.beforeWrite s.core.memdef).core.remote ++
        [{ tile := t, off := off, bytes := leBytes (s.g gd).toNat sz.bytes }] }).skip 4) := by
  rw [← scratchOff_eq] at hra
  simp only [exec, execStx, doStx, withSources_of_clean hc, ← hra, h, ht, if_false, hr]

end

/-! ## Remote stores on their way, and `fence` (10 R235, 07 R160) -/

theorem exec_remoteScratchAccess_nil {s : State} {t : TileId} {c : CoreId} (h : (s.coreAt t.val c).remote = []) :
    exec (.remoteScratchAccess t c) s = .next s := by
  simp only [exec, execRemoteScratchAccess, h]

theorem exec_remoteScratchAccess_cons {s : State} {t : TileId} {c : CoreId} {r : RemoteStore} {rest : List RemoteStore}
    (h : (s.coreAt t.val c).remote = r :: rest) : exec (.remoteScratchAccess t c) s =
      .next ((s.setCoreAt t.val c { s.coreAt t.val c with remote := rest }).writeScratch r.tile r.off r.bytes) := by
  simp only [exec, execRemoteScratchAccess, h]
  rfl

theorem State.beforeWrite_of_fenced {s : State} (h : s.core.fenced = true) (m : Modifier) : s.beforeWrite m = s.flushMine := by
  simp [State.beforeWrite, State.releases, h]

end Sys2Proof.Machine
end

section
open Sys2Proof Sys2Proof.Machine

/-- Settles O11: the accesses of another tile, what is on its way, and `fence`. -/
theorem remoteScratchpadAccess : Obligations.RemoteScratchpadAccess := by
  unfold Obligations.RemoteScratchpadAccess
  refine ⟨fun s sz sx gd ga disp ra t off n hn hra hoff ht => ?access, fun s t c r rest sc => ⟨exec_remoteScratchAccess_cons,
    exec_remoteScratchAccess_nil, fun h => ?fenceNone, fun v h hv => ?fenceAll, fun m h => State.beforeWrite_of_fenced h m⟩⟩
  case access =>
    subst hn hoff ht
    refine ⟨fun hlt hb ha hdie hnode => ?_, fun hc code detail hcode h => ?_⟩
    · have htarget := remoteTarget_of_admitted hlt hb ha hdie hnode
      refine ⟨fun hc hl hr => ?_, fun hc hr ho => exec_stx_other hra hc htarget ho hr, fun hc hr ho => ?_⟩
      · rw [exec_ldx_admitted hra hc sx gd htarget, loadScratch_of_sound hl 4 sx gd hr]
      · rw [exec_stx_own hra hc (ho ▸ htarget), storeScratch_of_sound 4 ((State.retiredHit_beforeWrite ..).trans hr),
          State.curTile_beforeWrite, ho]
    · have htarget := remoteTarget_of_refused (n := sz.bytes) (hra ▸ BitVec.isLt _) h
      rw [← hcode] at htarget
      exact ⟨exec_ldx_refused hra (clean_of_subset hc (by simp)) sx gd htarget, exec_stx_refused hra hc htarget⟩
  case fenceNone => simp only [exec, execFence, State.flushMine_of_none h]
  case fenceAll =>
    subst hv
    simp only [exec, execFence, State.flushMine_of_some h]
    rfl

end

section
namespace Sys2Proof.Machine

/-! ## Atomics on scratchpads (09 Table 9.6, R225, R226) -/

/-- Every atomic but `acas` writes. -/
theorem atomNew_isSome {op : Aop} (h : op ≠ .cas) (w old x d : Nat) : (atomNew op w old x d).isSome = true := by
  cases op with
  | cas => exact absurd rfl h
  | _ => rfl

/-- What an atomic reads beside its address. -/
theorem clean_atomSources {s : State} {op : Aop} {gd ga gb : Reg} (hc : Claims.clean s [ga, gb])
    (hd : op = .cas → Claims.clean s [gd]) : Claims.clean s (ga :: atomSources op gd gb) := by
  cases op with
  | cas => exact clean_append hc (hd rfl)
  | _ => exact hc

theorem State.g_beforeWrite (s : State) (m : Modifier) (r : Reg) : (s.beforeWrite m).g r = s.g r := by
  obtain h | h := s.beforeWrite_cases m
  · rw [h, (flushMine_frame s).g]
  · rw [h]

theorem State.me_beforeWrite (s : State) (m : Modifier) : (s.beforeWrite m).me = (s.beforeWrite m).tile s.curTile.val := by
  rw [State.me, State.curTile_beforeWrite]

section
variable {s : State} {t off n : Nat} (hl : Claims.noLatent s t off n) (op : Aop) (len : Nat) (gd gb : Reg)
include hl

theorem atomAt_of_sound (hr : (s.tile t).readFails off n = none) : atomAt op len t off n gd gb s =
    Claims.atomDone s t off n gd ((s.tile t).mem.scratch.readLE off n)
      (atomNew op (8 * n) ((s.tile t).mem.scratch.readLE off n) ((s.g gb).toNat % 2 ^ (8 * n)) (s.g gd).toNat) len := by
  simp only [atomAt, State.noteRead_clean hl, hr]
  rfl

end

section
variable {s : State} {op : Aop} {wide : Bool} {gd ga gb : Reg} (m : Modifier) (len : Nat)
  (hc : Claims.clean s (ga :: atomSources op gd gb))
include hc

theorem doAtom_admitted (h : scratchCheck (s.g ga).toNat (atomBytes wide) = none) :
    doAtom m len op wide gd ga gb s = .next (atomAt op len s.curTile.val (s.g ga).toNat (atomBytes wide) gd gb
      (s.beforeAtom m op (atomBytes wide) (s.me.mem.scratch.readLE (s.g ga).toNat (atomBytes wide)) gd gb)) := by
  simp only [doAtom, withSources_of_clean hc, h]

theorem doAtomRemote_admitted {t off : Nat} (h : remoteTarget s (s.g ga).toNat (atomBytes wide) = .ok (t, off)) :
    doAtomRemote m len op wide gd ga gb s = .next (atomAt op len t off (atomBytes wide) gd gb s.flushMine) := by
  simp only [doAtomRemote, withSources_of_clean hc, h]

end

section
variable {s s1 : State} {wide : Bool} {gd ga gb : Reg} {off n old x : Nat}
  (hn : n = if wide then 8 else 4) (hoff : off = (s.g ga).toNat) (hb : off + n ≤ 0x200000) (ha : off % n = 0)
  (hx : x = (s.g gb).toNat % 2 ^ (8 * n))
include hn hoff hb ha hx

/-- An atomic on the own scratchpad that writes is performed as a write of its core. -/
theorem doAtom_of_writes {op : Aop} (hc : Claims.clean s (ga :: atomSources op gd gb)) {m : Modifier} (hs : s1 = s.beforeWrite m)
    (hl : Claims.noLatent s1 s.curTile.val off n) (hr : s1.me.readFails off n = none) (hold : old = s1.me.mem.scratch.readLE off n)
    (hw : (atomNew op (8 * n) (s.me.mem.scratch.readLE off n) x (s.g gd).toNat).isSome = true) :
    doAtom m 4 op wide gd ga gb s =
      .next (Claims.atomDone s1 s.curTile.val off n gd old (atomNew op (8 * n) old x (s.g gd).toNat) 4) := by
  subst hn hoff hx hs
  have hbefore : s.beforeAtom m op (atomBytes wide) (s.me.mem.scratch.readLE (s.g ga).toNat (atomBytes wide)) gd gb =
      s.beforeWrite m := if_pos hw
  rw [State.me_beforeWrite] at hr hold
  rw [doAtom_admitted m 4 hc (scratchCheck_eq_none hb ha), hbefore, hold]
  refine congrArg _ ((atomAt_of_sound hl op 4 gd gb hr).trans ?_)
  rw [State.g_beforeWrite, State.g_beforeWrite]

/-- An `acas` that does not write is no release. -/
theorem doAtom_cas_of_differs (hc : Claims.clean s [ga, gb, gd]) (hl : Claims.noLatent s s.curTile.val off n)
    (hr : s.me.readFails off n = none) (hold : old = s.me.mem.scratch.readLE off n) (hne : old ≠ (s.g gd).toNat % 2 ^ (8 * n))
    (m : Modifier) : doAtom m 4 .cas wide gd ga gb s = .next (Claims.wrote s gd (BitVec.ofNat 64 old) 4) := by
  have hnone : atomNew .cas (8 * n) (s.me.mem.scratch.readLE off n) x (s.g gd).toNat = none := if_neg (hold ▸ hne)
  subst hn hoff hx hold
  have hbefore : s.beforeAtom m .cas (atomBytes wide) (s.me.mem.scratch.readLE (s.g ga).toNat (atomBytes wide)) gd gb = s :=
    if_neg (by simp only [atomBytes, hnone]; simp)
  rw [doAtom_admitted m 4 hc (scratchCheck_eq_none hb ha), hbefore]
  refine congrArg _ ((atomAt_of_sound hl .cas 4 gd gb hr).trans ?_)
  rw [show (s.tile s.curTile.val).mem = s.me.mem from rfl]
  simp only [hnone, Claims.atomDone]

end

/-- An atomic on a remote scratchpad is performed at the target tile, after its core's remote stores (log 53). -/
theorem doAtomRemote_of_sound {s s1 : State} {op : Aop} {wide : Bool} {gd ga gb : Reg} {t off n old x : Nat}
    (hn : n = if wide then 8 else 4) (hx : x = (s.g gb).toNat % 2 ^ (8 * n)) (hc : Claims.clean s (ga :: atomSources op gd gb))
    (htarget : remoteTarget s (s.g ga).toNat n = .ok (t, off)) (hs : s1 = s.flushMine) (hl : Claims.noLatent s1 t off n)
    (hr : (s1.tile t).readFails off n = none) (hold : old = (s1.tile t).mem.scratch.readLE off n) (m : Modifier) :
    doAtomRemote m 4 op wide gd ga gb s =
      .next (Claims.atomDone s1 t off n gd old (atomNew op (8 * n) old x (s.g gd).toNat) 4) := by
  subst hn hx hs hold
  rw [doAtomRemote_admitted m 4 hc htarget]
  refine congrArg _ ((atomAt_of_sound hl op 4 gd gb hr).trans ?_)
  rw [(flushMine_frame s).g, (flushMine_frame s).g]

end Sys2Proof.Machine
end

section
open Sys2Proof Sys2Proof.Machine

/-- Settles O14: the atomics on the own scratchpad, the `acas` that does not write, and the atomics on a remote scratchpad. -/
theorem scratchpadAndRemoteAtomics : Obligations.ScratchpadAndRemoteAtomics := by
  unfold Obligations.ScratchpadAndRemoteAtomics
  simp only [exec]
  refine ⟨fun s s1 wide gd ga gb off n w old x hn hw hoff hb ha hc hs hl hr hold hx => ?own,
    fun s wide gd ga gb off n old hn hoff hb ha hc hd hl hr hold hne => doAtom_cas_of_differs hn hoff hb ha rfl
      (clean_append hc hd) hl hr hold hne _,
    fun s s1 wide gd ga gb t off n old x hn hlt hoff ht hb ha hdie hnode hc hs hl hr hold hx => ?remote⟩
  case own =>
    subst hw
    have hdone (op : Aop) (hop : op ≠ .cas) := doAtom_of_writes (gd := gd) hn hoff hb ha hx (op := op)
      (clean_atomSources hc fun e => absurd e hop) hs hl hr hold (atomNew_isSome hop ..)
    have hsigned (u v : Nat) : (BitVec.ofNat (8 * n) u).toInt < (BitVec.ofNat (8 * n) v).toInt ↔ sInt (8 * n) u < sInt (8 * n) v := by
      rw [sInt_eq_toInt, sInt_eq_toInt]
    simp only [hsigned]
    refine ⟨hdone .add nofun, hdone .min nofun, hdone .max nofun, hdone .minn nofun, hdone .maxn nofun, hdone .and nofun,
      hdone .or nofun, hdone .xor nofun, hdone .xchg nofun, fun hd hexp hbefore => ?_⟩
    have hnew : atomNew .cas (8 * n) old x (s.g gd).toNat = some x := if_pos hexp
    rw [← hnew]
    exact doAtom_of_writes (op := .cas) hn hoff hb ha hx (clean_append hc hd) hs hl hr hold (by rw [hbefore, hnew]; rfl)
  case remote =>
    have htile : (s.g ga).toNat / 2 ^ 21 % 2 ^ 8 = t := by omega
    have htarget := remoteTarget_of_admitted (n := n) hlt (hoff ▸ hb) (hoff ▸ ha) (htile ▸ hdie) (htile ▸ hnode)
    rw [htile, ← hoff] at htarget
    have hdone (op : Aop) (hcs : Claims.clean s (ga :: atomSources op gd gb)) :=
      doAtomRemote_of_sound (op := op) (gd := gd) hn hx hcs htarget hs hl hr hold s.core.memdef
    have hplain (op : Aop) (hop : op ≠ .cas) := hdone op (clean_atomSources hc fun e => absurd e hop)
    exact ⟨hplain .add nofun, hplain .min nofun, hplain .max nofun, hplain .minn nofun, hplain .maxn nofun, hplain .and nofun,
      hplain .or nofun, hplain .xor nofun, hplain .xchg nofun, fun hd => hdone .cas (clean_append hc hd)⟩

end

section
namespace Sys2Proof.Machine

/-! ## The element that a tensor access names (09 R217) -/

section
variable {s s1 : State} {desc n va code detail : Nat} {ga : Reg} {d : Layout}

theorem tensorOperand_of_clean {rs : List Reg} (access : Nat)
    (hl : readLayout s s.curTile.val s.me.ctl.fmt desc s.core.pc.toNat = (.ok d, s1)) (hr : coordRegs ga d.rank = some rs)
    (hc : Claims.clean s1 rs) : tensorOperand s desc ga access = (.ok (d, rs.map fun r => (s1.g r).toInt), s1) := by
  simp only [tensorOperand, hl, Res.bind, hr, State.noteG_clean hc.2, hc.1]

theorem tensorAddr_of_at (h : Claims.TensorAt s desc ga n d va s1) (access : Nat) :
    tensorAddr s desc ga n access = (.ok (d, some va), s1) := by
  obtain ⟨rs, b, sc, hl, hr, hc, ha, h8, rfl, hn⟩ := h
  simp [tensorAddr, tensorOperand_of_clean access hl hr hc, Res.bind, ha, h8, hn]

theorem tensorAddr_of_outside (h : Claims.TensorOutside s desc ga d s1) (n access : Nat) :
    tensorAddr s desc ga n access = (.ok (d, none), s1) := by
  obtain ⟨rs, hl, hr, hc, ha⟩ := h
  simp [tensorAddr, tensorOperand_of_clean access hl hr hc, Res.bind, ha]

theorem tensorAddr_of_refused (h : Claims.TensorRefused s desc ga n s1 code detail) (access : Nat) :
    tensorAddr s desc ga n access = Res.stop (s1.coreFault access code detail) s1 := by
  obtain ⟨d, hl, ⟨h32, rfl, rfl⟩ | ⟨rs, hr, hc, ⟨ha, rfl, rfl⟩ | ⟨b, sc, ha, halign, rfl, rfl⟩⟩⟩ := h
  · have hr : coordRegs ga d.rank = none := if_neg (by omega)
    simp only [tensorAddr, tensorOperand, hl, Res.bind, hr, Res.stop]
  · simp only [tensorAddr, tensorOperand_of_clean access hl hr hc, Res.bind, ha]
  · simp only [tensorAddr, tensorOperand_of_clean access hl hr hc, Res.bind, ha, ne_eq, halign, if_true]

end

/-- A stop of the running core's instruction without an address of its own is its fault. -/
theorem State.stopCore_coreFault (s : State) (access code detail : Nat) :
    s.stopCore { f := s.coreFault access code detail } = s.faultA access code detail := rfl

/-! ## Accesses of module memory (09 R218, R219; 18 R411 to R417) -/

section
variable {s s2 : State} {d part va n pa : Nat} {acc : Access}

theorem nodeRead_of_sound (ht : nodeTranslate s d part va acc = (.ok (some pa), s2)) (hb : badGranule s2.memBad pa n = none) :
    nodeRead s d part va n acc = (.ok (s2.mem.bytes pa n), s2) := by
  simp only [nodeRead, ht, Res.bind, hb]

theorem nodeRead_of_poison {g : Nat} (ht : nodeTranslate s d part va acc = (.ok (some pa), s2))
    (hb : badGranule s2.memBad pa n = some g) :
    nodeRead s d part va n acc = Res.stop (accFault Code.uncorrectable (uncDetail 1 g) acc va) s2 := by
  simp only [nodeRead, ht, Res.bind, hb]

theorem nodeRead_of_discarded (ht : nodeTranslate s d part va acc = (.ok none, s2)) (n : Nat) :
    nodeRead s d part va n acc = (.ok (List.replicate n 0), s2) := by
  simp only [nodeRead, ht, Res.bind]

theorem nodeRead_of_stop {e : Stop} (ht : nodeTranslate s d part va acc = (.error e, s2)) (n : Nat) :
    nodeRead s d part va n acc = (.error e, s2) := by
  simp only [nodeRead, ht, Res.bind]

theorem nodeWrite_of_translated (ht : nodeTranslate s d part va .write = (.ok (some pa), s2)) (l : List Byte) :
    nodeWrite s d part va l = (.ok (), s2.writeMem pa l) := by
  simp only [nodeWrite, ht, Res.bind]

theorem nodeWrite_of_stop {e : Stop} (ht : nodeTranslate s d part va .write = (.error e, s2)) (l : List Byte) :
    nodeWrite s d part va l = (.error e, s2) := by
  simp only [nodeWrite, ht, Res.bind]

end

theorem leNat_zeros (n : Nat) : leNat (List.replicate n 0) = 0 := by
  induction n with
  | zero => rfl
  | succ n ih =>
    rw [List.replicate_succ, leNat, ih]
    rfl

theorem extendLoad_zeros (sx : Bool) (n : Nat) : extendLoad sx n (leNat (List.replicate n 0)) = 0 := by
  rw [extendLoad, leNat_zeros]
  cases sx <;> simp [sInt]

/-! ## Host windows (19 R445) and the publication buffer (07 R173) -/

theorem Part.lookup_of_none {p : Part} {off : Nat} (h : p.window off = none) (write : Bool) :
    p.lookup off write = .fault Code.notPresent 0 := by
  simp only [Part.lookup, h]

section
variable {p : Part} {off : Nat} {w : Window} (h : p.window off = some w)
include h

theorem Part.lookup_read (hr : w.rd = true) : p.lookup off false = .host (w.host + off - w.offset) := by
  simp [Part.lookup, h, hr]

theorem Part.lookup_read_refused (hr : w.rd = false) : p.lookup off false = .fault Code.permission 1 := by
  simp [Part.lookup, h, hr]

theorem Part.lookup_write (hw : w.w = true) : p.lookup off true = .host (w.host + off - w.offset) := by
  simp [Part.lookup, h, hw]

theorem Part.lookup_write_refused (hw : w.w = false) : p.lookup off true = .fault Code.permission 2 := by
  simp [Part.lookup, h, hw]

end

theorem Part.holdsAll_iff {p : Part} {a n : Nat} : p.holdsAll a n = true ↔ ∀ j, j < n → (p.heldByte (a + j)).isSome = true := by
  induction n generalizing a with
  | zero => simp [Part.holdsAll]
  | succ n ih =>
    rw [Part.holdsAll, Bool.and_eq_true, ih]
    refine ⟨fun ⟨h0, h⟩ j hj => ?_, fun h => ⟨h 0 (by omega), fun j hj => ?_⟩⟩
    · cases j with
      | zero => exact h0
      | succ j => rw [show a + (j + 1) = a + 1 + j by omega]; exact h j (by omega)
    · rw [show a + 1 + j = a + (j + 1) by omega]; exact h _ (by omega)

theorem windowBytes_of_held {s : State} {part a n : Nat} {v : Nat → Byte}
    (h : ∀ j, j < n → (s.part part).heldByte (a + j) = some (v j)) : s.windowBytes part a n = (List.range n).map v := by
  induction n generalizing a v with
  | zero => rfl
  | succ n ih =>
    have h0 := h 0 (by omega)
    rw [Nat.add_zero] at h0
    rw [State.windowBytes, h0, List.range_succ_eq_map, List.map_cons, List.map_map, ih (v := v ∘ Nat.succ) fun j hj => by
      rw [show a + 1 + j = a + (j + 1) by omega]; exact h _ (by omega)]
    rfl

/-- A granule whose byte `i` is written. -/
def Granule.put (g : Granule) (i : Nat) (v : Byte) : Granule := { g with bytes := g.bytes.set i (some v) }

theorem Granule.put_getD {g : Granule} {i : Nat} (v : Byte) (hl : g.bytes.length = 64) (hi : i < 64) (j : Nat) :
    (g.put i v).bytes.getD j none = if j = i then some v else g.bytes.getD j none := by
  by_cases h : j = i
  · subst h
    simp [Granule.put, List.getD_eq_getElem?_getD, List.getElem?_set_self (hl.symm ▸ hi)]
  · simp [Granule.put, List.getD_eq_getElem?_getD, List.getElem?_set_ne (Ne.symm h), h]

/-- A granule into which byte `v` at address `a` merges, where it is that of the address. -/
def Granule.merge (a : Nat) (v : Byte) (g : Granule) : Granule := if g.host = a / 64 * 64 then g.put (a % 64) v else g

theorem Granule.host_merge (a : Nat) (v : Byte) (g : Granule) : (g.merge a v).host = g.host := by
  unfold Granule.merge
  split <;> rfl

theorem Granule.length_merge {g : Granule} (a : Nat) (v : Byte) (h : g.bytes.length = 64) : (g.merge a v).bytes.length = 64 := by
  unfold Granule.merge
  split
  · simpa [Granule.put] using h
  · exact h

theorem heldIn_map_merge {gs : List Granule} (hl : ∀ g ∈ gs, g.bytes.length = 64) {a : Nat} (v : Byte)
    (hany : ∃ g ∈ gs, g.host = a / 64 * 64) (b : Nat) :
    heldIn (gs.map (Granule.merge a v)) b = if b = a then some v else heldIn gs b := by
  unfold heldIn
  rw [List.find?_map, show (fun g : Granule => decide (g.host = b / 64 * 64)) ∘ Granule.merge a v =
    fun g => decide (g.host = b / 64 * 64) from funext fun g => by rw [Function.comp_apply, Granule.host_merge]]
  cases hf : gs.find? fun g => decide (g.host = b / 64 * 64) with
  | none =>
    obtain ⟨g, hg, hga⟩ := hany
    have hb : g.host ≠ b / 64 * 64 := by simpa using List.find?_eq_none.mp hf g hg
    rw [if_neg fun e : b = a => hb (e ▸ hga)]
    rfl
  | some g =>
    have hg : g.host = b / 64 * 64 := by simpa using List.find?_some hf
    simp only [Option.map_some, Option.bind_some, Granule.merge]
    by_cases ha : g.host = a / 64 * 64
    · rw [if_pos ha, Granule.put_getD v (hl g (List.mem_of_find?_eq_some hf)) (by omega)]
      exact if_congr (by omega) rfl rfl
    · rw [if_neg ha, if_neg fun e : b = a => ha (e ▸ hg)]

theorem heldIn_append_new {gs : List Granule} {a : Nat} (hnone : ¬ ∃ g ∈ gs, g.host = a / 64 * 64) (v : Byte) (b : Nat) :
    heldIn (gs ++ [({ host := a / 64 * 64, bytes := List.replicate 64 none } : Granule).put (a % 64) v]) b =
      if b = a then some v else heldIn gs b := by
  unfold heldIn
  rw [List.find?_append]
  cases hf : gs.find? fun g => decide (g.host = b / 64 * 64) with
  | some g =>
    have hg : g.host = b / 64 * 64 := by simpa using List.find?_some hf
    rw [if_neg fun e : b = a => hnone ⟨g, List.mem_of_find?_eq_some hf, e ▸ hg⟩]
    rfl
  | none =>
    by_cases hb : a / 64 * 64 = b / 64 * 64
    · have hput := Granule.put_getD (g := { host := a / 64 * 64, bytes := List.replicate 64 none }) v (i := a % 64)
        List.length_replicate (by omega) (b % 64)
      rw [List.getD_replicate _ (by omega)] at hput
      simp only [Option.none_or, List.find?_singleton, Granule.put, hb, decide_true, if_true, Option.bind_some, Option.bind_none]
      exact hput.trans (if_congr (by omega) rfl rfl)
    · have hab : b ≠ a := fun e => hb (e ▸ rfl)
      simp [Granule.put, hb, hab]

/-- Whether every granule of the buffer has its 64 bytes. -/
def Part.WholeGranules (p : Part) : Prop := ∀ g ∈ p.pub, g.bytes.length = 64

section
variable {p : Part} (hl : p.WholeGranules)
include hl

/-- A byte that enters the buffer is held there, beside those that were. -/
theorem Part.pubByte_spec (a : Nat) (v : Byte) :
    (p.pubByte a v).WholeGranules ∧ ∀ b, (p.pubByte a v).heldByte b = if b = a then some v else p.heldByte b := by
  by_cases hany : ∃ g ∈ p.pub, g.host = a / 64 * 64
  · have hp : (p.pubByte a v).pub = p.pub.map (Granule.merge a v) := by
      rw [Part.pubByte, if_pos (by simpa using hany)]
      rfl
    refine ⟨fun g hg => ?_, fun b => ?_⟩
    · rw [hp] at hg
      obtain ⟨x, hx, rfl⟩ := List.mem_map.mp hg
      exact Granule.length_merge a v (hl x hx)
    · rw [Part.heldByte_eq, Part.heldByte_eq, hp, heldIn_map_merge hl v hany]
  · have hp : (p.pubByte a v).pub =
        p.pub ++ [({ host := a / 64 * 64, bytes := List.replicate 64 none } : Granule).put (a % 64) v] := by
      rw [Part.pubByte, if_neg (by simpa using hany)]
      rfl
    refine ⟨fun g hg => ?_, fun b => ?_⟩
    · rw [hp] at hg
      obtain hg | hg := List.mem_append.mp hg
      · exact hl g hg
      · obtain rfl := List.mem_singleton.mp hg
        simp [Granule.put]
    · rw [Part.heldByte_eq, Part.heldByte_eq, hp, heldIn_append_new hany]

theorem Part.heldByte_pubBytes (a : Nat) (l : List Byte) (b : Nat) :
    (p.pubBytes a l).heldByte b = if a ≤ b ∧ b < a + l.length then some (l.getD (b - a) 0) else p.heldByte b := by
  induction l generalizing p a with
  | nil => simp [Part.pubBytes]
  | cons v l ih =>
    obtain ⟨hw, hb⟩ := Part.pubByte_spec hl a v
    rw [Part.pubBytes, ih hw, hb, List.length_cons]
    by_cases ha : b = a
    · subst ha
      rw [if_neg (by omega), if_pos rfl, if_pos (by omega)]
      simp
    · rw [if_neg ha]
      by_cases h : a + 1 ≤ b ∧ b < a + 1 + l.length
      · rw [if_pos h, if_pos (by omega), show b - a = b - (a + 1) + 1 by omega, List.getD_cons_succ]
      · rw [if_neg h, if_neg (by omega)]

end

end Sys2Proof.Machine
end

section
namespace Sys2Proof.Machine

/-! ## ldt and stt (09 R217, R218, Table 9.5) -/

theorem Res.bind_ok {α β : Type} (a : α) (s : State) (f : α → State → Res β) : Res.bind (.ok a, s) f = f a s := rfl
theorem Res.bind_error {α β : Type} (e : Stop) (s : State) (f : α → State → Res β) : Res.bind (.error e, s) f = (.error e, s) := rfl
theorem Res.run_ok {α : Type} (a : α) (s : State) (k : α → State → State) : Res.run (.ok a, s) k = .next (k a s) := rfl
theorem Res.run_error {α : Type} (e : Stop) (s : State) (k : α → State → State) :
    Res.run (.error e, s) k = .next (s.stopCore e) := rfl

section
variable {s s1 : State} {sz : Size} {ga : Reg} {desc : BitVec 12} {d : Layout} {va : Nat}
  (h : Claims.TensorAt s desc.toNat ga sz.bytes d va s1) (sx : Bool) {gd : Reg}
include h

theorem exec_ldt_memory (gd : Reg) (hs : d.space = 0) : exec (.ldt sz sx gd ga desc) s =
    ((nodeRead s1 s1.myDie s1.myPart va sz.bytes .read).bind fun l s =>
      (.ok ((s.setG gd (extendLoad sx sz.bytes (leNat l))).skip 4), s)).run fun t _ => t := by
  simp only [exec, execLdt, doLdt, tensorAddr_of_at h, Res.bind_ok, hs]

theorem exec_ldt_window (gd : Reg) (hs : d.space = 1) :
    exec (.ldt sz sx gd ga desc) s = .next (windowRead 4 va sz.bytes sx gd s1) := by
  simp only [exec, execLdt, doLdt, tensorAddr_of_at h, Res.bind_ok, hs, Res.run_ok]

theorem exec_ldt_module (gd : Reg) (hs : 2 ≤ d.space) :
    exec (.ldt sz sx gd ga desc) s = .next (fabricAccess 4 0 d.modnum va (.load gd sx sz.bytes) s1) := by
  obtain ⟨k, hk⟩ := Nat.exists_eq_add_of_le' hs
  simp only [exec, execLdt, doLdt, tensorAddr_of_at h, Res.bind_ok, hk, Res.run_ok]

variable (hc : Claims.clean s [gd])
include hc

theorem exec_stt_memory (hs : d.space = 0) : exec (.stt sz gd ga desc) s =
    ((nodeWrite (s1.beforeWrite s.core.memdef) s1.myDie s1.myPart va (leBytes (s1.g gd).toNat sz.bytes)).bind fun _ s =>
      (.ok (s.skip 4), s)).run fun t _ => t := by
  simp only [exec, execStt, doStt, State.noteG_clean hc.2, hc.1, tensorAddr_of_at h, Res.bind_ok, hs]

theorem exec_stt_window (hs : d.space = 1) : exec (.stt sz gd ga desc) s =
    .next (windowWrite 4 va (leBytes (s1.g gd).toNat sz.bytes) (s1.beforeWrite s.core.memdef)) := by
  simp only [exec, execStt, doStt, State.noteG_clean hc.2, hc.1, tensorAddr_of_at h, Res.bind_ok, hs, Res.run_ok]

theorem exec_stt_module (hs : 2 ≤ d.space) : exec (.stt sz gd ga desc) s =
    .next (fabricAccess 4 1 d.modnum va (.store (leBytes (s1.g gd).toNat sz.bytes)) (s1.beforeWrite s.core.memdef)) := by
  obtain ⟨k, hk⟩ := Nat.exists_eq_add_of_le' hs
  simp only [exec, execStt, doStt, State.noteG_clean hc.2, hc.1, tensorAddr_of_at h, Res.bind_ok, hk, Res.run_ok]

end

section
variable {s s1 : State} {sz : Size} {gd ga : Reg} {desc : BitVec 12} {d : Layout}

theorem exec_ldt_outside (h : Claims.TensorOutside s desc.toNat ga d s1) (sx : Bool) (gd : Reg) :
    exec (.ldt sz sx gd ga desc) s = .next (Claims.wrote s1 gd 0 4) := by
  simp only [exec, execLdt, doLdt, tensorAddr_of_outside h, Res.bind_ok, Res.run_ok, Claims.wrote]

theorem exec_stt_outside (h : Claims.TensorOutside s desc.toNat ga d s1) (hc : Claims.clean s [gd]) :
    exec (.stt sz gd ga desc) s = .next (s1.skip 4) := by
  simp only [exec, execStt, doStt, State.noteG_clean hc.2, hc.1, tensorAddr_of_outside h, Res.bind_ok, Res.run_ok]

variable {code detail : Nat} (h : Claims.TensorRefused s desc.toNat ga sz.bytes s1 code detail)
include h

theorem exec_ldt_refused (sx : Bool) (gd : Reg) : exec (.ldt sz sx gd ga desc) s = .next (s1.faultA 0 code detail) := by
  simp only [exec, execLdt, doLdt, tensorAddr_of_refused h, Res.stop, Res.bind_error, Res.run_error, State.stopCore_coreFault]

theorem exec_stt_refused (hc : Claims.clean s [gd]) : exec (.stt sz gd ga desc) s = .next (s1.faultA 1 code detail) := by
  simp only [exec, execStt, doStt, State.noteG_clean hc.2, hc.1, tensorAddr_of_refused h, Res.stop, Res.bind_error, Res.run_error,
    State.stopCore_coreFault]

end

section
variable {s : State} {va a n : Nat} (len : Nat)

theorem windowRead_of_fault {code detail : Nat} (h : (s.part s.myPart).lookup va false = .fault code detail) (n : Nat) (sx : Bool)
    (gd : Reg) : windowRead len va n sx gd s = s.faultRec { code := code, detail := detail, access := 0, vaddr := va } := by
  simp only [windowRead, h, State.windowFault]

theorem windowRead_of_held {v : Nat → Byte} (h : (s.part s.myPart).lookup va false = .host a)
    (hv : ∀ j, j < n → (s.part s.myPart).heldByte (a + j) = some (v j)) (sx : Bool) (gd : Reg) :
    windowRead len va n sx gd s = Claims.wrote s gd (Claims.loaded sx n (leNat ((List.range n).map v))) len := by
  have hall : (s.part s.myPart).holdsAll a n = true := Part.holdsAll_iff.mpr fun j hj => by rw [hv j hj]; rfl
  simp only [windowRead, h, hall, if_true, windowBytes_of_held hv, extendLoad_eq_loaded, Claims.wrote]

theorem windowRead_of_not_held (h : (s.part s.myPart).lookup va false = .host a)
    (hv : ∃ j, j < n ∧ (s.part s.myPart).heldByte (a + j) = none) (sx : Bool) (gd : Reg) :
    windowRead len va n sx gd s =
      s.block (.hostRead { offset := va, host := a, len := n, since := s.seiche, what := .load gd sx n, unitLen := len }) := by
  have hall : ¬ (s.part s.myPart).holdsAll a n = true := fun hp => by
    obtain ⟨j, hj, hnone⟩ := hv
    simpa [hnone] using Part.holdsAll_iff.mp hp j hj
  simp only [windowRead, h, hall, Bool.false_eq_true, if_false]

theorem windowWrite_of_fault {code detail : Nat} (h : (s.part s.myPart).lookup va true = .fault code detail) (l : List Byte) :
    windowWrite len va l s = s.faultRec { code := code, detail := detail, access := 1, vaddr := va } := by
  simp only [windowWrite, h, State.windowFault]

theorem windowWrite_of_full {l : List Byte} (h : (s.part s.myPart).lookup va true = .host a)
    (hf : (s.part s.myPart).pubFull a l.length = true) : windowWrite len va l s = s.block .bufferSpace := by
  simp only [windowWrite, h, hf, if_true]

theorem windowWrite_of_room {l : List Byte} (h : (s.part s.myPart).lookup va true = .host a)
    (hf : (s.part s.myPart).pubFull a l.length = false) :
    windowWrite len va l s = (s.setPart s.myPart ((s.part s.myPart).pubBytes a l)).skip len := by
  simp only [windowWrite, h, hf, Bool.false_eq_true, if_false]

theorem fabricAccess_of_reachable {m off : Nat} (h : s.reachable s.myDie m = true) (access : Nat) (what : Remote) (release : Bool) :
    fabricAccess len access m off what s release = s.block (.fabric
      { module := m, offset := off, since := s.seiche, limit := s.me.prv.fabto, what := what, unitLen := len, release := release }) :=
  if_pos h

theorem fabricAccess_of_unreachable {m : Nat} (h : s.reachable s.myDie m = false) (off access : Nat) (what : Remote) (release : Bool) :
    fabricAccess len access m off what s release = s.faultA access Code.fabricPeerAbsent m :=
  if_neg (by simp [h])

end

/-- The host window that a write finds is the one that its core's partition has. -/
theorem State.window_beforeWrite (s : State) (m : Modifier) :
    (s.beforeWrite m).part (s.beforeWrite m).myPart = s.part s.myPart := by
  obtain h | h := s.beforeWrite_cases m
  · rw [h, (flushMine_frame s).part, (flushMine_frame s).myPart]
  · rw [h]

end Sys2Proof.Machine
end

section
open Sys2Proof Sys2Proof.Machine

/-- Settles O12: by the space that the coordinate names, then OUTSIDE and the refusals. -/
theorem tensorLoadAndStore : Obligations.TensorLoadAndStore := by
  unfold Obligations.TensorLoadAndStore
  intro s s1 u sz sx gd ga desc d va n hn
  subst hn
  refine ⟨fun hat hu => ⟨fun hs => ?memory, fun hs => ⟨fun hw => ?noWindow, fun w h hw hh => ?window⟩, fun hs => ?module⟩,
    fun h => ⟨exec_ldt_outside h sx gd, exec_stt_outside h⟩, fun code detail h => ⟨exec_ldt_refused h sx gd, exec_stt_refused h⟩⟩
  case memory =>
    subst hu
    refine ⟨fun pa s2 ht => ⟨fun hb => ?_, fun g hb => ?_⟩, fun s2 ht => ?_, fun e s2 ht => ?_, fun hc => ⟨fun pa s2 ht => ?_, fun e s2 ht => ?_⟩⟩
    · rw [exec_ldt_memory hat sx gd hs, nodeRead_of_sound ht hb, Res.bind_ok, Res.run_ok, extendLoad_eq_loaded]
      rfl
    · rw [exec_ldt_memory hat sx gd hs, nodeRead_of_poison ht hb]
      rfl
    · rw [exec_ldt_memory hat sx gd hs, nodeRead_of_discarded ht, Res.bind_ok, Res.run_ok, extendLoad_zeros]
      rfl
    · rw [exec_ldt_memory hat sx gd hs, nodeRead_of_stop ht, Res.bind_error, Res.run_error]
      rfl
    · rw [exec_stt_memory hat hc hs, nodeWrite_of_translated ht, Res.bind_ok, Res.run_ok]
    · rw [exec_stt_memory hat hc hs, nodeWrite_of_stop ht, Res.bind_error, Res.run_error]
      rfl
  case noWindow =>
    refine ⟨?_, fun hc => ?_⟩
    · rw [exec_ldt_window hat sx gd hs, windowRead_of_fault 4 (Part.lookup_of_none hw false)]
    · rw [exec_stt_window hat hc hs, ← hu, windowWrite_of_fault 4]
      rw [hu, State.window_beforeWrite, Part.lookup_of_none hw]
  case window =>
    have hwu : (u.part u.myPart).window va = some w := by rw [hu, State.window_beforeWrite, hw]
    have hlen := length_leBytes (s1.g gd).toNat sz.bytes
    subst hh
    refine ⟨fun hr => ?_, fun hr hv => ?_, fun v hr hv => ?_, fun hc hww => ?_, fun hc hww hf => ?_, fun hc hww hf hl => ?_⟩
    · rw [exec_ldt_window hat sx gd hs, windowRead_of_fault 4 (Part.lookup_read_refused hw hr)]
    · rw [exec_ldt_window hat sx gd hs, windowRead_of_not_held 4 (Part.lookup_read hw hr) hv]
    · rw [exec_ldt_window hat sx gd hs, windowRead_of_held 4 (Part.lookup_read hw hr) hv]
    · rw [exec_stt_window hat hc hs, ← hu, windowWrite_of_fault 4 (Part.lookup_write_refused hwu hww)]
    · rw [exec_stt_window hat hc hs, ← hu, windowWrite_of_full 4 (Part.lookup_write hwu hww) (by rwa [hlen])]
    · rw [exec_stt_window hat hc hs, ← hu, windowWrite_of_room 4 (Part.lookup_write hwu hww) (by rwa [hlen])]
      refine ⟨_, rfl, by rw [State.core_skip]; rfl, rfl, rfl, fun a => ?_⟩
      change ((u.setPart _ _).part u.myPart).heldByte a = _
      rw [State.part_setPart_same, Part.heldByte_pubBytes hl, hlen]
      by_cases ha : w.host + va - w.offset ≤ a ∧ a < w.host + va - w.offset + sz.bytes
      · rw [if_pos ha, if_pos ha, leBytes_getD _ _ _ (by omega)]
      · rw [if_neg ha, if_neg ha]
  case module =>
    refine ⟨fun hr => ?_, fun hr => ?_, fun hc => ⟨fun hr => ?_, fun hr => ?_⟩⟩
    · rw [exec_ldt_module hat sx gd hs, fabricAccess_of_reachable 4 hr]
    · rw [exec_ldt_module hat sx gd hs, fabricAccess_of_unreachable 4 hr]
    · rw [exec_stt_module hat hc hs, ← hu, fabricAccess_of_reachable 4 hr]
    · rw [exec_stt_module hat hc hs, ← hu, fabricAccess_of_unreachable 4 hr]

end

section
namespace Sys2Proof.Machine

/-! ## dset, dget and probe (09 R221, R223) -/

theorem imageCheck_bounds {a : Word} (h : 0x200000 < a.toNat + 64) : imageCheck a = some Code.scratchBounds := if_pos h

theorem imageCheck_alignment {a : Word} (h : a.toNat + 64 ≤ 0x200000) (ha : a.toNat % 64 ≠ 0) : imageCheck a = some Code.alignment := by
  rw [imageCheck, if_neg (by simpa [scratchSize] using h), if_pos ha]

theorem imageCheck_eq_none {a : Word} (h : a.toNat + 64 ≤ 0x200000) (ha : a.toNat % 64 = 0) : imageCheck a = none := by
  rw [imageCheck, if_neg (by simpa [scratchSize] using h), if_neg (not_not.mpr ha)]

section
variable {s s1 : State} {ga : Reg} (desc : BitVec 12) (hc : Claims.clean s [ga])
include hc

theorem exec_dset_refused {code : Nat} (h : imageCheck (s.g ga) = some code) :
    exec (.dset ga desc) s = .next (s.faultA 1 code (s.g ga).toNat) := by
  simp only [exec, execDset, doDset, withSources_of_clean hc, h]

theorem exec_dget_refused {code : Nat} (h : imageCheck (s.g ga) = some code) :
    exec (.dget ga desc) s = .next (s.faultA 0 code (s.g ga).toNat) := by
  simp only [exec, execDget, doDget, withSources_of_clean hc, h]

variable {a : Nat} (ha : a = (s.g ga).toNat) (h : imageCheck (s.g ga) = none)
include ha h

theorem exec_dset_translated {pa : Nat} (hl : Claims.noLatent s s.curTile.val a 64) (hr : s.me.readFails a 64 = none)
    (ht : nodeTranslate (s.beforeWrite s.core.memdef) s.myDie s.myPart (s.me.descAddr desc.toNat) .write = (.ok (some pa), s1)) :
    exec (.dset ga desc) s = .next (((s1.logDset s1.myPart (s.me.descAddr desc.toNat) (s1.mem.bytes pa 64)).writeMem pa
      (s.me.mem.scratch.bytes a 64)).skip 4) := by
  subst ha
  simp only [exec, execDset, doDset, withSources_of_clean hc, h, State.noteRead_clean hl, hr, ht]

theorem exec_dget_read {l : List Byte} (hn : nodeRead s s.myDie s.myPart (s.me.descAddr desc.toNat) 64 .read = (.ok l, s1)) :
    exec (.dget ga desc) s = .next (storeScratch 4 a l (s1.beforeWrite s.core.memdef)) := by
  subst ha
  simp only [exec, execDget, doDget, withSources_of_clean hc, h, hn]

end

/-- A `dset` remembers what it replaces, and leaves all else as it was. -/
theorem State.logDset_frame (s : State) (part va : Nat) (old : List Byte) :
    ∃ l, s.logDset part va old = { s with dsets := l } := by
  unfold State.logDset
  split
  · exact ⟨_, rfl⟩
  · exact ⟨s.dsets, rfl⟩

theorem exec_probe_operand {s s1 : State} {w : Bool} {gd ga : Reg} {desc : BitVec 12} {d : Layout} {c : List Int}
    (hc : Claims.clean s [gd]) (h : tensorOperand s desc.toNat ga (if w then 1 else 0) = (.ok (d, c), s1)) :
    exec (.probe w gd ga desc) s = Res.run (if d.space ≠ 0 then (.ok (), s1)
      else probeRun s1 d (entryOf s1.me.ctl.fmt d.fidx) desc.toNat (if w then .write else .read) c.dropLast
        (min (s1.g gd).toNat 65536) (c.getLastD 0) none) fun _ s => s.skip 4 := by
  have hacc : accCode (if w then .write else .read) = if w then 1 else 0 := by cases w <;> rfl
  simp only [exec, execProbe, State.noteG_clean hc.2, hc.1, hacc, h, Res.bind_ok]

end Sys2Proof.Machine
end

section
open Sys2Proof Sys2Proof.Machine

/-- Settles O13: the layout record's image and its record, then `probe`. -/
theorem layoutCopiesAndProbe : Obligations.LayoutCopiesAndProbe := by
  unfold Obligations.LayoutCopiesAndProbe
  refine ⟨fun s s1 ga desc a ta hc ha => ⟨fun hb => ?bounds, fun hb h64 => ?alignment, fun hb h64 hl hta => ⟨fun pa hr ht => ?dset,
    fun l hn hlen hret hrem => ?dget⟩⟩, fun s s1 s2 w gd ga desc d c hc h => ⟨fun hs => ?skipped, fun hs hrun => ?probed⟩⟩
  case bounds =>
    subst ha
    exact ⟨exec_dset_refused desc hc (imageCheck_bounds hb), exec_dget_refused desc hc (imageCheck_bounds hb)⟩
  case alignment =>
    subst ha
    exact ⟨exec_dset_refused desc hc (imageCheck_alignment hb h64), exec_dget_refused desc hc (imageCheck_alignment hb h64)⟩
  case dset =>
    have hcheck : imageCheck (s.g ga) = none := imageCheck_eq_none (ha ▸ hb) (ha ▸ h64)
    obtain rfl : ta = s.me.descAddr desc.toNat := hta
    refine ⟨_, exec_dset_translated desc hc ha hcheck hl hr ht, ?_⟩
    obtain ⟨ds, hlog⟩ := State.logDset_frame s1 s1.myPart (s.me.descAddr desc.toNat) (s1.mem.bytes pa 64)
    have hlen := Memory.length_bytes s.me.mem.scratch a 64
    rw [hlog]
    refine ⟨fun hbad => homeWrite_clean s1.mem (hlen.symm ▸ hbad), fun b hb' => byte_homeWrite_other _ _ _ (by rwa [hlen]), rfl, ?_⟩
    rw [State.core_skip, State.core_writeMem]
    rfl
  case dget =>
    have hcheck : imageCheck (s.g ga) = none := imageCheck_eq_none (ha ▸ hb) (ha ▸ h64)
    obtain rfl : ta = s.me.descAddr desc.toNat := hta
    rw [exec_dget_read desc hc ha hcheck hn, State.beforeWrite_of_none hrem, storeScratch, hlen, hret]
  case skipped => rw [exec_probe_operand hc h, if_pos hs, Res.run_ok]
  case probed => rw [exec_probe_operand hc h, if_neg (not_not.mpr hs), hrun, Res.run_ok]

end

section
namespace Sys2Proof.Machine

/-! ## Atomics on tensor memory (09 R225, R226) -/

section
variable {s s1 : State} {op : Aop} {wide : Bool} {gd ga gb : Reg} {desc : BitVec 7} {d : Layout} {va : Nat} (m : Modifier)
  (hc : Claims.clean s (atomSources op gd gb))
include hc

theorem doAtomTensor_outside (h : Claims.TensorOutside s desc.toNat ga d s1) :
    doAtomTensor m 4 op wide gd ga gb desc s = .next (s1.faultA 3 Code.descriptorInvalid desc.toNat) := by
  simp only [doAtomTensor, State.noteG_clean hc.2, hc.1, tensorAddr_of_outside h, Res.bind_ok, Res.stop, Res.run_error,
    State.stopCore_coreFault]

theorem doAtomTensor_refused {code detail : Nat} (h : Claims.TensorRefused s desc.toNat ga (atomBytes wide) s1 code detail) :
    doAtomTensor m 4 op wide gd ga gb desc s = .next (s1.faultA 3 code detail) := by
  simp only [doAtomTensor, State.noteG_clean hc.2, hc.1, tensorAddr_of_refused h, Res.stop, Res.bind_error, Res.run_error,
    State.stopCore_coreFault]

variable (h : Claims.TensorAt s desc.toNat ga (atomBytes wide) d va s1)
include h

theorem doAtomTensor_memory (hs : d.space = 0) : doAtomTensor m 4 op wide gd ga gb desc s =
    ((atomMem m op (atomBytes wide) va gd gb s1).bind fun old s => (.ok ((s.setG gd old).skip 4), s)).run fun t _ => t := by
  simp only [doAtomTensor, State.noteG_clean hc.2, hc.1, tensorAddr_of_at h, Res.bind_ok, hs]

theorem doAtomTensor_window (hs : d.space = 1) : doAtomTensor m 4 op wide gd ga gb desc s =
    .next (s1.faultRec (accFault Code.permission 0 .atomic va)) := by
  simp only [doAtomTensor, State.noteG_clean hc.2, hc.1, tensorAddr_of_at h, Res.bind_ok, hs, Res.stop, Res.run_error]
  rfl

theorem doAtomTensor_module (hs : 2 ≤ d.space) : doAtomTensor m 4 op wide gd ga gb desc s =
    .next (fabricAccess 4 3 d.modnum va
      (.rmw op (atomBytes wide) gd ((s1.g gb).toNat % 2 ^ (8 * atomBytes wide)) (s1.g gd).toNat) s1 (s1.releases m)) := by
  obtain ⟨k, hk⟩ := Nat.exists_eq_add_of_le' hs
  simp only [doAtomTensor, State.noteG_clean hc.2, hc.1, tensorAddr_of_at h, Res.bind_ok, hk, Res.run_ok]

end

section
variable {s s2 : State} {op : Aop} {n va pa old : Nat} {gd gb : Reg} (m : Modifier)
  (ht : nodeTranslate s s.myDie s.myPart va .atomic = (.ok (some pa), s2))
include ht

theorem atomMem_of_poison {g : Nat} (hb : badGranule s2.memBad pa n = some g) (op : Aop) (gd gb : Reg) :
    atomMem m op n va gd gb s = Res.stop (accFault Code.uncorrectable (uncDetail 1 g) .atomic va) s2 := by
  simp only [atomMem, ht, Res.bind_ok, hb]

variable (hb : badGranule s2.memBad pa n = none) (hold : old = s2.mem.readLE pa n)
include hb hold

theorem atomMem_of_writes {v : Nat} (hnew : atomNew op (8 * n) old ((s2.g gb).toNat % 2 ^ (8 * n)) (s2.g gd).toNat = some v) :
    atomMem m op n va gd gb s = (.ok (BitVec.ofNat 64 old), (s2.beforeWrite m).writeMem pa (leBytes v n)) := by
  subst hold
  simp only [atomMem, ht, Res.bind_ok, hb, hnew]

theorem atomMem_of_keeps (hnew : atomNew op (8 * n) old ((s2.g gb).toNat % 2 ^ (8 * n)) (s2.g gd).toNat = none) :
    atomMem m op n va gd gb s = (.ok (BitVec.ofNat 64 old), s2) := by
  subst hold
  simp only [atomMem, ht, Res.bind_ok, hb, hnew]

end

/-- Remote stores performed before a write leave module memory and its poison. -/
theorem State.mem_beforeWrite (s : State) (m : Modifier) : (s.beforeWrite m).mem = s.mem ∧ (s.beforeWrite m).memBad = s.memBad := by
  obtain h | h := s.beforeWrite_cases m
  · rw [h]
    exact ⟨(flushMine_frame s).mem, (flushMine_frame s).memBad⟩
  · rw [h]
    exact ⟨rfl, rfl⟩

/-- Register writes and the step to the next word leave every store of every tile. -/
theorem wrote_tileMem (s : State) (gd : Reg) (v : Word) (n k : Nat) :
    ((Claims.wrote s gd v n).tile k).mem = (s.tile k).mem := by
  rw [Claims.wrote, State.skip, State.tileMem_setCore, State.setG, State.tileMem_setCore]

theorem wrote_core (s : State) (gd : Reg) (v : Word) (n : Nat) : (Claims.wrote s gd v n).core = (s.core.write gd v).skip n := by
  rw [Claims.wrote, State.core_skip, State.core_setG]

end Sys2Proof.Machine
end

section
open Sys2Proof Sys2Proof.Machine

/-- Settles O15: one argument for every operation, by the space that the coordinate names. -/
theorem tensorAtomics : Obligations.TensorAtomics := by
  unfold Obligations.TensorAtomics
  intro s s1 wide gd ga gb desc d n hn hc run
  have hrun (op : Aop) (hcs : Claims.clean s (atomSources op gd gb)) :
      run op (doAtomTensor s.core.memdef 4 op wide gd ga gb desc s) := by
    obtain rfl : n = atomBytes wide := hn
    refine ⟨fun va hat => ⟨fun pa s2 old new hs ht hb hold hnew => ?atom, fun pa s2 g hs ht hb => ?poison, fun hs => ?window,
      fun hs => doAtomTensor_module _ hcs hat hs⟩, doAtomTensor_outside _ hcs, fun code detail => doAtomTensor_refused _ hcs⟩
    case atom =>
      obtain ⟨hmem, hmemBad⟩ := s2.mem_beforeWrite s.core.memdef
      subst hnew
      cases hv : atomNew op (8 * atomBytes wide) old ((s2.g gb).toNat % 2 ^ (8 * atomBytes wide)) (s2.g gd).toNat with
      | some v =>
        refine ⟨Claims.wrote ((s2.beforeWrite s.core.memdef).writeMem pa (leBytes v (atomBytes wide))) gd (BitVec.ofNat 64 old) 4,
          s2.beforeWrite s.core.memdef, ?_, rfl, ?_, ?_, fun a ha => ?_, fun k a => ?_⟩
        · rw [doAtomTensor_memory _ hcs hat hs, atomMem_of_writes _ ht hb hold hv]
          rfl
        · rw [wrote_core, State.core_writeMem]
        · change ((s2.beforeWrite s.core.memdef).writeMem _ _).mem.readLE _ _ = _
          rw [State.readLE_writeMem _ _ _ _ (hmemBad.symm ▸ hb), show (256 : Nat) = 2 ^ 8 from rfl, ← Nat.pow_mul]
          rfl
        · change ((s2.beforeWrite s.core.memdef).writeMem _ _).mem.byte _ = _
          rw [State.byte_writeMem_other _ _ (by rwa [length_leBytes]), hmem]
        · rw [wrote_tileMem]
          rfl
      | none =>
        refine ⟨Claims.wrote s2 gd (BitVec.ofNat 64 old) 4, s2, ?_, rfl, wrote_core .., ?_, fun _ _ => rfl, fun k a => ?_⟩
        · rw [doAtomTensor_memory _ hcs hat hs, atomMem_of_keeps _ ht hb hold hv]
          rfl
        · exact hold ▸ (Nat.mod_eq_of_lt (readLE_lt_two_pow ..)).symm
        · rw [wrote_tileMem]
    case poison =>
      rw [doAtomTensor_memory _ hcs hat hs, atomMem_of_poison _ ht hb]
      rfl
    case window =>
      refine ⟨_, doAtomTensor_window _ hcs hat hs, State.phase_coreTakes .., State.pc_coreTakes .., rfl, fun h => ?_⟩
      rw [State.faultRec, State.fault_coreTakes h]
      rfl
  have hplain (op : Aop) (hop : op ≠ .cas) := hrun op (clean_of_subset (clean_atomSources (ga := gb) (clean_append hc hc)
    fun e => absurd e hop) fun r => List.mem_cons_of_mem _)
  exact ⟨hplain .add nofun, hplain .min nofun, hplain .max nofun, hplain .minn nofun, hplain .maxn nofun, hplain .and nofun,
    hplain .or nofun, hplain .xor nofun, hplain .xchg nofun, fun hd => hrun .cas (clean_append hc hd)⟩

end

section
namespace Sys2Proof.Machine

/-! # The frame of the instructions that work on their own core (09 R202; 10 R250 to R256) -/

/-- What an instruction leaves that works on its own core: of its core the registers but `gs`, the window's frames and the remote stores
on their way; of its tile all but that core, the counters and, unless `shared`, the control registers; and all of every other tile,
of memory and of the hub. -/
structure OwnFrame (gs : List Reg) (shared : Bool) (s t : State) : Prop where
  state : t = { s with tiles := t.tiles }
  tileOther : ∀ k, k ≠ s.curTile.val → t.tile k = s.tile k
  me : t.me = { s.me with cl := t.me.cl, cx := t.me.cx, cw := t.me.cw, ctl := t.me.ctl, perf := t.me.perf, prv := t.me.prv }
  coreOther : ∀ c, c ≠ s.curCore → t.me.core c = s.me.core c
  ctl : shared = false → t.me.ctl = s.me.ctl
  g : ∀ r, r ∉ gs → t.g r = s.g r
  frames : t.core.frames = s.core.frames
  remote : t.core.remote = s.core.remote

theorem ownFrame_setCore {gs : List Reg} {shared : Bool} {s : State} {k : Core} (hg : ∀ r, r ∉ gs → k.read r = s.g r)
    (hf : k.frames = s.core.frames) (hr : k.remote = s.core.remote) : OwnFrame gs shared s (s.setCore k) where
  state := rfl
  tileOther _ h := State.tile_setCore_other _ _ h
  me := by rw [State.me_setCore]; cases s.curCore <;> rfl
  coreOther c hc := by rw [State.me_setCore, Tile.core_setCore_other _ _ hc]
  ctl _ := by rw [State.me_setCore, Tile.setCore_ctl]
  g r h := by rw [State.g, State.core_setCore, hg r h]
  frames := by rw [State.core_setCore, hf]
  remote := by rw [State.core_setCore, hr]

theorem core_setMe_counted (s : State) (c : TileCtl) (p : Perf) (q : Prv) :
    (s.setMe { s.me with ctl := c, perf := p, prv := q }).core = s.core := by
  rw [State.core, State.me_setMe, State.setMe_curCore, State.core]
  cases s.curCore <;> rfl

/-- The running tile with other control registers, counters and privileged registers. -/
theorem ownFrame_setMe {gs : List Reg} {shared : Bool} {s : State} {c : TileCtl} (p : Perf) (q : Prv)
    (hc : shared = false → c = s.me.ctl) : OwnFrame gs shared s (s.setMe { s.me with ctl := c, perf := p, prv := q }) where
  state := rfl
  tileOther _ h := State.tile_setTile_other _ _ h
  me := by rw [State.me_setMe]
  coreOther d _ := by rw [State.me_setMe]; cases d <;> rfl
  ctl h := by rw [State.me_setMe]; exact hc h
  g r _ := by rw [State.g, core_setMe_counted, State.g]
  frames := by rw [core_setMe_counted]
  remote := by rw [core_setMe_counted]

namespace OwnFrame

theorem refl (gs : List Reg) (shared : Bool) (s : State) : OwnFrame gs shared s s :=
  ⟨rfl, fun _ _ => rfl, rfl, fun _ _ => rfl, fun _ => rfl, fun _ _ => rfl, rfl, rfl⟩

variable {gs : List Reg} {shared : Bool} {s t : State} (h : OwnFrame gs shared s t)
include h

theorem curTile : t.curTile = s.curTile := by rw [h.state]
theorem curCore : t.curCore = s.curCore := by rw [h.state]
theorem mem : t.mem = s.mem := by rw [h.state]
theorem host : t.host = s.host := by rw [h.state]
theorem parts : t.parts = s.parts := by rw [h.state]
theorem dies : t.dies = s.dies := by rw [h.state]
theorem hub : t.hub = s.hub := by rw [h.state]
theorem tileMem : t.me.mem = s.me.mem := by rw [h.me]
theorem queue : t.me.queue = s.me.queue := by rw [h.me]
theorem life : t.me.life = s.me.life := by rw [h.me]
theorem eng (e : Engine) : t.me.eng e = s.me.eng e := by rw [h.me]; cases e <;> rfl
theorem trace : t.me.trace = s.me.trace := by rw [h.me]

theorem trans {u : State} (k : OwnFrame gs shared t u) : OwnFrame gs shared s u where
  state := k.state.trans (congrArg (fun x : State => { x with tiles := u.tiles }) h.state)
  tileOther i hi := (k.tileOther i (h.curTile.symm ▸ hi)).trans (h.tileOther i hi)
  me := by
    refine k.me.trans ?_
    rw [h.me]
  coreOther c hc := (k.coreOther c (h.curCore.symm ▸ hc)).trans (h.coreOther c hc)
  ctl hs := (k.ctl hs).trans (h.ctl hs)
  g r hr := (k.g r hr).trans (h.g r hr)
  frames := k.frames.trans h.frames
  remote := k.remote.trans h.remote

theorem setCore (k : Core) (hf : k.frames = t.core.frames) (hg : ∀ r, r ∉ gs → k.read r = t.g r) (hr : k.remote = t.core.remote) :
    OwnFrame gs shared s (t.setCore k) :=
  h.trans (ownFrame_setCore hg hf hr)

theorem skip (n : Nat) : OwnFrame gs shared s (t.skip n) := h.setCore _ rfl (fun _ _ => rfl) rfl

theorem goto (pc : VAddr) : OwnFrame gs shared s (t.goto pc) := h.setCore _ rfl (fun _ _ => rfl) rfl

theorem setG {r : Reg} (hr : r ∈ gs) (v : Word) : OwnFrame gs shared s (t.setG r v) :=
  h.setCore _ (Core.write_frames ..) (fun _ hq => Core.read_write_other _ _ fun e => hq (e ▸ hr)) (Core.write_remote ..)

theorem setMemdef (m : Modifier) : OwnFrame gs shared s (t.setCore { t.core with memdef := m }) :=
  h.setCore _ rfl (fun _ _ => rfl) rfl

theorem setSpill (base limit sptr : Nat) :
    OwnFrame gs shared s (t.setCore { t.core with spillBase := base, spillLimit := limit, sptr := sptr }) :=
  h.setCore _ rfl (fun _ _ => rfl) rfl

theorem tile (k : Nat) : (t.tile k).mem = (s.tile k).mem ∧ (t.tile k).life = (s.tile k).life ∧ (t.tile k).trace = (s.tile k).trace := by
  by_cases hk : k = s.curTile.val
  · have hme : t.tile k = t.me := by rw [hk, State.me, h.curTile]
    subst hk
    rw [hme]
    exact ⟨h.tileMem, h.life, h.trace⟩
  · rw [h.tileOther k hk]
    exact ⟨rfl, rfl, rfl⟩

theorem traceOn (k : Nat) : t.traceOn k = s.traceOn k := by
  obtain ⟨-, hlife, htrace⟩ := h.tile k
  rw [State.traceOn, State.traceOn, Tile.partNo, Tile.partNo, hlife, htrace, State.part, h.parts, State.part]

end OwnFrame

theorem OwnFrame.setCtl {gs : List Reg} {s t : State} (h : OwnFrame gs true s t) (c : TileCtl) : OwnFrame gs true s (t.setCtl c) :=
  h.trans (ownFrame_setMe _ _ nofun)

/-! ## The read of the sources (18 R429, R430) -/

theorem countCes_ownFrame (gs : List Reg) (shared : Bool) (s : State) (n : Nat) :
    OwnFrame gs shared s (s.countCes s.curTile.val n) := by
  unfold State.countCes
  split
  · exact .refl ..
  · exact ownFrame_setMe _ _ fun _ => rfl

/-- The read of registers corrects what it finds in them, and counts it. -/
theorem noteG_ownFrame (gs : List Reg) (shared : Bool) (s : State) (rs : List Reg) : OwnFrame gs shared s (s.noteG rs) := by
  unfold State.noteG
  split
  · exact .refl ..
  · refine .trans (t := s.setCore _) ?_ (countCes_ownFrame ..)
    exact ownFrame_setCore (fun _ _ => rfl) rfl rfl

theorem core_countCes (s : State) (n : Nat) : (s.countCes s.curTile.val n).core = s.core := by
  unfold State.countCes
  split
  · rfl
  · exact core_setMe_counted ..

theorem core_noteG (s : State) (rs : List Reg) : (s.noteG rs).core = { s.core with gCe := (s.noteG rs).core.gCe } := by
  unfold State.noteG
  split
  · rfl
  · rw [← State.setCore_curTile s, core_countCes, State.core_setCore]

theorem badReg_noteG (s : State) (rs qs : List Reg) : (s.noteG rs).core.badReg qs = s.core.badReg qs := by
  rw [core_noteG]
  rfl

theorem withSources_of_bad {rs : List Reg} {s : State} {w : Nat} (f : State → State) (h : s.core.badReg rs = some w) :
    withSources rs s f =
      .next (((s.noteG rs).countUe s.curTile.val).fault Code.uncorrectable (regDetail w)) := by
  rw [withSources_note, badReg_noteG, h, ← (noteG_ownFrame [] false s rs).curTile]
  rfl

/-! ## Instructions that write one register (09 R202) -/

theorem next_setG_eq_writeResult (gd : Reg) (v : Word) (s : State) :
    Host.Outcome.next ((s.setG gd v).skip 4) = writeResult [] gd 4 (fun _ => v) s := by
  have hc : Claims.clean s [] := ⟨rfl, Core.foundRegs_eq_nil_iff.mpr nofun⟩
  exact (writeResult_of_clean hc 4 fun _ => v).symm

theorem writeResult_eq_writeResult (rs : List Reg) (gd : Reg) (v : State → Word) (s : State) :
    ∃ w, writeResult rs gd 4 v s = writeResult rs gd 4 w s := ⟨v, rfl⟩

theorem alu2_eq_writeResult (f : Word → Word → Word) (gd ga gb : Reg) (s : State) :
    ∃ v, alu2 f gd ga gb s = writeResult [ga, gb] gd 4 v s := ⟨_, rfl⟩

theorem alu1_eq_writeResult (f : Word → Word) (gd ga : Reg) (s : State) : ∃ v, alu1 f gd ga s = writeResult [ga] gd 4 v s := ⟨_, rfl⟩

theorem drawRand_eq_writeResult {i : Instr} {k : Nat} {gd ga gb : Reg} {s : State} (h : ¬ gb.val = 31) : ∃ v,
    drawRand i k gd ga gb s = writeResult [ga, gb, nextReg gb] gd 4 v s :=
  ⟨_, if_neg h⟩

/-- What the instructions that compute on registers all do. -/
theorem exec_registerForm {i : Instr} {gd : Reg} {rs : List Reg} (h : Claims.registerForm i = some (gd, rs)) (s : State) :
    ∃ v, exec i s = writeResult rs gd 4 v s := by
  unfold Claims.registerForm at h
  split at h
  case h_45 | h_46 =>
    split at h <;> cases h
    next hb => exact drawRand_eq_writeResult hb
  all_goals cases h <;> simp only [exec]
  case h_1 | h_2 | h_3 | h_4 | h_5 | h_6 | h_7 | h_8 | h_9 | h_10 | h_11 | h_12 | h_13 | h_14 | h_15 | h_16 | h_17 |
      h_18 | h_19 | h_20 | h_21 | h_22 | h_23 | h_24 => exact alu2_eq_writeResult ..
  case h_25 | h_26 | h_27 | h_28 | h_29 | h_30 | h_31 | h_32 | h_33 | h_34 | h_35 | h_39 | h_41 | h_42 => exact alu1_eq_writeResult ..
  case h_36 | h_37 | h_38 | h_40 => exact writeResult_eq_writeResult ..
  case h_43 | h_44 | h_47 | h_48 => exact ⟨_, next_setG_eq_writeResult ..⟩

theorem wrote_ownFrame (s : State) (gd : Reg) (v : Word) : OwnFrame [gd] false s (Claims.wrote s gd v 4) :=
  ((OwnFrame.refl ..).setG List.mem_cons_self _).skip _

/-! ## Instructions that go on with their core's flow or a register of it -/

/-- The state, or the state with the outcome of a branch or a jump given to the trace writer. -/
def Traced (s t : State) : Prop := t = s ∨ (∃ taken, t = s.traceBranch taken) ∨ ∃ a, t = s.traceJump a

/-- Where no fault is raised, an instruction has worked on its own core, and the trace writer has its outcome. -/
structure WorksOnOwn (gs : List Reg) (shared : Bool) (s t : State) : Prop where
  own : t.me.life.phase = .running → ∃ u, OwnFrame gs shared s u ∧ Traced u t

section
variable {gs : List Reg} {shared : Bool} {s t : State}

theorem OwnFrame.works (h : OwnFrame gs shared s t) : WorksOnOwn gs shared s t := ⟨fun _ => ⟨t, h, .inl rfl⟩⟩

theorem OwnFrame.works_branch (h : OwnFrame gs shared s t) (taken : Bool) : WorksOnOwn gs shared s (t.traceBranch taken) :=
  ⟨fun _ => ⟨t, h, .inr (.inl ⟨taken, rfl⟩)⟩⟩

theorem OwnFrame.works_jump (h : OwnFrame gs shared s t) (a : Nat) : WorksOnOwn gs shared s (t.traceJump a) :=
  ⟨fun _ => ⟨t, h, .inr (.inr ⟨a, rfl⟩)⟩⟩

theorem worksOnOwn_fault (u : State) (code detail : Nat) : WorksOnOwn gs shared s (u.fault code detail) :=
  ⟨fun h => absurd ((State.phase_coreTakes ..).symm.trans h) (by decide)⟩

theorem worksOnOwn_illegal (u : State) (i : Instr) : WorksOnOwn gs shared s (u.illegal i) := worksOnOwn_fault ..

theorem WorksOnOwn.ite {c : Prop} [Decidable c] {u : State} (ht : WorksOnOwn gs shared s t) (hu : WorksOnOwn gs shared s u) :
    WorksOnOwn gs shared s (if c then t else u) := by
  split <;> assumption

theorem worksOnOwn_withSources (rs : List Reg) {f : State → State}
    (h : ∀ u, OwnFrame gs shared s u → WorksOnOwn gs shared s (f u)) :
    ∃ t, withSources rs s f = .next t ∧ WorksOnOwn gs shared s t := by
  rw [withSources_note]
  split
  · exact ⟨_, rfl, worksOnOwn_fault ..⟩
  · exact ⟨_, rfl, h _ (noteG_ownFrame ..)⟩

theorem branch_works (cond : Word → Word → Bool) (ga gb : Reg) (disp : BitVec 16) :
    ∃ t, branch cond ga gb disp s = .next t ∧ WorksOnOwn gs shared s t :=
  worksOnOwn_withSources _ fun _ h => .ite ((h.goto _).works_branch _) ((h.skip _).works_branch _)

theorem execLoop_works (ga : Reg) (disp : BitVec 16) : ∃ t, execLoop ga disp s = .next t ∧ WorksOnOwn [ga] shared s t := by
  unfold execLoop
  split
  · exact ⟨_, rfl, worksOnOwn_illegal ..⟩
  · refine worksOnOwn_withSources _ fun u h => ?_
    have hg := h.setG List.mem_cons_self (u.g ga - 1)
    exact .ite ((hg.goto _).works_branch _) ((hg.skip _).works_branch _)

theorem execJr_works (ga : Reg) : ∃ t, execJr ga s = .next t ∧ WorksOnOwn gs shared s t :=
  worksOnOwn_withSources _ fun _ h => .ite (worksOnOwn_fault ..) ((h.goto _).works_jump _)

theorem settlePerf_ownFrame (i : Nat) : OwnFrame gs shared s (s.settlePerf i) := by
  unfold State.settlePerf
  split
  · exact ownFrame_setMe _ _ fun _ => rfl
  · exact .refl ..

theorem execCtlrd_works (gd : Reg) (index : BitVec 12) : ∃ t, execCtlrd gd index s = .next t ∧ WorksOnOwn [gd] shared s t := by
  refine ⟨_, rfl, .ite (worksOnOwn_fault ..) ?_⟩
  split
  · exact worksOnOwn_illegal ..
  · exact (((settlePerf_ownFrame _).setG List.mem_cons_self _).skip _).works

theorem OwnFrame.writePerf (h : OwnFrame gs shared s t) (v : Word) : OwnFrame gs shared s (t.writePerf v) :=
  (h.trans (ownFrame_setMe _ _ fun _ => rfl)).skip _

theorem OwnFrame.writeSpill (h : OwnFrame gs shared s t) (i : Instr) (v : Word) : WorksOnOwn gs shared s (t.writeSpill i v) :=
  .ite (worksOnOwn_illegal ..) ((h.setSpill ..).skip _).works

theorem OwnFrame.writePondReg (h : OwnFrame gs true s t) (p : Nat) (v : Word) : WorksOnOwn gs true s (t.writePondReg p v) := by
  unfold State.writePondReg
  split
  · exact worksOnOwn_fault ..
  · exact ((h.setCtl _).skip _).works

theorem OwnFrame.writeCtl (h : OwnFrame gs true s t) (i : Instr) (idx : Nat) (v : Word) :
    WorksOnOwn gs true s (writeCtl t i idx v) := by
  have hctl (c : TileCtl) : WorksOnOwn gs true s ((t.setCtl c).skip 4) := ((h.setCtl c).skip _).works
  unfold Machine.writeCtl
  dsimp only
  split
  · exact .ite (worksOnOwn_illegal ..) (hctl _)
  · exact hctl _
  · exact .ite (worksOnOwn_illegal ..) (hctl _)
  · split
    · exact worksOnOwn_illegal ..
    · exact ((h.setMemdef _).skip _).works
  · exact h.writeSpill ..
  · exact (h.writePerf _).works
  · exact .ite (hctl _) (.ite (h.writePondReg ..) (h.skip _).works)

theorem execFmtset_works (f : Fin 16) (ga : Reg) : ∃ t, execFmtset f ga s = .next t ∧ WorksOnOwn gs true s t :=
  worksOnOwn_withSources _ fun _ h => .ite (worksOnOwn_fault ..) ((h.setCtl _).skip _).works

theorem execCtlwr_works (index : BitVec 12) (ga : Reg) : ∃ t, execCtlwr index ga s = .next t ∧ WorksOnOwn gs true s t :=
  worksOnOwn_withSources _ fun _ h => .ite (worksOnOwn_fault ..) (.ite (worksOnOwn_illegal ..) (h.writeCtl ..))

end

/-- What a control instruction but `fence` does where it raises no fault. -/
theorem exec_controlForm {i : Instr} {gs : List Reg} (h : Claims.controlForm i = some gs) (hf : ∀ sc, i ≠ .fence sc) (s : State) :
    ∃ t, exec i s = .next t ∧ WorksOnOwn gs (Claims.writesCtl i) s t := by
  unfold Claims.controlForm at h
  split at h <;> cases h <;> simp only [exec]
  case h_1 | h_2 | h_3 | h_4 | h_5 | h_6 => exact branch_works ..
  case h_7 => exact execLoop_works ..
  case h_8 => exact ⟨_, rfl, ((OwnFrame.refl ..).goto _).works⟩
  case h_9 => exact execJr_works ..
  case h_10 => exact absurd rfl (hf _)
  case h_11 => exact execFmtset_works ..
  case h_12 => exact execCtlrd_works ..
  case h_13 => exact execCtlwr_works ..
  case h_14 => exact worksOnOwn_withSources _ fun _ h => h.writePondReg ..
  case h_15 => exact worksOnOwn_withSources _ fun _ h => h.writeSpill ..
  case h_16 | h_17 => exact worksOnOwn_withSources _ fun _ h => (h.writePerf _).works

/-! ## What the trace writer leaves (20 R476 to R482) -/

theorem host_takeFrame {s t : State} {part n fr : Nat} (e : takeFrame s part n = some (fr, t)) : t.host = s.host := by
  unfold takeFrame at e
  dsimp only at e
  split at e <;> cases e
  rfl

theorem host_ite {c : Prop} [Decidable c] {s t u : State} (ht : t.host = s.host) (hu : u.host = s.host) :
    (if c then t else u).host = s.host := by
  split <;> assumption

theorem host_writeEntry (s : State) (pa e : Nat) : (s.writeEntry pa e).host = s.host := (sameButMem_writeMem ..).host

theorem host_writeLeaves (s : State) (pa frame size : Nat) (rd w x : Bool) : (writeLeaves s pa frame size rd w x).host = s.host :=
  host_ite (foldl_keeps (F := State.host) (fun _ _ => host_writeEntry ..) _ s) (host_writeEntry ..)

theorem host_mapExportTable (s : State) (table a n : Nat) (f : Nat → Nat) : (mapExportTable s table a n f).host = s.host := by
  unfold mapExportTable
  exact foldl_keeps (F := State.host) (fun _ _ => host_ite (host_writeEntry ..) rfl) _ s

theorem host_mapExportTables (s : State) (l : List Nat) (a n : Nat) (f : Nat → Nat) :
    (l.foldl (fun s t => mapExportTable s t a n f) s).host = s.host := by
  induction l generalizing s with
  | nil => rfl
  | cons t l ih => rw [List.foldl_cons, ih, host_mapExportTable]

theorem host_mapExports (s : State) (part a n : Nat) (f : Nat → Nat) : (mapExports s part a n f).host = s.host := by
  unfold mapExports
  split
  · rfl
  · exact host_mapExportTables ..

theorem host_complete {s t : State} {part va : Nat} (e : complete s part va = some t) : t.host = s.host := by
  unfold complete at e
  dsimp only at e
  split at e
  · cases e
  split at e
  · split at e <;> cases e
    next ef => exact (host_writeLeaves ..).trans (host_takeFrame ef)
  split at e
  · split at e <;> cases e
    next ef => exact ((host_mapExports ..).trans (host_writeLeaves ..)).trans (host_takeFrame ef)
  · split at e <;> cases e
    rfl

theorem host_hubTranslate (s : State) (d part va : Nat) (acc : Access) : (hubTranslate s d part va acc).2.host = s.host := by
  have ht := (translate_same s d part .own va acc).host
  unfold hubTranslate
  split
  · next e =>
    rw [e] at ht
    split
    · exact ht
    · split
      · next ec => exact ((translate_same ..).host.trans (host_complete ec)).trans ht
      · exact ht
  · exact ht

theorem host_hubReadPage (s : State) (d part va n : Nat) : (hubReadPage s d part va n).2.host = s.host := by
  have ht := host_hubTranslate s d part va .read
  unfold hubReadPage
  split
  · next e =>
    rw [e] at ht
    split
    · exact ht
    · split <;> exact ht
  · next e => rwa [e] at ht
  · next e => rwa [e] at ht

theorem host_traceHeader (s : State) (t off : Nat) : (s.traceHeader t off).2.host = s.host := by
  have hr := host_hubReadPage s (tileDie t) (s.tile t).partNo ((s.traceBase t + off) % 2 ^ 56) 8
  unfold State.traceHeader
  split
  · next e => rwa [e] at hr
  · next e => rwa [e] at hr

theorem host_traceRoom (s : State) (t : Nat) (r : TraceRec) : (s.traceRoom t r).host = s.host :=
  host_ite rfl (host_traceHeader s t 8)

theorem host_traceAppend (s : State) (t unit : Nat) (dws : List Word) : (s.traceAppend t unit dws).host = s.host := by
  have hr : (if (s.part (s.tile t).partNo).dbg.trmode then s.traceRoom t { unit := unit, tick := s.seiche, dws := dws } else s).host =
      s.host := host_ite (host_traceRoom ..) rfl
  exact host_ite rfl (host_ite hr hr)

theorem host_flushBr (s : State) (t c : Nat) : (s.flushBr t c).host = s.host := host_ite rfl (host_ite (host_traceAppend ..) rfl)

theorem host_traceCore (s : State) (t c : Nat) (dws : List Word) : (s.traceCore t c dws).host = s.host :=
  host_ite ((host_traceAppend ..).trans (host_flushBr ..)) rfl

theorem host_traceBranch (s : State) (taken : Bool) : (s.traceBranch taken).host = s.host :=
  host_ite (host_ite (host_flushBr ..) rfl) rfl

theorem host_traceJump (s : State) (a : Nat) : (s.traceJump a).host = s.host := host_ite (host_traceCore ..) rfl

theorem traceBranch_traceFrame (s : State) (taken : Bool) : TraceFrame s (s.traceBranch taken) :=
  .ite (.ite ((setTrace_traceFrame ..).trans (flushBr_traceFrame ..)) (setTrace_traceFrame ..)) (.refl s)

namespace Traced
variable {s t : State} (h : Traced s t)
include h

theorem frame : TraceFrame s t := by
  obtain rfl | ⟨_, rfl⟩ | ⟨_, rfl⟩ := h
  · exact .refl _
  · exact traceBranch_traceFrame ..
  · exact .ite (traceCore_traceFrame ..) (.refl s)

theorem host : t.host = s.host := by
  obtain rfl | ⟨_, rfl⟩ | ⟨_, rfl⟩ := h
  · rfl
  · exact host_traceBranch ..
  · exact host_traceJump ..

/-- Where the tile writes no trace nothing changes. -/
theorem eq_of_off (ho : s.traceOn s.curTile.val = false) : t = s := by
  obtain rfl | ⟨_, rfl⟩ | ⟨_, rfl⟩ := h
  · rfl
  · simp [State.traceBranch, ho]
  · simp [State.traceJump, ho]

end Traced

theorem TraceFrame.core {s t : State} (h : TraceFrame s t) (c : CoreId) : t.me.core c = s.me.core c := by
  obtain ⟨x, hx⟩ := h.me
  rw [hx]
  cases c <;> rfl

theorem TraceFrame.myCore {s t : State} (h : TraceFrame s t) : t.core = s.core := by
  rw [State.core, h.core, show t.curCore = s.curCore from congrArg Prod.snd h.running]
  rfl

/-! ## `fence` (10 R235) -/

theorem exec_fence (sc : Scope) (s : State) :
    exec (.fence sc) s = .next ((s.flushMine.setCore { s.flushMine.core with fenced := true }).skip 4) := rfl

/-- `fence` works on its own core once the core's remote stores are performed. -/
theorem fence_ownFrame (gs : List Reg) (shared : Bool) (s : State) :
    OwnFrame gs shared s.flushMine ((s.flushMine.setCore { s.flushMine.core with fenced := true }).skip 4) :=
  (OwnFrame.setCore (.refl ..) { s.flushMine.core with fenced := true } rfl (fun _ _ => rfl) rfl).skip 4

/-- With no remote store on its way and no trace, a control instruction that raises no fault works on its own core alone. -/
theorem ownFrame_of_controlForm {s t : State} {i : Instr} {gs : List Reg} (hi : Claims.controlForm i = some gs)
    (hoff : s.traceOn s.curTile.val = false) (hnone : s.core.remote = []) (hx : exec i s = .next t)
    (ht : t.me.life.phase = .running) : OwnFrame gs (Claims.writesCtl i) s t := by
  by_cases hf : ∃ sc, i = .fence sc
  · obtain ⟨sc, rfl⟩ := hf
    obtain rfl := Host.Outcome.next.inj ((exec_fence sc s).symm.trans hx)
    have h := fence_ownFrame gs (Claims.writesCtl (.fence sc)) s
    rw [State.flushMine_of_none hnone] at h ⊢
    exact h
  · obtain ⟨_, hx', hw⟩ := exec_controlForm hi (fun sc e => hf ⟨sc, e⟩) s
    obtain rfl := Host.Outcome.next.inj (hx'.symm.trans hx)
    obtain ⟨u, hu, htr⟩ := hw.own ht
    rwa [htr.eq_of_off (by rw [hu.traceOn, hu.curTile, hoff])]

end Sys2Proof.Machine
end

section
open Sys2Proof Sys2Proof.Machine

/-- Settles O57: what an instruction leaves that works on its own core, and what the trace writer and the remote stores of a `fence`
add to it. -/
theorem registerInstructionsFrame : Obligations.RegisterInstructionsFrame := by
  unfold Obligations.RegisterInstructionsFrame
  refine ⟨fun s i gd rs hi => ?registers, fun s t i gs hi hoff hnone hrun hx ht => ?quiet, fun s t i gs hi hrun hx ht => ?loud,
    decodeTableWord_rndk_gb_31⟩
  case registers =>
    obtain ⟨v, hv⟩ := exec_registerForm hi s
    rw [hv]
    refine ⟨fun w hw => withSources_of_bad _ hw, fun hc => ⟨_, writeResult_of_clean hc 4 v, ?_⟩⟩
    have h := wrote_ownFrame s gd (v s)
    have hcore := wrote_core s gd (v s) 4
    refine ⟨?_, fun r hr => h.g r (by simpa using hr), ?_, ?_, h.coreOther, h.eng, h.ctl rfl, h.queue, h.life, h.tileOther,
      fun k a => by rw [(h.tile k).1], fun a => by rw [h.mem], fun a => by rw [h.host], h.parts, h.dies, h.hub⟩
    · rw [hcore]
      exact congrArg (· + 4) (Core.write_pc ..)
    · exact Core.read_zero _
    · rw [hcore, Core.write]
      split <;> rfl
  case quiet =>
    have h := ownFrame_of_controlForm hi hoff hnone hx ht
    exact ⟨h.g, h.frames, h.coreOther, h.eng, h.queue, h.tileMem, h.ctl, h.tileOther, h.mem, h.host, h.parts, h.dies, h.hub⟩
  case loud =>
    by_cases hf : ∃ sc, i = .fence sc
    · obtain ⟨sc, rfl⟩ := hf
      have h := fence_ownFrame gs (Claims.writesCtl (.fence sc)) s
      obtain rfl := Host.Outcome.next.inj ((exec_fence sc s).symm.trans hx)
      have hfl := flushMine_frame s
      refine ⟨fun r hr => (h.g r hr).trans (hfl.g r), h.frames.trans ?_, fun c hc => (h.coreOther c (hfl.curCore.symm ▸ hc)).trans
        (hfl.coreOther hc), fun e => (h.eng e).trans ?_, h.queue.trans ?_, fun hs => (h.ctl hs).trans ?_, h.host.trans hfl.host,
        fun k a hb => ?_, fun _ _ => h.remote.trans ?_, fun hn => absurd rfl (hn sc)⟩
      · rw [hfl.myCore]
      · exact hfl.me ▸ hfl.eng ..
      · exact hfl.me ▸ hfl.queue _
      · exact hfl.me ▸ hfl.ctl _
      · rw [(h.tile k).1, byte_flushMine (hb sc rfl)]
      · rw [hfl.myCore]
    · have hf' : ∀ sc, i ≠ .fence sc := fun sc e => hf ⟨sc, e⟩
      obtain ⟨_, hx', hw⟩ := exec_controlForm hi hf' s
      obtain rfl := Host.Outcome.next.inj (hx'.symm.trans hx)
      obtain ⟨u, hu, htr⟩ := hw.own ht
      have hfr := htr.frame
      obtain ⟨x, hme⟩ := hfr.me
      refine ⟨fun r hr => (hfr.g r).trans (hu.g r hr), (congrArg Core.frames hfr.myCore).trans hu.frames,
        fun c hc => (hfr.core c).trans (hu.coreOther c hc), fun e => .trans ?_ (hu.eng e), .trans ?_ hu.queue,
        fun hs => .trans ?_ (hu.ctl hs), htr.host.trans hu.host, fun k a _ => ?_, fun sc e => absurd e (hf' sc),
        fun _ => (congrArg Core.remote hfr.myCore).trans hu.remote⟩
      · rw [hme]; cases e <;> rfl
      · rw [hme]
      · rw [hme]
      · obtain ⟨y, hy⟩ := hfr.tile k
        rw [hy]
        exact congrArg (·.scratch.byte a) (hu.tile k).1

end

section
namespace Sys2Proof.Machine

/-! # The frame of the accesses of scratchpads (09 R214, R215, R224 to R226) -/

/-! ## What a read of a scratchpad finds (18 R429) -/

theorem foldl_foundWord (ws : List Nat) (x : Tile) : ∃ l p, ws.foldl Tile.foundWord x =
    { x with mem := { x.mem with scratchLatent := l }, prv := p } ∧ p.retired = x.prv.retired := by
  induction ws generalizing x with
  | nil => exact ⟨_, _, rfl, rfl⟩
  | cons w ws ih =>
    obtain ⟨l, p, h, hp⟩ := ih (x.foundWord w)
    refine ⟨l, p, h, hp.trans ?_⟩
    unfold Tile.foundWord
    split <;> rfl

/-- A read counts what it finds on its tile, and corrects it. -/
theorem noteRead_tile (s : State) (t off n k : Nat) : ∃ l p, (s.noteRead t off n).tile k =
    { s.tile k with mem := { (s.tile k).mem with scratchLatent := l }, prv := p } ∧ p.retired = (s.tile k).prv.retired := by
  obtain h | h := s.noteRead_state t off n
  · rw [h]
    exact ⟨_, _, rfl, rfl⟩
  · rw [h]
    by_cases hk : k = t
    · subst hk
      rw [State.tile_setTile_same]
      exact foldl_foundWord ..
    · rw [State.tile_setTile_other _ _ hk]
      exact ⟨_, _, rfl, rfl⟩

theorem noteRead_frame (s : State) (t off n : Nat) : s.noteRead t off n = { s with tiles := (s.noteRead t off n).tiles } := by
  obtain h | h := s.noteRead_state t off n
  · rw [h]
  · rw [h]
    rfl

theorem tile_noteRead_other (s : State) {t k : Nat} (off n : Nat) (h : k ≠ t) : (s.noteRead t off n).tile k = s.tile k := by
  obtain e | e := s.noteRead_state t off n
  · rw [e]
  · rw [e, State.tile_setTile_other _ _ h]

theorem core_noteRead (s : State) (t off n k : Nat) (c : CoreId) : ((s.noteRead t off n).tile k).core c = (s.tile k).core c := by
  obtain ⟨l, p, h, -⟩ := noteRead_tile s t off n k
  rw [h]
  cases c <;> rfl

theorem myCore_noteRead (s : State) (t off n : Nat) : (s.noteRead t off n).core = s.core := by
  rw [State.core, State.me, noteRead_frame]
  exact core_noteRead ..

theorem scratch_noteRead (s : State) (t off n k : Nat) : ((s.noteRead t off n).tile k).mem.scratch = (s.tile k).mem.scratch := by
  obtain ⟨l, p, h, -⟩ := noteRead_tile s t off n k
  rw [h]

theorem readFails_noteRead (s : State) (t off n k lo m : Nat) :
    ((s.noteRead t off n).tile k).readFails lo m = (s.tile k).readFails lo m := by
  obtain ⟨l, p, h, hp⟩ := noteRead_tile s t off n k
  rw [h, Tile.readFails, Tile.retiredHit, hp]
  rfl

/-! ## What an access leaves -/

/-- What an access leaves but for its gd, for the `n` bytes at `off` of tile `k`, and for the step to the next word. -/
structure ScratchFrame (rs : List Reg) (k off n : Nat) (s t : State) : Prop where
  running : t.running = s.running
  pc : t.core.pc = s.core.pc
  g : ∀ r, r ∉ rs → t.g r = s.g r
  byte : ∀ j a, j ≠ k ∨ a < off ∨ off + n ≤ a → (t.tile j).mem.scratch.byte a = (s.tile j).mem.scratch.byte a
  mem : t.mem = s.mem
  host : t.host = s.host
  ctl : t.me.ctl = s.me.ctl
  queue : t.me.queue = s.me.queue
  eng : ∀ e, t.me.eng e = s.me.eng e
  coreOther : ∀ c, c ≠ s.curCore → t.me.core c = s.me.core c

section
variable {rs : List Reg} {k off n : Nat} {s t u : State}

theorem ScratchFrame.curTile (h : ScratchFrame rs k off n s t) : t.curTile = s.curTile := congrArg Prod.fst h.running
theorem ScratchFrame.curCore (h : ScratchFrame rs k off n s t) : t.curCore = s.curCore := congrArg Prod.snd h.running

theorem ScratchFrame.trans (h : ScratchFrame rs k off n s t) (h' : ScratchFrame rs k off n t u) : ScratchFrame rs k off n s u where
  running := h'.running.trans h.running
  pc := h'.pc.trans h.pc
  g r hr := (h'.g r hr).trans (h.g r hr)
  byte j a ha := (h'.byte j a ha).trans (h.byte j a ha)
  mem := h'.mem.trans h.mem
  host := h'.host.trans h.host
  ctl := h'.ctl.trans h.ctl
  queue := h'.queue.trans h.queue
  eng e := (h'.eng e).trans (h.eng e)
  coreOther c hc := (h'.coreOther c (h.curCore.symm ▸ hc)).trans (h.coreOther c hc)

theorem OwnFrame.scratchFrame (h : OwnFrame rs false s t) (hpc : t.core.pc = s.core.pc) : ScratchFrame rs k off n s t where
  running := Prod.ext h.curTile h.curCore
  pc := hpc
  g := h.g
  byte j a _ := congrArg (·.scratch.byte a) (h.tile j).1
  mem := h.mem
  host := h.host
  ctl := h.ctl rfl
  queue := h.queue
  eng := h.eng
  coreOther := h.coreOther

/-- The step to the next word completes an access. -/
theorem ScratchFrame.skip (h : ScratchFrame rs k off n s t) :
    (t.skip 4).core.pc = s.core.pc + 4 ∧ Claims.accessFrame s (t.skip 4) rs k off n := by
  have hs : OwnFrame rs false t (t.skip 4) := (OwnFrame.refl ..).skip 4
  refine ⟨?_, fun r hr => (hs.g r hr).trans (h.g r hr), fun j a ha => ?_, fun a => ?_, fun a => ?_, (hs.ctl rfl).trans h.ctl,
    hs.queue.trans h.queue, fun e => (hs.eng e).trans (h.eng e), fun c hc => (hs.coreOther c (h.curCore.symm ▸ hc)).trans (h.coreOther c hc)⟩
  · rw [State.core_skip]
    exact congrArg (· + 4) h.pc
  · rw [(hs.tile j).1, h.byte j a ha]
  · rw [hs.mem, h.mem]
  · rw [hs.host, h.host]

theorem noteG_scratchFrame (qs : List Reg) : ScratchFrame rs k off n s (s.noteG qs) :=
  (noteG_ownFrame rs false s qs).scratchFrame (by rw [core_noteG])

theorem ScratchFrame.setG {r : Reg} (h : ScratchFrame rs k off n s t) (hr : r ∈ rs) (v : Word) :
    ScratchFrame rs k off n s (t.setG r v) :=
  h.trans (((OwnFrame.refl ..).setG hr v).scratchFrame (by rw [State.core_setG, Core.write_pc]))

theorem ScratchFrame.noteRead (h : ScratchFrame rs k off n s t) (i lo m : Nat) : ScratchFrame rs k off n s (t.noteRead i lo m) := by
  obtain ⟨l, p, hme, -⟩ := noteRead_tile t i lo m t.curTile.val
  have hcur : (t.noteRead i lo m).me = (t.noteRead i lo m).tile t.curTile.val := by
    rw [State.me, show (t.noteRead i lo m).curTile = t.curTile by rw [noteRead_frame]]
  refine h.trans {
    running := by rw [noteRead_frame]; rfl
    pc := by rw [myCore_noteRead]
    g := fun r _ => by rw [State.g, myCore_noteRead, State.g]
    byte := fun j a _ => by rw [scratch_noteRead]
    mem := by rw [noteRead_frame]
    host := by rw [noteRead_frame]
    ctl := by rw [hcur, hme]; rfl
    queue := by rw [hcur, hme]; rfl
    eng := fun e => by rw [hcur, hme]; cases e <;> rfl
    coreOther := fun c _ => by rw [hcur, core_noteRead]; rfl }

theorem me_writeScratch_cases (s : State) (k off : Nat) (l : List Byte) : ∃ m, (s.writeScratch k off l).me = { s.me with mem := m } := by
  by_cases hk : s.curTile.val = k
  · subst hk
    exact ⟨_, State.me_setTile_cur ..⟩
  · exact ⟨s.me.mem, State.tile_writeScratch_other _ _ _ hk⟩

theorem ScratchFrame.writeScratch {l : List Byte} (h : ScratchFrame rs k off n s t) (hl : l.length = n) :
    ScratchFrame rs k off n s (t.writeScratch k off l) := by
  obtain ⟨m, hme⟩ := me_writeScratch_cases t k off l
  subst hl
  refine h.trans {
    running := rfl
    pc := by rw [State.core_writeScratch]
    g := fun r _ => by rw [State.g, State.core_writeScratch, State.g]
    byte := fun j a ha => ?_
    mem := rfl
    host := rfl
    ctl := by rw [hme]
    queue := by rw [hme]
    eng := fun e => by rw [hme]; cases e <;> rfl
    coreOther := fun c _ => by rw [hme]; cases c <;> rfl }
  by_cases hj : j = k
  · subst hj
    rw [State.writeScratch, State.tile_setTile_same, TileMem.byte_writeScratch_other _ (ha.resolve_left (not_not.mpr rfl))]
  · rw [State.tile_writeScratch_other _ _ _ hj]

/-- A remote store put on its way. -/
theorem ScratchFrame.setRemote (h : ScratchFrame rs k off n s t) (l : List RemoteStore) :
    ScratchFrame rs k off n s (t.setCore { t.core with remote := l }) := by
  refine h.trans {
    running := rfl
    pc := by rw [State.core_setCore]
    g := fun r _ => by rw [State.g, State.core_setCore]; rfl
    byte := fun j a _ => by rw [State.tileMem_setCore]
    mem := rfl
    host := rfl
    ctl := by rw [State.me_setCore, Tile.setCore_ctl]
    queue := by rw [State.me_setCore, Tile.setCore_queue]
    eng := fun e => by rw [State.me_setCore, Tile.setCore_eng]
    coreOther := fun c hc => by rw [State.me_setCore, Tile.core_setCore_other _ _ hc] }

end

/-- Where no fault is raised, an access has gone on 4 bytes, and left all else as it was but what it names. -/
structure AccessesOnly (rs : List Reg) (k off n : Nat) (s t : State) : Prop where
  frame : t.me.life.phase = .running → t.core.pc = s.core.pc + 4 ∧ Claims.accessFrame s t rs k off n

section
variable {rs : List Reg} {k off n : Nat} {s t : State}

theorem accessesOnly_fault (u : State) (f : FaultRec) : AccessesOnly rs k off n s (u.coreTakes f) :=
  ⟨fun h => absurd ((State.phase_coreTakes ..).symm.trans h) (by decide)⟩

theorem ScratchFrame.accessesOnly (h : ScratchFrame rs k off n s t) : AccessesOnly rs k off n s (t.skip 4) := ⟨fun _ => h.skip⟩

theorem loadScratch_accesses {gd : Reg} (h : ScratchFrame rs k off n s t) (hr : gd ∈ rs) (i lo m : Nat) (sx : Bool) :
    AccessesOnly rs k off n s (loadScratch 4 i lo m sx gd t) := by
  unfold loadScratch
  dsimp only
  split
  · exact accessesOnly_fault ..
  · exact ((h.noteRead ..).setG hr _).accessesOnly

theorem storeScratch_accesses {l : List Byte} (h : ScratchFrame rs s.curTile.val off n s t) (hl : l.length = n) :
    AccessesOnly rs s.curTile.val off n s (storeScratch 4 off l t) := by
  unfold storeScratch
  split
  · exact accessesOnly_fault ..
  · rw [← h.curTile] at h ⊢
    exact (h.writeScratch hl).accessesOnly

theorem atomAt_accesses {gd : Reg} (h : ScratchFrame rs k off n s t) (hr : gd ∈ rs) (op : Aop) (gb : Reg) :
    AccessesOnly rs k off n s (atomAt op 4 k off n gd gb t) := by
  have hn := h.noteRead k off n
  unfold atomAt
  dsimp only
  split
  · exact accessesOnly_fault ..
  · split
    · exact ((hn.writeScratch (length_leBytes ..)).setG hr _).accessesOnly
    · exact (hn.setG hr _).accessesOnly

/-- An instruction that reads its sources first. -/
theorem withSources_accesses {qs : List Reg} {f : State → State} (ht : withSources qs s f = .next t)
    (h : AccessesOnly rs k off n s (f (s.noteG qs))) : AccessesOnly rs k off n s t := by
  rw [withSources_note] at ht
  split at ht <;> obtain rfl := Host.Outcome.next.inj ht
  · exact accessesOnly_fault ..
  · exact h

end

/-- A remote address that is admitted is that of its tile and its offset. -/
theorem remoteTarget_eq_ok {s : State} {ra n t off : Nat} (hra : ra < 2 ^ 64) (h : remoteTarget s ra n = .ok (t, off)) :
    t = ra / 2 ^ 21 ∧ off = ra % 2 ^ 21 := by
  unfold remoteTarget at h
  dsimp only at h
  split at h
  · cases h
  next hb =>
    split at h
    · cases h
    · split at h
      · cases h
      · cases h
        simp only [field] at hb ⊢
        omega

theorem State.beforeAtom_of_none {s : State} (h : s.core.remote = []) (m : Modifier) (op : Aop) (n old : Nat) (gd gb : Reg) :
    s.beforeAtom m op n old gd gb = s := by
  unfold State.beforeAtom
  split
  · exact State.beforeWrite_of_none h _
  · rfl

section
variable {s t : State} {sz : Size} {gd ga gb : Reg} {wide : Bool} (hnone : s.core.remote = [])
include hnone

theorem remote_noteG (qs : List Reg) : (s.noteG qs).core.remote = [] := by
  rw [core_noteG]
  exact hnone

theorem doAtom_accesses {op : Aop} {m : Modifier} (ht : doAtom m 4 op wide gd ga gb s = .next t) :
    AccessesOnly [gd] s.curTile.val (s.g ga).toNat (atomBytes wide) s t := by
  refine withSources_accesses ht ?_
  have hown := noteG_ownFrame [] false s (ga :: atomSources op gd gb)
  dsimp only
  split
  · exact accessesOnly_fault ..
  · rw [State.beforeAtom_of_none (remote_noteG hnone _), hown.g ga nofun, hown.curTile]
    exact atomAt_accesses (noteG_scratchFrame _) List.mem_cons_self ..

theorem doAtomRemote_accesses {op : Aop} {m : Modifier} (ht : doAtomRemote m 4 op wide gd ga gb s = .next t) :
    AccessesOnly [gd] ((s.g ga).toNat / 2 ^ 21) ((s.g ga).toNat % 2 ^ 21) (atomBytes wide) s t := by
  refine withSources_accesses ht ?_
  have hown := noteG_ownFrame [] false s (ga :: atomSources op gd gb)
  split
  · exact accessesOnly_fault ..
  next tile off htarget =>
    rw [hown.g ga nofun] at htarget
    obtain ⟨rfl, rfl⟩ := remoteTarget_eq_ok (s.g ga).isLt htarget
    rw [State.flushMine_of_none (remote_noteG hnone _)]
    exact atomAt_accesses (noteG_scratchFrame _) List.mem_cons_self ..

theorem doLdx_accesses {sx : Bool} {disp : BitVec 13} {m : Modifier} (ht : doLdx m 4 sz sx gd ga disp s = .next t) :
    AccessesOnly [gd] 0 0 0 s t := by
  refine withSources_accesses ht ?_
  split
  · exact accessesOnly_fault ..
  · rw [State.flushMine_of_none (remote_noteG hnone _)]
    exact loadScratch_accesses (noteG_scratchFrame _) List.mem_cons_self ..

theorem doStx_accesses {disp : BitVec 13} {m : Modifier} (ht : doStx m 4 sz gd ga disp s = .next t) :
    AccessesOnly [] s.curTile.val (scratchOff (s.g ga) disp % 2 ^ 21) sz.bytes s t := by
  refine withSources_accesses ht ?_
  have hown := noteG_ownFrame [] false s [gd, ga]
  split
  · exact accessesOnly_fault ..
  next tile off htarget =>
    rw [hown.g ga nofun] at htarget
    obtain ⟨rfl, rfl⟩ := remoteTarget_eq_ok (BitVec.isLt _) htarget
    rw [State.beforeWrite_of_none (remote_noteG hnone _)]
    dsimp only
    split
    · exact storeScratch_accesses (noteG_scratchFrame _) (length_leBytes ..)
    · split
      · exact accessesOnly_fault ..
      · exact ((noteG_scratchFrame _).setRemote _).accessesOnly

end

/-- Every atomic on scratchpads is one of two operations. -/
theorem exec_scratchAtom {i : Instr} {remote wide : Bool} {gd ga : Reg} (h : Claims.scratchAtom i = some (remote, wide, gd, ga))
    (s : State) : ∃ op gb, exec i s = if remote then doAtomRemote s.core.memdef 4 op wide gd ga gb s
      else doAtom s.core.memdef 4 op wide gd ga gb s := by
  unfold Claims.scratchAtom at h
  split at h <;> cases h
  all_goals
    simp only [exec]
    exact ⟨_, _, rfl⟩

/-! ## `aadd` and `stt` (09 R218, R225) -/

/-- An atomic at a sound place is done, whatever its read corrects. -/
theorem atomAt_of_reads {s : State} {t off n : Nat} (hr : (s.tile t).readFails off n = none) (op : Aop) (len : Nat) (gd gb : Reg) :
    atomAt op len t off n gd gb s = Claims.atomDone (s.noteRead t off n) t off n gd ((s.tile t).mem.scratch.readLE off n)
      (atomNew op (8 * n) ((s.tile t).mem.scratch.readLE off n) ((s.g gb).toNat % 2 ^ (8 * n)) (s.g gd).toNat) len := by
  have hg (r : Reg) : (s.noteRead t off n).g r = s.g r := by rw [State.g, myCore_noteRead, State.g]
  simp only [atomAt, readFails_noteRead, hr, scratch_noteRead, hg]
  rfl

/-- `aadd` at a sound place writes the sum over the old value, which gd takes. -/
theorem exec_aadd_of_sound {s : State} {wide : Bool} {gd ga gb : Reg} {off n old : Nat} (hn : n = atomBytes wide)
    (hoff : off = (s.g ga).toNat) (hold : old = s.me.mem.scratch.readLE off n) (hc : Claims.clean s [ga, gb])
    (hnone : s.core.remote = []) (hk : scratchCheck off n = none) (hr : s.me.readFails off n = none) :
    exec (.aadd wide gd ga gb) s = .next (Claims.wrote ((s.noteRead s.curTile.val off n).writeScratch s.curTile.val off
      (leBytes ((old + (s.g gb).toNat % 2 ^ (8 * n)) % 2 ^ (8 * n)) n)) gd (BitVec.ofNat 64 old) 4) := by
  subst hn hoff hold
  refine (doAtom_admitted (op := .add) _ 4 hc hk).trans (congrArg _ ?_)
  rw [State.beforeAtom_of_none hnone]
  exact atomAt_of_reads hr .add 4 gd gb

theorem Size.bytes_cases (sz : Size) : sz.bytes = 1 ∨ sz.bytes = 2 ∨ sz.bytes = 4 ∨ sz.bytes = 8 := by cases sz <;> decide

theorem State.byte_writeMem_of_sound {s : State} {pa n j : Nat} (v : Nat) (h : badGranule s.memBad pa n = none) (hj : j < n) :
    (s.writeMem pa (leBytes v n)).mem.byte (pa + j) = BitVec.ofNat 8 (v / 2 ^ (8 * j)) := by
  change (homeWrite s.memBad s.mem pa (leBytes v n)).byte _ = _
  rw [homeWrite_clean _ (by rwa [length_leBytes]), Memory.byte_setBytes, if_pos (by rw [length_leBytes]; omega),
    Nat.add_sub_cancel_left, leBytes_getD _ _ _ hj]

/-- An aligned write of a part of a poisoned granule does nothing (09 R219). -/
theorem State.byte_writeMem_of_poison {s : State} {pa : Nat} {l : List Byte} (h : pa / 32 * 32 ∈ s.memBad)
    (hl : 0 < l.length ∧ l.length < 32) (hp : pa % 32 + l.length ≤ 32) (a : Nat) : (s.writeMem pa l).mem.byte a = s.mem.byte a := by
  by_cases ha : a < pa ∨ pa + l.length ≤ a
  · exact byte_homeWrite_other _ _ _ ha
  have hbad : badGranule s.memBad pa l.length ≠ none := fun hn => by
    have := List.find?_eq_none.mp hn _ h
    simp only [Bool.and_eq_true, decide_eq_true_eq] at this
    omega
  change (homeWrite s.memBad s.mem pa l).byte a = _
  rw [homeWrite, if_neg hbad]
  refine byte_writeAround_kept _ _ _ ?_
  rw [show a / 32 = pa / 32 by omega]
  refine List.mem_filter.mpr ⟨h, ?_⟩
  simp only [Bool.not_eq_true', Bool.and_eq_false_iff, decide_eq_false_iff_not]
  omega

end Sys2Proof.Machine
end

section
open Sys2Proof Sys2Proof.Machine

/-- Settles O58: `st`, `aadd` and `stt` by what they store, and every access by the frame of its steps. -/
theorem storingInstructionsFrame : Obligations.StoringInstructionsFrame := by
  unfold Obligations.StoringInstructionsFrame
  intro s sz gd ga gb disp off n
  refine ⟨fun hn hoff hb ha hr hbad hnone hc => ?st, fun wide hn hoff hb ha hr hnone hc => ?aadd,
    fun desc d va pa s1 s2 hn hat hs hnone hc ht => ?stt, fun i remote wide u hi hnone hrun hx hu => ?atomic,
    fun sx ra u hra hnone hrun hu => ⟨fun hx => (doLdx_accesses (m := s.core.memdef) hnone hx).frame hu, fun hx => ?stx⟩⟩
  case st =>
    subst hn
    have hf : ScratchFrame [] s.curTile.val off sz.bytes s (s.writeScratch s.curTile.val off (leBytes (s.g gd).toNat sz.bytes)) :=
      ((OwnFrame.refl ..).scratchFrame rfl).writeScratch (length_leBytes ..)
    have how : OwnFrame [] false (s.writeScratch s.curTile.val off (leBytes (s.g gd).toNat sz.bytes)) _ := (OwnFrame.refl ..).skip 4
    obtain ⟨hpc, hg, hbyte, hmem, -, hctl, -⟩ := hf.skip
    refine ⟨_, ?_, hpc, fun r => hg r nofun, fun j hj => ?_, fun a h => hbyte _ a (.inr h), fun k hk => ?_, hmem, hctl⟩
    · rw [exec_st_admitted (hoff.trans (scratchOff_eq ..)) hc (scratchCheck_eq_none hb ha), State.beforeWrite_of_none hnone,
        storeScratch_of_sound 4 hr]
    · rw [State.me_skip, Tile.setCore_mem, State.me_writeScratch]
      exact TileMem.byte_writeScratch_of_sound _ hbad hj
    · exact (how.tileOther k hk).trans (State.tile_writeScratch_other _ _ _ hk)
  case aadd =>
    generalize hold : s.me.mem.scratch.readLE off n = old
    have hx := exec_aadd_of_sound (gd := gd) hn hoff hold.symm hc hnone (scratchCheck_eq_none hb ha) hr
    generalize hv : (old + (s.g gb).toNat % 2 ^ (8 * n)) % 2 ^ (8 * n) = v at hx
    have hbad := (Tile.readFails_eq_none_iff.mp ((readFails_noteRead s s.curTile.val off n s.curTile.val off n).trans hr)).2
    have hf := ScratchFrame.writeScratch (k := s.curTile.val) (off := off)
      (((OwnFrame.refl [gd] false s).scratchFrame rfl).noteRead s.curTile.val off n) (length_leBytes v n)
    generalize hu : (s.noteRead s.curTile.val off n).writeScratch s.curTile.val off (leBytes v n) = u at hx hf
    have how := wrote_ownFrame u gd (BitVec.ofNat 64 old)
    have hme : (Claims.wrote u gd (BitVec.ofNat 64 old) 4).me = (Claims.wrote u gd (BitVec.ofNat 64 old) 4).tile s.curTile.val := by
      rw [State.me, how.curTile, hf.curTile]
    obtain ⟨hpc, hg, hbyte, hmem, -, hctl, -⟩ := (hf.setG List.mem_cons_self (BitVec.ofNat 64 old)).skip
    refine ⟨_, hx, hpc, fun r hr => hg r (by simpa using hr), fun h0 => ?_, ?_, fun a h => ?_, fun k hk => ?_, hmem, hctl⟩
    · rw [State.g, wrote_core, Core.read_skip, Core.read_write_same]
      exact if_neg fun h => h0 (Fin.ext h)
    · rw [hme, wrote_tileMem, ← hu, State.writeScratch, State.tile_setTile_same]
      exact (TileMem.readLE_writeScratch _ hbad).trans (by rw [← hv, Nat.mod_mod, Nat.add_mod_mod])
    · rw [hme]
      exact hbyte _ a (.inr h)
    · rw [how.tileOther k (by rwa [hf.curTile]), ← hu, State.tile_writeScratch_other _ _ _ hk, tile_noteRead_other s off n hk]
  case stt =>
    subst hn
    rw [exec_stt_memory hat hc hs, nodeWrite_of_translated ht, Res.bind_ok, Res.run_ok]
    have hlen := length_leBytes (s1.g gd).toNat sz.bytes
    refine ⟨_, rfl, fun r => ?_, fun hb j hj => s2.byte_writeMem_of_sound _ hb hj, fun hb hp a => ?_, fun a h => ?_, fun k a => ?_⟩
    · rw [State.g, State.core_skip, State.core_writeMem]
      rfl
    · refine s2.byte_writeMem_of_poison hb ?_ ?_ a
      · rw [hlen]
        obtain h | h | h | h := Size.bytes_cases sz <;> omega
      · rw [hlen]
        obtain h | h | h | h := Size.bytes_cases sz <;> rw [h] at hp ⊢ <;> omega
    · exact byte_homeWrite_other _ _ _ (by rwa [hlen])
    · rw [State.skip, State.tileMem_setCore]
      rfl
  case atomic =>
    obtain ⟨op, gb, hex⟩ := exec_scratchAtom hi s
    rw [hex] at hx
    cases remote with
    | true => exact (doAtomRemote_accesses (m := s.core.memdef) hnone hx).frame hu
    | false => exact (doAtom_accesses (m := s.core.memdef) hnone hx).frame hu
  case stx =>
    rw [hra, ← scratchOff_eq]
    exact (doStx_accesses (m := s.core.memdef) hnone hx).frame hu

end
